-- ==== Sys2Proof/Word.lean ====
section
/-! DEFINITION. The words of the K9 (R4): a byte, a half, a word and a doubleword. -/

namespace Sys2Proof

/-- A byte is 8 bits (R4). -/
abbrev Byte := BitVec 8
/-- A half is 16 bits (R4). -/
abbrev Half := BitVec 16
/-- A word is 32 bits (R4): one lane of a vector register. -/
abbrev W32 := BitVec 32
/-- A doubleword is 64 bits (R4): a scalar register, an address. -/
abbrev W64 := BitVec 64

end Sys2Proof
end

