-- ==== Sys2Proof/Config.lean ====
section
/-! DEFINITION. What the manual fixes for the implementation, and the free values: opaque constants with no body, so
that no proof sees what they are (log 7). -/

namespace Sys2Proof.Config

/-- First slice-space address (R20). -/
def sliceBase : Nat := 0x010000000000
/-- Bytes of slice space (R20). -/
def sliceSize : Nat := 0x40000000
/-- Bytes of one core's slice (R11). -/
def coreSlice : Nat := 0x800000
/-- First group-window address (R20). -/
def windowBase : Nat := 0x000100000000
/-- First external-memory address (R20). -/
def extBase : Nat := 0x100000000000
/-- First address above external memory (R20). -/
def extTop : Nat := 0x1C0000000000
/-- Cores of the package (R12). -/
def cores : Nat := 128
/-- Clk of a bandwidth window (R398). -/
def portWindow : Nat := 1024
/-- Entries of a die's second-level TLB (R9). -/
def tlbEntries : Nat := 4096
/-- The model's units of time in a microsecond: 47 × lcm(10, …, 20), so that a clk at 940 MHz and at every step of 47 MHz down to 470 MHz
lasts a whole number of them (R2, R423). -/
def timePerUs : Nat := 47 * 232792560

/-- Free value number `n` (log 7): what the manual leaves open, one value for each use. -/
opaque freeValue : Nat → W64

/-- The word that scan-out gives at a scan address whose unit's layout is not in the manual (R435, log 34); the second argument
is the model's count of free values. -/
opaque scanWord : W64 → Nat → W64

/-- Whether a firmware image's signature and version pass the check of R419: the RSA arithmetic and the fused key are
not in the manual (log 8). -/
opaque firmwareOk : List Byte → Bool

/-- The security version that a firmware image carries (R419, log 8). -/
opaque firmwareVersion : List Byte → Nat

/-- The 512-byte RSASSA-PSS signature of a digest by the module's identity key (R420, log 8). -/
opaque quoteSignature : List Byte → BitVec 4096

/-- The module's identity certificate in DER (R420, log 8). -/
opaque identityCert : List Byte

end Sys2Proof.Config
end

