-- ==== Sys2Proof/Syntax.lean ====
section
/-! DEFINITION. The instructions of the Kwakor K9 (spec/04 and opcode_table.json): one constructor for each row.

The first 234 constructors are the instruction words of R86 to R95.  Their arguments are the fields of the word,
raw, under the names and widths of the table; which values a field may hold is WellFormed.lean's.
The other 91 are the events of the table, which no word encodes: steps of an engine, of a home or of the host.
An event's arguments name the operation, access, queue or context that it is about, by the model's own numbers. -/

namespace Sys2Proof

/-- One step of the part: an instruction word, or an event of the table of operations and events. -/
inductive Instr where
  /-- `NOP` (R130). Does nothing; the all-zero word. -/
  | nop 
  /-- `END` (R131). Ends the issuing sub-wave's quads once their loads, matrix operations and bound writes are done, and ends the wave or tasks. -/
  | endq 
  /-- `TRAP` (R132). Raises TRAP precisely with the immediate in kTRAPVAL and enters the handler. -/
  | trap (i : BitVec 16)
  /-- `ERET` (R134). Returns from the trap handler to kTRAPPC and resumes suspended sub-waves, or faults outside the handler. -/
  | eret 
  /-- `BKPT` (R133). Halts the wave for the debug interface when breakpoints are armed, otherwise does nothing. -/
  | bkpt (i : BitVec 16)
  /-- `GETK` (R135). Reads a special register into a scalar. -/
  | getk (s : BitVec 6) (k : BitVec 6)
  /-- `SETK` (R136). Writes a scalar to a special register by its access kind. -/
  | setk (s : BitVec 6) (k : BitVec 6)
  /-- `MODE` (R137). Writes a whole mode slot from a scalar after checking reserved values. -/
  | mode (m : BitVec 2) (a : BitVec 6)
  /-- `MODEA` (R137). Replaces the bits of a mode slot that a mask selects. -/
  | modea (m : BitVec 2) (a : BitVec 6) (b : BitVec 6)
  /-- `MODEM` (R137). Writes a mode slot and returns its old value. -/
  | modem (m : BitVec 2) (a : BitVec 6) (b : BitVec 6)
  /-- `XACQ` (R139). Grants the wave an extended register block or queues it FIFO for one. -/
  | xacq 
  /-- `XREL` (R139). Returns the wave's extended register block. -/
  | xrel 
  /-- `YIELD` (R140). Makes the wave not ready for one clk and zeroes its age. -/
  | yield 
  /-- `REJOIN` (R109). Parks the sub-wave until every live quad is parked at the same address. -/
  | rejoin 
  /-- `FENCE` (R141). Waits until earlier accesses of the named kinds in the scope's domain are performed. -/
  | fence (k : BitVec 4) (c : BitVec 4)
  /-- `WAITC` (R143). Waits until the outstanding counters are within their limits. -/
  | waitc (l : BitVec 4) (s : BitVec 4) (c : BitVec 4) (m : BitVec 4)
  /-- `TICK` (R144). Writes the global tick to a scalar. -/
  | tick (s : BitVec 6)
  /-- `JMP` (R145). Transfers the sub-wave to the address in a scalar. -/
  | jmp (s : BitVec 6)
  /-- `CALLR` (R145). Writes the return address to s63 and jumps to a scalar target. -/
  | callr (s : BitVec 6)
  /-- `BRA` (R148). Branches unconditionally. -/
  | bra (o : BitVec 19)
  /-- `BRZ` (R148). Branches when a scalar is zero. -/
  | brz (r : BitVec 6) (o : BitVec 19)
  /-- `BRNZ` (R148). Branches when a scalar is nonzero. -/
  | brnz (r : BitVec 6) (o : BitVec 19)
  /-- `BRANY` (R148). Branches each quad with some working lane's predicate bit set, dividing the sub-wave. -/
  | brany (r : BitVec 6) (o : BitVec 19)
  /-- `BRNONE` (R148). Branches each quad with no working lane's predicate bit set. -/
  | brnone (r : BitVec 6) (o : BitVec 19)
  /-- `BRALL` (R148). Branches each quad whose working lanes all have the predicate bit set. -/
  | brall (r : BitVec 6) (o : BitVec 19)
  /-- `CALL` (R148). Writes the return address to s63 and branches. -/
  | call (o : BitVec 19)
  /-- `SADD` (R151). Adds two scalars modulo 2^64. -/
  | sadd (d : BitVec 6) (a : BitVec 6) (b : BitVec 6)
  /-- `SSUB` (R151). Subtracts two scalars. -/
  | ssub (d : BitVec 6) (a : BitVec 6) (b : BitVec 6)
  /-- `SMUL` (R151). Low 64 bits of a scalar product. -/
  | smul (d : BitVec 6) (a : BitVec 6) (b : BitVec 6)
  /-- `SMULH` (R151). High 64 bits of a signed scalar product. -/
  | smulh (d : BitVec 6) (a : BitVec 6) (b : BitVec 6)
  /-- `SMULHN` (R151). High 64 bits of an unsigned scalar product. -/
  | smulhn (d : BitVec 6) (a : BitVec 6) (b : BitVec 6)
  /-- `SAND` (R151). Scalar bitwise and. -/
  | sand (d : BitVec 6) (a : BitVec 6) (b : BitVec 6)
  /-- `SOR` (R151). Scalar bitwise or. -/
  | sor (d : BitVec 6) (a : BitVec 6) (b : BitVec 6)
  /-- `SXOR` (R151). Scalar bitwise exclusive or. -/
  | sxor (d : BitVec 6) (a : BitVec 6) (b : BitVec 6)
  /-- `SANDN` (R151). Scalar and with complement. -/
  | sandn (d : BitVec 6) (a : BitVec 6) (b : BitVec 6)
  /-- `SSHL` (R151). Scalar left shift. -/
  | sshl (d : BitVec 6) (a : BitVec 6) (b : BitVec 6)
  /-- `SSHR` (R151). Scalar logical right shift. -/
  | sshr (d : BitVec 6) (a : BitVec 6) (b : BitVec 6)
  /-- `SSRA` (R151). Scalar arithmetic right shift. -/
  | ssra (d : BitVec 6) (a : BitVec 6) (b : BitVec 6)
  /-- `SMIN` (R151). Signed scalar minimum. -/
  | smin (d : BitVec 6) (a : BitVec 6) (b : BitVec 6)
  /-- `SMAX` (R151). Signed scalar maximum. -/
  | smax (d : BitVec 6) (a : BitVec 6) (b : BitVec 6)
  /-- `SMINN` (R151). Unsigned scalar minimum. -/
  | sminn (d : BitVec 6) (a : BitVec 6) (b : BitVec 6)
  /-- `SMAXN` (R151). Unsigned scalar maximum. -/
  | smaxn (d : BitVec 6) (a : BitVec 6) (b : BitVec 6)
  /-- `SSEQ` (R151). Sets 1 when two scalars are equal. -/
  | sseq (d : BitVec 6) (a : BitVec 6) (b : BitVec 6)
  /-- `SSNE` (R151). Sets 1 when two scalars differ. -/
  | ssne (d : BitVec 6) (a : BitVec 6) (b : BitVec 6)
  /-- `SSLT` (R151). Signed less-than compare. -/
  | sslt (d : BitVec 6) (a : BitVec 6) (b : BitVec 6)
  /-- `SSLE` (R151). Signed less-or-equal compare. -/
  | ssle (d : BitVec 6) (a : BitVec 6) (b : BitVec 6)
  /-- `SSLTN` (R151). Unsigned less-than compare. -/
  | ssltn (d : BitVec 6) (a : BitVec 6) (b : BitVec 6)
  /-- `SSLEN` (R151). Unsigned less-or-equal compare. -/
  | sslen (d : BitVec 6) (a : BitVec 6) (b : BitVec 6)
  /-- `SCLZ` (R151). Counts leading zero bits of a scalar. -/
  | sclz (d : BitVec 6) (a : BitVec 6)
  /-- `SPOPC` (R151). Counts set bits of a scalar. -/
  | spopc (d : BitVec 6) (a : BitVec 6)
  /-- `PAND` (R152). Predicate and. -/
  | pand (d : BitVec 6) (a : BitVec 6) (b : BitVec 6)
  /-- `POR` (R152). Predicate or. -/
  | por (d : BitVec 6) (a : BitVec 6) (b : BitVec 6)
  /-- `PXOR` (R152). Predicate exclusive or. -/
  | pxor (d : BitVec 6) (a : BitVec 6) (b : BitVec 6)
  /-- `PANDN` (R152). Predicate and with complement. -/
  | pandn (d : BitVec 6) (a : BitVec 6) (b : BitVec 6)
  /-- `PNOT` (R152). Predicate complement. -/
  | pnot (d : BitVec 6) (a : BitVec 6)
  /-- `PMOVS` (R152). Moves a scalar's low 32 bits to a predicate. -/
  | pmovs (d : BitVec 6) (a : BitVec 6)
  /-- `SMOVP` (R152). Moves a predicate to a scalar. -/
  | smovp (d : BitVec 6) (a : BitVec 6)
  /-- `PCNT` (R152). Counts set bits of two predicates anded. -/
  | pcnt (d : BitVec 6) (a : BitVec 6) (b : BitVec 6)
  /-- `PFIRST` (R152). Index of the lowest set bit of two predicates anded. -/
  | pfirst (d : BitVec 6) (a : BitVec 6) (b : BitVec 6)
  /-- `SADDI` (R154). Adds a sign-extended immediate to a scalar. -/
  | saddi (d : BitVec 6) (a : BitVec 6) (i : BitVec 12)
  /-- `SANDI` (R154). Ands a scalar with an immediate. -/
  | sandi (d : BitVec 6) (a : BitVec 6) (i : BitVec 12)
  /-- `SORI` (R154). Ors a scalar with an immediate. -/
  | sori (d : BitVec 6) (a : BitVec 6) (i : BitVec 12)
  /-- `SXORI` (R154). Exclusive-ors a scalar with an immediate. -/
  | sxori (d : BitVec 6) (a : BitVec 6) (i : BitVec 12)
  /-- `SSHLI` (R154). Left shift by an immediate count. -/
  | sshli (d : BitVec 6) (a : BitVec 6) (n : BitVec 6)
  /-- `SSHRI` (R154). Logical right shift by an immediate count. -/
  | sshri (d : BitVec 6) (a : BitVec 6) (n : BitVec 6)
  /-- `SSRAI` (R154). Arithmetic right shift by an immediate count. -/
  | ssrai (d : BitVec 6) (a : BitVec 6) (n : BitVec 6)
  /-- `SMOVI` (R154). Loads a sign-extended 16-bit immediate shifted to a position. -/
  | smovi (d : BitVec 6) (p : BitVec 2) (i : BitVec 16)
  /-- `SINSI` (R154). Inserts a 16-bit immediate at a position, keeping other bits. -/
  | sinsi (d : BitVec 6) (p : BitVec 2) (i : BitVec 16)
  /-- `SSEQI` (R154). Compares a scalar with an immediate for equality. -/
  | sseqi (d : BitVec 6) (a : BitVec 6) (i : BitVec 12)
  /-- `SSLTI` (R154). Signed less-than compare with an immediate. -/
  | sslti (d : BitVec 6) (a : BitVec 6) (i : BitVec 12)
  /-- `SSLTNI` (R154). Unsigned less-than compare with a zero-extended immediate. -/
  | ssltni (d : BitVec 6) (a : BitVec 6) (i : BitVec 12)
  /-- `VADD` (R162). Per-element integer add, fitted. -/
  | vadd (m : BitVec 2) (d : BitVec 7) (a : BitVec 7) (b : BitVec 7)
  /-- `VSUB` (R162). Per-element integer subtract. -/
  | vsub (m : BitVec 2) (d : BitVec 7) (a : BitVec 7) (b : BitVec 7)
  /-- `VMUL` (R162). Per-element integer multiply, fitted. -/
  | vmul (m : BitVec 2) (d : BitVec 7) (a : BitVec 7) (b : BitVec 7)
  /-- `VMULH` (R162). High half of a per-element product. -/
  | vmulh (m : BitVec 2) (d : BitVec 7) (a : BitVec 7) (b : BitVec 7)
  /-- `VMAD` (R162). Per-element multiply-add into d. -/
  | vmad (m : BitVec 2) (d : BitVec 7) (a : BitVec 7) (b : BitVec 7)
  /-- `VAND` (R163). Bitwise and of lane registers. -/
  | vand (m : BitVec 2) (d : BitVec 7) (a : BitVec 7) (b : BitVec 7)
  /-- `VOR` (R163). Bitwise or of lane registers. -/
  | vor (m : BitVec 2) (d : BitVec 7) (a : BitVec 7) (b : BitVec 7)
  /-- `VXOR` (R163). Bitwise exclusive or of lane registers. -/
  | vxor (m : BitVec 2) (d : BitVec 7) (a : BitVec 7) (b : BitVec 7)
  /-- `VANDN` (R163). Bitwise and with complement. -/
  | vandn (m : BitVec 2) (d : BitVec 7) (a : BitVec 7) (b : BitVec 7)
  /-- `VSHL` (R163). Per-element left shift. -/
  | vshl (m : BitVec 2) (d : BitVec 7) (a : BitVec 7) (b : BitVec 7)
  /-- `VSHR` (R163). Per-element logical right shift. -/
  | vshr (m : BitVec 2) (d : BitVec 7) (a : BitVec 7) (b : BitVec 7)
  /-- `VSRA` (R163). Per-element arithmetic right shift. -/
  | vsra (m : BitVec 2) (d : BitVec 7) (a : BitVec 7) (b : BitVec 7)
  /-- `VMIN` (R164). Per-element integer minimum. -/
  | vmin (m : BitVec 2) (d : BitVec 7) (a : BitVec 7) (b : BitVec 7)
  /-- `VMAX` (R164). Per-element integer maximum. -/
  | vmax (m : BitVec 2) (d : BitVec 7) (a : BitVec 7) (b : BitVec 7)
  /-- `VABS` (R164). Per-element absolute value. -/
  | vabs (m : BitVec 2) (d : BitVec 7) (a : BitVec 7)
  /-- `VCLZ` (R164). Per-element leading-zero count. -/
  | vclz (m : BitVec 2) (d : BitVec 7) (a : BitVec 7)
  /-- `VPOPC` (R164). Per-element population count. -/
  | vpopc (m : BitVec 2) (d : BitVec 7) (a : BitVec 7)
  /-- `VSEL` (R165). Selects a or b per lane by the guard. -/
  | vsel (m : BitVec 2) (d : BitVec 7) (a : BitVec 7) (b : BitVec 7)
  /-- `VCMPEQ` (R166). Sets a predicate bit where all elements are equal. -/
  | vcmpeq (m : BitVec 2) (d : BitVec 7) (a : BitVec 7) (b : BitVec 7)
  /-- `VCMPNE` (R166). Sets a predicate bit where some element differs. -/
  | vcmpne (m : BitVec 2) (d : BitVec 7) (a : BitVec 7) (b : BitVec 7)
  /-- `VCMPLT` (R166). Sets a predicate bit where all elements are less. -/
  | vcmplt (m : BitVec 2) (d : BitVec 7) (a : BitVec 7) (b : BitVec 7)
  /-- `VCMPLE` (R166). Sets a predicate bit where all elements are less or equal. -/
  | vcmple (m : BitVec 2) (d : BitVec 7) (a : BitVec 7) (b : BitVec 7)
  /-- `VADDS` (R162). Per-element saturating add. -/
  | vadds (m : BitVec 2) (d : BitVec 7) (a : BitVec 7) (b : BitVec 7)
  /-- `VSUBS` (R162). Per-element saturating subtract. -/
  | vsubs (m : BitVec 2) (d : BitVec 7) (a : BitVec 7) (b : BitVec 7)
  /-- `VDOT4` (R167). Four 8-bit integer products added into a 32-bit accumulator. -/
  | vdot4 (m : BitVec 2) (d : BitVec 7) (a : BitVec 7) (b : BitVec 7)
  /-- `VDOT8` (R167). Eight 4-bit integer products added into a 32-bit accumulator. -/
  | vdot8 (m : BitVec 2) (d : BitVec 7) (a : BitVec 7) (b : BitVec 7)
  /-- `VBFE` (R168). Extracts a bit field. -/
  | vbfe (m : BitVec 2) (d : BitVec 7) (a : BitVec 7) (b : BitVec 7)
  /-- `VBFI` (R168). Inserts a bit field into d. -/
  | vbfi (m : BitVec 2) (d : BitVec 7) (a : BitVec 7) (b : BitVec 7)
  /-- `VFADD` (R170). Floating-point add with one rounding. -/
  | vfadd (m : BitVec 2) (d : BitVec 7) (a : BitVec 7) (b : BitVec 7)
  /-- `VFSUB` (R170). Floating-point subtract. -/
  | vfsub (m : BitVec 2) (d : BitVec 7) (a : BitVec 7) (b : BitVec 7)
  /-- `VFMUL` (R170). Floating-point multiply. -/
  | vfmul (m : BitVec 2) (d : BitVec 7) (a : BitVec 7) (b : BitVec 7)
  /-- `VFMA` (R170). Fused multiply-add into d. -/
  | vfma (m : BitVec 2) (d : BitVec 7) (a : BitVec 7) (b : BitVec 7)
  /-- `VFMIN` (R171). Floating-point minimum. -/
  | vfmin (m : BitVec 2) (d : BitVec 7) (a : BitVec 7) (b : BitVec 7)
  /-- `VFMAX` (R171). Floating-point maximum. -/
  | vfmax (m : BitVec 2) (d : BitVec 7) (a : BitVec 7) (b : BitVec 7)
  /-- `VFNEG` (R172). Inverts the sign. -/
  | vfneg (m : BitVec 2) (d : BitVec 7) (a : BitVec 7)
  /-- `VFABS` (R172). Clears the sign. -/
  | vfabs (m : BitVec 2) (d : BitVec 7) (a : BitVec 7)
  /-- `VFCMPEQ` (R173). Floating-point equal compare into a predicate. -/
  | vfcmpeq (m : BitVec 2) (d : BitVec 7) (a : BitVec 7) (b : BitVec 7)
  /-- `VFCMPLT` (R173). Floating-point less-than compare. -/
  | vfcmplt (m : BitVec 2) (d : BitVec 7) (a : BitVec 7) (b : BitVec 7)
  /-- `VFCMPLE` (R173). Floating-point less-or-equal compare. -/
  | vfcmple (m : BitVec 2) (d : BitVec 7) (a : BitVec 7) (b : BitVec 7)
  /-- `VFCMPUN` (R173). Unordered compare. -/
  | vfcmpun (m : BitVec 2) (d : BitVec 7) (a : BitVec 7) (b : BitVec 7)
  /-- `VFRCP` (R174). Correctly rounded reciprocal. -/
  | vfrcp (m : BitVec 2) (d : BitVec 7) (a : BitVec 7)
  /-- `VFRSQ` (R174). Correctly rounded reciprocal square root. -/
  | vfrsq (m : BitVec 2) (d : BitVec 7) (a : BitVec 7)
  /-- `VFEXP2` (R174). Correctly rounded power of two. -/
  | vfexp2 (m : BitVec 2) (d : BitVec 7) (a : BitVec 7)
  /-- `VFLOG2` (R174). Correctly rounded base-2 logarithm. -/
  | vflog2 (m : BitVec 2) (d : BitVec 7) (a : BitVec 7)
  /-- `VFDOT4` (R175). Four 8-bit float products added exactly into an f32 accumulator. -/
  | vfdot4 (m : BitVec 2) (d : BitVec 7) (a : BitVec 7) (b : BitVec 7)
  /-- `VFDOT8` (R175). Eight E2M1 products added exactly into an f32 accumulator. -/
  | vfdot8 (m : BitVec 2) (d : BitVec 7) (a : BitVec 7) (b : BitVec 7)
  /-- `VFSCL` (R176). Scales each element by a power of two. -/
  | vfscl (m : BitVec 2) (d : BitVec 7) (a : BitVec 7) (b : BitVec 7)
  /-- `VFCVT` (R177). Converts elements from a source type to the slot's type. -/
  | vfcvt (m : BitVec 2) (d : BitVec 7) (a : BitVec 7) (t : BitVec 7)
  /-- `VFPK4` (R178). Packs four f32 registers into one 8-bit float register. -/
  | vfpk4 (m : BitVec 2) (d : BitVec 7) (a : BitVec 7)
  /-- `VFCLASS` (R179). Writes each element's class code. -/
  | vfclass (m : BitVec 2) (d : BitVec 7) (a : BitVec 7)
  /-- `VFRND` (R180). Rounds each element to an integral value. -/
  | vfrnd (m : BitVec 2) (d : BitVec 7) (a : BitVec 7)
  /-- `VMOV` (R183). Copies a vector register. -/
  | vmov (m : BitVec 2) (d : BitVec 7) (a : BitVec 7)
  /-- `VMOVS` (R183). Broadcasts a scalar's low 32 bits to lanes. -/
  | vmovs (m : BitVec 2) (d : BitVec 7) (a : BitVec 7)
  /-- `VRDLANE` (R183). Reads one lane's register into a scalar. -/
  | vrdlane (m : BitVec 2) (d : BitVec 7) (a : BitVec 7) (b : BitVec 7)
  /-- `VBCST` (R183). Broadcasts one lane's register to all lanes. -/
  | vbcst (m : BitVec 2) (d : BitVec 7) (a : BitVec 7) (b : BitVec 7)
  /-- `VSHFL` (R183). Reads each lane's value from a lane that a register indexes. -/
  | vshfl (m : BitVec 2) (d : BitVec 7) (a : BitVec 7) (b : BitVec 7)
  /-- `VQSWZ` (R184). Swizzles values within each quad by a pattern. -/
  | vqswz (m : BitVec 2) (d : BitVec 7) (a : BitVec 7) (p : BitVec 7)
  /-- `VQSUM` (R186). Sums values over each quad. -/
  | vqsum (m : BitVec 2) (d : BitVec 7) (a : BitVec 7)
  /-- `VPRFX` (R187). Inclusive or exclusive prefix over Active lanes. -/
  | vprfx (m : BitVec 2) (d : BitVec 7) (a : BitVec 7) (e : BitVec 1)
  /-- `VCMPCT` (R189). Packs Active lanes' values into the lowest lanes. -/
  | vcmpct (m : BitVec 2) (d : BitVec 7) (a : BitVec 7)
  /-- `VREDADD` (R188). Sums over Active lanes and gives every lane the result. -/
  | vredadd (m : BitVec 2) (d : BitVec 7) (a : BitVec 7)
  /-- `VREDMIN` (R188). Minimum over Active lanes. -/
  | vredmin (m : BitVec 2) (d : BitVec 7) (a : BitVec 7)
  /-- `VREDMAX` (R188). Maximum over Active lanes. -/
  | vredmax (m : BitVec 2) (d : BitVec 7) (a : BitVec 7)
  /-- `VLANEID` (R183). Writes each lane's index. -/
  | vlaneid (m : BitVec 2) (d : BitVec 7)
  /-- `VADDI` (R181). Adds a signed immediate per element. -/
  | vaddi (m : BitVec 2) (d : BitVec 7) (a : BitVec 7) (i : BitVec 9)
  /-- `VANDI` (R181). Ands with a sign-extended immediate. -/
  | vandi (m : BitVec 2) (d : BitVec 7) (a : BitVec 7) (i : BitVec 9)
  /-- `VORI` (R181). Ors with a sign-extended immediate. -/
  | vori (m : BitVec 2) (d : BitVec 7) (a : BitVec 7) (i : BitVec 9)
  /-- `VXORI` (R181). Exclusive-ors with a sign-extended immediate. -/
  | vxori (m : BitVec 2) (d : BitVec 7) (a : BitVec 7) (i : BitVec 9)
  /-- `VSHLI` (R181). Per-element left shift by an immediate. -/
  | vshli (m : BitVec 2) (d : BitVec 7) (a : BitVec 7) (n : BitVec 5)
  /-- `VSHRI` (R181). Per-element logical right shift by an immediate. -/
  | vshri (m : BitVec 2) (d : BitVec 7) (a : BitVec 7) (n : BitVec 5)
  /-- `VSRAI` (R181). Per-element arithmetic right shift by an immediate. -/
  | vsrai (m : BitVec 2) (d : BitVec 7) (a : BitVec 7) (n : BitVec 5)
  /-- `VMOVI` (R181). Fills each element with a sign-extended immediate. -/
  | vmovi (m : BitVec 2) (d : BitVec 7) (i : BitVec 9)
  /-- `VLD` (R192). Per-lane 4-byte load. -/
  | vld (m : BitVec 2) (d : BitVec 7) (b : BitVec 6) (x : BitVec 7) (c : BitVec 2)
  /-- `VLD8` (R192). Per-lane byte load, extended by type. -/
  | vld8 (m : BitVec 2) (d : BitVec 7) (b : BitVec 6) (x : BitVec 7) (c : BitVec 2)
  /-- `VLD16` (R192). Per-lane half load, extended by type. -/
  | vld16 (m : BitVec 2) (d : BitVec 7) (b : BitVec 6) (x : BitVec 7) (c : BitVec 2)
  /-- `VLD64` (R192). Per-lane 8-byte load into a register pair. -/
  | vld64 (m : BitVec 2) (d : BitVec 7) (b : BitVec 6) (x : BitVec 7) (c : BitVec 2)
  /-- `VLD128` (R192). Per-lane 16-byte load into four registers. -/
  | vld128 (m : BitVec 2) (d : BitVec 7) (b : BitVec 6) (x : BitVec 7) (c : BitVec 2)
  /-- `VST` (R192). Per-lane 4-byte store. -/
  | vst (m : BitVec 2) (d : BitVec 7) (b : BitVec 6) (x : BitVec 7) (c : BitVec 2)
  /-- `VST8` (R192). Per-lane byte store. -/
  | vst8 (m : BitVec 2) (d : BitVec 7) (b : BitVec 6) (x : BitVec 7) (c : BitVec 2)
  /-- `VST16` (R192). Per-lane half store. -/
  | vst16 (m : BitVec 2) (d : BitVec 7) (b : BitVec 6) (x : BitVec 7) (c : BitVec 2)
  /-- `VST64` (R192). Per-lane 8-byte store from a pair. -/
  | vst64 (m : BitVec 2) (d : BitVec 7) (b : BitVec 6) (x : BitVec 7) (c : BitVec 2)
  /-- `VST128` (R192). Per-lane 16-byte store from four registers. -/
  | vst128 (m : BitVec 2) (d : BitVec 7) (b : BitVec 6) (x : BitVec 7) (c : BitVec 2)
  /-- `VLDM` (R193). Traced per-lane load, recorded in a modifiable region of a live trace. -/
  | vldm (m : BitVec 2) (d : BitVec 7) (b : BitVec 6) (x : BitVec 7) (c : BitVec 2)
  /-- `VSTM` (R193). Traced per-lane store, recorded and marking stale readers. -/
  | vstm (m : BitVec 2) (d : BitVec 7) (b : BitVec 6) (x : BitVec 7) (c : BitVec 2)
  /-- `SLD` (R198). Scalar 8-byte load. -/
  | sld (d : BitVec 6) (b : BitVec 6) (m : BitVec 2) (o : BitVec 9)
  /-- `SLD32` (R198). Scalar 4-byte load, zero-extended. -/
  | sld32 (d : BitVec 6) (b : BitVec 6) (m : BitVec 2) (o : BitVec 9)
  /-- `SST` (R198). Scalar 8-byte store. -/
  | sst (d : BitVec 6) (b : BitVec 6) (m : BitVec 2) (o : BitVec 9)
  /-- `SST32` (R198). Scalar 4-byte store. -/
  | sst32 (d : BitVec 6) (b : BitVec 6) (m : BitVec 2) (o : BitVec 9)
  /-- `SLDM` (R198). Traced scalar load of two modifiable words. -/
  | sldm (d : BitVec 6) (b : BitVec 6) (m : BitVec 2) (o : BitVec 9)
  /-- `SSTM` (R198). Traced scalar store of two modifiable words. -/
  | sstm (d : BitVec 6) (b : BitVec 6) (m : BitVec 2) (o : BitVec 9)
  /-- `SCAS` (R199). Scalar 8-byte compare-and-swap at the home. -/
  | scas (d : BitVec 6) (b : BitVec 6) (m : BitVec 2) (o : BitVec 9)
  /-- `SAMO` (R199). Scalar 8-byte atomic operation at the home. -/
  | samo (d : BitVec 6) (b : BitVec 6) (m : BitVec 2) (o : BitVec 9)
  /-- `BINIT` (R204). Initialises a barrier object at its home. -/
  | binit (d : BitVec 6) (b : BitVec 6) (m : BitVec 2) (o : BitVec 9)
  /-- `BARV` (R205). Arrives at a barrier object as a release and returns the phase. -/
  | barv (d : BitVec 6) (b : BitVec 6) (m : BitVec 2) (o : BitVec 9)
  /-- `BARB` (R205). Arrives at a barrier object and waits for that phase. -/
  | barb (d : BitVec 6) (b : BitVec 6) (m : BitVec 2) (o : BitVec 9)
  /-- `WAITP` (R207). Waits for completion of a barrier phase as an acquire. -/
  | waitp (d : BitVec 6) (b : BitVec 6) (m : BitVec 2) (o : BitVec 9)
  /-- `BPHASE` (R208). Reads the object's phase and the elected role. -/
  | bphase (d : BitVec 6) (b : BitVec 6) (m : BitVec 2) (o : BitVec 9)
  /-- `BIND` (R210). Binds a region to a barrier object or lock word. -/
  | bind (d : BitVec 6) (b : BitVec 6) (m : BitVec 2) (o : BitVec 9)
  /-- `UNBIND` (R211). Removes a binding once its pending writes are performed. -/
  | unbind (d : BitVec 6) (b : BitVec 6) (m : BitVec 2) (o : BitVec 9)
  /-- `RGACQ` (R213). Tries once to take a lock word. -/
  | rgacq (d : BitVec 6) (b : BitVec 6) (m : BitVec 2) (o : BitVec 9)
  /-- `RGREL` (R214). Releases a held lock word. -/
  | rgrel (b : BitVec 6) (m : BitVec 2) (o : BitVec 9)
  /-- `TKWAIT` (R216). Waits until a ticket word holds the group's ticket. -/
  | tkwait (b : BitVec 6) (m : BitVec 2) (o : BitVec 9)
  /-- `TKPASS` (R217). Passes the ticket to the next group. -/
  | tkpass (b : BitVec 6) (m : BitVec 2) (o : BitVec 9)
  /-- `VAADD` (R201). Returning 32-bit atomic add. -/
  | vaadd (m : BitVec 2) (d : BitVec 7) (a : BitVec 7) (b : BitVec 7)
  /-- `VAMIN` (R201). Returning atomic minimum. -/
  | vamin (m : BitVec 2) (d : BitVec 7) (a : BitVec 7) (b : BitVec 7)
  /-- `VAMAX` (R201). Returning atomic maximum. -/
  | vamax (m : BitVec 2) (d : BitVec 7) (a : BitVec 7) (b : BitVec 7)
  /-- `VAAND` (R201). Returning atomic and. -/
  | vaand (m : BitVec 2) (d : BitVec 7) (a : BitVec 7) (b : BitVec 7)
  /-- `VAOR` (R201). Returning atomic or. -/
  | vaor (m : BitVec 2) (d : BitVec 7) (a : BitVec 7) (b : BitVec 7)
  /-- `VAXOR` (R201). Returning atomic exclusive or. -/
  | vaxor (m : BitVec 2) (d : BitVec 7) (a : BitVec 7) (b : BitVec 7)
  /-- `VAXCH` (R201). Returning atomic exchange. -/
  | vaxch (m : BitVec 2) (d : BitVec 7) (a : BitVec 7) (b : BitVec 7)
  /-- `VACAS` (R201). Returning atomic compare-and-swap. -/
  | vacas (m : BitVec 2) (d : BitVec 7) (a : BitVec 7) (b : BitVec 7)
  /-- `VAFADD` (R201). Returning floating-point atomic add, rounded at the home. -/
  | vafadd (m : BitVec 2) (d : BitVec 7) (a : BitVec 7) (b : BitVec 7)
  /-- `VRADD` (R260). Non-returning integer add reduction. -/
  | vradd (m : BitVec 2) (a : BitVec 7) (b : BitVec 7)
  /-- `VRFADD` (R260). Non-returning floating-point add reduction. -/
  | vrfadd (m : BitVec 2) (a : BitVec 7) (b : BitVec 7)
  /-- `VRMIN` (R260). Non-returning minimum reduction. -/
  | vrmin (m : BitVec 2) (a : BitVec 7) (b : BitVec 7)
  /-- `VRMAX` (R260). Non-returning maximum reduction. -/
  | vrmax (m : BitVec 2) (a : BitVec 7) (b : BitVec 7)
  /-- `VRX96` (R260). Non-returning exact-sum reduction into a 16-byte cell. -/
  | vrx96 (m : BitVec 2) (a : BitVec 7) (b : BitVec 7)
  /-- `ACCZ` (R286). Grants and clears an accumulator tile with an anchor, or releases it. -/
  | accz (t : BitVec 3) (m : BitVec 2) (a : BitVec 6) (r : BitVec 1)
  /-- `ACCZA` (R286). Grants and clears an accumulator tile with the anchor left unset. -/
  | accza (t : BitVec 3) (m : BitVec 2)
  /-- `OBRES` (R281). Reserves operand-buffer space for a handle. -/
  | obres (h : BitVec 4) (m : BitVec 2) (d : BitVec 6)
  /-- `OBREL` (R281). Returns a handle's operand-buffer range. -/
  | obrel (h : BitVec 4) (m : BitVec 2)
  /-- `OBLD` (R282). Fills a reservation from memory, optionally multicast to cluster waves. -/
  | obld (h : BitVec 4) (c : BitVec 4) (m : BitVec 2) (s : BitVec 6) (x : BitVec 1)
  /-- `OBWIN` (R284). Makes a handle a window onto a panel in a cluster slice. -/
  | obwin (h : BitVec 4) (m : BitVec 2) (s : BitVec 6)
  /-- `MMA` (R288). Adds one exact scaled-tile product step into an accumulator tile, optionally jointly. -/
  | mma (t : BitVec 3) (a : BitVec 4) (b : BitVec 4) (m : BitVec 2) (j : BitVec 3) (g : BitVec 4) (o : BitVec 1) (v : BitVec 1) (u : BitVec 1)
  /-- `MMAC` (R290). Adds one complex product step into an accumulator tile. -/
  | mmac (t : BitVec 3) (a : BitVec 4) (b : BitVec 4) (m : BitVec 2) (j : BitVec 3) (h : BitVec 1) (v : BitVec 1) (u : BitVec 1)
  /-- `JSET` (R291). Writes the joint-set member mask. -/
  | jset (m : BitVec 2) (s : BitVec 6)
  /-- `ACCRD` (R297). Reads out a part of an accumulator tile into lanes. -/
  | accrd (t : BitVec 3) (d : BitVec 7) (m : BitVec 2) (p : BitVec 3)
  /-- `ACCWR` (R298). Writes lane values into accumulator cells. -/
  | accwr (t : BitVec 3) (a : BitVec 7) (m : BitVec 2) (p : BitVec 3)
  /-- `ACCST` (R300). Quantises an accumulator tile into a scaled block in memory. -/
  | accst (t : BitVec 3) (c : BitVec 1) (g : BitVec 2) (h : BitVec 4) (m : BitVec 2) (s : BitVec 6) (x : BitVec 1)
  /-- `ACCADD` (R299). Adds one accumulator tile into another. -/
  | accadd (t : BitVec 3) (u : BitVec 3) (m : BitVec 2)
  /-- `SEALM` (R294). Seals the wave's unsealed matrix operations into a batch. -/
  | sealm (m : BitVec 2) (d : BitVec 6)
  /-- `CPT` (R247). Queues a tensor box copy, load or store, optionally quantising. -/
  | cpt (a : BitVec 6) (b : BitVec 6) (c : BitVec 6) (m : BitVec 2) (x : BitVec 1) (q : BitVec 2)
  /-- `CPTT` (R247). Queues a transposing tile copy. -/
  | cptt (a : BitVec 6) (b : BitVec 6) (c : BitVec 6) (m : BitVec 2) (x : BitVec 1) (q : BitVec 2)
  /-- `CPL` (R247). Queues a linear copy, possibly to or from another module. -/
  | cpl (a : BitVec 6) (b : BitVec 6) (c : BitVec 6) (m : BitVec 2) (q : BitVec 2)
  /-- `CPG` (R247). Queues a row gather. -/
  | cpg (a : BitVec 6) (b : BitVec 6) (c : BitVec 6) (m : BitVec 2) (q : BitVec 2)
  /-- `CPS` (R247). Queues a row scatter, optionally atomic add. -/
  | cps (a : BitVec 6) (b : BitVec 6) (c : BitVec 6) (m : BitVec 2) (x : BitVec 1) (q : BitVec 2)
  /-- `WSIG` (R250). Queues a payload write followed by a signal-word update. -/
  | wsig (a : BitVec 6) (b : BitVec 6) (c : BitVec 6) (m : BitVec 2) (x : BitVec 1) (q : BitVec 2)
  /-- `LRFL` (R251). Flushes a layout record from every die's cache. -/
  | lrfl (a : BitVec 6) (m : BitVec 2)
  /-- `LRINS` (R252). Checks and pins a layout record on every die. -/
  | lrins (a : BitVec 6) (m : BitVec 2)
  /-- `SEALC` (R253). Seals the wave's unsealed copies into a batch. -/
  | sealc (a : BitVec 6) (m : BitVec 2)
  /-- `QFENCE` (R254). Places a fence in the named Slip queues. -/
  | qfence (k : BitVec 4) (m : BitVec 2)
  /-- `HGRD` (R249). Queues a copy-and-clear of an exponent histogram. -/
  | hgrd (a : BitVec 6) (b : BitVec 6) (c : BitVec 6) (m : BitVec 2) (q : BitVec 2)
  /-- `SPAWN` (R312). Creates one ready task per Active lane. -/
  | spawn (a : BitVec 6) (b : BitVec 6) (m : BitVec 2) (p : BitVec 2)
  /-- `SPAWND` (R312). Creates one task per Active lane registered on a dependency counter. -/
  | spawnd (a : BitVec 6) (b : BitVec 6) (m : BitVec 2) (p : BitVec 2)
  /-- `DCINIT` (R316). Sets dependency counter records per lane. -/
  | dcinit (a : BitVec 6) (m : BitVec 2)
  /-- `DCDEC` (R319). Decrements dependency counters per lane and waits for results. -/
  | dcdec (a : BitVec 6) (m : BitVec 2)
  /-- `WLPUSH` (R326). Sends items to work lists through the compaction unit. -/
  | wlpush (a : BitVec 6) (b : BitVec 6) (m : BitVec 2)
  /-- `WLPULL` (R328). Pulls items from a work list into Active lanes. -/
  | wlpull (a : BitVec 6) (b : BitVec 6) (c : BitVec 6) (m : BitVec 2)
  /-- `QUIESCE` (R330). Waits for the context's termination report. -/
  | quiesce (a : BitVec 6) (m : BitVec 2)
  /-- `GLAUNCH` (R331). Launches a grid from a launch packet in slice space. -/
  | glaunch (a : BitVec 6) (b : BitVec 6) (m : BitVec 2)
  /-- `TRREC` (R361). Opens a trace in external memory and starts recording. -/
  | trrec (a : BitVec 6) (b : BitVec 6) (m : BitVec 2)
  /-- `TRSTOP` (R363). Closes recording, making the trace live or invalid. -/
  | trstop (a : BitVec 6) (m : BitVec 2)
  /-- `PROPAGATE` (R364). Starts a propagation walk and returns a status. -/
  | propagate (a : BitVec 6) (b : BitVec 6) (m : BitVec 2)
  /-- `MDECL` (R362). Declares a modifiable region with a shadow array. -/
  | mdecl (a : BitVec 6) (b : BitVec 6) (m : BitVec 2)
  /-- `TRDROP` (R365). Ends the trace and removes its regions. -/
  | trdrop (m : BitVec 2)
  /-- `TRSTAT` (R366). Reads trace state and optionally copies the header. -/
  | trstat (a : BitVec 6) (b : BitVec 6) (m : BitVec 2)
  /-- `SVGRID` (R386). Checks a grid descriptor and resets its status. -/
  | svgrid (a : BitVec 6) (b : BitVec 6) (m : BitVec 2)
  /-- `SVBIN` (R378). Queues a rebuild of every bin. -/
  | svbin (a : BitVec 6) (b : BitVec 6) (m : BitVec 2)
  /-- `SVPAIR` (R386). Queues a half or full pair stream into a ring. -/
  | svpair (a : BitVec 6) (b : BitVec 6) (c : BitVec 6) (m : BitVec 2) (f : BitVec 1)
  /-- `SVPULL` (R387). Takes pair records from a ring into Active lanes. -/
  | svpull (a : BitVec 6) (b : BitVec 6) (c : BitVec 6) (m : BitVec 2)
  /-- `SVSTAT` (R386). Reads a descriptor's status block in queue order. -/
  | svstat (a : BitVec 6) (b : BitVec 6) (m : BitVec 2)
  /-- `SVCHECK` (R389). Queues a skin check of particle moves. -/
  | svcheck (a : BitVec 6) (b : BitVec 6) (m : BitVec 2)
  /-- `SVCLR` (R388). Stops a stream and clears a pair ring. -/
  | svclr (a : BitVec 6) (m : BitVec 2)
  /-- `QUEUE_ACCEPT` (R17). A full engine queue gains room and accepts a stalled request. -/
  | queueAccept (wave : Nat)
  /-- `LOAD_DATA_RETURN` (R194). A load's data or sector returns and clears its scoreboard bits. -/
  | loadDataReturn (acc : Nat) (unit : Nat) (back : Nat)
  /-- `WRITE_PERFORMED` (R142). A store or reduction is performed at its home and leaves the st counter. -/
  | writePerformed (acc : Nat) (unit : Nat)
  /-- `ATOMIC_AT_HOME` (R201). A returning atomic is applied at its home and the old value returns. -/
  | atomicAtHome (acc : Nat) (unit : Nat)
  /-- `COMBINER_HOLD_TIMEOUT` (R259). A combiner entry held 16 clk is sent as a packet. -/
  | combinerHoldTimeout (entry : Nat)
  /-- `COMBINER_PACKET_APPLY` (R259). The slice ALU applies a reduction packet as one atomic update and sets home flags. -/
  | combinerPacketApply (packet : Nat)
  /-- `BARRIER_ARRIVAL_APPLY` (R19). The home applies an arrival to a barrier object and offers a candidate. -/
  | barrierArrivalApply (acc : Nat)
  /-- `LANDED_BYTES_APPLY` (R78). The home counts performed engine bytes into a barrier object. -/
  | landedBytesApply (landing : Nat)
  /-- `WAITP_CHECK` (R112). The home checks a wait against the phase and returns or registers it. -/
  | waitpCheck (acc : Nat)
  /-- `CONTINUATION_ENQUEUE` (R117). A completed continuation frame is enqueued as a new task. -/
  | continuationEnqueue (frame : Nat)
  /-- `EXTENDED_BLOCK_GRANT` (R118). A returned extended block is granted to the oldest waiting xacq. -/
  | extendedBlockGrant (quad : Nat)
  /-- `OPERAND_BUFFER_GRANT` (R281). Freed granules are granted to the oldest waiting obres. -/
  | operandBufferGrant (quad : Nat)
  /-- `ACCUMULATOR_TILE_GRANT` (R286). A freed accumulator tile is granted to the oldest waiting accz or accza. -/
  | accumulatorTileGrant (quad : Nat)
  /-- `DRAIN_PASS` (R267). When the drain ticket reaches a group its buffer drains in fixed order. -/
  | drainPass (group : Nat)
  /-- `GROUP_EXIT_PASS` (R269). An ended group in determinism mode is drained and passed in its turn. -/
  | groupExitPass (group : Nat)
  /-- `TICKET_HANDOVER` (R270). The drain ticket passes to group 0 of the next grid. -/
  | ticketHandover (ctx : Nat)
  /-- `VF_RESET` (R274). A virtual-function reset stops queues, combiners and buffers and logs scatters. -/
  | vfReset (vf : Nat)
  /-- `COPY_BEGIN` (R240). A Slip operation begins in its engine and reads record, descriptor and list. -/
  | copyBegin (op : Nat)
  /-- `COPY_SECTOR_PERFORM` (R246). A copy sector is performed at its home and counted into the object. -/
  | copySectorPerform (op : Nat) (sector : Nat)
  /-- `MATRIX_OP_PERFORM` (R278). An issued matrix operation is performed on its tile. -/
  | matrixOpPerform (op : Nat)
  /-- `OPERAND_FILL_LAND` (R283). obld bytes land in a reservation and are counted. -/
  | operandFillLand (op : Nat) (target : Nat)
  /-- `TASK_REGISTRATION` (R317). A spawnd registration is applied at the counter's home. -/
  | taskRegistration (msg : Nat)
  /-- `COUNTER_DECREMENT` (R318). A decrement is applied at the counter's home and may release held tasks. -/
  | counterDecrement (msg : Nat)
  /-- `TASK_DISPATCH` (R323). Each clk the dispatcher moves up to 4 tasks into bins or the spill ring. -/
  | taskDispatch (ctx : Nat) (core : Nat)
  /-- `BIN_TIMER_EXPIRY` (R324). A bin's timer expires and the bin becomes ready to launch. -/
  | binTimerExpiry (bin : Nat)
  /-- `TASK_WAVE_LAUNCH` (R324). A ready bin launches a task wave into a free slot. -/
  | taskWaveLaunch (bin : Nat) (quad : Nat)
  /-- `COMPACTION_TIMEOUT` (R327). A compaction packet is sent 32 clk after its first item. -/
  | compactionTimeout (packet : Nat)
  /-- `WORK_LIST_PACKET_WRITE` (R327). A packet is written into the list ring and tail advances. -/
  | workListPacketWrite (packet : Nat)
  /-- `TERMINATION_REPORT` (R329). The termination detector reports the context quiescent. -/
  | terminationReport (ctx : Nat)
  /-- `GROUP_START` (R124). A group starts on its logical core when room frees. -/
  | groupStart (grid : Nat)
  /-- `LAUNCH_PACKET_START` (R412). The launch controller reads and starts the head packet. -/
  | launchPacketStart (ctx : Nat)
  /-- `TRACED_ACCESS_STEP` (R343). A traced access or input write is applied with its shadow update at the word's home. -/
  | tracedAccessStep (acc : Nat) (unit : Nat)
  /-- `RERUN_LAUNCH` (R354). A stale task is cleaned and re-executed alone in lane 0. -/
  | rerunLaunch (ctx : Nat)
  /-- `RERUN_END` (R356). A re-executed task ends; unmatched children are discarded and words reverted. -/
  | rerunEnd (ctx : Nat)
  /-- `SIEVE_OP_BEGIN` (R374). A Sieve operation begins and checks its descriptor. -/
  | sieveOpBegin (op : Nat)
  /-- `PAIR_RECORD_WRITE` (R382). A pair record is written and tail advances once the ring has room. -/
  | pairRecordWrite (op : Nat)
  /-- `SIEVE_OP_COMPLETE` (R385). A Sieve operation writes its status block and counts 32 bytes. -/
  | sieveOpComplete (op : Nat)
  /-- `GRACE_TIMER_EXPIRY` (R232). The grace timer expires and the instruction-level halt begins. -/
  | graceTimerExpiry (ctx : Nat)
  /-- `KILL_TIMER_EXPIRY` (R232). The kill timer expires and the context is killed. -/
  | killTimerExpiry (ctx : Nat)
  /-- `WINDOW_REFILL` (R400). At each 1,024-clk window each port refills its tenants' buckets. -/
  | windowRefill (core : Nat)
  /-- `PORT_GRANT` (R401). Each clk a port grants up to 8 tokens to waiting transfers. -/
  | portGrant (core : Nat)
  /-- `MIGRATION_FORWARD` (R405). A write or arrival reaching the old window range is forwarded to the new core. -/
  | migrationForward (msg : Nat)
  /-- `CTXCREATE` (R411). Creates a context from a context record in a slot. -/
  | ctxcreate (vf : Nat) (slot : W64) (record : W64)
  /-- `CTXDESTROY` (R410). Destroys an idle context. -/
  | ctxdestroy (vf : Nat) (slot : W64)
  /-- `PREEMPT` (R402). Starts step 1 of pre-emption of a context. -/
  | preempt (vf : Nat) (slot : W64)
  /-- `KILL` (R402). Starts step 3 at once. -/
  | kill (vf : Nat) (slot : W64)
  /-- `RESUME` (R234). Resumes a saved context on the partition. -/
  | resume (vf : Nat) (slot : W64) (save : W64) (len : W64)
  /-- `INVALIDATE` (R231). Drops a context's translations over a range. -/
  | invalidate (vf : Nat) (slot : W64) (base : W64) (len : W64)
  /-- `QRESUME` (R255). Resumes an engine queue stopped on a fault. -/
  | qresume (vf : Nat) (slot : W64) (engine : W64) (die : W64) (queue : W64)
  /-- `CLEARMARK` (R256). Clears a barrier object's faulted mark. -/
  | clearmark (vf : Nat) (slot : W64) (obj : W64)
  /-- `MIGRATE` (R404). Moves one group to another core of the partition. -/
  | migrate (vf : Nat) (slot : W64) (group : W64) (core : W64)
  /-- `ATTEST` (R420). Writes a signed attestation quote and certificate. -/
  | attest (fn : Nat) (nonce : W64) (out : W64)
  /-- `FABFENCE` (R416). Makes later operations use the rewritten job table. -/
  | fabfence (vf : Nat) (slot : W64)
  /-- `PARTCREATE` (R395). Creates a partition from the PF's partition record. -/
  | partcreate 
  /-- `PARTDESTROY` (R410). Destroys a partition that holds no context. -/
  | partdestroy (vf : W64)
  /-- `FWSTAGE` (R419). Writes and checks a firmware image in the second flash slot. -/
  | fwstage (addr : W64) (len : W64)
  /-- `POWERCAP` (R423). Sets the module power cap. -/
  | powercap (watts : W64)
  /-- `LINKWORLD` (R418). Sets a long-reach link's world. -/
  | linkworld (link : W64) (world : W64)
  /-- `LTAIL` (R412). A write to a launch-queue tail rings the doorbell for new packets. -/
  | ltail (vf : Nat) (slot : Nat) (tail : W64)
  /-- `ICAUSE` (R409). A write clears interrupt-cause bits where ones are written. -/
  | icause (fn : Nat) (val : W64)
  /-- `BRELEASE` (R428). A write releases a halted wave or all halted waves. -/
  | brelease (fn : Nat) (val : W64)
  /-- `BREAKPOINT_ARM` (R428). dctl bit 0 arms or disarms breakpoints. -/
  | breakpointArm (fn : Nat) (on : Bool)
  /-- `SAMPLING_ENABLE` (R429). dctl bit 1 starts or stops stall sampling. -/
  | samplingEnable (fn : Nat) (on : Bool)
  /-- `SESSION_OPEN` (R431). Setting dctl bit 2 opens a profiling session. -/
  | sessionOpen (fn : Nat)
  /-- `SESSION_CLOSE` (R431). Clearing dctl bit 2 closes the session and writes counts back. -/
  | sessionClose (fn : Nat)
  /-- `FREEZE_ARM` (R434). Setting dctl bit 3 in the PF arms the freeze at freezetick. -/
  | freezeArm 
  /-- `REGISTER_WRITE` (R409). A host write to a BAR0 register with no behaviour of its own, range-checked. -/
  | registerWrite (fn : Nat) (off : Nat) (val : W64)
  /-- `HOST_BAR2_WRITE` (R408). A host write through BAR2 is performed at its home or refused. -/
  | hostBar2Write (fn : Nat) (off : Nat) (len : Nat) (val : W64)
  /-- `HOST_BAR2_READ` (R408). A host read through BAR2 waits for earlier writes or is refused. -/
  | hostBar2Read (fn : Nat) (off : Nat) (len : Nat)
  /-- `HOST_APERTURE_WRITE` (R454). A host write through BAR4 is translated and performed or refused. -/
  | hostApertureWrite (fn : Nat) (off : Nat) (len : Nat) (val : W64)
  /-- `HOST_APERTURE_READ` (R454). A host read through BAR4 is translated and performed or refused. -/
  | hostApertureRead (fn : Nat) (off : Nat) (len : Nat)
  /-- `STALL_SAMPLE` (R429). Every sint clk a quadrant samples a wave and writes a stall record. -/
  | stallSample (fn : Nat) (quad : Nat)
  /-- `SESSION_WRITEBACK` (R431). Every 2^20 clk the session counts are written back. -/
  | sessionWriteback (fn : Nat)
  /-- `FREEZE` (R434). At freezetick every clock stops and the module freezes. -/
  | freeze 
  /-- `POWER_GOOD` (R421). After power good the module runs its bring-up sequence. -/
  | powerGood 
  /-- `MODULE_RESET` (R422). A reset or power loss returns every field to its reset value. -/
  | moduleReset 
  /-- `THERMAL_THROTTLE` (R423). Reaching 100 °C or the cap lowers the arithmetic clock. -/
  | thermalThrottle (mhz : Nat)
  /-- `THERMAL_TRIP` (R423). Reaching 110 °C raises PF vector 2 and starts the power-off timer. -/
  | thermalTrip 
  /-- `TRIP_POWER_OFF` (R423). 10 ms after a trip the module powers off. -/
  | tripPowerOff 
  /-- `FLIT_CRC_FAILURE` (R414). A flit failing its CRC is resent from the replay buffer. -/
  | flitCrcFailure (link : Nat) (seq : Nat)
  /-- `LINK_ACK_TIMEOUT` (R416). A link with no acknowledgement for 1 ms goes down and retrains. -/
  | linkAckTimeout (link : Nat)
  /-- `RETRAIN_FAILURE` (R416). Retraining fails after 100 ms and the affected modules become unreachable. -/
  | retrainFailure (link : Nat)
  /-- `PATROL_SCRUB` (R424). Patrol scrubbing reads and corrects slice words. -/
  | patrolScrub (addr : Nat)
  /-- `ILLEGAL_INSTRUCTION` (R97). A fetched word that names no instruction raises ILLEGAL_INSTRUCTION precisely and changes nothing. -/
  | illegalInstruction (word : W32)
  /-- `CODE_FETCH_FAULT` (R98). A fetch of a code word whose page fails its walk, or a sequential fetch past the segment, raises CODE_FAULT at the fetching wave. -/
  | codeFetchFault (addr : W64)
  /-- `STRATA_REQUEST_PERFORM` (R360). A queued Strata request is performed after its release, its effect applied and its status or completion returned. -/
  | strataRequestPerform (req : Nat)
  /-- `RECORD_CACHE_COMPLETE` (R251). Every die has dropped or pinned the layout record, and the waiting lrfl or lrins completes. -/
  | recordCacheComplete (req : Nat)
  /-- `BINDING_INSTALLED` (R210). Every core of the context holds the new binding, and the waiting bind completes. -/
  | bindingInstalled (acc : Nat)
  /-- `LINK_RETRAINED` (R416). A long-reach link that went down retrains within 100 ms and its waiting traffic resumes. -/
  | linkRetrained (link : Nat)
  /-- `CONTEXT_SAVE_COMPLETE` (R402). The step 2 drain and save of a pre-empted context finish, and the K9 writes the saved status and raises the interrupt. -/
  | contextSaveComplete (ctx : Nat)
  /-- `MIGRATION_MOVE_COMPLETE` (R404). The spill engine finishes moving a migrating group's allocation, the new core maps the window and the group's waves resume there. -/
  | migrationMoveComplete (msg : Nat)
  deriving DecidableEq, Repr

/-- The rows that have an encoding: the first 234 constructors. -/
def Instr.isWord : Instr → Bool
  | .queueAccept .. => false
  | .loadDataReturn .. => false
  | .writePerformed .. => false
  | .atomicAtHome .. => false
  | .combinerHoldTimeout .. => false
  | .combinerPacketApply .. => false
  | .barrierArrivalApply .. => false
  | .landedBytesApply .. => false
  | .waitpCheck .. => false
  | .continuationEnqueue .. => false
  | .extendedBlockGrant .. => false
  | .operandBufferGrant .. => false
  | .accumulatorTileGrant .. => false
  | .drainPass .. => false
  | .groupExitPass .. => false
  | .ticketHandover .. => false
  | .vfReset .. => false
  | .copyBegin .. => false
  | .copySectorPerform .. => false
  | .matrixOpPerform .. => false
  | .operandFillLand .. => false
  | .taskRegistration .. => false
  | .counterDecrement .. => false
  | .taskDispatch .. => false
  | .binTimerExpiry .. => false
  | .taskWaveLaunch .. => false
  | .compactionTimeout .. => false
  | .workListPacketWrite .. => false
  | .terminationReport .. => false
  | .groupStart .. => false
  | .launchPacketStart .. => false
  | .tracedAccessStep .. => false
  | .rerunLaunch .. => false
  | .rerunEnd .. => false
  | .sieveOpBegin .. => false
  | .pairRecordWrite .. => false
  | .sieveOpComplete .. => false
  | .graceTimerExpiry .. => false
  | .killTimerExpiry .. => false
  | .windowRefill .. => false
  | .portGrant .. => false
  | .migrationForward .. => false
  | .ctxcreate .. => false
  | .ctxdestroy .. => false
  | .preempt .. => false
  | .kill .. => false
  | .resume .. => false
  | .invalidate .. => false
  | .qresume .. => false
  | .clearmark .. => false
  | .migrate .. => false
  | .attest .. => false
  | .fabfence .. => false
  | .partcreate => false
  | .partdestroy .. => false
  | .fwstage .. => false
  | .powercap .. => false
  | .linkworld .. => false
  | .ltail .. => false
  | .icause .. => false
  | .brelease .. => false
  | .breakpointArm .. => false
  | .samplingEnable .. => false
  | .sessionOpen .. => false
  | .sessionClose .. => false
  | .freezeArm => false
  | .registerWrite .. => false
  | .hostBar2Write .. => false
  | .hostBar2Read .. => false
  | .hostApertureWrite .. => false
  | .hostApertureRead .. => false
  | .stallSample .. => false
  | .sessionWriteback .. => false
  | .freeze => false
  | .powerGood => false
  | .moduleReset => false
  | .thermalThrottle .. => false
  | .thermalTrip => false
  | .tripPowerOff => false
  | .flitCrcFailure .. => false
  | .linkAckTimeout .. => false
  | .retrainFailure .. => false
  | .patrolScrub .. => false
  | .illegalInstruction .. => false
  | .codeFetchFault .. => false
  | .strataRequestPerform .. => false
  | .recordCacheComplete .. => false
  | .bindingInstalled .. => false
  | .linkRetrained .. => false
  | .contextSaveComplete .. => false
  | .migrationMoveComplete .. => false
  | _ => true

end Sys2Proof
end

