-- ==== Sys2Proof/WellFormed.lean ====
section
/-! DEFINITION. Which values the fields of an instruction word may hold (R89, R91, R97 and the entries they name).

A word whose fields break these checks raises ILLEGAL_INSTRUCTION; an event has no fields of a word and is well-formed. -/

namespace Sys2Proof

/-- A vector destination names v0 to v95; 96 to 127 are neighbour operands (R89). -/
def vecDst (d : BitVec 7) : Bool := decide (d.toNat < 96)
/-- A vector source that may not be a neighbour operand (R89, R182). -/
def vecOwn (a : BitVec 7) : Bool := decide (a.toNat < 96)
/-- A pair of registers named by an even field (R89). -/
def vecPair (a : BitVec 7) : Bool := decide (a.toNat < 96) && decide (a.toNat % 2 = 0)
/-- Four registers named by a multiple of 4 (R89, R178). -/
def vecQuad (a : BitVec 7) : Bool := decide (a.toNat < 96) && decide (a.toNat % 4 = 0)
/-- A field that names a predicate accepts 0 to 7 only (R91). -/
def predOk {n : Nat} (p : BitVec n) : Bool := decide (p.toNat < 8)
/-- A scalar named in a 7-bit field of VXCH (R182). -/
def scalar7 (a : BitVec 7) : Bool := decide (a.toNat < 64)
/-- A pair of scalars is named by an even field (R196, R244). -/
def scalarPair {n : Nat} (d : BitVec n) : Bool := decide (d.toNat % 2 = 0)
/-- The special registers k0 to k18 are assigned (R128). -/
def specialOk (k : BitVec 6) : Bool := decide (k.toNat < 19)

/-- The legality of every field of an instruction (R97). -/
def Instr.wellFormed : Instr → Bool
  | .getk _ k | .setk _ k => specialOk k
  | .brany r _ | .brnone r _ | .brall r _ => predOk r
  | .pand d a b | .por d a b | .pxor d a b | .pandn d a b => predOk d && predOk a && predOk b
  | .pnot d a => predOk d && predOk a
  | .pmovs d _ => predOk d
  | .smovp _ a => predOk a
  | .pcnt _ a b | .pfirst _ a b => predOk a && predOk b
  | .vadd _ d _ _ | .vsub _ d _ _ | .vmul _ d _ _ | .vmulh _ d _ _ | .vmad _ d _ _ | .vand _ d _ _ | .vor _ d _ _
  | .vxor _ d _ _ | .vandn _ d _ _ | .vshl _ d _ _ | .vshr _ d _ _ | .vsra _ d _ _ | .vmin _ d _ _ | .vmax _ d _ _
  | .vsel _ d _ _ | .vadds _ d _ _ | .vsubs _ d _ _ | .vdot4 _ d _ _ | .vdot8 _ d _ _ | .vbfe _ d _ _
  | .vbfi _ d _ _ => vecDst d
  | .vabs _ d _ | .vclz _ d _ | .vpopc _ d _ => vecDst d
  | .vcmpeq _ d _ _ | .vcmpne _ d _ _ | .vcmplt _ d _ _ | .vcmple _ d _ _ => predOk d
  | .vfadd _ d _ _ | .vfsub _ d _ _ | .vfmul _ d _ _ | .vfma _ d _ _ | .vfmin _ d _ _ | .vfmax _ d _ _
  | .vfdot4 _ d _ _ | .vfdot8 _ d _ _ | .vfscl _ d _ _ => vecDst d
  | .vfneg _ d _ | .vfabs _ d _ | .vfrcp _ d _ | .vfrsq _ d _ | .vfexp2 _ d _ | .vflog2 _ d _ | .vfclass _ d _
  | .vfrnd _ d _ => vecDst d
  | .vfcmpeq _ d _ _ | .vfcmplt _ d _ _ | .vfcmple _ d _ _ | .vfcmpun _ d _ _ => predOk d
  | .vfcvt _ d _ t => vecDst d && decide (t.toNat < 14)
  | .vfpk4 _ d a => vecDst d && vecQuad a
  | .vmov _ d _ => vecDst d
  | .vmovs _ d a => vecDst d && scalar7 a
  | .vrdlane _ d a b => scalar7 d && vecOwn a && scalar7 b
  | .vbcst _ d a b => vecDst d && vecOwn a && scalar7 b
  | .vshfl _ d a _ => vecDst d && vecOwn a
  | .vqswz _ d _ p => vecDst d && decide (p.toNat < 7)
  | .vqsum _ d _ | .vredadd _ d _ | .vredmin _ d _ | .vredmax _ d _ => vecDst d
  | .vprfx _ d _ _ => vecDst d
  | .vcmpct _ d a => vecDst d && vecOwn a
  | .vlaneid _ d => vecDst d
  | .vaddi _ d _ _ | .vandi _ d _ _ | .vori _ d _ _ | .vxori _ d _ _ | .vshli _ d _ _ | .vshri _ d _ _
  | .vsrai _ d _ _ => vecDst d
  | .vmovi _ d _ => vecDst d
  | .vld _ d _ _ _ | .vld8 _ d _ _ _ | .vld16 _ d _ _ _ | .vst _ d _ _ _ | .vst8 _ d _ _ _ | .vst16 _ d _ _ _
  | .vldm _ d _ _ _ | .vstm _ d _ _ _ => vecDst d
  | .vld64 _ d _ _ _ | .vst64 _ d _ _ _ => vecPair d
  | .vld128 _ d _ _ _ | .vst128 _ d _ _ _ => vecQuad d
  | .scas d _ _ _ | .samo d _ _ _ | .binit d _ _ _ | .bind d _ _ _ => scalarPair d
  | .vaadd _ d a _ | .vamin _ d a _ | .vamax _ d a _ | .vaand _ d a _ | .vaor _ d a _ | .vaxor _ d a _
  | .vaxch _ d a _ | .vacas _ d a _ | .vafadd _ d a _ => vecDst d && vecPair a
  | .vradd _ a _ | .vrfadd _ a _ | .vrmin _ a _ | .vrmax _ a _ | .vrx96 _ a _ => vecPair a
  | .accz _ _ a r => decide (r = 0) || decide (a = 0)
  | .obld _ c _ _ x => if x = 0 then decide (c = 0) else scalarPair c
  | .mma _ _ _ _ _ g o _ _ => decide (o = 1) || decide (g = 0)
  | .accrd _ d _ _ => vecDst d
  | .accst _ _ _ h _ _ x => decide (x = 1) || decide (h = 0)
  | .cpl a _ _ _ _ => scalarPair a
  | .wsig a b _ _ _ _ => scalarPair a && scalarPair b
  | _ => true

end Sys2Proof
end

