-- ==== Sys2Proof/Decode.lean ====
section
/-! DEFINITION. Decoding and encoding of the 32-bit instruction words (R85 to R97).

`decode` is total: it refuses, by answering none, every word that R97 calls no instruction.  The class is bits
[31:28] (R85), the minor code stands where R86 puts it for the class, the other fields where R86 to R88, R129, R147,
R150, R182, R190, R196, R200, R244, R276, R309 and R383 put them.  `encode` writes the same layouts. -/

namespace Sys2Proof

/-- Bits lo + len - 1 down to lo of a word, x[h:l] of R6. -/
abbrev bits (w : W32) (lo len : Nat) : BitVec len := w.extractLsb' lo len

/-- Class 0x0: CTRL minor [27:20] (R88); a code that is not shown is unassigned (R95). -/
def decodeCtrl (w : W32) : Option Instr :=
  match (bits w 20 8).toNat with
  | 0 => if bits w 0 20 = 0 then some .nop else none
  | 1 => if bits w 0 20 = 0 then some .endq else none
  | 2 => if bits w 16 4 = 0 then some (.trap (bits w 0 16)) else none
  | 3 => if bits w 0 20 = 0 then some .eret else none
  | 4 => if bits w 16 4 = 0 then some (.bkpt (bits w 0 16)) else none
  | 5 => if bits w 0 8 = 0 then some (.getk (bits w 14 6) (bits w 8 6)) else none
  | 6 => if bits w 0 8 = 0 then some (.setk (bits w 14 6) (bits w 8 6)) else none
  | 7 => if bits w 0 12 = 0 then some (.mode (bits w 18 2) (bits w 12 6)) else none
  | 8 => if bits w 0 6 = 0 then some (.modea (bits w 18 2) (bits w 12 6) (bits w 6 6)) else none
  | 9 => if bits w 0 6 = 0 then some (.modem (bits w 18 2) (bits w 12 6) (bits w 6 6)) else none
  | 10 => if bits w 0 20 = 0 then some .xacq else none
  | 11 => if bits w 0 20 = 0 then some .xrel else none
  | 12 => if bits w 0 20 = 0 then some .yield else none
  | 13 => if bits w 0 20 = 0 then some .rejoin else none
  | 14 => if bits w 0 12 = 0 then some (.fence (bits w 16 4) (bits w 12 4)) else none
  | 15 => if bits w 0 4 = 0 then some (.waitc (bits w 16 4) (bits w 12 4) (bits w 8 4) (bits w 4 4)) else none
  | 16 => if bits w 0 14 = 0 then some (.tick (bits w 14 6)) else none
  | 17 => if bits w 0 14 = 0 then some (.jmp (bits w 14 6)) else none
  | 18 => if bits w 0 14 = 0 then some (.callr (bits w 14 6)) else none
  | _ => none

/-- Class 0x1: BR kind [27:25] (R147); a code that is not shown is unassigned (R95). -/
def decodeBr (w : W32) : Option Instr :=
  match (bits w 25 3).toNat with
  | 0 => if bits w 19 6 = 0 then some (.bra (bits w 0 19)) else none
  | 1 => some (.brz (bits w 19 6) (bits w 0 19))
  | 2 => some (.brnz (bits w 19 6) (bits w 0 19))
  | 3 => some (.brany (bits w 19 6) (bits w 0 19))
  | 4 => some (.brnone (bits w 19 6) (bits w 0 19))
  | 5 => some (.brall (bits w 19 6) (bits w 0 19))
  | 6 => if bits w 19 6 = 0 then some (.call (bits w 0 19)) else none
  | _ => none

/-- Class 0x2: SALU minor [27:22] (R150); a code that is not shown is unassigned (R95). -/
def decodeSalu (w : W32) : Option Instr :=
  match (bits w 22 6).toNat with
  | 0 => if bits w 0 4 = 0 then some (.sadd (bits w 16 6) (bits w 10 6) (bits w 4 6)) else none
  | 1 => if bits w 0 4 = 0 then some (.ssub (bits w 16 6) (bits w 10 6) (bits w 4 6)) else none
  | 2 => if bits w 0 4 = 0 then some (.smul (bits w 16 6) (bits w 10 6) (bits w 4 6)) else none
  | 3 => if bits w 0 4 = 0 then some (.smulh (bits w 16 6) (bits w 10 6) (bits w 4 6)) else none
  | 4 => if bits w 0 4 = 0 then some (.smulhn (bits w 16 6) (bits w 10 6) (bits w 4 6)) else none
  | 5 => if bits w 0 4 = 0 then some (.sand (bits w 16 6) (bits w 10 6) (bits w 4 6)) else none
  | 6 => if bits w 0 4 = 0 then some (.sor (bits w 16 6) (bits w 10 6) (bits w 4 6)) else none
  | 7 => if bits w 0 4 = 0 then some (.sxor (bits w 16 6) (bits w 10 6) (bits w 4 6)) else none
  | 8 => if bits w 0 4 = 0 then some (.sandn (bits w 16 6) (bits w 10 6) (bits w 4 6)) else none
  | 9 => if bits w 0 4 = 0 then some (.sshl (bits w 16 6) (bits w 10 6) (bits w 4 6)) else none
  | 10 => if bits w 0 4 = 0 then some (.sshr (bits w 16 6) (bits w 10 6) (bits w 4 6)) else none
  | 11 => if bits w 0 4 = 0 then some (.ssra (bits w 16 6) (bits w 10 6) (bits w 4 6)) else none
  | 12 => if bits w 0 4 = 0 then some (.smin (bits w 16 6) (bits w 10 6) (bits w 4 6)) else none
  | 13 => if bits w 0 4 = 0 then some (.smax (bits w 16 6) (bits w 10 6) (bits w 4 6)) else none
  | 14 => if bits w 0 4 = 0 then some (.sminn (bits w 16 6) (bits w 10 6) (bits w 4 6)) else none
  | 15 => if bits w 0 4 = 0 then some (.smaxn (bits w 16 6) (bits w 10 6) (bits w 4 6)) else none
  | 16 => if bits w 0 4 = 0 then some (.sseq (bits w 16 6) (bits w 10 6) (bits w 4 6)) else none
  | 17 => if bits w 0 4 = 0 then some (.ssne (bits w 16 6) (bits w 10 6) (bits w 4 6)) else none
  | 18 => if bits w 0 4 = 0 then some (.sslt (bits w 16 6) (bits w 10 6) (bits w 4 6)) else none
  | 19 => if bits w 0 4 = 0 then some (.ssle (bits w 16 6) (bits w 10 6) (bits w 4 6)) else none
  | 20 => if bits w 0 4 = 0 then some (.ssltn (bits w 16 6) (bits w 10 6) (bits w 4 6)) else none
  | 21 => if bits w 0 4 = 0 then some (.sslen (bits w 16 6) (bits w 10 6) (bits w 4 6)) else none
  | 22 => if bits w 0 10 = 0 then some (.sclz (bits w 16 6) (bits w 10 6)) else none
  | 23 => if bits w 0 10 = 0 then some (.spopc (bits w 16 6) (bits w 10 6)) else none
  | 24 => if bits w 0 4 = 0 then some (.pand (bits w 16 6) (bits w 10 6) (bits w 4 6)) else none
  | 25 => if bits w 0 4 = 0 then some (.por (bits w 16 6) (bits w 10 6) (bits w 4 6)) else none
  | 26 => if bits w 0 4 = 0 then some (.pxor (bits w 16 6) (bits w 10 6) (bits w 4 6)) else none
  | 27 => if bits w 0 4 = 0 then some (.pandn (bits w 16 6) (bits w 10 6) (bits w 4 6)) else none
  | 28 => if bits w 0 10 = 0 then some (.pnot (bits w 16 6) (bits w 10 6)) else none
  | 29 => if bits w 0 10 = 0 then some (.pmovs (bits w 16 6) (bits w 10 6)) else none
  | 30 => if bits w 0 10 = 0 then some (.smovp (bits w 16 6) (bits w 10 6)) else none
  | 31 => if bits w 0 4 = 0 then some (.pcnt (bits w 16 6) (bits w 10 6) (bits w 4 6)) else none
  | 32 => if bits w 0 4 = 0 then some (.pfirst (bits w 16 6) (bits w 10 6) (bits w 4 6)) else none
  | _ => none

/-- Class 0x3: SIMM minor [27:24] (R154); a code that is not shown is unassigned (R95). -/
def decodeSimm (w : W32) : Option Instr :=
  match (bits w 24 4).toNat with
  | 0 => some (.saddi (bits w 18 6) (bits w 12 6) (bits w 0 12))
  | 1 => some (.sandi (bits w 18 6) (bits w 12 6) (bits w 0 12))
  | 2 => some (.sori (bits w 18 6) (bits w 12 6) (bits w 0 12))
  | 3 => some (.sxori (bits w 18 6) (bits w 12 6) (bits w 0 12))
  | 4 => if bits w 6 6 = 0 then some (.sshli (bits w 18 6) (bits w 12 6) (bits w 0 6)) else none
  | 5 => if bits w 6 6 = 0 then some (.sshri (bits w 18 6) (bits w 12 6) (bits w 0 6)) else none
  | 6 => if bits w 6 6 = 0 then some (.ssrai (bits w 18 6) (bits w 12 6) (bits w 0 6)) else none
  | 7 => some (.smovi (bits w 18 6) (bits w 16 2) (bits w 0 16))
  | 8 => some (.sinsi (bits w 18 6) (bits w 16 2) (bits w 0 16))
  | 9 => some (.sseqi (bits w 18 6) (bits w 12 6) (bits w 0 12))
  | 10 => some (.sslti (bits w 18 6) (bits w 12 6) (bits w 0 12))
  | 11 => some (.ssltni (bits w 18 6) (bits w 12 6) (bits w 0 12))
  | _ => none

/-- Class 0x4: VINT minor [27:23] (R161); a code that is not shown is unassigned (R95). -/
def decodeVint (w : W32) : Option Instr :=
  match (bits w 23 5).toNat with
  | 0 => some (.vadd (bits w 21 2) (bits w 14 7) (bits w 7 7) (bits w 0 7))
  | 1 => some (.vsub (bits w 21 2) (bits w 14 7) (bits w 7 7) (bits w 0 7))
  | 2 => some (.vmul (bits w 21 2) (bits w 14 7) (bits w 7 7) (bits w 0 7))
  | 3 => some (.vmulh (bits w 21 2) (bits w 14 7) (bits w 7 7) (bits w 0 7))
  | 4 => some (.vmad (bits w 21 2) (bits w 14 7) (bits w 7 7) (bits w 0 7))
  | 5 => some (.vand (bits w 21 2) (bits w 14 7) (bits w 7 7) (bits w 0 7))
  | 6 => some (.vor (bits w 21 2) (bits w 14 7) (bits w 7 7) (bits w 0 7))
  | 7 => some (.vxor (bits w 21 2) (bits w 14 7) (bits w 7 7) (bits w 0 7))
  | 8 => some (.vandn (bits w 21 2) (bits w 14 7) (bits w 7 7) (bits w 0 7))
  | 9 => some (.vshl (bits w 21 2) (bits w 14 7) (bits w 7 7) (bits w 0 7))
  | 10 => some (.vshr (bits w 21 2) (bits w 14 7) (bits w 7 7) (bits w 0 7))
  | 11 => some (.vsra (bits w 21 2) (bits w 14 7) (bits w 7 7) (bits w 0 7))
  | 12 => some (.vmin (bits w 21 2) (bits w 14 7) (bits w 7 7) (bits w 0 7))
  | 13 => some (.vmax (bits w 21 2) (bits w 14 7) (bits w 7 7) (bits w 0 7))
  | 14 => if bits w 0 7 = 0 then some (.vabs (bits w 21 2) (bits w 14 7) (bits w 7 7)) else none
  | 15 => if bits w 0 7 = 0 then some (.vclz (bits w 21 2) (bits w 14 7) (bits w 7 7)) else none
  | 16 => if bits w 0 7 = 0 then some (.vpopc (bits w 21 2) (bits w 14 7) (bits w 7 7)) else none
  | 17 => some (.vsel (bits w 21 2) (bits w 14 7) (bits w 7 7) (bits w 0 7))
  | 18 => some (.vcmpeq (bits w 21 2) (bits w 14 7) (bits w 7 7) (bits w 0 7))
  | 19 => some (.vcmpne (bits w 21 2) (bits w 14 7) (bits w 7 7) (bits w 0 7))
  | 20 => some (.vcmplt (bits w 21 2) (bits w 14 7) (bits w 7 7) (bits w 0 7))
  | 21 => some (.vcmple (bits w 21 2) (bits w 14 7) (bits w 7 7) (bits w 0 7))
  | 22 => some (.vadds (bits w 21 2) (bits w 14 7) (bits w 7 7) (bits w 0 7))
  | 23 => some (.vsubs (bits w 21 2) (bits w 14 7) (bits w 7 7) (bits w 0 7))
  | 24 => some (.vdot4 (bits w 21 2) (bits w 14 7) (bits w 7 7) (bits w 0 7))
  | 25 => some (.vdot8 (bits w 21 2) (bits w 14 7) (bits w 7 7) (bits w 0 7))
  | 26 => some (.vbfe (bits w 21 2) (bits w 14 7) (bits w 7 7) (bits w 0 7))
  | 27 => some (.vbfi (bits w 21 2) (bits w 14 7) (bits w 7 7) (bits w 0 7))
  | _ => none

/-- Class 0x5: VFLT minor [27:23] (R169); a code that is not shown is unassigned (R95). -/
def decodeVflt (w : W32) : Option Instr :=
  match (bits w 23 5).toNat with
  | 0 => some (.vfadd (bits w 21 2) (bits w 14 7) (bits w 7 7) (bits w 0 7))
  | 1 => some (.vfsub (bits w 21 2) (bits w 14 7) (bits w 7 7) (bits w 0 7))
  | 2 => some (.vfmul (bits w 21 2) (bits w 14 7) (bits w 7 7) (bits w 0 7))
  | 3 => some (.vfma (bits w 21 2) (bits w 14 7) (bits w 7 7) (bits w 0 7))
  | 4 => some (.vfmin (bits w 21 2) (bits w 14 7) (bits w 7 7) (bits w 0 7))
  | 5 => some (.vfmax (bits w 21 2) (bits w 14 7) (bits w 7 7) (bits w 0 7))
  | 6 => if bits w 0 7 = 0 then some (.vfneg (bits w 21 2) (bits w 14 7) (bits w 7 7)) else none
  | 7 => if bits w 0 7 = 0 then some (.vfabs (bits w 21 2) (bits w 14 7) (bits w 7 7)) else none
  | 8 => some (.vfcmpeq (bits w 21 2) (bits w 14 7) (bits w 7 7) (bits w 0 7))
  | 9 => some (.vfcmplt (bits w 21 2) (bits w 14 7) (bits w 7 7) (bits w 0 7))
  | 10 => some (.vfcmple (bits w 21 2) (bits w 14 7) (bits w 7 7) (bits w 0 7))
  | 11 => some (.vfcmpun (bits w 21 2) (bits w 14 7) (bits w 7 7) (bits w 0 7))
  | 12 => if bits w 0 7 = 0 then some (.vfrcp (bits w 21 2) (bits w 14 7) (bits w 7 7)) else none
  | 13 => if bits w 0 7 = 0 then some (.vfrsq (bits w 21 2) (bits w 14 7) (bits w 7 7)) else none
  | 14 => if bits w 0 7 = 0 then some (.vfexp2 (bits w 21 2) (bits w 14 7) (bits w 7 7)) else none
  | 15 => if bits w 0 7 = 0 then some (.vflog2 (bits w 21 2) (bits w 14 7) (bits w 7 7)) else none
  | 16 => some (.vfdot4 (bits w 21 2) (bits w 14 7) (bits w 7 7) (bits w 0 7))
  | 17 => some (.vfdot8 (bits w 21 2) (bits w 14 7) (bits w 7 7) (bits w 0 7))
  | 18 => some (.vfscl (bits w 21 2) (bits w 14 7) (bits w 7 7) (bits w 0 7))
  | 19 => some (.vfcvt (bits w 21 2) (bits w 14 7) (bits w 7 7) (bits w 0 7))
  | 20 => if bits w 0 7 = 0 then some (.vfpk4 (bits w 21 2) (bits w 14 7) (bits w 7 7)) else none
  | 21 => if bits w 0 7 = 0 then some (.vfclass (bits w 21 2) (bits w 14 7) (bits w 7 7)) else none
  | 22 => if bits w 0 7 = 0 then some (.vfrnd (bits w 21 2) (bits w 14 7) (bits w 7 7)) else none
  | _ => none

/-- Class 0x6: VXCH minor [27:23] (R182); a code that is not shown is unassigned (R95). -/
def decodeVxch (w : W32) : Option Instr :=
  match (bits w 23 5).toNat with
  | 0 => if bits w 0 7 = 0 then some (.vmov (bits w 21 2) (bits w 14 7) (bits w 7 7)) else none
  | 1 => if bits w 0 7 = 0 then some (.vmovs (bits w 21 2) (bits w 14 7) (bits w 7 7)) else none
  | 2 => some (.vrdlane (bits w 21 2) (bits w 14 7) (bits w 7 7) (bits w 0 7))
  | 3 => some (.vbcst (bits w 21 2) (bits w 14 7) (bits w 7 7) (bits w 0 7))
  | 4 => some (.vshfl (bits w 21 2) (bits w 14 7) (bits w 7 7) (bits w 0 7))
  | 5 => some (.vqswz (bits w 21 2) (bits w 14 7) (bits w 7 7) (bits w 0 7))
  | 6 => if bits w 0 7 = 0 then some (.vqsum (bits w 21 2) (bits w 14 7) (bits w 7 7)) else none
  | 7 => if bits w 1 6 = 0 then some (.vprfx (bits w 21 2) (bits w 14 7) (bits w 7 7) (bits w 0 1)) else none
  | 8 => if bits w 0 7 = 0 then some (.vcmpct (bits w 21 2) (bits w 14 7) (bits w 7 7)) else none
  | 9 => if bits w 0 7 = 0 then some (.vredadd (bits w 21 2) (bits w 14 7) (bits w 7 7)) else none
  | 10 => if bits w 0 7 = 0 then some (.vredmin (bits w 21 2) (bits w 14 7) (bits w 7 7)) else none
  | 11 => if bits w 0 7 = 0 then some (.vredmax (bits w 21 2) (bits w 14 7) (bits w 7 7)) else none
  | 12 => if bits w 0 14 = 0 then some (.vlaneid (bits w 21 2) (bits w 14 7)) else none
  | _ => none

/-- Class 0x7: VIMM minor [27:25] (R181); a code that is not shown is unassigned (R95). -/
def decodeVimm (w : W32) : Option Instr :=
  match (bits w 25 3).toNat with
  | 0 => some (.vaddi (bits w 23 2) (bits w 16 7) (bits w 9 7) (bits w 0 9))
  | 1 => some (.vandi (bits w 23 2) (bits w 16 7) (bits w 9 7) (bits w 0 9))
  | 2 => some (.vori (bits w 23 2) (bits w 16 7) (bits w 9 7) (bits w 0 9))
  | 3 => some (.vxori (bits w 23 2) (bits w 16 7) (bits w 9 7) (bits w 0 9))
  | 4 => if bits w 5 4 = 0 then some (.vshli (bits w 23 2) (bits w 16 7) (bits w 9 7) (bits w 0 5)) else none
  | 5 => if bits w 5 4 = 0 then some (.vshri (bits w 23 2) (bits w 16 7) (bits w 9 7) (bits w 0 5)) else none
  | 6 => if bits w 5 4 = 0 then some (.vsrai (bits w 23 2) (bits w 16 7) (bits w 9 7) (bits w 0 5)) else none
  | 7 => if bits w 9 7 = 0 then some (.vmovi (bits w 23 2) (bits w 16 7) (bits w 0 9)) else none
  | _ => none

/-- Class 0x8: MEMV minor [27:24] (R190); a code that is not shown is unassigned (R95). -/
def decodeMemv (w : W32) : Option Instr :=
  match (bits w 24 4).toNat with
  | 0 => some (.vld (bits w 22 2) (bits w 15 7) (bits w 9 6) (bits w 2 7) (bits w 0 2))
  | 1 => some (.vld8 (bits w 22 2) (bits w 15 7) (bits w 9 6) (bits w 2 7) (bits w 0 2))
  | 2 => some (.vld16 (bits w 22 2) (bits w 15 7) (bits w 9 6) (bits w 2 7) (bits w 0 2))
  | 3 => some (.vld64 (bits w 22 2) (bits w 15 7) (bits w 9 6) (bits w 2 7) (bits w 0 2))
  | 4 => some (.vld128 (bits w 22 2) (bits w 15 7) (bits w 9 6) (bits w 2 7) (bits w 0 2))
  | 5 => some (.vst (bits w 22 2) (bits w 15 7) (bits w 9 6) (bits w 2 7) (bits w 0 2))
  | 6 => some (.vst8 (bits w 22 2) (bits w 15 7) (bits w 9 6) (bits w 2 7) (bits w 0 2))
  | 7 => some (.vst16 (bits w 22 2) (bits w 15 7) (bits w 9 6) (bits w 2 7) (bits w 0 2))
  | 8 => some (.vst64 (bits w 22 2) (bits w 15 7) (bits w 9 6) (bits w 2 7) (bits w 0 2))
  | 9 => some (.vst128 (bits w 22 2) (bits w 15 7) (bits w 9 6) (bits w 2 7) (bits w 0 2))
  | 10 => some (.vldm (bits w 22 2) (bits w 15 7) (bits w 9 6) (bits w 2 7) (bits w 0 2))
  | 11 => some (.vstm (bits w 22 2) (bits w 15 7) (bits w 9 6) (bits w 2 7) (bits w 0 2))
  | _ => none

/-- Class 0x9: MEMS minor [27:23] (R196); a code that is not shown is unassigned (R95). -/
def decodeMems (w : W32) : Option Instr :=
  match (bits w 23 5).toNat with
  | 0 => some (.sld (bits w 17 6) (bits w 11 6) (bits w 9 2) (bits w 0 9))
  | 1 => some (.sld32 (bits w 17 6) (bits w 11 6) (bits w 9 2) (bits w 0 9))
  | 2 => some (.sst (bits w 17 6) (bits w 11 6) (bits w 9 2) (bits w 0 9))
  | 3 => some (.sst32 (bits w 17 6) (bits w 11 6) (bits w 9 2) (bits w 0 9))
  | 4 => some (.sldm (bits w 17 6) (bits w 11 6) (bits w 9 2) (bits w 0 9))
  | 5 => some (.sstm (bits w 17 6) (bits w 11 6) (bits w 9 2) (bits w 0 9))
  | 6 => some (.scas (bits w 17 6) (bits w 11 6) (bits w 9 2) (bits w 0 9))
  | 7 => some (.samo (bits w 17 6) (bits w 11 6) (bits w 9 2) (bits w 0 9))
  | 8 => some (.binit (bits w 17 6) (bits w 11 6) (bits w 9 2) (bits w 0 9))
  | 9 => some (.barv (bits w 17 6) (bits w 11 6) (bits w 9 2) (bits w 0 9))
  | 10 => some (.barb (bits w 17 6) (bits w 11 6) (bits w 9 2) (bits w 0 9))
  | 11 => some (.waitp (bits w 17 6) (bits w 11 6) (bits w 9 2) (bits w 0 9))
  | 12 => some (.bphase (bits w 17 6) (bits w 11 6) (bits w 9 2) (bits w 0 9))
  | 13 => some (.bind (bits w 17 6) (bits w 11 6) (bits w 9 2) (bits w 0 9))
  | 14 => some (.unbind (bits w 17 6) (bits w 11 6) (bits w 9 2) (bits w 0 9))
  | 15 => some (.rgacq (bits w 17 6) (bits w 11 6) (bits w 9 2) (bits w 0 9))
  | 16 => if bits w 17 6 = 0 then some (.rgrel (bits w 11 6) (bits w 9 2) (bits w 0 9)) else none
  | 17 => if bits w 17 6 = 0 then some (.tkwait (bits w 11 6) (bits w 9 2) (bits w 0 9)) else none
  | 18 => if bits w 17 6 = 0 then some (.tkpass (bits w 11 6) (bits w 9 2) (bits w 0 9)) else none
  | _ => none

/-- Class 0xA: ATOM minor [27:23] (R200, R260); a code that is not shown is unassigned (R95). -/
def decodeAtom (w : W32) : Option Instr :=
  match (bits w 23 5).toNat with
  | 0 => some (.vaadd (bits w 21 2) (bits w 14 7) (bits w 7 7) (bits w 0 7))
  | 1 => some (.vamin (bits w 21 2) (bits w 14 7) (bits w 7 7) (bits w 0 7))
  | 2 => some (.vamax (bits w 21 2) (bits w 14 7) (bits w 7 7) (bits w 0 7))
  | 3 => some (.vaand (bits w 21 2) (bits w 14 7) (bits w 7 7) (bits w 0 7))
  | 4 => some (.vaor (bits w 21 2) (bits w 14 7) (bits w 7 7) (bits w 0 7))
  | 5 => some (.vaxor (bits w 21 2) (bits w 14 7) (bits w 7 7) (bits w 0 7))
  | 6 => some (.vaxch (bits w 21 2) (bits w 14 7) (bits w 7 7) (bits w 0 7))
  | 7 => some (.vacas (bits w 21 2) (bits w 14 7) (bits w 7 7) (bits w 0 7))
  | 8 => some (.vafadd (bits w 21 2) (bits w 14 7) (bits w 7 7) (bits w 0 7))
  | 9 => if bits w 14 7 = 0 then some (.vradd (bits w 21 2) (bits w 7 7) (bits w 0 7)) else none
  | 10 => if bits w 14 7 = 0 then some (.vrfadd (bits w 21 2) (bits w 7 7) (bits w 0 7)) else none
  | 11 => if bits w 14 7 = 0 then some (.vrmin (bits w 21 2) (bits w 7 7) (bits w 0 7)) else none
  | 12 => if bits w 14 7 = 0 then some (.vrmax (bits w 21 2) (bits w 7 7) (bits w 0 7)) else none
  | 13 => if bits w 14 7 = 0 then some (.vrx96 (bits w 21 2) (bits w 7 7) (bits w 0 7)) else none
  | _ => none

/-- Class 0xB: MTX minor [27:23] (R276); a code that is not shown is unassigned (R95). -/
def decodeMtx (w : W32) : Option Instr :=
  match (bits w 23 5).toNat with
  | 0 => if bits w 12 8 = 0 ∧ bits w 1 3 = 0 then some (.accz (bits w 20 3) (bits w 10 2) (bits w 4 6) (bits w 0 1)) else none
  | 1 => if bits w 12 8 = 0 ∧ bits w 0 10 = 0 then some (.accza (bits w 20 3) (bits w 10 2)) else none
  | 2 => if bits w 20 3 = 0 ∧ bits w 12 4 = 0 ∧ bits w 0 4 = 0 then some (.obres (bits w 16 4) (bits w 10 2) (bits w 4 6)) else none
  | 3 => if bits w 20 3 = 0 ∧ bits w 12 4 = 0 ∧ bits w 0 10 = 0 then some (.obrel (bits w 16 4) (bits w 10 2)) else none
  | 4 => if bits w 20 3 = 0 ∧ bits w 1 3 = 0 then some (.obld (bits w 16 4) (bits w 12 4) (bits w 10 2) (bits w 4 6) (bits w 0 1)) else none
  | 5 => if bits w 20 3 = 0 ∧ bits w 12 4 = 0 ∧ bits w 0 4 = 0 then some (.obwin (bits w 16 4) (bits w 10 2) (bits w 4 6)) else none
  | 6 => some (.mma (bits w 20 3) (bits w 16 4) (bits w 12 4) (bits w 10 2) (bits w 7 3) (bits w 3 4) (bits w 2 1) (bits w 1 1) (bits w 0 1))
  | 7 => if bits w 3 4 = 0 then some (.mmac (bits w 20 3) (bits w 16 4) (bits w 12 4) (bits w 10 2) (bits w 7 3) (bits w 2 1) (bits w 1 1) (bits w 0 1)) else none
  | 8 => if bits w 12 11 = 0 ∧ bits w 0 4 = 0 then some (.jset (bits w 10 2) (bits w 4 6)) else none
  | 9 => if bits w 19 1 = 0 ∧ bits w 0 7 = 0 then some (.accrd (bits w 20 3) (bits w 12 7) (bits w 10 2) (bits w 7 3)) else none
  | 10 => if bits w 19 1 = 0 ∧ bits w 0 7 = 0 then some (.accwr (bits w 20 3) (bits w 12 7) (bits w 10 2) (bits w 7 3)) else none
  | 11 => if bits w 19 1 = 0 ∧ bits w 0 3 = 0 then some (.accst (bits w 20 3) (bits w 18 1) (bits w 16 2) (bits w 12 4) (bits w 10 2) (bits w 4 6) (bits w 3 1)) else none
  | 12 => if bits w 19 1 = 0 ∧ bits w 12 4 = 0 ∧ bits w 0 10 = 0 then some (.accadd (bits w 20 3) (bits w 16 3) (bits w 10 2)) else none
  | 13 => if bits w 12 11 = 0 ∧ bits w 0 4 = 0 then some (.sealm (bits w 10 2) (bits w 4 6)) else none
  | _ => none

/-- Class 0xC: ASYNC minor [27:23] (R244); a code that is not shown is unassigned (R95). -/
def decodeAsync (w : W32) : Option Instr :=
  match (bits w 23 5).toNat with
  | 0 => some (.cpt (bits w 17 6) (bits w 11 6) (bits w 5 6) (bits w 3 2) (bits w 2 1) (bits w 0 2))
  | 1 => some (.cptt (bits w 17 6) (bits w 11 6) (bits w 5 6) (bits w 3 2) (bits w 2 1) (bits w 0 2))
  | 2 => if bits w 2 1 = 0 then some (.cpl (bits w 17 6) (bits w 11 6) (bits w 5 6) (bits w 3 2) (bits w 0 2)) else none
  | 3 => if bits w 2 1 = 0 then some (.cpg (bits w 17 6) (bits w 11 6) (bits w 5 6) (bits w 3 2) (bits w 0 2)) else none
  | 4 => some (.cps (bits w 17 6) (bits w 11 6) (bits w 5 6) (bits w 3 2) (bits w 2 1) (bits w 0 2))
  | 5 => some (.wsig (bits w 17 6) (bits w 11 6) (bits w 5 6) (bits w 3 2) (bits w 2 1) (bits w 0 2))
  | 6 => if bits w 5 12 = 0 ∧ bits w 0 3 = 0 then some (.lrfl (bits w 17 6) (bits w 3 2)) else none
  | 7 => if bits w 5 12 = 0 ∧ bits w 0 3 = 0 then some (.lrins (bits w 17 6) (bits w 3 2)) else none
  | 8 => if bits w 5 12 = 0 ∧ bits w 0 3 = 0 then some (.sealc (bits w 17 6) (bits w 3 2)) else none
  | 9 => if bits w 21 2 = 0 ∧ bits w 5 12 = 0 ∧ bits w 0 3 = 0 then some (.qfence (bits w 17 4) (bits w 3 2)) else none
  | 10 => if bits w 2 1 = 0 then some (.hgrd (bits w 17 6) (bits w 11 6) (bits w 5 6) (bits w 3 2) (bits w 0 2)) else none
  | _ => none

/-- Class 0xD: TASK minor [27:23] (R309, R359); a code that is not shown is unassigned (R95). -/
def decodeTask (w : W32) : Option Instr :=
  match (bits w 23 5).toNat with
  | 0 => if bits w 5 6 = 0 ∧ bits w 2 1 = 0 then some (.spawn (bits w 17 6) (bits w 11 6) (bits w 3 2) (bits w 0 2)) else none
  | 1 => if bits w 5 6 = 0 ∧ bits w 2 1 = 0 then some (.spawnd (bits w 17 6) (bits w 11 6) (bits w 3 2) (bits w 0 2)) else none
  | 2 => if bits w 5 12 = 0 ∧ bits w 0 3 = 0 then some (.dcinit (bits w 17 6) (bits w 3 2)) else none
  | 3 => if bits w 5 12 = 0 ∧ bits w 0 3 = 0 then some (.dcdec (bits w 17 6) (bits w 3 2)) else none
  | 4 => if bits w 5 6 = 0 ∧ bits w 0 3 = 0 then some (.wlpush (bits w 17 6) (bits w 11 6) (bits w 3 2)) else none
  | 5 => if bits w 0 3 = 0 then some (.wlpull (bits w 17 6) (bits w 11 6) (bits w 5 6) (bits w 3 2)) else none
  | 6 => if bits w 5 12 = 0 ∧ bits w 0 3 = 0 then some (.quiesce (bits w 17 6) (bits w 3 2)) else none
  | 7 => if bits w 5 6 = 0 ∧ bits w 0 3 = 0 then some (.glaunch (bits w 17 6) (bits w 11 6) (bits w 3 2)) else none
  | 8 => if bits w 5 6 = 0 ∧ bits w 0 3 = 0 then some (.trrec (bits w 17 6) (bits w 11 6) (bits w 3 2)) else none
  | 9 => if bits w 5 12 = 0 ∧ bits w 0 3 = 0 then some (.trstop (bits w 17 6) (bits w 3 2)) else none
  | 10 => if bits w 5 6 = 0 ∧ bits w 0 3 = 0 then some (.propagate (bits w 17 6) (bits w 11 6) (bits w 3 2)) else none
  | 11 => if bits w 5 6 = 0 ∧ bits w 0 3 = 0 then some (.mdecl (bits w 17 6) (bits w 11 6) (bits w 3 2)) else none
  | 12 => if bits w 5 18 = 0 ∧ bits w 0 3 = 0 then some (.trdrop (bits w 3 2)) else none
  | 13 => if bits w 5 6 = 0 ∧ bits w 0 3 = 0 then some (.trstat (bits w 17 6) (bits w 11 6) (bits w 3 2)) else none
  | _ => none

/-- Class 0xE: SIEVE minor [27:24] (R383); a code that is not shown is unassigned (R95). -/
def decodeSieve (w : W32) : Option Instr :=
  match (bits w 24 4).toNat with
  | 0 => if bits w 6 6 = 0 ∧ bits w 0 4 = 0 then some (.svgrid (bits w 18 6) (bits w 12 6) (bits w 4 2)) else none
  | 1 => if bits w 6 6 = 0 ∧ bits w 0 4 = 0 then some (.svbin (bits w 18 6) (bits w 12 6) (bits w 4 2)) else none
  | 2 => if bits w 1 3 = 0 then some (.svpair (bits w 18 6) (bits w 12 6) (bits w 6 6) (bits w 4 2) (bits w 0 1)) else none
  | 3 => if bits w 0 4 = 0 then some (.svpull (bits w 18 6) (bits w 12 6) (bits w 6 6) (bits w 4 2)) else none
  | 4 => if bits w 6 6 = 0 ∧ bits w 0 4 = 0 then some (.svstat (bits w 18 6) (bits w 12 6) (bits w 4 2)) else none
  | 5 => if bits w 6 6 = 0 ∧ bits w 0 4 = 0 then some (.svcheck (bits w 18 6) (bits w 12 6) (bits w 4 2)) else none
  | 6 => if bits w 6 12 = 0 ∧ bits w 0 4 = 0 then some (.svclr (bits w 18 6) (bits w 4 2)) else none
  | _ => none

/-- A word read by its class, its minor code and its reserved-zero fields alone (R86, R95, R96); class 0xF is reserved. -/
def decodeRaw (w : W32) : Option Instr :=
  match (bits w 28 4).toNat with
  | 0 => decodeCtrl w
  | 1 => decodeBr w
  | 2 => decodeSalu w
  | 3 => decodeSimm w
  | 4 => decodeVint w
  | 5 => decodeVflt w
  | 6 => decodeVxch w
  | 7 => decodeVimm w
  | 8 => decodeMemv w
  | 9 => decodeMems w
  | 10 => decodeAtom w
  | 11 => decodeMtx w
  | 12 => decodeAsync w
  | 13 => decodeTask w
  | 14 => decodeSieve w
  | _ => none

/-- The instruction that a word names, or none for a word that R97 refuses. -/
def decode (w : W32) : Option Instr :=
  match decodeRaw w with
  | some i => if i.wellFormed then some i else none
  | none => none

/-- A little-endian word from its four bytes, the first at the lowest address (R4, R85). -/
def wordOfBytes (b0 b1 b2 b3 : Byte) : W32 := b3 ++ b2 ++ b1 ++ b0

/-- Decoding from a list of bytes: the instruction and the rest of the list. -/
def decodeBytes : List Byte → Option (Instr × List Byte)
  | b0 :: b1 :: b2 :: b3 :: rest => (decode (wordOfBytes b0 b1 b2 b3)).map (fun i => (i, rest))
  | _ => none

/-- The four bytes of a word as the K9 stores it, lowest address first (R4). -/
def bytesOfWord (w : W32) : List Byte := [bits w 0 8, bits w 8 8, bits w 16 8, bits w 24 8]

/-- What the decoder reads from an instruction whose bits are `w`, numbered as the opcode table numbers them: every
row has 32 bits (R85), so a number of bits above 32 names no row. -/
def decodeTableWord (nbits w : Nat) : Option Instr :=
  if nbits ≤ 32 then (decodeBytes (bytesOfWord (BitVec.ofNat 32 (w % 2 ^ nbits)))).map Prod.fst else none

/-- The word of an instruction, from the same tables; an event has no word and is given the all-ones word, which R97
refuses (class 0xF). -/
def encode : Instr → W32
  | .nop => 0x0#32
  | .endq => 0x100000#32
  | .trap i => 0x20#16 ++ i
  | .eret => 0x300000#32
  | .bkpt i => 0x40#16 ++ i
  | .getk s k => 0x5#12 ++ s ++ k ++ 0x0#8
  | .setk s k => 0x6#12 ++ s ++ k ++ 0x0#8
  | .mode m a => 0x7#12 ++ m ++ a ++ 0x0#12
  | .modea m a b => 0x8#12 ++ m ++ a ++ b ++ 0x0#6
  | .modem m a b => 0x9#12 ++ m ++ a ++ b ++ 0x0#6
  | .xacq => 0xa00000#32
  | .xrel => 0xb00000#32
  | .yield => 0xc00000#32
  | .rejoin => 0xd00000#32
  | .fence k c => 0xe#12 ++ k ++ c ++ 0x0#12
  | .waitc l s c m => 0xf#12 ++ l ++ s ++ c ++ m ++ 0x0#4
  | .tick s => 0x10#12 ++ s ++ 0x0#14
  | .jmp s => 0x11#12 ++ s ++ 0x0#14
  | .callr s => 0x12#12 ++ s ++ 0x0#14
  | .bra o => 0x200#13 ++ o
  | .brz r o => 0x9#7 ++ r ++ o
  | .brnz r o => 0xa#7 ++ r ++ o
  | .brany r o => 0xb#7 ++ r ++ o
  | .brnone r o => 0xc#7 ++ r ++ o
  | .brall r o => 0xd#7 ++ r ++ o
  | .call o => 0x380#13 ++ o
  | .sadd d a b => 0x80#10 ++ d ++ a ++ b ++ 0x0#4
  | .ssub d a b => 0x81#10 ++ d ++ a ++ b ++ 0x0#4
  | .smul d a b => 0x82#10 ++ d ++ a ++ b ++ 0x0#4
  | .smulh d a b => 0x83#10 ++ d ++ a ++ b ++ 0x0#4
  | .smulhn d a b => 0x84#10 ++ d ++ a ++ b ++ 0x0#4
  | .sand d a b => 0x85#10 ++ d ++ a ++ b ++ 0x0#4
  | .sor d a b => 0x86#10 ++ d ++ a ++ b ++ 0x0#4
  | .sxor d a b => 0x87#10 ++ d ++ a ++ b ++ 0x0#4
  | .sandn d a b => 0x88#10 ++ d ++ a ++ b ++ 0x0#4
  | .sshl d a b => 0x89#10 ++ d ++ a ++ b ++ 0x0#4
  | .sshr d a b => 0x8a#10 ++ d ++ a ++ b ++ 0x0#4
  | .ssra d a b => 0x8b#10 ++ d ++ a ++ b ++ 0x0#4
  | .smin d a b => 0x8c#10 ++ d ++ a ++ b ++ 0x0#4
  | .smax d a b => 0x8d#10 ++ d ++ a ++ b ++ 0x0#4
  | .sminn d a b => 0x8e#10 ++ d ++ a ++ b ++ 0x0#4
  | .smaxn d a b => 0x8f#10 ++ d ++ a ++ b ++ 0x0#4
  | .sseq d a b => 0x90#10 ++ d ++ a ++ b ++ 0x0#4
  | .ssne d a b => 0x91#10 ++ d ++ a ++ b ++ 0x0#4
  | .sslt d a b => 0x92#10 ++ d ++ a ++ b ++ 0x0#4
  | .ssle d a b => 0x93#10 ++ d ++ a ++ b ++ 0x0#4
  | .ssltn d a b => 0x94#10 ++ d ++ a ++ b ++ 0x0#4
  | .sslen d a b => 0x95#10 ++ d ++ a ++ b ++ 0x0#4
  | .sclz d a => 0x96#10 ++ d ++ a ++ 0x0#10
  | .spopc d a => 0x97#10 ++ d ++ a ++ 0x0#10
  | .pand d a b => 0x98#10 ++ d ++ a ++ b ++ 0x0#4
  | .por d a b => 0x99#10 ++ d ++ a ++ b ++ 0x0#4
  | .pxor d a b => 0x9a#10 ++ d ++ a ++ b ++ 0x0#4
  | .pandn d a b => 0x9b#10 ++ d ++ a ++ b ++ 0x0#4
  | .pnot d a => 0x9c#10 ++ d ++ a ++ 0x0#10
  | .pmovs d a => 0x9d#10 ++ d ++ a ++ 0x0#10
  | .smovp d a => 0x9e#10 ++ d ++ a ++ 0x0#10
  | .pcnt d a b => 0x9f#10 ++ d ++ a ++ b ++ 0x0#4
  | .pfirst d a b => 0xa0#10 ++ d ++ a ++ b ++ 0x0#4
  | .saddi d a i => 0x30#8 ++ d ++ a ++ i
  | .sandi d a i => 0x31#8 ++ d ++ a ++ i
  | .sori d a i => 0x32#8 ++ d ++ a ++ i
  | .sxori d a i => 0x33#8 ++ d ++ a ++ i
  | .sshli d a n => 0x34#8 ++ d ++ a ++ 0x0#6 ++ n
  | .sshri d a n => 0x35#8 ++ d ++ a ++ 0x0#6 ++ n
  | .ssrai d a n => 0x36#8 ++ d ++ a ++ 0x0#6 ++ n
  | .smovi d p i => 0x37#8 ++ d ++ p ++ i
  | .sinsi d p i => 0x38#8 ++ d ++ p ++ i
  | .sseqi d a i => 0x39#8 ++ d ++ a ++ i
  | .sslti d a i => 0x3a#8 ++ d ++ a ++ i
  | .ssltni d a i => 0x3b#8 ++ d ++ a ++ i
  | .vadd m d a b => 0x80#9 ++ m ++ d ++ a ++ b
  | .vsub m d a b => 0x81#9 ++ m ++ d ++ a ++ b
  | .vmul m d a b => 0x82#9 ++ m ++ d ++ a ++ b
  | .vmulh m d a b => 0x83#9 ++ m ++ d ++ a ++ b
  | .vmad m d a b => 0x84#9 ++ m ++ d ++ a ++ b
  | .vand m d a b => 0x85#9 ++ m ++ d ++ a ++ b
  | .vor m d a b => 0x86#9 ++ m ++ d ++ a ++ b
  | .vxor m d a b => 0x87#9 ++ m ++ d ++ a ++ b
  | .vandn m d a b => 0x88#9 ++ m ++ d ++ a ++ b
  | .vshl m d a b => 0x89#9 ++ m ++ d ++ a ++ b
  | .vshr m d a b => 0x8a#9 ++ m ++ d ++ a ++ b
  | .vsra m d a b => 0x8b#9 ++ m ++ d ++ a ++ b
  | .vmin m d a b => 0x8c#9 ++ m ++ d ++ a ++ b
  | .vmax m d a b => 0x8d#9 ++ m ++ d ++ a ++ b
  | .vabs m d a => 0x8e#9 ++ m ++ d ++ a ++ 0x0#7
  | .vclz m d a => 0x8f#9 ++ m ++ d ++ a ++ 0x0#7
  | .vpopc m d a => 0x90#9 ++ m ++ d ++ a ++ 0x0#7
  | .vsel m d a b => 0x91#9 ++ m ++ d ++ a ++ b
  | .vcmpeq m d a b => 0x92#9 ++ m ++ d ++ a ++ b
  | .vcmpne m d a b => 0x93#9 ++ m ++ d ++ a ++ b
  | .vcmplt m d a b => 0x94#9 ++ m ++ d ++ a ++ b
  | .vcmple m d a b => 0x95#9 ++ m ++ d ++ a ++ b
  | .vadds m d a b => 0x96#9 ++ m ++ d ++ a ++ b
  | .vsubs m d a b => 0x97#9 ++ m ++ d ++ a ++ b
  | .vdot4 m d a b => 0x98#9 ++ m ++ d ++ a ++ b
  | .vdot8 m d a b => 0x99#9 ++ m ++ d ++ a ++ b
  | .vbfe m d a b => 0x9a#9 ++ m ++ d ++ a ++ b
  | .vbfi m d a b => 0x9b#9 ++ m ++ d ++ a ++ b
  | .vfadd m d a b => 0xa0#9 ++ m ++ d ++ a ++ b
  | .vfsub m d a b => 0xa1#9 ++ m ++ d ++ a ++ b
  | .vfmul m d a b => 0xa2#9 ++ m ++ d ++ a ++ b
  | .vfma m d a b => 0xa3#9 ++ m ++ d ++ a ++ b
  | .vfmin m d a b => 0xa4#9 ++ m ++ d ++ a ++ b
  | .vfmax m d a b => 0xa5#9 ++ m ++ d ++ a ++ b
  | .vfneg m d a => 0xa6#9 ++ m ++ d ++ a ++ 0x0#7
  | .vfabs m d a => 0xa7#9 ++ m ++ d ++ a ++ 0x0#7
  | .vfcmpeq m d a b => 0xa8#9 ++ m ++ d ++ a ++ b
  | .vfcmplt m d a b => 0xa9#9 ++ m ++ d ++ a ++ b
  | .vfcmple m d a b => 0xaa#9 ++ m ++ d ++ a ++ b
  | .vfcmpun m d a b => 0xab#9 ++ m ++ d ++ a ++ b
  | .vfrcp m d a => 0xac#9 ++ m ++ d ++ a ++ 0x0#7
  | .vfrsq m d a => 0xad#9 ++ m ++ d ++ a ++ 0x0#7
  | .vfexp2 m d a => 0xae#9 ++ m ++ d ++ a ++ 0x0#7
  | .vflog2 m d a => 0xaf#9 ++ m ++ d ++ a ++ 0x0#7
  | .vfdot4 m d a b => 0xb0#9 ++ m ++ d ++ a ++ b
  | .vfdot8 m d a b => 0xb1#9 ++ m ++ d ++ a ++ b
  | .vfscl m d a b => 0xb2#9 ++ m ++ d ++ a ++ b
  | .vfcvt m d a t => 0xb3#9 ++ m ++ d ++ a ++ t
  | .vfpk4 m d a => 0xb4#9 ++ m ++ d ++ a ++ 0x0#7
  | .vfclass m d a => 0xb5#9 ++ m ++ d ++ a ++ 0x0#7
  | .vfrnd m d a => 0xb6#9 ++ m ++ d ++ a ++ 0x0#7
  | .vmov m d a => 0xc0#9 ++ m ++ d ++ a ++ 0x0#7
  | .vmovs m d a => 0xc1#9 ++ m ++ d ++ a ++ 0x0#7
  | .vrdlane m d a b => 0xc2#9 ++ m ++ d ++ a ++ b
  | .vbcst m d a b => 0xc3#9 ++ m ++ d ++ a ++ b
  | .vshfl m d a b => 0xc4#9 ++ m ++ d ++ a ++ b
  | .vqswz m d a p => 0xc5#9 ++ m ++ d ++ a ++ p
  | .vqsum m d a => 0xc6#9 ++ m ++ d ++ a ++ 0x0#7
  | .vprfx m d a e => 0xc7#9 ++ m ++ d ++ a ++ 0x0#6 ++ e
  | .vcmpct m d a => 0xc8#9 ++ m ++ d ++ a ++ 0x0#7
  | .vredadd m d a => 0xc9#9 ++ m ++ d ++ a ++ 0x0#7
  | .vredmin m d a => 0xca#9 ++ m ++ d ++ a ++ 0x0#7
  | .vredmax m d a => 0xcb#9 ++ m ++ d ++ a ++ 0x0#7
  | .vlaneid m d => 0xcc#9 ++ m ++ d ++ 0x0#14
  | .vaddi m d a i => 0x38#7 ++ m ++ d ++ a ++ i
  | .vandi m d a i => 0x39#7 ++ m ++ d ++ a ++ i
  | .vori m d a i => 0x3a#7 ++ m ++ d ++ a ++ i
  | .vxori m d a i => 0x3b#7 ++ m ++ d ++ a ++ i
  | .vshli m d a n => 0x3c#7 ++ m ++ d ++ a ++ 0x0#4 ++ n
  | .vshri m d a n => 0x3d#7 ++ m ++ d ++ a ++ 0x0#4 ++ n
  | .vsrai m d a n => 0x3e#7 ++ m ++ d ++ a ++ 0x0#4 ++ n
  | .vmovi m d i => 0x3f#7 ++ m ++ d ++ 0x0#7 ++ i
  | .vld m d b x c => 0x80#8 ++ m ++ d ++ b ++ x ++ c
  | .vld8 m d b x c => 0x81#8 ++ m ++ d ++ b ++ x ++ c
  | .vld16 m d b x c => 0x82#8 ++ m ++ d ++ b ++ x ++ c
  | .vld64 m d b x c => 0x83#8 ++ m ++ d ++ b ++ x ++ c
  | .vld128 m d b x c => 0x84#8 ++ m ++ d ++ b ++ x ++ c
  | .vst m d b x c => 0x85#8 ++ m ++ d ++ b ++ x ++ c
  | .vst8 m d b x c => 0x86#8 ++ m ++ d ++ b ++ x ++ c
  | .vst16 m d b x c => 0x87#8 ++ m ++ d ++ b ++ x ++ c
  | .vst64 m d b x c => 0x88#8 ++ m ++ d ++ b ++ x ++ c
  | .vst128 m d b x c => 0x89#8 ++ m ++ d ++ b ++ x ++ c
  | .vldm m d b x c => 0x8a#8 ++ m ++ d ++ b ++ x ++ c
  | .vstm m d b x c => 0x8b#8 ++ m ++ d ++ b ++ x ++ c
  | .sld d b m o => 0x120#9 ++ d ++ b ++ m ++ o
  | .sld32 d b m o => 0x121#9 ++ d ++ b ++ m ++ o
  | .sst d b m o => 0x122#9 ++ d ++ b ++ m ++ o
  | .sst32 d b m o => 0x123#9 ++ d ++ b ++ m ++ o
  | .sldm d b m o => 0x124#9 ++ d ++ b ++ m ++ o
  | .sstm d b m o => 0x125#9 ++ d ++ b ++ m ++ o
  | .scas d b m o => 0x126#9 ++ d ++ b ++ m ++ o
  | .samo d b m o => 0x127#9 ++ d ++ b ++ m ++ o
  | .binit d b m o => 0x128#9 ++ d ++ b ++ m ++ o
  | .barv d b m o => 0x129#9 ++ d ++ b ++ m ++ o
  | .barb d b m o => 0x12a#9 ++ d ++ b ++ m ++ o
  | .waitp d b m o => 0x12b#9 ++ d ++ b ++ m ++ o
  | .bphase d b m o => 0x12c#9 ++ d ++ b ++ m ++ o
  | .bind d b m o => 0x12d#9 ++ d ++ b ++ m ++ o
  | .unbind d b m o => 0x12e#9 ++ d ++ b ++ m ++ o
  | .rgacq d b m o => 0x12f#9 ++ d ++ b ++ m ++ o
  | .rgrel b m o => 0x4c00#15 ++ b ++ m ++ o
  | .tkwait b m o => 0x4c40#15 ++ b ++ m ++ o
  | .tkpass b m o => 0x4c80#15 ++ b ++ m ++ o
  | .vaadd m d a b => 0x140#9 ++ m ++ d ++ a ++ b
  | .vamin m d a b => 0x141#9 ++ m ++ d ++ a ++ b
  | .vamax m d a b => 0x142#9 ++ m ++ d ++ a ++ b
  | .vaand m d a b => 0x143#9 ++ m ++ d ++ a ++ b
  | .vaor m d a b => 0x144#9 ++ m ++ d ++ a ++ b
  | .vaxor m d a b => 0x145#9 ++ m ++ d ++ a ++ b
  | .vaxch m d a b => 0x146#9 ++ m ++ d ++ a ++ b
  | .vacas m d a b => 0x147#9 ++ m ++ d ++ a ++ b
  | .vafadd m d a b => 0x148#9 ++ m ++ d ++ a ++ b
  | .vradd m a b => 0x149#9 ++ m ++ 0x0#7 ++ a ++ b
  | .vrfadd m a b => 0x14a#9 ++ m ++ 0x0#7 ++ a ++ b
  | .vrmin m a b => 0x14b#9 ++ m ++ 0x0#7 ++ a ++ b
  | .vrmax m a b => 0x14c#9 ++ m ++ 0x0#7 ++ a ++ b
  | .vrx96 m a b => 0x14d#9 ++ m ++ 0x0#7 ++ a ++ b
  | .accz t m a r => 0x160#9 ++ t ++ 0x0#8 ++ m ++ a ++ 0x0#3 ++ r
  | .accza t m => 0x161#9 ++ t ++ 0x0#8 ++ m ++ 0x0#10
  | .obres h m d => 0xb10#12 ++ h ++ 0x0#4 ++ m ++ d ++ 0x0#4
  | .obrel h m => 0xb18#12 ++ h ++ 0x0#4 ++ m ++ 0x0#10
  | .obld h c m s x => 0xb20#12 ++ h ++ c ++ m ++ s ++ 0x0#3 ++ x
  | .obwin h m s => 0xb28#12 ++ h ++ 0x0#4 ++ m ++ s ++ 0x0#4
  | .mma t a b m j g o v u => 0x166#9 ++ t ++ a ++ b ++ m ++ j ++ g ++ o ++ v ++ u
  | .mmac t a b m j h v u => 0x167#9 ++ t ++ a ++ b ++ m ++ j ++ 0x0#4 ++ h ++ v ++ u
  | .jset m s => 0xb4000#20 ++ m ++ s ++ 0x0#4
  | .accrd t d m p => 0x169#9 ++ t ++ 0x0#1 ++ d ++ m ++ p ++ 0x0#7
  | .accwr t a m p => 0x16a#9 ++ t ++ 0x0#1 ++ a ++ m ++ p ++ 0x0#7
  | .accst t c g h m s x => 0x16b#9 ++ t ++ 0x0#1 ++ c ++ g ++ h ++ m ++ s ++ x ++ 0x0#3
  | .accadd t u m => 0x16c#9 ++ t ++ 0x0#1 ++ u ++ 0x0#4 ++ m ++ 0x0#10
  | .sealm m d => 0xb6800#20 ++ m ++ d ++ 0x0#4
  | .cpt a b c m x q => 0x180#9 ++ a ++ b ++ c ++ m ++ x ++ q
  | .cptt a b c m x q => 0x181#9 ++ a ++ b ++ c ++ m ++ x ++ q
  | .cpl a b c m q => 0x182#9 ++ a ++ b ++ c ++ m ++ 0x0#1 ++ q
  | .cpg a b c m q => 0x183#9 ++ a ++ b ++ c ++ m ++ 0x0#1 ++ q
  | .cps a b c m x q => 0x184#9 ++ a ++ b ++ c ++ m ++ x ++ q
  | .wsig a b c m x q => 0x185#9 ++ a ++ b ++ c ++ m ++ x ++ q
  | .lrfl a m => 0x186#9 ++ a ++ 0x0#12 ++ m ++ 0x0#3
  | .lrins a m => 0x187#9 ++ a ++ 0x0#12 ++ m ++ 0x0#3
  | .sealc a m => 0x188#9 ++ a ++ 0x0#12 ++ m ++ 0x0#3
  | .qfence k m => 0x624#11 ++ k ++ 0x0#12 ++ m ++ 0x0#3
  | .hgrd a b c m q => 0x18a#9 ++ a ++ b ++ c ++ m ++ 0x0#1 ++ q
  | .spawn a b m p => 0x1a0#9 ++ a ++ b ++ 0x0#6 ++ m ++ 0x0#1 ++ p
  | .spawnd a b m p => 0x1a1#9 ++ a ++ b ++ 0x0#6 ++ m ++ 0x0#1 ++ p
  | .dcinit a m => 0x1a2#9 ++ a ++ 0x0#12 ++ m ++ 0x0#3
  | .dcdec a m => 0x1a3#9 ++ a ++ 0x0#12 ++ m ++ 0x0#3
  | .wlpush a b m => 0x1a4#9 ++ a ++ b ++ 0x0#6 ++ m ++ 0x0#3
  | .wlpull a b c m => 0x1a5#9 ++ a ++ b ++ c ++ m ++ 0x0#3
  | .quiesce a m => 0x1a6#9 ++ a ++ 0x0#12 ++ m ++ 0x0#3
  | .glaunch a b m => 0x1a7#9 ++ a ++ b ++ 0x0#6 ++ m ++ 0x0#3
  | .trrec a b m => 0x1a8#9 ++ a ++ b ++ 0x0#6 ++ m ++ 0x0#3
  | .trstop a m => 0x1a9#9 ++ a ++ 0x0#12 ++ m ++ 0x0#3
  | .propagate a b m => 0x1aa#9 ++ a ++ b ++ 0x0#6 ++ m ++ 0x0#3
  | .mdecl a b m => 0x1ab#9 ++ a ++ b ++ 0x0#6 ++ m ++ 0x0#3
  | .trdrop m => 0x6b00000#27 ++ m ++ 0x0#3
  | .trstat a b m => 0x1ad#9 ++ a ++ b ++ 0x0#6 ++ m ++ 0x0#3
  | .svgrid a b m => 0xe0#8 ++ a ++ b ++ 0x0#6 ++ m ++ 0x0#4
  | .svbin a b m => 0xe1#8 ++ a ++ b ++ 0x0#6 ++ m ++ 0x0#4
  | .svpair a b c m f => 0xe2#8 ++ a ++ b ++ c ++ m ++ 0x0#3 ++ f
  | .svpull a b c m => 0xe3#8 ++ a ++ b ++ c ++ m ++ 0x0#4
  | .svstat a b m => 0xe4#8 ++ a ++ b ++ 0x0#6 ++ m ++ 0x0#4
  | .svcheck a b m => 0xe5#8 ++ a ++ b ++ 0x0#6 ++ m ++ 0x0#4
  | .svclr a m => 0xe6#8 ++ a ++ 0x0#12 ++ m ++ 0x0#4
  | _ => 0xFFFFFFFF#32

end Sys2Proof
end

