-- ==== Sys2Proof/Machine/State.lean ====
section
/-! DEFINITION. The state of one Kwakor K9 module (R1, R8 to R24 and every chapter that gives it a register, a memory,
a queue or a record), as plain data.

A sparse list of (index, value) pairs holds a register file or a memory: its keys rise and it lists no entry equal to
what an unlisted index reads as (zero in all of them).  A list whose head is the one in use: `waves` (the issuing
wave) and `subs` of a wave (the issuing sub-wave).  Numbers named id are the model's own names of operations. -/

namespace Sys2Proof.Machine

/-- A step of this model never stops with a fault: every fault of the K9 is a state it goes on from (R221 to R228). -/
inductive Fault where
  deriving DecidableEq, Repr

/-- Why a step has no meaning. -/
inductive Refusal where
  /-- Raised by an arm of the dispatch that has no meaning yet; safe, since the machine then has no next state. -/
  | notModelled (mnemonic : String)
  deriving DecidableEq, Repr

/-- Byte memory: (address, byte) pairs in canonical form; an unlisted address reads as zero (R421 steps 4 and 5). -/
abbrev Memory := List Host.Cell

/-- A register file held as its nonzero entries. -/
abbrev Regs (w : Nat) := List (Nat × BitVec w)

/-! ## Sub-waves, waits and tasks -/

/-- What a sub-wave is doing (R106, R109, R113). -/
inductive SubState where
  /-- It may issue at its program counter. -/
  | ready
  /-- Parked at a `rejoin` (R109). -/
  | parked
  /-- Parked in `waitp` or `barb` on phase `phase` of the object at `obj`, which it named `va`, to go on at `cont` (R113). -/
  | waiting (obj : Nat) (phase : W32) (cont : W64) (va : W64)
  /-- Its instruction waits for the home to answer access `acc`; only this sub-wave waits. -/
  | atHome (acc : Nat)
  /-- At an `end` that waits for what was issued before number `seq` (R131). -/
  | ending (seq : Nat)
  /-- Waiting in `xacq` (R118, R139). -/
  | forBlock
  deriving DecidableEq, Repr

/-- A sub-wave: quads with one program counter (R106). -/
structure SubWave where
  quads : BitVec 8
  pc : W64
  st : SubState
  deriving DecidableEq, Repr

/-- The task that a lane of a task wave runs (R304, R308, R320, R349). -/
structure TaskRef where
  key : W64
  entry : W64
  args : List W32
  /-- The dependency counter that held it, if any. -/
  ctr : Option Nat
  prio : Nat
  /-- Unit offset of its Strata task record, or 0 when it is untraced (R347). -/
  trace : Nat
  /-- It has made a spawn (R349). -/
  spawned : Bool
  /-- Successor places (0 to 3) whose decrement is done (R320). -/
  decDone : List Nat
  deriving DecidableEq, Repr

/-- An engine operation or record request that a wave asks for (R17, R244, R383, R359). -/
inductive EngKind where
  | cpt | cptt | cpl | cpg | cps | wsig | hgrd | qfence
  | svgrid | svbin | svpair | svstat | svcheck
  | trrec | trstop | propagate | mdecl | trdrop | trstat
  | lrfl | lrins
  deriving DecidableEq, Repr

/-- Who owns a set of queues: a group of a grid, or the task waves of a context on a core (R235). -/
inductive Owner where
  | group (gid : Nat)
  | core (core : Nat)
  deriving DecidableEq, Repr

/-- What the issuer of an engine operation leaves with it (R227, R257, R36). -/
structure Issuer where
  ctx : Nat
  wave : Nat
  /-- Identity I of R34, lane bits zero for a grid wave. -/
  ident : W64
  pc : W64
  /-- Logical group index, all ones for a task (R227). -/
  group : Nat
  core : Nat
  task : Bool
  /-- Identity of the leader lane, and its grain counter at issue (R36, R248). -/
  laneIdent : W64
  grain0 : W32
  /-- Value of the mode slot in use. -/
  slot : W32
  /-- Issue number: the wave's writes before it have smaller ones (R74). -/
  seq : Nat
  deriving DecidableEq, Repr

/-- An engine operation as it is queued: its kind, its operands (the leader's scalars) and its flag. -/
structure EngReq where
  kind : EngKind
  owner : Owner
  queue : Nat
  /-- Operand values in the order of the instruction's fields (a pair gives two). -/
  ops : List W64
  flag : Bool
  /-- Scalar destination of `svgrid`, `svstat`, `trstop`, `propagate` and `trstat`. -/
  dst : Nat
  by_ : Issuer
  deriving DecidableEq, Repr

/-- A wave-wide wait: no sub-wave of the wave issues (R17, R141, R143, R210, R292, R319). -/
inductive WaveWait where
  | none
  /-- At an instruction that issues again until its condition holds; the quads of the sub-wave that waits. -/
  | again (quads : BitVec 8)
  /-- At an instruction that issues again once what it needs can accept it (R120); other sub-waves may be offered meanwhile. -/
  | stall (quads : BitVec 8)
  /-- The home answers access `acc` (R453, R210, R319, R350). -/
  | home (acc : Nat)
  /-- A full queue: the request that it will accept (R17). -/
  | queue (req : EngReq)
  /-- A Strata request or a record-cache request is under way (R251, R252, R360). -/
  | request (id : Nat)
  /-- In a joint latch (R292). -/
  | joint (members : BitVec 16) (tag : BitVec 4)
  /-- Waiting for granules, a tile (R281, R286). -/
  | grant
  /-- In `quiesce`, whose result goes to `dst` (R330). -/
  | quiesce (dst : Nat)
  deriving DecidableEq, Repr

/-- Why a wave is halted (R222, R224, R232, R428). -/
inductive Halt where
  | running
  | preempted
  | breakpoint
  | unhandled
  deriving DecidableEq, Repr

/-- A sealed batch: its number, its operations, and the address of its `sealc` or `sealm` (R253, R294, R430). -/
structure Batch where
  num : BitVec 16
  ops : List Nat
  pc : W64
  deriving DecidableEq, Repr

/-! ## The matrix engine's state (R279, R285) -/

/-- A cell's state (R52). -/
inductive CellState where
  | finite | posInf | negInf | nan
  deriving DecidableEq, Repr

/-- An ACC96 cell (R52). -/
structure Cell where
  n : BitVec 96
  st : CellState
  deriving DecidableEq, Repr

/-- An accumulator tile; cells that are not listed are finite with N = 0 (R285). -/
structure Tile where
  name : Nat
  cells : List (Nat × Cell)
  anchor : BitVec 12
  aset : Bool
  rounding : Nat
  flags : BitVec 8
  deriving DecidableEq, Repr

/-- An operand-buffer reservation (R279 to R284). -/
structure Reservation where
  handle : Nat
  desc : W64
  /-- First granule of its run, and granules. -/
  base : Nat
  grans : Nat
  /-- Source address when it is a window (R284). -/
  window : Option Nat
  bytes : Memory
  deriving DecidableEq, Repr

/-! ## Waves -/

/-- A wave: the state that it holds once for all its lanes, and its lanes' registers (R104 to R128). -/
structure Wave where
  id : Nat
  ctx : Nat
  task : Bool
  /-- Grid ordinal, the model's id of its group, logical group index and wave index in the group (R123). -/
  ord : Nat
  gid : Nat
  group : Nat
  widx : Nat
  core : Nat
  quad : Nat
  slot : Nat
  sregs : Regs 64
  /-- Register r of lane L is entry 32 r + L. -/
  vregs : Regs 32
  preds : Regs 32
  modes : Regs 32
  flags : BitVec 8
  livemask : W32
  trapCause : BitVec 16
  trapPc : W64
  trapVal : W64
  joint : BitVec 16
  /-- kCORES, kNGROUPS and kNLANES as the launch gave them (R123, R234). -/
  kcores : W32
  kngroups : W32
  knlanes : W32
  /-- The quads of the trap handler's sub-wave while it runs (R222). -/
  handler : Option (BitVec 8)
  ext : Bool
  working : W32
  live : BitVec 8
  grain : Regs 32
  tasks : List (Nat × TaskRef)
  subs : List SubWave
  unsealedC : List Nat
  batchesC : List Batch
  nextC : BitVec 16
  unsealedM : List Nat
  batchesM : List Batch
  nextM : BitVec 16
  halt : Halt
  wait : WaveWait
  /-- Tick of its last issue, and of becoming resident; it is not ready before tick `notBefore`: the clk after an issue, one
  more after a `yield` (R121, R122). -/
  lastIssue : Nat
  notBefore : Nat
  /-- Since when it has been ready without a break (R121). -/
  readySince : Option Nat
  /-- Flags that operations in flight have set at tick `lateTick`: a `setk` in that clk comes before them (R43). -/
  lateFlags : BitVec 8
  lateTick : Nat
  rsv : List Reservation
  tiles : List Tile
  /-- Registers with an uncorrectable ECC error: (lane, file, index) of R226. -/
  eccRegs : List (Nat × Nat × Nat)
  /-- Registers with a correctable ECC error (R226, R424). -/
  eccSoft : List (Nat × Nat × Nat)
  deriving DecidableEq, Repr

/-! ## Accesses in flight (R60 to R73, R142) -/

/-- What an access in flight does when it is performed. -/
inductive AccKind where
  /-- Loads; `signed` extends a narrow element (R190); `scalar` writes a scalar register. -/
  | load (signed : Bool) (scalar : Bool)
  | store
  /-- Returning vector atomic with the minor code of R200. -/
  | vatomic (minor : Nat)
  /-- `vafadd` that determinism mode holds in the group's drain buffer (R266). -/
  | drained
  /-- Non-returning reduction with the minor code of R260. -/
  | red (minor : Nat)
  | scas
  | samo (op : Nat)
  /-- `binit`: expected and expected bytes (R204). -/
  | binit (expected : W32) (expbytes : W64)
  /-- `barv` and `barb`: the arrivers' identities; `wait` is set for `barb` (R205). -/
  | arrive (idents : List W64) (wait : Bool)
  /-- `waitp` check of a phase (R207). -/
  | check (phase : W32)
  | bphase
  | rgacq
  | rgrel
  | tkpass
  /-- `bind` (base, length, lock flag) waiting for every core to hold it (R210). -/
  | bind (base : Nat) (len : Nat) (lock : Bool)
  /-- `dcdec` and the decrements of an `end`, waiting for their counter messages (R319, R320). -/
  | decs (ending : Bool)
  /-- `wlpull` on its way to the list's home (R328). -/
  | wlpull
  deriving DecidableEq, Repr

/-- One single-copy-atomic piece of an access (R62). -/
structure AccUnit where
  lane : Nat
  /-- Slice-space address (a window address is held by its alias, R23). -/
  addr : Nat
  size : Nat
  /-- Named through the group window (R66). -/
  win : Bool
  data : W64
  /-- Compare value or second operand. -/
  data2 : W64
  /-- First destination register. -/
  reg : Nat
  helper : Bool
  /-- Draws carried by a rounding update (R201). -/
  draw : W64
  done : Bool
  /-- A load's value has been taken at the home and waits for its sector (R61, R194). -/
  taken : Bool
  value : W64
  deriving DecidableEq, Repr

/-- An access in flight. -/
structure Access where
  id : Nat
  wave : Nat
  /-- Of its wave, which may end before the access is performed: context, core, and the identity and queue field of a
  report (R227). -/
  ctx : Nat
  core : Nat
  ident : W64
  queue : Nat
  pc : W64
  kind : AccKind
  traced : Bool
  slot : W32
  acq : Bool
  rel : Bool
  scope : Nat
  /-- Counted in ld, counted in st (R142). -/
  inLd : Bool
  inSt : Bool
  /-- Scalar destination, if any. -/
  sdst : Option Nat
  /-- Vector destination register (multi-register elements start here). -/
  vdst : Option Nat
  quads : BitVec 8
  units : List AccUnit
  deriving DecidableEq, Repr

/-- A write to a bound region held at its writer's core (R69, R70). -/
structure HeldWrite where
  wave : Nat
  addr : Nat
  bytes : List Byte
  deriving DecidableEq, Repr

/-- A byte written to a bound region, or landed by an engine, and the waves that must see it (R69, R79, R80). -/
structure Version where
  addr : Nat
  /-- The byte that it replaced, and the number of the write, which all its bytes share (R62). -/
  old : Byte
  nr : Nat
  by_ : Nat
  op : Nat
  /-- The landing of the operation that carried it (R78). -/
  land : Nat
  /-- The wave that issued the operation, and whether it has acquired the byte since (R69). -/
  issuer : Nat
  got : Bool
  /-- Released on this object, up to this phase or release number. -/
  obj : Nat
  seq : Nat
  released : Bool
  must : List Nat
  deriving DecidableEq, Repr

/-- A binding (R67). -/
structure Binding where
  base : Nat
  len : Nat
  obj : Nat
  lock : Bool
  deriving DecidableEq, Repr

/-- What the slice ALU keeps of a barrier object or lock word beside its bytes (R202, R206, R68). -/
structure ObjRec where
  addr : Nat
  candidate : Option W64
  elected : Option W64
  /-- Releases of a lock word so far (R68). -/
  releases : Nat
  /-- Landings counted, with the phase that counted them (R79). -/
  counted : List (Nat × Nat)
  /-- The tick at which bytes were counted last: an arrival that reaches the home in that clk came before them (R19). -/
  landTick : Option Nat
  deriving DecidableEq, Repr

/-! ## Reductions (R259, R266) -/

/-- One update merged in a combiner entry: its wave, its lane's identity and value, and its draws. -/
structure Upd where
  wave : Nat
  ident : W64
  value : W32
  draw : W64
  /-- The access and its unit that the update serves, and its instruction. -/
  acc : Nat
  unit : Nat
  pc : W64
  /-- The scope of a release that the drain buffer holds; none for any other (R73). -/
  rel : Option Nat
  deriving DecidableEq, Repr

/-- A combiner entry, or a packet on its way to the home (R259). -/
structure RedEntry where
  id : Nat
  ctx : Nat
  owner : Owner
  core : Nat
  addr : Nat
  win : Bool
  /-- Minor code 9 to 13 of R260. -/
  minor : Nat
  /-- Type, rounding, saturate and flush of the slot: bits [12:4]. -/
  slot : W32
  upds : List Upd
  since : Nat
  seq : Nat
  sent : Bool
  deriving DecidableEq, Repr

/-- An entry of a group's drain buffer (R266). -/
structure DrainEntry where
  /-- The `vafadd` access, unit and identity it belongs to, or none for a `vrfadd` entry. -/
  acc : Option (Nat × Nat)
  widx : Nat
  seq : Nat
  lane : Nat
  addr : Nat
  slot : W32
  upds : List Upd
  /-- The port has been asked for its transfer (R399). -/
  asked : Bool
  deriving DecidableEq, Repr

/-- A wave that has entered a joint latch: its id, tile, handles of A and B, K-step, transposes and mode slot (R292). -/
structure LatchEntry where
  wave : Nat
  tile : Nat
  a : Nat
  b : Nat
  step : Nat
  ta : Bool
  tb : Bool
  slot : W32
  deriving DecidableEq, Repr

/-- An open joint latch (R292): the waves that entered it, with their operands. -/
structure Latch where
  members : BitVec 16
  tag : BitVec 4
  entered : List LatchEntry
  deriving DecidableEq, Repr

/-! ## Grids and groups -/

/-- A launched grid (R123, R124, R413). -/
structure Grid where
  id : Nat
  ctx : Nat
  ord : Nat
  nlanes : Nat
  ngroups : Nat
  spill : Nat
  cluster : Bool
  migratable : Bool
  entry : W64
  modes : List W32
  slice : Nat
  kernel : Nat
  args : List W64
  /-- Launched by `glaunch` (R331). -/
  device : Bool
  /-- kCORES of its waves (R123, R234). -/
  kcores : Nat
  /-- The object and phase that a device launch awaits, and the wave, issue number and core of its release (R331). -/
  waits : Option (Nat × W32)
  hold : Option (Nat × Nat × Nat)
  /-- Groups started (by logical index), groups that have ended. -/
  started : List Nat
  ended : List Nat
  deriving DecidableEq, Repr

/-- A resident group (R15, R23). -/
structure Group where
  id : Nat
  ctx : Nat
  grid : Nat
  ord : Nat
  index : Nat
  core : Nat
  win : Nat
  winLen : Nat
  spill : Nat
  spillLen : Nat
  drain : List DrainEntry
  latches : List Latch
  passed : Bool
  deriving DecidableEq, Repr

/-! ## Slip (R235 to R258) -/

/-- Where a queued Slip or Sieve operation stands. -/
inductive OpState where
  | queued
  | running
  /-- Stopped on a fault of sector `fsect` at `addr` (R255). -/
  | stopped (fsect : Nat) (addr : Nat)
  deriving DecidableEq, Repr

/-- A Slip operation. -/
structure SlipOp where
  id : Nat
  req : EngReq
  die : Nat
  st : OpState
  /-- Record, descriptor and list as read when it began (R240, R243). -/
  record : List Byte
  desc : List Byte
  list : List Byte
  /-- Sectors in all, sectors performed, bytes counted. -/
  total : Nat
  done : List Nat
  counted : Nat
  /-- Elements of an atomic scatter applied (R274). -/
  applied : Nat
  /-- Address of its progress record, or 0 (R255). -/
  progress : Nat
  /-- The batch that holds it, once sealed (R253). -/
  batch : Option (BitVec 16)
  /-- Sectors whose port transfers have been asked for (R246, R399). -/
  asked : Nat
  deriving DecidableEq, Repr

/-- A record-cache entry of a die (R240). -/
structure CacheEntry where
  ctx : Nat
  die : Nat
  handle : Nat
  pinned : Bool
  bytes : List Byte
  used : Nat
  deriving DecidableEq, Repr

/-- Bytes of an engine operation performed and not yet counted at their object (R78, R385). -/
structure Landing where
  id : Nat
  ctx : Nat
  obj : Nat
  bytes : Nat
  op : Nat
  /-- Of a report about it: source, queue field, issuer and pc (R227). -/
  source : Nat
  queue : Nat
  wave : Nat
  ident : W64
  pc : W64
  deriving DecidableEq, Repr

/-! ## Matrix operations (R275, R278) -/

/-- A matrix operation in flight. -/
inductive MatKind where
  | mma (a b step : Nat) (ta tb : Bool)
  | mmac (a b step : Nat) (ta tb hi : Bool)
  /-- A joint product: B's panel is the lowest member's (wave, handle, step, tb); the operations of one closing share the
  number `set` (R292). -/
  | joint (a : Nat) (ta : Bool) (bwave b step : Nat) (tb : Bool) (set : Nat)
  /-- Destination and part; grain counters of the Active lanes at issue. -/
  | accrd (reg part : Nat) (draws : List (Nat × W32))
  /-- Values of the Active lanes: (lane, register). -/
  | accwr (part : Nat) (vals : List (Nat × W32))
  | accadd (src : Nat)
  | accst (addr : Nat) (win : Bool) (cls : Bool) (tag : Nat) (hist : Option Nat)
  /-- The ranges still to fill, by bit of the target mask (64 for the issuer's own), and the bytes once read. -/
  | obld (handle : Nat) (addr : Nat) (win : Bool) (obj : Nat) (left : List Nat) (data : List Byte)
  deriving DecidableEq, Repr

/-- A matrix operation with its issuer. -/
structure MatOp where
  id : Nat
  wave : Nat
  tile : Nat
  kind : MatKind
  active : W32
  by_ : Issuer
  deriving DecidableEq, Repr

/-! ## Tilth (R304 to R331) -/

/-- Where a task entry stands (R305). -/
inductive TaskState where
  | arriving | held | ready | spilled
  | binned (bin : Nat)
  /-- A continuation whose frame is still being waited on, on this object and phase (R115). -/
  | waiting (obj : Nat) (phase : W32)
  deriving DecidableEq, Repr

/-- A task that no lane runs: a pool entry (R308) or a continuation frame (R115). -/
structure Task where
  id : Nat
  ctx : Nat
  core : Nat
  st : TaskState
  ref : TaskRef
  /-- Its place in the order of its list. -/
  order : Nat
  /-- Index of its pool entry; unused by a continuation. -/
  entryIdx : Nat
  /-- Address of its continuation frame. -/
  frame : Option Nat
  /-- The object and phase that a continuation waited on, which its wave acquires (R79). -/
  acq : Option (Nat × W32)
  /-- The wave and issue number whose earlier writes its readiness waits for (R311). -/
  wave : Nat
  seq : Nat
  deriving DecidableEq, Repr

/-- A spawn bin (R323, R324). -/
structure Bin where
  id : Nat
  ctx : Nat
  core : Nat
  entry : W64
  /-- Tick at which the timer started, and at which it became ready to launch, if it is (R324). -/
  since : Nat
  expired : Option Nat
  deriving DecidableEq, Repr

/-- What a message to a counter's home does there (R316 to R318). -/
inductive CtrKind where
  /-- A registration of the task with this number. -/
  | register (task : Nat)
  /-- A decrement for unit `unit` of access `acc`. -/
  | decrement (acc : Nat) (unit : Nat)
  /-- `dcinit` of one record. -/
  | init (count : W32) (succ : List W32)
  deriving DecidableEq, Repr

/-- A message to a counter's home, with the release that it waits for (R311, R321). -/
structure CtrMsg where
  id : Nat
  ctx : Nat
  core : Nat
  ctr : Nat
  kind : CtrKind
  wave : Nat
  seq : Nat
  /-- The decrementer's identity (R318). -/
  ident : W64
  deriving DecidableEq, Repr

/-- A compaction packet (R327). -/
structure WlPacket where
  id : Nat
  ctx : Nat
  die : Nat
  table : Nat
  list : Nat
  items : List W32
  since : Nat
  sent : Bool
  /-- The waves and issue numbers whose earlier writes it waits for (R311). -/
  rels : List (Nat × Nat)
  deriving DecidableEq, Repr

/-! ## Sieve (R371 to R392) -/

/-- Where a stream stands (R381, R392): cell, member a, offset, member b; candidates visited; whether a coordinate was not finite. -/
structure StreamAt where
  cell : Nat
  a : Nat
  offset : Nat
  b : Nat
  visited : Nat
  bad : Bool
  /-- The particles whose coordinates were read since the last record (R390, R399). -/
  reads : List Nat
  deriving DecidableEq, Repr

/-- The bins as they are built (R378): members of the cells' slots, overflow entries as (particle, cell), the marks, the particles'
binned positions. -/
structure Binning where
  slots : List (Nat × List Nat)
  ovf : List (Nat × Nat)
  overfull : Bool
  bad : Bool
  refs : List (List Byte)
  deriving DecidableEq, Repr

/-- A Sieve operation: its request, the cursor of a stream, the bins of an `svbin` and the particles an `svcheck` has counted, which a
page fault leaves where they are (R391). -/
structure SieveOp where
  id : Nat
  req : EngReq
  die : Nat
  st : OpState
  grid : List Byte
  cursor : StreamAt
  /-- Records written; stop asked by `svclr`. -/
  written : Nat
  stop : Bool
  binning : Binning
  /-- Particles checked, and the stale ones among them (R389). -/
  checked : Nat
  stale : Nat
  /-- How many of its rounds of transfers it has asked its port for (R399). -/
  asked : Nat
  refused : Nat
  deriving DecidableEq, Repr

/-! ## Strata (R335 to R368) -/

/-- A task record (R338); links are unit offsets. -/
structure TTask where
  off : Nat
  parent : Nat
  children : List Nat
  entry : W64
  args : List W32
  key : W64
  scount : Nat
  stale : Bool
  new_ : Bool
  ended : Bool
  depth : Nat
  /-- Spawn order among siblings of the root: (grid ordinal, wave index, issue, lane) (R348). -/
  order : List Nat
  deriving DecidableEq, Repr

/-- A read record (R339): newest first in the list of its word. -/
structure TRead where
  off : Nat
  task : Nat
  word : W32
  deriving DecidableEq, Repr

/-- A write record (R339); `held` while a propagation holds it (R354, R357). -/
structure TWrite where
  off : Nat
  task : Nat
  word : W32
  old : W32
  new_ : W32
  /-- 0 current, 1 in OW, 2 held by a provisional overwrite. -/
  held : Nat
  deriving DecidableEq, Repr

/-- A declared region (R341). -/
structure TRegion where
  base : Nat
  len : Nat
  shadow : Nat
  deriving DecidableEq, Repr

/-- The walk of a propagation (R353 to R357). -/
structure Walk where
  /-- The number of its request. -/
  id : Nat
  /-- The task being visited. -/
  visit : Nat
  /-- The task being re-executed, and the waves that the walk has launched. -/
  cur : Option Nat
  waves : List Nat
  oldChildren : List Nat
  matched : List Nat
  cursor : Nat
  obj : Nat
  by_ : Issuer
  deriving DecidableEq, Repr

/-- A context's trace (R335 to R341). -/
structure Trace where
  /-- 0 none, 1 recording, 2 live, 3 propagating, 4 invalid. -/
  state : Nat
  result : Nat
  base : Nat
  len : Nat
  tasks : List TTask
  reads : List TRead
  writes : List TWrite
  /-- (word, task record) of every word that has a writer (R340). -/
  writers : List (Nat × Nat)
  regions : List TRegion
  /-- Allocated runs of the heap: (first unit, units). -/
  used : List (Nat × Nat)
  walk : Option Walk
  /-- TRACE_FULL stopped a recording (R363). -/
  fullRec : Bool
  /-- A page of trace memory failed its walk: the unit waits for the host's resume (R336), and then clears the shadows of these words. -/
  stalled : Bool
  unclear : List Nat
  /-- Counts of the last propagation: rerun, spliced, discarded, created, reverted (R337). -/
  counts : List Nat
  deriving DecidableEq, Repr

/-- A Strata or record-cache request waiting to be performed (R251, R252, R360). -/
structure Request where
  id : Nat
  req : EngReq
  deriving DecidableEq, Repr

/-! ## Partitions, contexts and functions -/

/-- A partition record (R394). -/
structure Partition where
  quads : BitVec 512
  banks : BitVec 2048
  slip : BitVec 128
  sieve : BitVec 8
  vf : Nat
  secure : Bool
  maxctx : Nat
  floor : Nat
  ceiling : Nat
  weight : Nat
  grace : Nat
  killt : Nat
  deriving DecidableEq, Repr

/-- A context record as read at ctxcreate (R411, R306). -/
structure CtxRec where
  codebase : Nat
  codelen : Nat
  handler : W64
  gseed : W64
  det : Bool
  sealOnly : Bool
  sealEpoch : Nat
  ptroot : Nat
  fq : Nat
  fqlog : Nat
  frames : Nat
  ticket : Nat
  frameoff : Nat
  jobn : Nat
  jobself : Nat
  jobtab : Nat
  save : Nat
  savelen : Nat
  lq : Nat
  lqent : Nat
  gpooloff : Nat
  gpoollen : Nat
  pooloff : Nat
  poolent : Nat
  bintimer : Nat
  ctrcount : Nat
  ctrbase : Nat
  tasktab : Nat
  tasktabn : Nat
  deriving DecidableEq, Repr

/-- Where pre-emption of a context stands (R232): the tick at which the step began. -/
inductive Preempt where
  | none
  | soft (since : Nat)
  | halting (since : Nat)
  deriving DecidableEq, Repr

/-- An open profiling session: the function whose block opened it, its record, the tick at which it opened, the event codes read then,
and the counts of its events by code (R406, R431). -/
structure Session where
  fn : Nat
  record : Nat
  opened : Nat
  events : List Byte
  counts : List (Nat × Nat)
  deriving DecidableEq, Repr

/-- A context. -/
structure Context where
  id : Nat
  vf : Nat
  slot : Nat
  recAddr : Nat
  r : CtxRec
  sumflags : BitVec 8
  seq : Nat
  pre : Preempt
  bindings : List Binding
  held : List HeldWrite
  versions : List Version
  objs : List ObjRec
  modeMismatch : Nat
  /-- Decrements applied last: (counter, tick, identity of the decrementer), which order those of one clk (R317, R318). -/
  decs : List (Nat × Nat × W64)
  trace : Trace
  /-- The job table in force, as 4-byte entries (R415, R416). -/
  jobTable : List W32
  /-- The open sessions: one for each function whose block names the context (R406, R431). -/
  sessions : List Session
  deriving DecidableEq, Repr

/-- A watchpoint slot (R432). -/
structure Watch where
  ctl : W64
  who : W64
  where_ : W64
  len : W64
  deriving DecidableEq, Repr

/-- The registers of a function: VF 0 to 63, or the PF as number 64 (R409, R427). -/
structure Func where
  id : Nat
  cmd : Regs 64
  running : Bool
  status : BitVec 8
  detail : BitVec 8
  done : Bool
  icause : W64
  imask : W64
  erraddr : W64
  errcount : W64
  resetlog : W64
  resetlen : W64
  resetseq : W64
  apslot : W64
  apbase : W64
  ltail : Regs 64
  lhead : Regs 64
  partRec : Regs 8
  dctl : W64
  dslot : W64
  sring : W64
  slen : W64
  sint : W64
  shead : W64
  sess : W64
  watch : List Watch
  freezetick : W64
  scanaddr : W64
  /-- Tick at which sampling was set on; by quadrant, the slot sampled last and the tick (R429). -/
  sampleFrom : Nat
  sampleNext : List (Nat × Nat × Nat)
  /-- An IDE stream is established (R418). -/
  ide : Bool
  /-- The data of the last host read of the function (R408, R454, R435). -/
  rdata : W64
  /-- Length of the last save area written (R402). -/
  savedLen : W64
  deriving DecidableEq, Repr

/-! ## The rest of the module -/

/-- A transfer waiting for, or granted, tokens at a port (R399, R401). -/
structure Transfer where
  port : Nat
  vf : Nat
  charge : Nat
  /-- The access or operation that it belongs to. -/
  op : Nat
  part : Nat
  order : Nat
  deriving DecidableEq, Repr

/-- A tenant's bucket at a port, in the window that it was last refilled for (R400). -/
structure Bucket where
  port : Nat
  vf : Nat
  window : Nat
  tokens : Nat
  granted : Nat
  starved : Bool
  deriving DecidableEq, Repr

/-- A flit in a link's replay buffer (R414): its sequence number, its 256 bytes and their CRC-32C. -/
structure Flit where
  seq : Nat
  dest : Nat
  addr : Nat
  bytes : List Byte
  crc : W32
  sends : Nat
  /-- The Slip operation and sector that it carries. -/
  op : Nat
  part : Nat
  deriving DecidableEq, Repr

/-- Whether a long-reach link works (R416). -/
inductive LinkState where
  | up
  | retraining (since : Nat)
  | down
  deriving DecidableEq, Repr

/-- A long-reach link (R414 to R418). -/
structure Link where
  num : Nat
  st : LinkState
  nextSeq : Nat
  replay : List Flit
  secure : Bool
  deriving DecidableEq, Repr

/-- A migration under way, and the forwarding entry that it leaves (R404, R405). -/
structure Move where
  id : Nat
  ctx : Nat
  gid : Nat
  fromCore : Nat
  oldWin : Nat
  winLen : Nat
  toCore : Nat
  newWin : Nat
  newSpill : Nat
  /-- 0 it waits to begin, 1 its group is halted and its bytes move, 2 it has moved and its entry forwards. -/
  stage : Nat
  /-- What was issued under a smaller number may still be addressed to the old range (R405). -/
  since : Nat
  deriving DecidableEq, Repr

/-- A saved group, or a saved task wave, of a resumed context that waits for room on the partition (R234). -/
structure Limbo where
  id : Nat
  ctx : Nat
  /-- The group with the bytes of its window part and of its spill part, by offset; none for a task wave. -/
  group : Option (Group × Memory × Memory)
  waves : List Wave
  /-- What the group's waves and queues hold: buffered `vafadd`, combiner entries, Slip, Sieve and record requests. -/
  flight : List Access
  red : List RedEntry
  slip : List SlipOp
  sieve : List SieveOp
  requests : List Request
  deriving DecidableEq, Repr

/-- A context saved by pre-emption (R233, R258, R265, R273, R302, R333, R368, R392), found by its save area.  Task waves and what they
left are kept together by numbers that stand for their cores, in the order in which these come up, and no group has a core. -/
structure Saved where
  save : Nat
  len : Nat
  ctx : Context
  /-- Its launch queue's head and tail, and its drain ticket word. -/
  lhead : W64
  ltail : W64
  drainWord : List Byte
  grids : List Grid
  limbo : List Limbo
  /-- The bytes of continuation frames, by task. -/
  frames : List (Nat × Memory)
  /-- What task waves left: reductions, combiner entries, Slip, Sieve and record requests; tasks and compaction packets. -/
  flight : List Access
  red : List RedEntry
  slip : List SlipOp
  sieve : List SieveOp
  requests : List Request
  tasks : List Task
  packets : List WlPacket
  deriving DecidableEq, Repr

/-- A turn that the agenda gives: clk that pass before it, and who acts. -/
inductive Turn where
  /-- The wave with this id issues one instruction. -/
  | issue (clks : Nat) (wave : Nat)
  /-- An event of the opcode table. -/
  | event (clks : Nat) (i : Instr)
  deriving DecidableEq, Repr

/-- A page-table entry's fields (R230). -/
structure Pte where
  leaf : Bool
  write : Bool
  secure : Bool
  pa : Nat
  deriving DecidableEq, Repr

/-- An entry of a die's second-level TLB (R9, R229): the page of 64 KiB of a context that it translates, that page's physical address,
and the entry of the page tables that the walk found. -/
structure TlbEntry where
  die : Nat
  ctx : Nat
  page : Nat
  pa : Nat
  pte : Pte
  deriving DecidableEq, Repr

/-- The module. -/
structure State where
  tick : Nat
  /-- The time that has passed, in units of 1 / `Config.timePerUs` µs, which the timers given in µs follow (R423, R425). -/
  elapsed : Nat
  powered : Bool
  ready : Bool
  recovery : Bool
  bringup : Nat
  powerCap : Nat
  clockMhz : Nat
  tripAt : Option Nat
  fwActive : List Byte
  fwStaged : Option (List Byte)
  svnFuse : Nat
  frozen : Bool
  freezeRefused : Bool
  links : List Link
  slice : Memory
  ext : Memory
  /-- The second-level TLBs of the dies, oldest entry first (R9, R229). -/
  tlb : List TlbEntry
  hostMem : Memory
  eccBad : List Nat
  eccSoft : List Nat
  eccCount : Nat
  irqs : List (Nat × Nat)
  funcs : List Func
  parts : List Partition
  ctxs : List Context
  grids : List Grid
  groups : List Group
  waves : List Wave
  flight : List Access
  red : List RedEntry
  slip : List SlipOp
  cache : List CacheEntry
  landings : List Landing
  mats : List MatOp
  tasks : List Task
  bins : List Bin
  /-- (core, partition, tick, tasks) that a dispatcher has taken in its last clk (R323). -/
  dispatched : List (Nat × Nat × Nat × Nat)
  ctrMsgs : List CtrMsg
  packets : List WlPacket
  sieve : List SieveOp
  requests : List Request
  /-- Waiting `xacq`, `obres` and `accz`, oldest first: (quadrant of the package, kind 0 to 2, wave, instruction). -/
  waitList : List (Nat × Nat × Nat × Instr)
  saved : List Saved
  limbo : List Limbo
  moves : List Move
  transfers : List Transfer
  buckets : List Bucket
  /-- By port, the tick up to which its grants have been made (R401). -/
  portClk : List (Nat × Nat)
  nextId : Nat
  freeCtr : Nat
  agenda : List Turn
  deriving DecidableEq, Repr

/-! ## Reset (R5, R409, R422, R427) -/

/-- The PF's bytes 0x200 to 0x3FF at reset, by offset (R394, R409): maxctx 1, ceiling 8,192, weight 1, grace 2,000 and killt 20,000.
DESIGN CHOICE (log 108): byte 337, vf, which reset leaves undefined, is 0. -/
def partRecReset : Regs 8 := [(339, 1), (345, 0x20), (348, 1), (352, 0xD0), (353, 0x07), (356, 0x20), (357, 0x4E)]

/-- A function's registers at reset (R409, R427).  The PF's hold the fields of a partition record at their Reset values (R394). -/
def Func.reset (id : Nat) : Func where
  id := id
  cmd := []
  running := false
  status := 0
  detail := 0
  done := false
  icause := 0
  imask := 0
  erraddr := 0
  errcount := 0
  resetlog := 0
  resetlen := 0
  resetseq := 0
  apslot := 0
  apbase := 0
  ltail := []
  lhead := []
  partRec := if id = 64 then partRecReset else []
  dctl := 0
  dslot := 0
  sring := 0
  slen := 0
  sint := 4096
  shead := 0
  sess := 0
  watch := List.replicate 4 ⟨0, 0, 0, 0⟩
  freezetick := 0
  scanaddr := 0
  sampleFrom := 0
  sampleNext := []
  ide := false
  rdata := 0
  savedLen := 0

/-- A trace in state none (R335). -/
def Trace.empty : Trace where
  state := 0
  result := 0
  base := 0
  len := 0
  tasks := []
  reads := []
  writes := []
  writers := []
  regions := []
  used := []
  walk := none
  fullRec := false
  stalled := false
  unclear := []
  counts := [0, 0, 0, 0, 0]

/-- The module right after a module reset: no partition, context, wave or queue, the tick at 0, every register of every
function at its Reset value (R422), and the module not yet ready (R409, R421).  DESIGN CHOICE (unsafe; log 1 to 6): the
values that the manual gives no Reset for (power cap, firmware, links). -/
def State.reset : State where
  tick := 0
  elapsed := 0
  powered := true
  ready := false
  recovery := false
  bringup := 0
  powerCap := 2400
  clockMhz := 940
  tripAt := none
  fwActive := []
  fwStaged := none
  svnFuse := 0
  frozen := false
  freezeRefused := false
  links := (List.range 16).map fun n => ⟨n, .up, 0, [], false⟩
  slice := []
  ext := []
  tlb := []
  hostMem := []
  eccBad := []
  eccSoft := []
  eccCount := 0
  irqs := []
  funcs := []
  parts := []
  ctxs := []
  grids := []
  groups := []
  waves := []
  flight := []
  red := []
  slip := []
  cache := []
  landings := []
  mats := []
  tasks := []
  bins := []
  dispatched := []
  ctrMsgs := []
  packets := []
  sieve := []
  requests := []
  waitList := []
  saved := []
  limbo := []
  moves := []
  transfers := []
  buckets := []
  portClk := []
  nextId := 0
  freeCtr := 0
  agenda := []

end Sys2Proof.Machine
end

