-- ==== Sys2Proof/Machine/Mem.lean ====
section
/-! DEFINITION. Reading and writing a sparse list, and little-endian bytes in a byte memory (R4). -/

namespace Sys2Proof.Machine

/-- What index `k` holds: `d` where the list has no entry for it. -/
def sget {α : Type} (d : α) : List (Nat × α) → Nat → α
  | [], _ => d
  | e :: t, k => if k < e.1 then d else if k = e.1 then e.2 else sget d t k

/-- Write `v` at index `k`; writing the default removes the entry, so the list stays canonical. -/
def sset {α : Type} [DecidableEq α] (d : α) (k : Nat) (v : α) : List (Nat × α) → List (Nat × α)
  | [] => if v = d then [] else [(k, v)]
  | e :: t =>
    if k < e.1 then (if v = d then e :: t else (k, v) :: e :: t)
    else if k = e.1 then (if v = d then t.dropWhile (fun x => decide (x.1 ≤ k)) else (k, v) :: t)
    else e :: sset d k v t

/-- The canonical form: keys rise strictly and no entry holds the default. -/
def canonical {α : Type} [DecidableEq α] (d : α) : List (Nat × α) → Bool
  | [] => true
  | [e] => decide (e.2 ≠ d)
  | e :: f :: t => decide (e.2 ≠ d) && decide (e.1 < f.1) && canonical d (f :: t)

/-- The canonical form of a byte memory (an unlisted byte reads as zero). -/
abbrev Memory.wf (m : Memory) : Prop := canonical (0 : Byte) m = true

/-- The byte at an address. -/
def Memory.byte (m : Memory) (a : Nat) : Byte := sget 0 m a

/-- Write one byte. -/
def Memory.setByte (m : Memory) (a : Nat) (b : Byte) : Memory := sset 0 a b m

/-- `n` bytes from an address, in ascending order. -/
def Memory.bytes (m : Memory) (a n : Nat) : List Byte := (List.range n).map fun i => m.byte (a + i)

/-- Write bytes from an address, in ascending order. -/
def Memory.setBytes (m : Memory) (a : Nat) : List Byte → Memory
  | [] => m
  | b :: t => (m.setByte a b).setBytes (a + 1) t

/-- The cells of `n` bytes from an address, by offset. -/
def Memory.cut (m : Memory) (a n : Nat) : Memory :=
  (m.filter fun c => decide (a ≤ c.1) && decide (c.1 < a + n)).map fun c => (c.1 - a, c.2)

/-- Memory with `n` bytes from an address replaced by cells by offset. -/
def Memory.paste (m : Memory) (a n : Nat) (l : Memory) : Memory :=
  l.foldl (fun (m : Memory) c => m.setByte (a + c.1) c.2) (m.filter fun c => decide (c.1 < a) || decide (a + n ≤ c.1))

/-- A little-endian list of bytes as a number (R4). -/
def leNat : List Byte → Nat
  | [] => 0
  | b :: t => b.toNat + 256 * leNat t

/-- The `n` little-endian bytes of a number (R4). -/
def leBytes : Nat → Nat → List Byte
  | 0, _ => []
  | n + 1, v => BitVec.ofNat 8 v :: leBytes n (v / 256)

/-- An `n`-byte little-endian number in memory. -/
def Memory.num (m : Memory) (a n : Nat) : Nat := leNat (m.bytes a n)

/-- Write an `n`-byte little-endian number. -/
def Memory.setNum (m : Memory) (a n v : Nat) : Memory := m.setBytes a (leBytes n v)

/-- Byte `i` of a list of bytes, zero beyond its end. -/
def byteAt (l : List Byte) (i : Nat) : Byte := l.getD i 0

/-- The `n`-byte little-endian number at offset `o` of a list of bytes. -/
def field (l : List Byte) (o n : Nat) : Nat := leNat ((l.drop o).take n)

/-- Write bytes into a list of bytes at an offset. -/
def patch (l : List Byte) (o : Nat) (v : List Byte) : List Byte := l.take o ++ v ++ l.drop (o + v.length)

/-- Bits `lo` to `lo + n - 1` of a number. -/
def bitsOf (v lo n : Nat) : Nat := v / 2 ^ lo % 2 ^ n

/-- Round up to a multiple. -/
def roundUp (v n : Nat) : Nat := (v + n - 1) / n * n

/-- Register `k` of a register file. -/
def Regs.get {w : Nat} (r : Regs w) (k : Nat) : BitVec w := sget 0 r k

/-- Write register `k` of a register file. -/
def Regs.set {w : Nat} (r : Regs w) (k : Nat) (v : BitVec w) : Regs w := sset 0 k v r

/-- Replace the elements of a list that satisfy a test. -/
def updWhere {α : Type} (p : α → Bool) (f : α → α) (l : List α) : List α := l.map fun x => if p x then f x else x

end Sys2Proof.Machine
end

