-- ==== Sys2Proof/Machine/Numbers.lean ====
section
/-! DEFINITION. The number formats, rounding, conversion and flags of spec/02 (R25 to R43).

A finite value is a sign, a natural number `m` and an exponent `e`: the value m × 2^e, where 2^e is the weight w of
R32, so that `m` is never normalised. -/

namespace Sys2Proof.Machine

/-- How a format encodes NaN (R25). -/
inductive NanKind where
  /-- Exponent field all ones and mantissa nonzero. -/
  | ieee
  /-- Only the encoding of all ones (E4M3). -/
  | ones
  | none
  deriving DecidableEq, Repr

/-- A floating-point format of R25. -/
structure Fmt where
  eb : Nat
  mb : Nat
  bias : Nat
  nan : NanKind
  deriving DecidableEq, Repr

/-- f32 of R25. -/
def fF32 : Fmt := ⟨8, 23, 127, .ieee⟩
/-- f16 of R25. -/
def fF16 : Fmt := ⟨5, 10, 15, .ieee⟩
/-- bf16 of R25. -/
def fBf16 : Fmt := ⟨8, 7, 127, .ieee⟩
/-- E4M3 of R25. -/
def fE4m3 : Fmt := ⟨4, 3, 7, .ones⟩
/-- E5M2 of R25. -/
def fE5m2 : Fmt := ⟨5, 2, 15, .ieee⟩
/-- E2M1 of R25. -/
def fE2m1 : Fmt := ⟨2, 1, 1, .none⟩
/-- E3M0 of R25. -/
def fE3m0 : Fmt := ⟨3, 0, 3, .none⟩

/-- Width of a format in bits. -/
def Fmt.width (f : Fmt) : Nat := 1 + f.eb + f.mb

/-- The sign bit of a format. -/
def Fmt.signBit (f : Fmt) (neg : Bool) : Nat := if neg then 2 ^ (f.eb + f.mb) else 0

/-- Encoding of the largest finite magnitude (R25). -/
def Fmt.maxMag (f : Fmt) : Nat :=
  match f.nan with
  | .ieee => (2 ^ f.eb - 1) * 2 ^ f.mb - 1
  | .ones => 2 ^ (f.eb + f.mb) - 2
  | .none => 2 ^ (f.eb + f.mb) - 1

/-- Encoding of +∞, for a format that has infinities. -/
def Fmt.infMag (f : Fmt) : Nat := (2 ^ f.eb - 1) * 2 ^ f.mb

/-- The canonical NaN (R25, R27). -/
def Fmt.canonNan (f : Fmt) : Nat :=
  match f.nan with
  | .ieee => f.infMag + 2 ^ (f.mb - 1)
  | .ones => 2 ^ (f.eb + f.mb) - 1
  | .none => 0

/-- Exponent of the smallest normal magnitude. -/
def Fmt.emin (f : Fmt) : Int := 1 - (f.bias : Int)

/-- A value: a NaN (signalling or not), an infinity, or a finite value (-1)^neg × m × 2^e. -/
inductive Num where
  | nan (signalling : Bool)
  | inf (neg : Bool)
  | fin (neg : Bool) (m : Nat) (e : Int)
  deriving DecidableEq, Repr

/-- Sticky flags of R40. -/
abbrev Flags := BitVec 8

def flInvalid : Flags := 1
def flDivzero : Flags := 2
def flOverflow : Flags := 4
def flUnderflow : Flags := 8
def flInexact : Flags := 16
def flSaturated : Flags := 32
def flAccovf : Flags := 64
def flSclamp : Flags := 128

/-- The value of an encoding (R25, R27); with `flush`, a subnormal is a zero of its sign (R30).  E4M3 and E5M2 NaNs
are quiet. -/
def Fmt.value (f : Fmt) (flush : Bool) (b : Nat) : Num :=
  let neg := decide (2 ^ (f.eb + f.mb) ≤ b % 2 ^ f.width)
  let mag := b % 2 ^ (f.eb + f.mb)
  let man := mag % 2 ^ f.mb
  let ex := mag / 2 ^ f.mb
  let special : Option Num :=
    match f.nan with
    | .ieee =>
      if ex = 2 ^ f.eb - 1 then
        (if man = 0 then some (.inf neg) else some (.nan (decide (man < 2 ^ (f.mb - 1)) && decide (f.width ≠ 8))))
      else none
    | .ones => if mag = 2 ^ (f.eb + f.mb) - 1 then some (.nan false) else none
    | .none => none
  match special with
  | some v => v
  | none =>
    if ex = 0 then (if flush then .fin neg 0 0 else .fin neg man (f.emin - f.mb))
    else .fin neg (2 ^ f.mb + man) (f.emin - f.mb + (ex - 1))

/-- An integer as a value of weight 1. -/
def Num.ofInt (i : Int) : Num := .fin (decide (i < 0)) i.natAbs 0

/-! ## Rounding (R31, R32) -/

/-- The value m × 2^e counted in units 2^u: a number and how many of its low bits lie below the unit. -/
def atUnit (m : Nat) (e u : Int) : Nat × Nat :=
  if u ≤ e then (m * 2 ^ (e - u).toNat, 0) else (m, (u - e).toNat)

/-- Round m / 2^sh to an integer by mode 0 to 4 (R31, R32).  `odd` tells, of the integer below, whether a tie goes up;
`g` is the 16-bit draw. -/
def roundShift (mode : Nat) (neg : Bool) (odd : Nat → Bool) (g : Nat) (m sh : Nat) : Nat :=
  let q := m / 2 ^ sh
  let r := m % 2 ^ sh
  if r = 0 then q else
  match mode with
  | 0 => if 2 ^ sh < 2 * r then q + 1 else if 2 * r = 2 ^ sh then (if odd q then q + 1 else q) else q
  | 1 => q
  | 2 => if neg then q + 1 else q
  | 3 => if neg then q else q + 1
  | _ =>
    let k := min 16 sh
    if 2 ^ k ≤ r / 2 ^ (sh - k) + g % 2 ^ k then q + 1 else q

/-- Number k of discarded bits of R32 for a value of weight 2^e rounded at unit 2^u. -/
def discarded (e u : Int) : Nat := min 16 (u - e).toNat

/-- How a result is rounded: the fields of a mode slot that R30 to R33 read. -/
structure RMode where
  mode : Nat
  sat : Bool
  flush : Bool
  deriving DecidableEq, Repr

/-- A finite nonzero magnitude rounded in format `f` before the overflow rule: the magnitude's encoding as if the
exponent range went on above, and its flags (R30). -/
def roundMag (f : Fmt) (mode : Nat) (flush : Bool) (g : Nat) (neg : Bool) (m : Nat) (e : Int) : Nat × Flags :=
  let big : Int := (Nat.log2 m : Int) + e
  let un := big - f.mb
  let uMin := f.emin - f.mb
  let odd : Int → Nat → Bool := fun u q =>
    if f.mb = 0 then decide (((q : Int) + (u - uMin)) % 2 = 1) else decide (q % 2 = 1)
  let a := atUnit m e un
  let qn := roundShift (if mode = 4 then 0 else mode) neg (odd un) 0 a.1 a.2
  let tiny := decide (big + (if qn = 2 ^ (f.mb + 1) then 1 else 0) < f.emin)
  if tiny && flush then (0, flUnderflow ||| flInexact) else
  let u := max un uMin
  let b := atUnit m e u
  let q := roundShift mode neg (odd u) g b.1 b.2
  let inexact := decide (b.1 % 2 ^ b.2 ≠ 0)
  let enc := q + (u - uMin).toNat * 2 ^ f.mb
  (enc, (if inexact then flInexact else 0) ||| (if tiny && inexact then flUnderflow else 0))

/-- Conversion of a value to a floating-point format (R38): the encoding and the flags. -/
def roundTo (f : Fmt) (r : RMode) (g : Nat) (x : Num) : Nat × Flags :=
  match x with
  | .nan sig =>
    match f.nan with
    | .ieee => (f.canonNan, if sig then flInvalid else 0)
    | .ones => if r.sat then (0, flInvalid) else (f.canonNan, if sig then flInvalid else 0)
    | .none => (0, flInvalid)
  | .inf neg =>
    match f.nan with
    | .ieee => if r.sat then (f.signBit neg + f.maxMag, flSaturated) else (f.signBit neg + f.infMag, 0)
    | .ones => if r.sat then (f.signBit neg + f.maxMag, flSaturated) else (f.canonNan, flInvalid)
    | .none => (f.signBit neg + f.maxMag, flSaturated)
  | .fin neg m e =>
    if m = 0 then (f.signBit neg, 0) else
    let q := roundMag f r.mode r.flush g neg m e
    if q.1 ≤ f.maxMag then (f.signBit neg + q.1, q.2) else
    let ov := flOverflow ||| flInexact
    if r.sat || decide (f.nan = .none) then (f.signBit neg + f.maxMag, ov ||| flSaturated) else
    match f.nan with
    | .ieee =>
      if r.mode = 1 ∨ (r.mode = 2 ∧ neg = false) ∨ (r.mode = 3 ∧ neg = true) then (f.signBit neg + f.maxMag, ov)
      else (f.signBit neg + f.infMag, ov)
    | _ => (f.canonNan, ov)

/-- Round of R169 for an arithmetic result: a NaN is canonical, an infinity that the operation defines is kept, and a
finite result is rounded under the overflow rows of R38. -/
def roundArith (f : Fmt) (r : RMode) (g : Nat) (x : Num) : Nat × Flags :=
  match x with
  | .nan _ => (f.canonNan, 0)
  | .inf neg => (f.signBit neg + f.infMag, 0)
  | .fin .. => roundTo f r g x

/-- A finite magnitude rounded to an integer (R31). -/
def roundInt (mode : Nat) (g : Nat) (neg : Bool) (m : Nat) (e : Int) : Int × Bool :=
  let a := atUnit m e 0
  let q := roundShift mode neg (fun q => decide (q % 2 = 1)) g a.1 a.2
  ((if neg then -(q : Int) else q), decide (a.1 % 2 ^ a.2 ≠ 0))

/-- Conversion of a value to an integer of range [lo, hi] (R39). -/
def toIntegral (lo hi : Int) (mode : Nat) (g : Nat) (x : Num) : Int × Flags :=
  match x with
  | .nan _ => (0, flInvalid)
  | .inf neg => (if neg then lo else hi, flSaturated ||| flInvalid)
  | .fin neg m e =>
    let q := roundInt mode g neg m e
    if q.1 < lo then (lo, flSaturated ||| flInexact)
    else if hi < q.1 then (hi, flSaturated ||| flInexact)
    else (q.1, if q.2 then flInexact else 0)

/-! ## Exact combinations (R32, R170, R175) -/

/-- Whether a value is a NaN. -/
def Num.isNan : Num → Bool
  | .nan _ => true
  | _ => false

/-- Whether a value is a signalling NaN. -/
def Num.isSnan : Num → Bool
  | .nan s => s
  | _ => false

/-- Whether a value is an infinity of the sign given. -/
def Num.isInf (neg : Bool) : Num → Bool
  | .inf n => n == neg
  | _ => false

/-- Whether a value is a zero. -/
def Num.isZero : Num → Bool
  | .fin _ m _ => decide (m = 0)
  | _ => false

/-- The sign of a value (a NaN has none). -/
def Num.neg : Num → Bool
  | .nan _ => false
  | .inf n => n
  | .fin n _ _ => n

/-- The value with its sign inverted. -/
def Num.negate : Num → Num
  | .nan s => .nan s
  | .inf n => .inf (!n)
  | .fin n m e => .fin (!n) m e

/-- The exact product; the second part says whether it is 0 × ∞ (R170). -/
def Num.mul (x y : Num) : Num × Bool :=
  match x, y with
  | .nan _, _ => (.nan false, false)
  | _, .nan _ => (.nan false, false)
  | .inf a, .inf b => (.inf (a != b), false)
  | .inf a, .fin b m _ => if m = 0 then (.nan false, true) else (.inf (a != b), false)
  | .fin a m _, .inf b => if m = 0 then (.nan false, true) else (.inf (a != b), false)
  | .fin a m e, .fin b n f => (.fin (a != b) (m * n) (e + f), false)

/-- Smallest weight of the nonzero finite values of a list. -/
def minWeight : List Num → Option Int
  | [] => none
  | .fin _ m e :: t =>
    if m = 0 then minWeight t else
    match minWeight t with
    | none => some e
    | some w => some (min e w)
  | _ :: t => minWeight t

/-- The integer m × 2^(e − w), signed, of a finite value at weight 2^w. -/
def Num.scaled (w : Int) : Num → Int
  | .fin n m e => if m = 0 then 0 else (if n then -((m * 2 ^ (e - w).toNat : Nat) : Int) else ((m * 2 ^ (e - w).toNat : Nat) : Int))
  | _ => 0

/-- The exact sum of a list of values; the second part says whether it holds infinities of both signs.  An exact zero
is +0, or −0 when every addend has that sign, or under rdn when they differ (R170). -/
def sumNums (rdn : Bool) (xs : List Num) : Num × Bool :=
  let both := xs.any (Num.isInf false) && xs.any (Num.isInf true)
  if xs.any Num.isNan || both then (.nan false, both)
  else if xs.any (Num.isInf false) then (.inf false, false)
  else if xs.any (Num.isInf true) then (.inf true, false)
  else
    let zero := Num.fin (if xs.all Num.neg then true else if xs.all (fun x => !x.neg) then false else rdn) 0 0
    match minWeight xs with
    | none => (zero, false)
    | some w =>
      let t := xs.foldl (fun s x => s + x.scaled w) 0
      if t = 0 then (zero, false) else (.fin (decide (t < 0)) t.natAbs w, false)

/-- The greater weight exponent floor(log2 |x|) of a finite nonzero value: E of R49. -/
def Num.bigE : Num → Int
  | .fin _ m e => (Nat.log2 m : Int) + e
  | _ => 0

/-- x < y: no NaN is below or above anything, and zeros compare equal (R173). -/
def Num.lt (x y : Num) : Bool :=
  match x, y with
  | .nan _, _ => false
  | _, .nan _ => false
  | .inf a, .inf b => a && !b
  | .inf a, _ => a
  | _, .inf b => !b
  | .fin _ _ _, .fin _ _ _ =>
    let w := (minWeight [x, y]).getD 0
    decide (x.scaled w < y.scaled w)

/-- x ≤ y for values that are not NaN. -/
def Num.le (x y : Num) : Bool := !x.isNan && !y.isNan && !(y.lt x)

/-! ## The grain source (R33, R34, R36) -/

/-- Mix of R33. -/
def mix (z : W64) : W64 :=
  let z := z ^^^ (z >>> 31)
  let z := z * 0xA0B428DB3F1C9E57
  let z := z ^^^ (z >>> 29)
  let z := z * 0x8EBC6AF09C88C6E3
  z ^^^ (z >>> 32)

/-- Grain(n) of R33 for the lane of identity `ident` in a context of seed `gseed`. -/
def grainOf (gseed ident : W64) (n : W32) : W64 :=
  mix (mix ((gseed ^^^ mix ident) + n.setWidth 64 * 0xD1B54A32D192ED03))

/-- BlockGrain(n0, b, t) of R36. -/
def blockGrain (gseed ident : W64) (n0 : W32) (b t : Nat) : W64 :=
  mix (grainOf gseed ident (n0 + BitVec.ofNat 32 t) + BitVec.ofNat 64 b * 0xC2A65E137D04B9F1)

/-- The 16-bit draw of element `k` in the 64-bit call that serves it (R36). -/
def drawOf (call : W64) (k : Nat) : Nat := (call >>> (16 * (k % 4))).toNat % 65536

/-! ## Types of a register (R28) -/

/-- A register type's element: an integer, or a float in a format. -/
inductive Elt where
  | int (signed : Bool)
  | flt (f : Fmt)
  deriving DecidableEq, Repr

/-- Width of the elements of a type code (R28). -/
def typeWidth (t : Nat) : Nat :=
  if t ≤ 2 then 32 else if t ≤ 6 then 16 else if t ≤ 10 then 8 else 4

/-- Elements in a register of a type code (R28). -/
def typeCount (t : Nat) : Nat := 32 / typeWidth t

/-- The element of a type code (R28). -/
def typeElt (t : Nat) : Elt :=
  match t with
  | 0 => .int true
  | 1 => .int false
  | 2 => .flt fF32
  | 3 => .int true
  | 4 => .int false
  | 5 => .flt fF16
  | 6 => .flt fBf16
  | 7 => .int true
  | 8 => .int false
  | 9 => .flt fE4m3
  | 10 => .flt fE5m2
  | 11 => .int true
  | 12 => .int false
  | _ => .flt fE2m1

/-- Whether VINT and VIMM read a type as signed (R157). -/
def typeSigned (t : Nat) : Bool := !(t == 1 || t == 4 || t == 8 || t == 12)

/-- Element `k` of a register, as a number (R28). -/
def elemRaw (v : W32) (k w : Nat) : Nat := bitsOf v.toNat (w * k) w

/-- SetElem: replace element `k` (R28). -/
def setElem (v : W32) (k w x : Nat) : W32 :=
  let mask : W32 := BitVec.ofNat 32 ((2 ^ w - 1) * 2 ^ (w * k))
  (v &&& ~~~mask) ||| (BitVec.ofNat 32 (x % 2 ^ w * 2 ^ (w * k)))

/-- A `w`-bit pattern as a signed or unsigned integer. -/
def toInt (signed : Bool) (w x : Nat) : Int :=
  if signed && decide (2 ^ (w - 1) ≤ x % 2 ^ w) then (x % 2 ^ w : Int) - 2 ^ w else (x % 2 ^ w : Nat)

/-- The `w`-bit pattern of an integer, modulo 2^w. -/
def ofInt (w : Nat) (i : Int) : Nat := (i % (2 ^ w : Nat)).toNat

/-- Least and greatest integer of a type. -/
def intLo (signed : Bool) (w : Nat) : Int := if signed then -(2 ^ (w - 1) : Nat) else 0
def intHi (signed : Bool) (w : Nat) : Int := if signed then (2 ^ (w - 1) : Nat) - 1 else (2 ^ w : Nat) - 1

/-- Sat of R101: clamp an integer to a type; sets saturated when it clamps. -/
def satInt (signed : Bool) (w : Nat) (i : Int) : Nat × Flags :=
  if i < intLo signed w then (ofInt w (intLo signed w), flSaturated)
  else if intHi signed w < i then (ofInt w (intHi signed w), flSaturated)
  else (ofInt w i, 0)

/-- Fit of R161: by the saturate bit, clamp or wrap (R29). -/
def fitInt (sat signed : Bool) (w : Nat) (i : Int) : Nat × Flags :=
  if sat then satInt signed w i else (ofInt w i, 0)

/-- The value of an element in a type (R38): integers have weight 1. -/
def eltValue (el : Elt) (flush : Bool) (w x : Nat) : Num :=
  match el with
  | .int s => Num.ofInt (toInt s w x)
  | .flt f => f.value flush x

/-- Conversion of a value to an element (R38, R39). -/
def convertTo (el : Elt) (w : Nat) (r : RMode) (g : Nat) (x : Num) : Nat × Flags :=
  match el with
  | .int s => let v := toIntegral (intLo s w) (intHi s w) r.mode g x; (ofInt w v.1, v.2)
  | .flt f => roundTo f r g x

end Sys2Proof.Machine
end

