-- ==== Sys2Proof/Machine/Special.lean ====
section
/-! DEFINITION. The special functions of R174: reciprocal, reciprocal square root, 2^x and log2 x, each carried with
a sticky low bit far below any rounding position, so that one rounding by rne gives the correctly rounded result.

DEDUCED (log 12): 2^x and log2 x of a value that is not an exact case are irrational, so never a tie; the working
precision of 256 bits leaves an error below 2^-200, far below the distance of any f32, f16 or bf16 case from a
rounding boundary. -/

namespace Sys2Proof.Machine

/-- The integer square root of `n`, its bits tried from bit `k - 1` down. -/
def isqrtFrom (n : Nat) : Nat → Nat → Nat
  | 0, acc => acc
  | k + 1, acc => if (acc + 2 ^ k) * (acc + 2 ^ k) ≤ n then isqrtFrom n k (acc + 2 ^ k) else isqrtFrom n k acc

/-- floor(√n). -/
def isqrt (n : Nat) : Nat := isqrtFrom n (Nat.log2 n / 2 + 1) 0

/-- A magnitude known to lie strictly between q and q + 1 units of 2^e, or to be q exactly: twice as fine, with a sticky
low bit. -/
def withSticky (neg : Bool) (q : Nat) (e : Int) (exact : Bool) : Num :=
  .fin neg (2 * q + (if exact then 0 else 1)) (e - 1)

/-- 1 / x of a finite nonzero value. -/
def recip (neg : Bool) (m : Nat) (e : Int) : Num :=
  let s := Nat.log2 m + 40
  withSticky neg (2 ^ s / m) (-(s : Int) - e) (decide (2 ^ s % m = 0))

/-- 1 / √x of a finite positive value. -/
def rsqrt (m : Nat) (e : Int) : Num :=
  let odd := decide (e % 2 ≠ 0)
  let m2 := if odd then 2 * m else m
  let h : Int := (if odd then e - 1 else e) / 2
  let s := Nat.log2 m2 + 40
  let q := isqrt (2 ^ (2 * s) / m2)
  withSticky false q (-(s : Int) - h) (decide (q * q * m2 = 2 ^ (2 * s)))

/-- Bits of the fixed-point fractions below. -/
def fixBits : Nat := 256

/-- ln 2 in fixed point, from the sum of 1 / (k 2^k). -/
def ln2Fix : Nat := (List.range 300).foldl (fun s k => s + 2 ^ (fixBits + 40) / ((k + 1) * 2 ^ (k + 1))) 0 / 2 ^ 40

/-- Terms of e^y: the sum of y^k / k! for a fixed-point y; `n` terms are left and `term` is the one reached. -/
def expTerms (y : Nat) : Nat → Nat → Nat → Nat → Nat
  | 0, _, _, acc => acc
  | n + 1, k, term, acc => expTerms y n (k + 1) (term * y / (2 ^ fixBits * (k + 1))) (acc + term)

/-- 2^f in fixed point, for a fixed-point fraction f. -/
def exp2Fix (f : Nat) : Nat := expTerms (f * ln2Fix / 2 ^ fixBits) 80 0 (2 ^ fixBits) 0

/-- 2^x of a finite value (R174). -/
def exp2Num (neg : Bool) (m : Nat) (e : Int) : Num :=
  if m = 0 then .fin false 1 0
  else if 12 < (Nat.log2 m : Int) + e then (if neg then .fin false 1 (-5000) else .fin false 1 5000)
  else
    let i := Num.scaled (min e 0) (.fin neg m e)
    let d : Nat := 2 ^ (-(min e 0)).toNat
    let n := i / (d : Int)
    let r := (i % (d : Int)).toNat
    if r = 0 then .fin false 1 n
    else withSticky false (exp2Fix (r * 2 ^ fixBits / d)) (n - fixBits) false

/-- Terms of the inverse hyperbolic tangent: the sum of z^(2k+1) / (2k+1). -/
def atanhTerms (z2 : Nat) : Nat → Nat → Nat → Nat → Nat
  | 0, _, _, acc => acc
  | n + 1, k, pow, acc => atanhTerms z2 n (k + 1) (pow * z2 / 2 ^ fixBits) (acc + pow / (2 * k + 1))

/-- log2 x of a finite positive value (R174). -/
def log2Num (m : Nat) (e : Int) : Num :=
  let l := Nat.log2 m
  let big : Int := (l : Int) + e
  if m = 2 ^ l then Num.ofInt big else
  let z := (m - 2 ^ l) * 2 ^ fixBits / (m + 2 ^ l)
  let ln := 2 * atanhTerms (z * z / 2 ^ fixBits) 90 0 z 0
  let r : Int := big * (2 ^ fixBits : Nat) + (ln * 2 ^ fixBits / ln2Fix : Nat)
  if 0 ≤ r then withSticky false r.toNat (-(fixBits : Int)) false
  else .fin true (2 * (-r).toNat - 1) (-(fixBits : Int) - 1)

/-- Which special function (R174). -/
inductive Special where
  | rcp | rsq | exp2 | log2
  deriving DecidableEq, Repr

/-- A special function of a value, before rounding, and the flag that its special case sets (R174). -/
def specialOf (fn : Special) (x : Num) : Num × Flags :=
  match fn, x with
  | _, .nan s => (.nan s, if s then flInvalid else 0)
  | .rcp, .inf n => (.fin n 0 0, 0)
  | .rcp, .fin n m e => if m = 0 then (.inf n, flDivzero) else (recip n m e, 0)
  | .rsq, .inf n => if n then (.nan false, flInvalid) else (.fin false 0 0, 0)
  | .rsq, .fin n m e =>
    if m = 0 then (.inf n, flDivzero) else if n then (.nan false, flInvalid) else (rsqrt m e, 0)
  | .exp2, .inf n => if n then (.fin false 0 0, 0) else (.inf false, 0)
  | .exp2, .fin n m e => (exp2Num n m e, 0)
  | .log2, .inf n => if n then (.nan false, flInvalid) else (.inf false, 0)
  | .log2, .fin n m e =>
    if m = 0 then (.inf true, flDivzero) else if n then (.nan false, flInvalid) else (log2Num m e, 0)

/-- A special function rounded to a format: an infinity that the function defines is kept, a finite result rounds by
rne under the saturate and flush bits (R174). -/
def specialTo (f : Fmt) (sat flush : Bool) (fn : Special) (x : Num) : Nat × Flags :=
  let v := specialOf fn x
  let r := roundArith f ⟨0, sat, flush⟩ 0 v.1
  (r.1, r.2 ||| v.2)

end Sys2Proof.Machine
end

