-- ==== Sys2Proof/Machine/Tiles.lean ====
section
/-! DEFINITION. Scaled tile blocks (R44 to R51) and the accumulator cell ACC96 (R52 to R59). -/

namespace Sys2Proof.Machine

/-! ## Blocks -/

/-- Bytes of a scaled tile block of the 8-bit or (`four`) the 4-bit width class (R44). -/
def blockBytes (four : Bool) : Nat := if four then 144 else 272

/-- The element format of a tag in a width class, with its width and emax (R46); none for the reserved tag. -/
def tagElt (four : Bool) (tag : Nat) : Option (Elt × Nat × Int) :=
  match four, tag with
  | false, 0 => some (.flt fE4m3, 8, 8)
  | false, 1 => some (.flt fE5m2, 8, 15)
  | false, 2 => some (.int true, 8, 6)
  | true, 0 => some (.flt fE2m1, 4, 2)
  | true, 1 => some (.int true, 4, 2)
  | true, 2 => some (.flt fE3m0, 4, 4)
  | _, _ => none

/-- The raw element (i, j) of a block (R44). -/
def blockElem (four : Bool) (blk : List Byte) (i j : Nat) : Nat :=
  if four then bitsOf (byteAt blk (16 + 8 * i + j / 2)).toNat (4 * (j % 2)) 4
  else (byteAt blk (16 + 16 * i + j)).toNat

/-- The shared exponent byte S (R45). -/
def blockS (blk : List Byte) : Nat := (byteAt blk 0).toNat
/-- The format tag (R45). -/
def blockTag (blk : List Byte) : Nat := (byteAt blk 1).toNat % 4
/-- Row micro-exponent i (R45). -/
def blockMr (blk : List Byte) (i : Nat) : Nat := bitsOf (field blk 2 4) (2 * i) 2
/-- Column micro-exponent j (R45). -/
def blockMc (blk : List Byte) (j : Nat) : Nat := bitsOf (field blk 6 4) (2 * j) 2

/-- A value times 2^n. -/
def Num.scale (x : Num) (n : Int) : Num :=
  match x with
  | .fin s m e => .fin s m (e + n)
  | y => y

/-- Decode(tile, i, j) of R47, for a block whose tag is not reserved. -/
def blockDecode (four : Bool) (blk : List Byte) (i j : Nat) : Num :=
  if blockS blk = 255 then .nan false else
  match tagElt four (blockTag blk) with
  | some (el, w, _) =>
    (eltValue el false w (blockElem four blk i j)).scale ((blockS blk : Int) - 127 + min (blockMr blk i) (blockMc blk j))
  | none => .nan false

/-- The 32-bit field of sixteen 2-bit micro-exponents. -/
def packMicro (m : Nat → Nat) : Nat := (List.range 16).foldl (fun s i => s + m i % 4 * 4 ^ i) 0

/-- The payload of a block from its raw elements, row-major (R44). -/
def packPayload (four : Bool) (el : Nat → Nat → Nat) : List Byte :=
  if four then
    (List.range 128).map fun b => BitVec.ofNat 8 (el (b / 8) (2 * (b % 8)) % 16 + 16 * (el (b / 8) (2 * (b % 8) + 1) % 16))
  else (List.range 256).map fun b => BitVec.ofNat 8 (el (b / 16) (b % 16))

/-- A block from its header fields and raw elements; the bytes that R45 calls zero are written as zero. -/
def packBlock (four : Bool) (s tag mr mc : Nat) (el : Nat → Nat → Nat) : List Byte :=
  [BitVec.ofNat 8 s, BitVec.ofNat 8 (tag % 4)] ++ leBytes 4 mr ++ leBytes 4 mc ++ leBytes 6 0 ++ packPayload four el

/-- The transpose of a block (R48). -/
def blockTranspose (four : Bool) (blk : List Byte) : List Byte :=
  packBlock four (blockS blk) (blockTag blk) (field blk 6 4) (field blk 2 4) fun i j => blockElem four blk j i

/-! ## Quantising (R49 to R51) -/

/-- A magnitude above the value of encoding `mag`. -/
def Num.magAbove (f : Fmt) (mag : Nat) (x : Num) : Bool :=
  let a := match x with | .fin _ m e => Num.fin false m e | y => y
  (f.value false mag).lt a

/-- Whether a value lies beyond an integer range. -/
def Num.outOf (lo hi : Int) (x : Num) : Bool := x.lt (.ofInt lo) || (Num.ofInt hi).lt x

/-- Quant of R49 for one value; `clamped` says that S was clamped (R51).  DESIGN CHOICE (log 93): the zero of a block that is not all
zero keeps its sign in a floating-point format. -/
def quantElem (el : Elt) (w : Nat) (mode : Nat) (flush clamped : Bool) (g : Nat) (x : Num) : Nat × Flags :=
  match x with
  | .fin neg m e =>
    if m = 0 then (match el with | .flt f => f.signBit neg | .int _ => 0, 0) else
    match el with
    | .flt f =>
      let sign := f.signBit neg
      if clamped && Num.magAbove f f.maxMag x then (sign + f.maxMag, flSaturated ||| flInexact)
      else if clamped && (Num.fin false m e).lt (f.value false 1) then (sign, flUnderflow ||| flInexact)
      else
        let r := roundMag f mode flush g neg m e
        if f.maxMag < r.1 then (sign + f.maxMag, flSaturated ||| flInexact) else (sign + r.1, r.2)
    | .int s =>
      if clamped && Num.outOf (intLo s w) (intHi s w) x then
        (ofInt w (if neg then intLo s w else intHi s w), flSaturated ||| flInexact)
      else if clamped && (Num.fin false m e).lt (.ofInt 1) then (0, flUnderflow ||| flInexact)
      else
        let r := toIntegral (intLo s w) (intHi s w) mode g x
        (ofInt w r.1, r.2)
  | _ => (0, flInvalid)

/-- Draw number t of element (i, j) under rsr (R50). -/
def quantDraw (i j : Nat) : Nat :=
  let lo := min i j
  16 * lo - lo * (lo - 1) / 2 + (max i j - lo)

/-- Greatest E(x) of a list of values; zeros and non-finite values are passed over. -/
def maxE : List Num → Option Int
  | [] => none
  | x :: t =>
    match x with
    | .fin _ 0 _ => maxE t
    | .fin _ _ _ => (match maxE t with | none => some x.bigE | some e => some (max x.bigE e))
    | _ => maxE t

/-- A quantising store of 256 values (R49 to R51): the block and the flags that its elements set.  `x` gives the
values, `calls` the 64-bit grain calls of the block. -/
def quantBlock (four : Bool) (tag mode : Nat) (flush : Bool) (calls : Nat → W64) (x : Nat → Nat → Num) :
    List Byte × Flags :=
  match tagElt four tag with
  | none => ([], 0)
  | some (el, w, emax) =>
    let idx := (List.range 256).map fun n => (n / 16, n % 16)
    let bad := idx.any fun p => match x p.1 p.2 with | .fin _ _ _ => false | _ => true
    if bad then (packBlock four 255 tag 0 0 fun _ _ => 0, flInvalid) else
    match maxE (idx.map fun p => x p.1 p.2) with
    | none =>
      (packBlock four 0 tag 0 0 fun i j => (quantElem el w mode flush false 0 (x i j)).1 % 2 ^ (w - 1), 0)
    | some et =>
      let er := (List.range 16).map fun i => ((maxE ((List.range 16).map fun j => x i j)).getD (et - 3))
      let ec := (List.range 16).map fun j => ((maxE ((List.range 16).map fun i => x i j)).getD (et - 3))
      let micro := fun (l : List Int) (i : Nat) => (max 0 (min 3 (l.getD i (et - 3) - et + 3))).toNat
      let raw := et - emax - 3 + 127
      let s := (max 0 (min 254 raw)).toNat
      let clamped := decide (raw < 0 ∨ 254 < raw)
      let q := idx.map fun p =>
        let sc : Int := (s : Int) - 127 + min (micro er p.1) (micro ec p.2)
        let t := quantDraw p.1 p.2
        quantElem el w mode flush clamped (drawOf (calls (t / 4)) t) ((x p.1 p.2).scale (-sc))
      (packBlock four s tag (packMicro (micro er)) (packMicro (micro ec)) fun i j => (q.getD (16 * i + j) (0, 0)).1,
        q.foldl (fun f e => f ||| e.2) (if clamped then flSclamp else 0))

/-! ## The accumulator cell (R52 to R58) -/

/-- A finite cell with N = 0. -/
def Cell.zero : Cell := ⟨0, .finite⟩

/-- The value of a cell whose anchor is A (R52, R58). -/
def Cell.value (a : Int) (c : Cell) : Num :=
  match c.st with
  | .finite => .fin (decide (c.n.toInt < 0)) c.n.toInt.natAbs a
  | .posInf => .inf false
  | .negInf => .inf true
  | .nan => .nan false

/-- The anchor of 12 bits as an integer. -/
def anchorInt (a : BitVec 12) : Int := a.toInt

/-- The anchor that Pmax gives (R53). -/
def anchorOf (pmax : Int) : BitVec 12 := BitVec.ofInt 12 (max (-2048) (min 2047 (pmax - 70)))

/-- The exact sum over the values of one cell, as a multiple of 2^w: used for the sign of the true sum of R56. -/
def trueSum (n : Int) (a : Int) (ps : List Num) : Int :=
  let w := min a ((minWeight ps).getD a)
  ps.foldl (fun s p => s + p.scaled w) (n * (2 ^ (a - w).toNat : Nat))

/-- One step of one cell (R54, R55, R56): `ps` are its exact products (or real terms), of which the NaN products are
NaNs.  While the anchor is not set, finite products add nothing (R53, R288).  DESIGN CHOICE (log 94): in a step in which the
cell is or becomes non-finite, its finite products set no inexact. -/
def Cell.step (c : Cell) (a : Int) (anchored : Bool) (mode : Nat) (ps : List Num) : Cell × Flags :=
  let pos := decide (c.st = .posInf) || ps.any (Num.isInf false)
  let neg := decide (c.st = .negInf) || ps.any (Num.isInf true)
  let nan := decide (c.st = .nan) || ps.any Num.isNan
  if pos && neg then (⟨0, .nan⟩, flInvalid)
  else if nan then (⟨0, .nan⟩, 0)
  else if pos then (⟨0, .posInf⟩, 0)
  else if neg then (⟨0, .negInf⟩, 0)
  else if !anchored then (c, 0)
  else
    let ps := ps.filter fun p => !p.isZero
    let ints := ps.map fun p =>
      match p with
      | .fin s m e => roundInt mode 0 s m (e - a)
      | _ => (0, false)
    let total := ints.foldl (fun t i => t + i.1) c.n.toInt
    let inexact : Flags := if ints.any (fun i => i.2) then flInexact else 0
    let big := ps.any fun p => decide (a + 94 < p.bigE)
    if !big && decide (-(2 ^ 95 : Nat) ≤ total) && decide (total < (2 ^ 95 : Nat)) then
      (⟨BitVec.ofInt 96 total, .finite⟩, inexact)
    else
      let t := trueSum c.n.toInt a ps
      let n : Int := if 0 < t then (2 ^ 95 : Nat) - 1 else if t < 0 then -(2 ^ 95 : Nat) else 0
      (⟨BitVec.ofInt 96 n, .finite⟩, inexact ||| flAccovf)

/-- The product of two operands as R55 takes it: whether it sets invalid, and the product. -/
def accProduct (x y : Num) : Num × Bool :=
  let p := x.mul y
  (p.1, p.2 || x.isSnan || y.isSnan)

/-! ## Exact-sum cells in memory (R59) -/

/-- The state code of R52. -/
def CellState.code : CellState → Nat
  | .finite => 0
  | .posInf => 1
  | .negInf => 2
  | .nan => 3

/-- The state of a code. -/
def CellState.ofCode (c : Nat) : CellState :=
  match c % 4 with
  | 0 => .finite
  | 1 => .posInf
  | 2 => .negInf
  | _ => .nan

/-- The cell and the anchor that 16 bytes hold (R59). -/
def cellOfBytes (b : List Byte) : Cell × BitVec 12 :=
  (⟨BitVec.ofNat 96 (field b 0 12), CellState.ofCode (field b 12 4)⟩, BitVec.ofNat 12 (field b 12 4 / 4))

/-- The 16 bytes of a cell (R59). -/
def cellBytes (c : Cell) (a : BitVec 12) : List Byte :=
  leBytes 12 c.n.toNat ++ leBytes 4 (c.st.code + 4 * a.toNat)

/-- The flags that the value of one lane sets in a cell (R54 to R56, R59): a signalling NaN's and an infinity's invalid, and of a
finite value added to a finite cell, inexact and accovf. -/
def Cell.valueFlags (c : Cell) (a : Int) (mode : Nat) (step : Flags) (x : Num) : Flags :=
  match x with
  | .nan s => if s then flInvalid else 0
  | .inf _ => step &&& flInvalid
  | .fin .. => if c.st = .finite then (c.step a true mode [x]).2 else 0

/-- One packet of f32 values added to a cell, and the flags that it sets: those of each value, and accovf when its total
saturates; each wave with an update in the packet takes them (R59, R262, R263). -/
def sumPacket (mode : Nat) (b : List Byte) (vals : List W32) : List Byte × List Flags :=
  let c := cellOfBytes b
  let a := anchorInt c.2
  let xs := vals.map fun v => fF32.value false v.toNat
  let r := c.1.step a true mode xs
  let all := xs.foldl (fun f x => f ||| c.1.valueFlags a mode r.2 x) r.2
  (cellBytes r.1 c.2, vals.map fun _ => all)

end Sys2Proof.Machine
end

