-- ==== Sys2Proof/Machine/Ops.lean ====
section
/-! DEFINITION. The shared operations: looking things up in the state, interrupts and reports (R226 to R228), address
translation (R20 to R23, R229, R230), issuing and retiring an instruction of the head wave, and TAKING A PRECISE
FAULT and returning from the handler (R221 to R224). -/

namespace Sys2Proof.Machine

/-! ## Looking up and replacing -/

/-- A context record of zeros. -/
def CtxRec.zero : CtxRec where
  codebase := 0
  codelen := 0
  handler := 0
  gseed := 0
  det := false
  sealOnly := false
  sealEpoch := 0
  ptroot := 0
  fq := 0
  fqlog := 0
  frames := 0
  ticket := 0
  frameoff := 0
  jobn := 1
  jobself := 0
  jobtab := 0
  save := 0
  savelen := 0
  lq := 0
  lqent := 0
  gpooloff := 0
  gpoollen := 0
  pooloff := 0
  poolent := 0
  bintimer := 0
  ctrcount := 0
  ctrbase := 0
  tasktab := 0
  tasktabn := 0

/-- A context as it is created, with the record given (R411). -/
def Context.create (id vf slot recAddr : Nat) (r : CtxRec) : Context where
  id := id
  vf := vf
  slot := slot
  recAddr := recAddr
  r := r
  sumflags := 0
  seq := 0
  pre := .none
  bindings := []
  held := []
  versions := []
  objs := []
  modeMismatch := 0
  decs := []
  trace := Trace.empty
  jobTable := []
  sessions := []

/-- Whether the waves of a context are halted at step 2 of pre-emption (R232). -/
def Context.halting (c : Context) : Bool :=
  match c.pre with
  | .halting _ => true
  | _ => false

/-- The context with an id; a context of zeros where there is none. -/
def State.ctx (s : State) (id : Nat) : Context :=
  (s.ctxs.find? fun c => c.id == id).getD (Context.create id 0 0 0 CtxRec.zero)

/-- Change the context with an id. -/
def State.updCtx (s : State) (id : Nat) (f : Context → Context) : State :=
  { s with ctxs := updWhere (fun c => c.id == id) f s.ctxs }

/-- Count `n` events of a code of R431 in a session. -/
def Session.count (x : Session) (code n : Nat) : Session := { x with counts := sset 0 code (sget 0 x.counts code + n) x.counts }

/-- Count `n` events of a code of R431 in a context's open sessions. -/
def Context.count (c : Context) (code n : Nat) : Context := { c with sessions := c.sessions.map fun x => x.count code n }

/-- Count events of a context (R431). -/
def State.count (s : State) (cid code n : Nat) : State := s.updCtx cid fun c => c.count code n

/-- The wave with an id. -/
def State.wave? (s : State) (id : Nat) : Option Wave := s.waves.find? fun w => w.id == id

/-- Change the wave with an id. -/
def State.updWave (s : State) (id : Nat) (f : Wave → Wave) : State :=
  { s with waves := updWhere (fun w => w.id == id) f s.waves }

/-- The resident group with an id. -/
def State.group? (s : State) (id : Nat) : Option Group := s.groups.find? fun g => g.id == id

/-- Change the group with an id. -/
def State.updGroup (s : State) (id : Nat) (f : Group → Group) : State :=
  { s with groups := updWhere (fun g => g.id == id) f s.groups }

/-- The registers of a function: at their Reset values until something has written them (R409). -/
def State.func (s : State) (id : Nat) : Func := (s.funcs.find? fun f => f.id == id).getD (Func.reset id)

/-- Replace the registers of a function. -/
def State.setFunc (s : State) (f : Func) : State :=
  { s with funcs := if s.funcs.any (fun g => g.id == f.id) then updWhere (fun g => g.id == f.id) (fun _ => f) s.funcs
                    else s.funcs ++ [f] }

/-- Change the registers of a function. -/
def State.updFunc (s : State) (id : Nat) (f : Func → Func) : State := s.setFunc (f (s.func id))

/-- The partition of a function. -/
def State.part? (s : State) (vf : Nat) : Option Partition := s.parts.find? fun p => p.vf == vf

/-- Whether a context is one of the maxctx that its partition holds (R403): the launches of a further one wait. -/
def State.ctxHeld (s : State) (c : Context) : Bool :=
  let l := (s.ctxs.filter fun x => x.vf == c.vf).map (·.id)
  decide (l.idxOf c.id < ((s.part? c.vf).map (·.maxctx)).getD 0)

/-- Whether what a context has queued starts nothing now: it is halted at step 2, or waits for its place in the partition (R232,
R403). -/
def State.stands (s : State) (c : Context) : Bool := c.halting || !(s.ctxHeld c)

/-- The physical function's number among the functions (R407). -/
def pfNum : Nat := 64

/-- A fresh number for an operation. -/
def State.fresh (s : State) : Nat × State := (s.nextId, { s with nextId := s.nextId + 1 })

/-- A fresh free value (log 7). -/
def State.free (s : State) : W64 × State := (Config.freeValue s.freeCtr, { s with freeCtr := s.freeCtr + 1 })

/-- The first element of a list that satisfies a test moved to its head. -/
def bringFirst {α : Type} (p : α → Bool) (l : List α) : List α :=
  match l.find? p with
  | some x => x :: l.eraseP p
  | none => l

/-! ## Geometry (R8 to R12, R21) -/

/-- The core whose slice holds a slice-space address (R21). -/
def homeCore (a : Nat) : Nat := (a - Config.sliceBase) / Config.coreSlice % Config.cores
/-- The bank of the slice that holds it (R21). -/
def bankOf (a : Nat) : Nat := bitsOf (a - Config.sliceBase) 19 4
/-- First address of a core's slice (R21). -/
def sliceOf (core : Nat) : Nat := Config.sliceBase + core * Config.coreSlice
/-- The die of a core (R10). -/
def dieOf (core : Nat) : Nat := core / 16
/-- The package cluster of a core (R10). -/
def clusterOf (core : Nat) : Nat :=
  let x := core % 4
  let y := core / 4 % 4
  4 * (core / 16) + 2 * (y / 2) + x / 2
/-- Whether an address lies in slice space (R20). -/
def inSlice (a : Nat) : Bool := decide (Config.sliceBase ≤ a) && decide (a < Config.sliceBase + Config.sliceSize)
/-- Whether an address lies in the external range (R20). -/
def inExt (a : Nat) : Bool := decide (Config.extBase ≤ a) && decide (a < Config.extTop)

/-- Whether a partition owns quadrant q of core c (R394). -/
def Partition.ownsQuad (p : Partition) (c q : Nat) : Bool := p.quads.getLsbD (4 * c + q)
/-- Whether a partition owns bank b of core c's slice (R394). -/
def Partition.ownsBank (p : Partition) (c b : Nat) : Bool := p.banks.getLsbD (16 * c + b)
/-- Whether a partition owns the bank that holds a slice address. -/
def Partition.ownsAddr (p : Partition) (a : Nat) : Bool := inSlice a && p.ownsBank (homeCore a) (bankOf a)
/-- The cores of a partition, in ascending physical index: logical core k is the kth (R124, R396). -/
def Partition.cores (p : Partition) : List Nat :=
  (List.range Config.cores).filter fun c => (List.range 4).any fun q => p.ownsQuad c q
/-- The quadrants that a partition owns on a core. -/
def Partition.quadsOf (p : Partition) (c : Nat) : List Nat := (List.range 4).filter fun q => p.ownsQuad c q

/-- Whether a context's partition owns a slice address. -/
def State.owns (s : State) (c : Context) (a : Nat) : Bool :=
  match s.part? c.vf with
  | some p => p.ownsAddr a
  | none => false

/-- Whether the context is in the secure world (R418). -/
def State.isSecure (s : State) (c : Context) : Bool :=
  match s.part? c.vf with
  | some p => p.secure
  | none => false

/-- An address of a range that has moved, and any other as it was. -/
def moveAddr (old len new a : Nat) : Nat := if old ≤ a ∧ a < old + len then new + (a - old) else a

/-- An address as the forwarding entries of moved groups send it on (R405). -/
def State.forwarded (s : State) (a : Nat) : Nat :=
  s.moves.foldl (fun a m => if m.stage = 2 then moveAddr m.oldWin m.winLen m.newWin a else a) a

/-- Whether an address lies in a window range that a forwarding entry sends on (R405). -/
def State.isForwarded (s : State) (a : Nat) : Bool :=
  s.moves.any fun m => m.stage == 2 && decide (m.oldWin ≤ a) && decide (a < m.oldWin + m.winLen)

/-! ## Interrupts and reports (R226 to R228, R409) -/

/-- Set bit `b` of a function's icause; the vector is raised when the bit becomes 1 and is not masked (R409). -/
def State.interrupt (s : State) (fn b : Nat) : State :=
  let f := s.func fn
  if f.icause.getLsbD b then s else
  let s := s.setFunc { f with icause := f.icause ||| BitVec.ofNat 64 (2 ^ b) }
  if f.imask.getLsbD b then s else { s with irqs := s.irqs ++ [(fn, b)] }

/-- A report's fields (R227); tick and seq are the K9's.  A field that no rule states for the report is none: a free value
(log 7). -/
structure Rep where
  code : Nat
  source : Nat
  flags : Nat := 0
  queue : Option Nat := none
  issuer : Option W64 := none
  pc : Option W64 := none
  object : Nat := 0
  address : Nat := 0
  progress : Nat := 0
  value : Option Nat := none
  deriving DecidableEq, Repr

/-- The 64 bytes of a report (R227), with the free values from number `n` on for the fields that are open. -/
def Rep.bytes (r : Rep) (n tick seq : Nat) : List Byte :=
  let free := fun (k : Nat) => Config.freeValue (n + k)
  leBytes 2 r.code ++ leBytes 1 r.source ++ leBytes 1 r.flags ++ leBytes 4 (r.queue.getD (free 0).toNat)
    ++ leBytes 8 (r.issuer.getD (free 1)).toNat ++ leBytes 8 (r.pc.getD (free 2)).toNat ++ leBytes 8 r.object
    ++ leBytes 8 r.address ++ leBytes 8 r.progress ++ leBytes 8 tick ++ leBytes 4 (r.value.getD (free 3).toNat) ++ leBytes 4 seq

/-- Write a report to a context's fault queue (R227, R228): the entry, then head; or the lost count when the ring is
full.  Either way it takes a sequence number and interrupts the function.  DEDUCED (log 13): head and tail count
entries modulo 2^32 and an entry lies at its number modulo 2^n. -/
def State.report (s : State) (cid : Nat) (r : Rep) : State :=
  let c := s.ctx cid
  let q := c.r.fq
  let head := s.slice.num q 4
  let tail := s.slice.num (q + 4) 4
  let mem :=
    if (head + 2 ^ 32 - tail) % 2 ^ 32 < 2 ^ c.r.fqlog then
      (s.slice.setBytes (q + 64 + 64 * (head % 2 ^ c.r.fqlog)) (r.bytes s.freeCtr s.tick c.seq)).setNum q 4 ((head + 1) % 2 ^ 32)
    else s.slice.setNum (q + 8) 4 (min (s.slice.num (q + 8) 4 + 1) (2 ^ 32 - 1))
  ({ s with slice := mem, freeCtr := s.freeCtr + 4 }.updCtx cid fun c => { c with seq := (c.seq + 1) % 2 ^ 32 }).interrupt c.vf 1

/-! ## Identities (R34) -/

/-- Waves of a group (R123). -/
def Wave.perGroup (w : Wave) : Nat := (w.knlanes.toNat + 31) / 32

/-- Logical wave index in the grid (R123). -/
def Wave.logical (w : Wave) : Nat := w.group * w.perGroup + w.widx

/-- The task of a lane, if any. -/
def Wave.taskOf (w : Wave) (lane : Nat) : Option TaskRef := (w.tasks.find? fun t => t.1 == lane).map (·.2)

/-- The key of a lane's task; zero where it has none. -/
def Wave.keyOf (w : Wave) (lane : Nat) : W64 := ((w.taskOf lane).map (·.key)).getD 0

/-- Identity I of a lane (R34). -/
def Wave.ident (w : Wave) (lane : Nat) : W64 :=
  if w.task then 0x8000000000000000#64 ||| w.keyOf lane
  else BitVec.ofNat 64 (w.ord % 2 ^ 23 * 2 ^ 40 + w.logical % 2 ^ 35 * 32 + lane)

/-- Lowest quad number of a set. -/
def lowQuad (quads : BitVec 8) : Nat := ((List.range 8).find? fun k => quads.getLsbD k).getD 8

/-- Whether a quad belongs to a set of quads. -/
def hasQuad (quads : BitVec 8) (lane : Nat) : Bool := quads.getLsbD (lane / 4)

/-- Whether a lane works (R104). -/
def Wave.isWorking (w : Wave) (lane : Nat) : Bool := w.working.getLsbD lane

/-- Whether a quad has a working lane. -/
def Wave.quadWorks (w : Wave) (quad : Nat) : Bool := (List.range 4).any fun i => w.isWorking (4 * quad + i)

/-- Whether a lane is a helper lane (R104). -/
def Wave.isHelper (w : Wave) (lane : Nat) : Bool := !w.isWorking lane && w.quadWorks (lane / 4)

/-- Lowest working lane of a set of quads. -/
def Wave.lowestWorking (w : Wave) (quads : BitVec 8) : Option Nat :=
  (List.range 32).find? fun l => hasQuad quads l && w.isWorking l

/-- The issuer's identity in a report: lane bits zero for a grid wave (R227). -/
def Wave.reportIdent (w : Wave) (quads : BitVec 8) : W64 :=
  if w.task then w.ident ((w.lowestWorking quads).getD 0) else w.ident 0

/-! ## The head wave -/

/-- Replace the head wave. -/
def State.put (s : State) (w : Wave) : State := { s with waves := w :: s.waves.tail }

/-- Send the issuing sub-wave to an address: the instruction has issued. -/
def Wave.goto (w : Wave) (tick : Nat) (pc : W64) : Wave :=
  { w with
    subs := (match w.subs with
      | [] => []
      | q :: t => { q with pc := pc, st := .ready } :: t)
    wait := .none
    lastIssue := tick }

/-- The issuing sub-wave goes on at the next word: PC + 4. -/
def Wave.next (w : Wave) (tick : Nat) : Wave :=
  match w.subs with
  | [] => w
  | q :: _ => w.goto tick (q.pc + 4)

/-- Replace the head wave, gone on to the next word. -/
def State.retire (s : State) (w : Wave) : State := s.put (w.next s.tick)

/-- The head wave is not ready at its instruction, and issues it again (R120, R141, R143). -/
def State.again (s : State) (w : Wave) (q : SubWave) : State := s.put { w with wait := .again q.quads }

/-- What the instruction needs cannot accept it yet: its sub-wave is not ready, and another may be offered (R106, R120). -/
def State.stall (s : State) (w : Wave) (q : SubWave) : State := s.put { w with wait := .stall q.quads }

/-- Run a meaning on the issuing wave and its issuing sub-wave; a machine with no such wave does nothing. -/
def State.onIssuer (s : State) (f : Wave → SubWave → State) : State :=
  match s.waves with
  | [] => s
  | w :: _ =>
    match w.subs with
    | [] => s
    | q :: _ => f w q

/-! ## Taking a precise fault, and the return from the handler (R221 to R225) -/

/-- Whether `kTRAPVAL` of a fault is a data or code address, so that a report carries it (R227).  A fault whose value is
no address where its code's value otherwise is one (TICKET_STATE at `tkpass`, ECC_UNCORRECTABLE of a register) is raised
with 65536 added to its code, which `kTRAPCAUSE` does not hold. -/
def faultHasAddress (code : Nat) : Bool :=
  [0x04, 0x05, 0x20, 0x21, 0x22, 0x25, 0x26, 0x27, 0x28, 0x29, 0x31, 0x32, 0x60, 0x61, 0x67].contains code

/-- The queue field of a report about a request (R227). -/
def Issuer.queueField (i : Issuer) (die queue : Nat) : Nat := queue + 256 * die + 65536 * (i.group % 65536)

/-- The queue field of a wave's report (R227). -/
def Wave.reportQueue (w : Wave) : Nat := dieOf w.core * 256 + (if w.task then 0xFFFF else w.group % 65536) * 65536

/-- A sub-wave whose `xacq` is withdrawn (R139). -/
def SubWave.withdrawn (q : SubWave) : SubWave := if q.st = .forBlock then { q with st := .ready } else q

/-- A halted wave, with the waits withdrawn that it will issue again (R139, R146, R218, R302, R333, R392). -/
def Wave.withdrawn (w : Wave) : Wave :=
  { w with
    subs := w.subs.map SubWave.withdrawn
    wait := match w.wait with
      | .home acc => .home acc
      | .request id => .request id
      | .joint members tag => .joint members tag
      | _ => .none }

/-- A wave halted between instructions at step 2 of pre-emption. -/
def Wave.halted (w : Wave) : Wave := { w.withdrawn with halt := if w.halt = .running then .preempted else w.halt }

/-- Whether an access is a `bind` that waits for its installation, or a check of a wave (R218). -/
def AccKind.isBind : AccKind → Bool
  | .bind .. => true
  | _ => false

/-- Withdraw the `bind` instructions of some waves that wait for their installation (R218). -/
def State.withdrawBinds (s : State) (ids : List Nat) : State :=
  let isBind := fun (a : Access) => ids.contains a.wave && a.kind.isBind
  let hit := (s.flight.filter isBind).map (·.id)
  let free := fun (w : Wave) => match w.wait with
    | .home acc => if hit.contains acc then { w with wait := .none } else w
    | _ => w
  { s with
    flight := s.flight.filter fun a => !(isBind a)
    waves := s.waves.map free }

/-- Withdraw what halted waves wait for and will issue again, and their places in the queues of their quadrants (R139, R218). -/
def State.withdraw (s : State) (ids : List Nat) (f : Wave → Wave) : State :=
  let s := s.withdrawBinds ids
  { s with
    waves := updWhere (fun w => ids.contains w.id) f s.waves
    waitList := s.waitList.filter fun e => !(ids.contains e.2.2.1) }

/-- The quads and the program counter of the sub-wave that a wave-wide wait holds. -/
def Wave.waiting (w : Wave) : BitVec 8 × W64 :=
  match w.subs with
  | [] => (0, 0)
  | q :: _ => (q.quads, q.pc)

/-- What a wave waits for after a fault in the sub-wave `quads`: an instruction that another sub-wave has issued completes (R221),
and one that stands to issue again does so after the handler. -/
def Wave.waitAfter (w : Wave) (quads : BitVec 8) : WaveWait :=
  match w.wait with
  | .again _ | .stall _ => .none
  | x => if w.waiting.1 = quads then .none else x

/-- The trap registers and the handler of a wave that takes a fault in the sub-wave `quads` (R221, R222): with a handler
address, the sub-wave alone goes on there; with none, the wave is halted. -/
def Wave.enter (w : Wave) (handler : W64) (quads : BitVec 8) (code : BitVec 16) (pc val : W64) : Wave :=
  let w := { w with trapCause := code, trapPc := pc, trapVal := val, wait := w.waitAfter quads }
  if handler = 0 then { w with halt := .unhandled }
  else { w with
    handler := some quads
    subs := updWhere (fun q => q.quads == quads) (fun q => { q with pc := handler, st := .ready }) w.subs }

/-- One wave takes a precise fault (R221 to R224), without what it does to joint latches. -/
def State.faultOne (s : State) (wid : Nat) (quads : BitVec 8) (code : Nat) (pc val : W64) : State :=
  match s.wave? wid with
  | none => s
  | some w =>
    let c := s.ctx w.ctx
    if w.handler.isSome then
      (s.withdraw [wid] fun w => { w.withdrawn with halt := .unhandled }).report w.ctx
        { code := 0x0C, source := 0, flags := 4, queue := w.reportQueue, issuer := w.reportIdent quads, pc := w.trapPc,
          address := pc.toNat, value := some (code % 65536) }
    else
      let s := s.updWave wid fun w => w.enter c.r.handler quads (BitVec.ofNat 16 code) pc val
      if c.r.handler = 0 then
        (s.withdraw [wid] Wave.withdrawn).report w.ctx
          { code := code % 65536, source := 0, flags := 4, queue := w.reportQueue, issuer := w.reportIdent quads, pc := pc,
            address := if faultHasAddress code then val.toNat else 0, value := some (val.toNat % 2 ^ 32) }
      else s

/-- The open latches of a group that list the wave index `widx` and that its wave has not entered (R293). -/
def Group.breaking (g : Group) (wid widx : Nat) (keep : Option (BitVec 16 × BitVec 4)) : List Latch :=
  g.latches.filter fun l =>
    l.members.getLsbD widx && !(l.entered.any fun e => e.wave == wid) &&
    (match keep with
     | none => true
     | some k => l.tag == k.2 && l.members != k.1)

/-- Break the latches that a wave has not entered: every wave in them takes JOINT_BROKEN, which may break others; a
break removes its latch, so `n` of at least the number of open latches ends it (R293).  With `keep`, only latches of
that tag with other members break. -/
def State.breakLatches : Nat → List (Nat × Option (BitVec 16 × BitVec 4)) → State → State
  | 0, _, s => s
  | _ + 1, [], s => s
  | n + 1, (wid, keep) :: rest, s =>
    match s.wave? wid with
    | none => s.breakLatches n rest
    | some w =>
      match s.group? w.gid with
      | none => s.breakLatches n rest
      | some g =>
        if w.task then s.breakLatches n rest else
        let broken := g.breaking wid w.widx keep
        let s := s.updGroup g.id fun g => { g with latches := g.latches.filter fun l => !(broken.contains l) }
        let hit := broken.flatMap fun l => l.entered.map (·.wave)
        let s := hit.foldl (fun s h =>
          match s.wave? h with
          | none => s
          | some v => s.faultOne h v.waiting.1 0x50 v.waiting.2 (BitVec.ofNat 64 w.widx)) s
        s.breakLatches n (rest ++ hit.map fun h => (h, none))

/-- A wave takes a precise fault, and the joint latches that it had still to enter break (R221, R293). -/
def State.fault (s : State) (wid : Nat) (quads : BitVec 8) (code : Nat) (pc val : W64) : State :=
  (s.faultOne wid quads code pc val).breakLatches 1024 [(wid, none)]

/-- The issuing sub-wave's instruction raises a precise fault (R221). -/
def State.raise (s : State) (w : Wave) (q : SubWave) (code : Nat) (val : W64) : State :=
  s.fault w.id q.quads code q.pc val

/-- The same with a `kTRAPVAL` that no rule states: a free value (log 19). -/
def State.raiseFree (s : State) (w : Wave) (q : SubWave) (code : Nat) : State :=
  let f := s.free
  f.2.raise w q code f.1

/-- The wave after its handler returned (R223): bit [0] of kWSTATE clears, which resumes the suspended sub-waves, and
the handler's sub-wave goes to the target. -/
def Wave.returnTo (w : Wave) (tick : Nat) (target : W64) : Wave := { w.goto tick target with handler := none }

/-! ## Translation (R20 to R23, R229, R230) -/

/-- The entry of `level` (1 to 5) that 8 bytes hold; none when it counts as invalid (R230). -/
def pteOf (level e : Nat) : Option Pte :=
  let leaf := decide (bitsOf e 1 1 = 1)
  let pa := bitsOf e 16 41 * 65536
  if bitsOf e 0 1 = 0 ∨ bitsOf e 4 12 ≠ 0 ∨ bitsOf e 57 7 ≠ 0 then none
  else if level = 5 ∧ leaf = false then none
  else if level ≤ 2 ∧ leaf = true then none
  else if level = 4 ∧ leaf = true ∧ pa % 2 ^ 21 ≠ 0 then none
  else if level = 3 ∧ leaf = true ∧ pa % 2 ^ 30 ≠ 0 then none
  else some ⟨leaf, decide (bitsOf e 2 1 = 1), decide (bitsOf e 3 1 = 1), pa⟩

/-- Lowest VA bit that indexes a level, and its index bits (R230). -/
def levelBits (level : Nat) : Nat × Nat :=
  match level with
  | 1 => (48, 9)
  | 2 => (39, 9)
  | 3 => (30, 9)
  | 4 => (21, 9)
  | _ => (16, 5)

/-- The walk of a virtual address from a table at `level`, `n` levels left (R230).  DEDUCED (log 14): tables and pages
lie in external memory, which `ext` holds by physical address. -/
def walkFrom (ext : Memory) (va : Nat) : Nat → Nat → Nat → Option (Nat × Pte)
  | 0, _, _ => none
  | n + 1, level, table =>
    let b := levelBits level
    match pteOf level (ext.num (table + 8 * bitsOf va b.1 b.2) 8) with
    | none => none
    | some p => if p.leaf then some (p.pa + va % 2 ^ b.1, p) else walkFrom ext va n (level + 1) p.pa

/-- The physical address of an external virtual address and its page's entry, by a walk of the page tables; none when the walk fails
or the page is of the other world (R229, R418). -/
def State.pageWalk (s : State) (c : Context) (va : Nat) : Option (Nat × Pte) :=
  if inExt va then
    match walkFrom s.ext va 5 1 c.r.ptroot with
    | some r => if r.2.secure = s.isSecure c then some r else none
    | none => none
  else none

/-- The entry of a die's second-level TLB for an address of a context (R9, R229). -/
def State.tlbEntry (s : State) (die : Nat) (c : Context) (va : Nat) : Option TlbEntry :=
  s.tlb.find? fun e => e.die == die && e.ctx == c.id && e.page == va / 65536

/-- The translation of an external virtual address by a die's translation unit (R9, R229): from its TLB, else by a walk. -/
def State.walk (s : State) (die : Nat) (c : Context) (va : Nat) : Option (Nat × Pte) :=
  match s.tlbEntry die c va with
  | some e => some (e.pa + va % 65536, e.pte)
  | none => s.pageWalk c va

/-- A die's translation unit keeps the translation of an address, once a walk has found it: it stays until it is invalidated (R231) or the
4,096 entries are full and it is the oldest (log 109). -/
def State.tlbFill (s : State) (die : Nat) (c : Context) (va : Nat) : State :=
  if (s.tlbEntry die c va).isSome then s else
  match s.pageWalk c va with
  | none => s
  | some r =>
    let full := decide (Config.tlbEntries ≤ (s.tlb.filter fun e => e.die == die).length)
    let kept := if full then s.tlb.eraseP fun e => e.die == die else s.tlb
    { s with tlb := kept ++ [⟨die, c.id, va / 65536, r.1 - va % 65536, r.2⟩] }

/-- The die that serves what no die of its own names: that of the partition's logical core 0 (R124, R412; log 109). -/
def State.homeDie (s : State) (c : Context) : Nat :=
  match s.part? c.vf with
  | some p => (p.cores.head?.map dieOf).getD 0
  | none => 0

/-- What an address of a wave's access names (R22, R23): the slice-space address of its location, and whether it was
named through the group window; or the fault code. -/
def State.resolve (s : State) (w : Wave) (a : Nat) : Except Nat (Nat × Bool) :=
  let c := s.ctx w.ctx
  if inExt a then .error 0x21
  else if inSlice a then
    if s.owns c a && !(s.groups.any fun g => decide (g.spill ≤ a ∧ a < g.spill + g.spillLen))
    then .ok (a, false) else .error 0x20
  else if Config.windowBase ≤ a ∧ a < Config.sliceBase then
    match (if w.task then none else s.group? w.gid) with
    | some g => if a - Config.windowBase < g.winLen then .ok (g.win + (a - Config.windowBase), true) else .error 0x20
    | none => .error 0x20
  else .error 0x20

/-- Whether two byte ranges overlap. -/
def overlap (a n b k : Nat) : Bool := decide (a < b + k) && decide (b < a + n)

/-- Whether every byte of a slice range is mapped for the context: owned banks, and no group's spill part (R21 to R23, R266). -/
def State.sliceMapped (s : State) (c : Context) (a n : Nat) : Bool :=
  inSlice a && inSlice (a + n - 1) &&
    ((List.range (((a + n - 1) / 524288) - a / 524288 + 1)).all fun i => s.owns c ((a / 524288 + i) * 524288)) &&
    !(s.groups.any fun g => decide (0 < g.spillLen) && overlap a n g.spill g.spillLen)

/-! ## The code segment (R98, R99) -/

/-- Whether an address lies in the context's code segment. -/
def CtxRec.inCode (r : CtxRec) (a : W64) : Bool :=
  decide (r.codebase ≤ a.toNat) && decide (a.toNat + 4 ≤ r.codebase + r.codelen)

/-- The word at a code address, fetched through a die's translation unit (R99, R229, R230). -/
def State.fetchWord (s : State) (die : Nat) (c : Context) (a : W64) : Option W32 :=
  if c.r.inCode a then
    match s.walk die c a.toNat with
    | some r => some (BitVec.ofNat 32 (s.ext.num r.1 4))
    | none => none
  else none

/-- The die's translation unit keeps the translation of a code address that it fetches from (R9, R229). -/
def State.fetchFill (s : State) (die : Nat) (c : Context) (a : W64) : State := if c.r.inCode a then s.tlbFill die c a.toNat else s

/-- The fault of a control transfer to a target, if any (R98). -/
def targetFault (r : CtxRec) (target : W64) : Option Nat :=
  if target.toNat % 4 ≠ 0 then some 0x04
  else if r.inCode target then none else some 0x05

end Sys2Proof.Machine
end

