-- ==== Sys2Proof/Machine/Operands.lean ====
section
/-! DEFINITION. The operand forms: scalars, predicates, mode slots, vector fields and neighbour sources, the lanes that
an instruction acts in, and the checks of R89 and R157 (R87 to R94, R104, R105). -/

namespace Sys2Proof.Machine

/-! ## Scalars, predicates and slots -/

/-- Scalar register s0 to s63 (R91). -/
def Wave.s (w : Wave) (i : Nat) : W64 := w.sregs.get i
/-- Write a scalar register. -/
def Wave.setS (w : Wave) (i : Nat) (v : W64) : Wave := { w with sregs := w.sregs.set i v }

/-- Predicate p0 to p7: p0 reads as all ones (R91). -/
def Wave.p (w : Wave) (i : Nat) : W32 := if i = 0 then BitVec.allOnes 32 else w.preds.get i
/-- Write a predicate: a write to p0 is discarded (R91). -/
def Wave.setP (w : Wave) (i : Nat) (v : W32) : Wave := if i = 0 then w else { w with preds := w.preds.set i v }

/-- Register `r` of a lane. -/
def Wave.v (w : Wave) (r lane : Nat) : W32 := w.vregs.get (32 * r + lane)
/-- Write register `r` of a lane. -/
def Wave.setV (w : Wave) (r lane : Nat) (x : W32) : Wave := { w with vregs := w.vregs.set (32 * r + lane) x }

/-- Mode slot m0 to m3 (R92). -/
def Wave.slotOf (w : Wave) (m : Nat) : W32 := w.modes.get m

/-- Fields of a mode slot (R92). -/
def slGuard (m : W32) : Nat := (m.extractLsb' 0 4).toNat
def slType (m : W32) : Nat := (m.extractLsb' 4 4).toNat
def slRound (m : W32) : Nat := (m.extractLsb' 8 3).toNat
def slSat (m : W32) : Bool := m.getLsbD 11
def slFlush (m : W32) : Bool := m.getLsbD 12
def slEdge (m : W32) : Nat := (m.extractLsb' 13 2).toNat
def slOrder (m : W32) : Nat := (m.extractLsb' 15 2).toNat
def slScope (m : W32) : Nat := (m.extractLsb' 17 4).toNat

/-- The rounding, saturate and flush fields together. -/
def slMode (m : W32) : RMode := ⟨slRound m, slSat m, slFlush m⟩

/-- Whether a slot value holds no reserved value (R93). -/
def slotLegal (m : W32) : Bool :=
  decide (slType m < 14) && decide (slRound m < 5) && decide (slEdge m < 3) && decide (slScope m < 9)
    && decide (m.extractLsb' 21 11 = 0)

/-! ## Lanes (R6, R92, R94, R105) -/

/-- The guard bit of a lane, after negation (R92). -/
def Wave.guardBit (w : Wave) (m : W32) (lane : Nat) : Bool :=
  (w.p (slGuard m % 8)).getLsbD lane != decide (8 ≤ slGuard m)

/-- Active: a working lane of the issuing quads whose guard bit is set. -/
def Wave.active (w : Wave) (q : SubWave) (m : W32) (lane : Nat) : Bool :=
  hasQuad q.quads lane && w.isWorking lane && w.guardBit m lane

/-- ActiveH: Active together with the helper lanes whose guard bit is set (R105). -/
def Wave.activeH (w : Wave) (q : SubWave) (m : W32) (lane : Nat) : Bool :=
  hasQuad q.quads lane && (w.isWorking lane || w.isHelper lane) && w.guardBit m lane

/-- The lanes of the issuing quads that work or help. -/
def Wave.issuing (w : Wave) (q : SubWave) (lane : Nat) : Bool :=
  hasQuad q.quads lane && (w.isWorking lane || w.isHelper lane)

/-- The lanes 0 to 31 that satisfy a test, in ascending order. -/
def lanesOf (p : Nat → Bool) : List Nat := (List.range 32).filter p

/-- The leader of an engine request: the lowest Active lane (R17, R87). -/
def Wave.leader (w : Wave) (q : SubWave) (m : W32) : Option Nat := (lanesOf (w.active q m)).head?

/-! ## Vector fields (R89, R90) -/

/-- Whether a 7-bit field names a register of the extended block. -/
def isExtended (f : Nat) : Bool := decide (32 ≤ f) && decide (f < 96)

/-- The first field, in the order given, that names the extended block while the wave does not hold one (R89). -/
def Wave.extFault (w : Wave) (fields : List Nat) : Option Nat :=
  if w.ext then none else fields.find? isExtended

/-- Opnd(f, L) of R90: the value of a vector field in a lane. -/
def Wave.opnd (w : Wave) (m : W32) (f lane : Nat) : W32 :=
  if f < 96 then w.v f lane else
  let reg := f % 16
  if f < 112 then
    if 0 < lane then w.v reg (lane - 1)
    else match slEdge m with
      | 0 => 0
      | 1 => w.v reg lane
      | _ => w.v reg 31
  else
    if lane < 31 then w.v reg (lane + 1)
    else match slEdge m with
      | 0 => 0
      | 1 => w.v reg lane
      | _ => w.v reg 0

/-- The lane whose register Opnd reads for a lane; none past an edge that reads as zero (R90). -/
def fieldLane (m : W32) (f lane : Nat) : Option Nat :=
  if f < 96 then some lane
  else if f < 112 then
    if 0 < lane then some (lane - 1)
    else match slEdge m with
      | 0 => none
      | 1 => some lane
      | _ => some 31
  else
    if lane < 31 then some (lane + 1)
    else match slEdge m with
      | 0 => none
      | 1 => some lane
      | _ => some 0

/-! ## Writing lanes -/

/-- Write register `d` in the lanes that satisfy a test; other lanes keep theirs (R156). -/
def Wave.writeLanes (w : Wave) (d : Nat) (on : Nat → Bool) (f : Nat → W32) : Wave :=
  { w with vregs := (List.range 32).foldl (fun r l => if on l then r.set (32 * d + l) (f l) else r) w.vregs }

/-- A lane mask: the bits of the lanes that satisfy `on` come from `f`, the others from `old` (R166). -/
def maskBits (old : W32) (on f : Nat → Bool) : W32 :=
  (List.range 32).foldl (fun m l =>
    if on l then (if f l then m ||| BitVec.twoPow 32 l else m &&& ~~~(BitVec.twoPow 32 l)) else m) old

/-- The grain call `j` of a lane at its present counter: Grain(n + j) (R33, R36). -/
def State.grainCall (s : State) (w : Wave) (lane j : Nat) : W64 :=
  grainOf (s.ctx w.ctx).r.gseed (w.ident lane) (w.grain.get lane + BitVec.ofNat 32 j)

/-- Advance the grain counters of the lanes that satisfy a test (R35, R36). -/
def Wave.advanceGrain (w : Wave) (on : Nat → Bool) (n : Nat) : Wave :=
  { w with grain := (List.range 32).foldl (fun g l => if on l then g.set l (g.get l + BitVec.ofNat 32 n) else g) w.grain }

end Sys2Proof.Machine
end

