-- ==== Sys2Proof/Machine/Flags.lean ====
section
/-! DEFINITION. The flag computations (R40 to R43) and the one shape of the vector arithmetic instructions (R156 to
R158): sources are collected, ActiveH lanes are written, and flags and draws are Active lanes' only. -/

namespace Sys2Proof.Machine

/-- OR flags into `kFLAGS` (R43). -/
def Wave.orFlags (w : Wave) (f : Flags) : Wave := { w with flags := w.flags ||| f }

/-- OR flags of an operation in flight into `kFLAGS` at a tick: a `setk` in the same clk comes before them (R43). -/
def Wave.orLate (w : Wave) (tick : Nat) (f : Flags) : Wave :=
  { w.orFlags f with lateFlags := (if w.lateTick = tick then w.lateFlags else 0) ||| f, lateTick := tick }

/-- The flags of the lanes that satisfy a test, ORed together (R41). -/
def gatherFlags (on : Nat → Bool) (f : Nat → Flags) : Flags :=
  (List.range 32).foldl (fun a l => if on l then a ||| f l else a) 0

/-- OR flags into the kFLAGS of a running wave, or into its context's summary flags when it has ended (R40, R263). -/
def State.flagWave (s : State) (wid cid : Nat) (f : Flags) : State :=
  if s.waves.any (fun w => w.id == wid) then s.updWave wid fun w => w.orLate s.tick f
  else s.updCtx cid fun c => { c with sumflags := c.sumflags ||| f }

/-- Calls of a draw for `e` elements: ceil(e/4) (R36). -/
def callsFor (e : Nat) : Nat := (e + 3) / 4

/-- The lane-wise shape of R156: `f` gives, from the lane and its grain calls, the new value of the destination and the
flags it sets.  With `calls` above 0 the instruction draws under rsr.  A helper lane takes g = 0 (R32). -/
def State.laneOp (s : State) (w : Wave) (q : SubWave) (m : W32) (d calls : Nat) (f : Nat → (Nat → W64) → W32 × Flags) :
    State :=
  let rsr := decide (slRound m = 4) && decide (0 < calls)
  let out := fun l => f l fun j => if rsr && w.active q m l then s.grainCall w l j else 0
  let w' := (w.writeLanes d (w.activeH q m) fun l => (out l).1).orFlags (gatherFlags (w.active q m) fun l => (out l).2)
  s.retire (if rsr then w'.advanceGrain (w.active q m) calls else w')

/-- The shape of a compare (R166, R173): bit L of predicate `d` in the ActiveH lanes, and flags of Active lanes. -/
def State.laneCmp (s : State) (w : Wave) (q : SubWave) (m : W32) (d : Nat) (f : Nat → Bool × Flags) : State :=
  let w' := w.setP d (maskBits (w.p d) (w.activeH q m) fun l => (f l).1)
  s.retire (w'.orFlags (gatherFlags (w.active q m) fun l => (f l).2))

/-- The checks that come before a vector instruction's effect, in the order of R100: the extended block (R89), then the
type (R157, in the place of ILLEGAL_MODE). -/
def State.vecGuarded (s : State) (w : Wave) (q : SubWave) (m : W32) (fields : List Nat) (typeOk : Bool) (k : State) :
    State :=
  match w.extFault fields with
  | some f => s.raise w q 0x03 (BitVec.ofNat 64 f)
  | none => if typeOk then k else s.raise w q 0x0A (m.setWidth 64)

/-- A vector instruction of the issuing wave: mode slot `m`, the fields checked in order, the types accepted. -/
def State.vec (s : State) (m : BitVec 2) (fields : List (BitVec 7)) (typeOk : Nat → Bool)
    (k : Wave → SubWave → W32 → State) : State :=
  s.onIssuer fun w q =>
    let sl := w.slotOf m.toNat
    s.vecGuarded w q sl (fields.map BitVec.toNat) (typeOk (slType sl)) (k w q sl)

/-- Fold an element function over the elements of a register: element k of the result and its flags (R156). -/
def foldElems (n w : Nat) (init : W32) (f : Nat → Nat × Flags) : W32 × Flags :=
  (List.range n).foldl (fun r k => let e := f k; (setElem r.1 k w e.1, r.2 ||| e.2)) (init, 0)

end Sys2Proof.Machine
end

