-- ==== Sys2Proof/Machine/Scalar.lean ====
section
/-! DEFINITION. The scalar ALU and the scalar immediates (R126, R150 to R154). -/

namespace Sys2Proof.Machine

/-- The outcome of a step in this model. -/
abbrev Out := Host.Outcome State Fault Refusal

/-- A scalar instruction: all sources are read, then sd is written (R126). -/
def State.scalarOp (s : State) (d : Nat) (f : Wave → W64) : State :=
  s.onIssuer fun w _ => s.retire (w.setS d (f w))

/-- A predicate instruction: pd is written, a write to p0 discarded (R152). -/
def State.predOp (s : State) (d : Nat) (f : Wave → W32) : State :=
  s.onIssuer fun w _ => s.retire (w.setP d (f w))

/-- A compare's result: 1 or 0 in all 64 bits (R151). -/
def boolWord (b : Bool) : W64 := if b then 1 else 0

/-- Leading zero bits of a value of `n` bits. -/
def clz (n v : Nat) : Nat := if v = 0 then n else n - 1 - Nat.log2 v

/-- Set bits among the low `n` bits of a value. -/
def popc (n v : Nat) : Nat := ((List.range n).filter fun i => v.testBit i).length

/-- Index of the lowest set bit among the low `n`; `n` when none is set. -/
def firstBit (n v : Nat) : Nat := ((List.range n).find? fun i => v.testBit i).getD n

/-- `sadd` (R151). sd := sa + sb. -/
def execSadd (d a b : BitVec 6) (s : State) : Out :=
  .next (s.scalarOp d.toNat fun w => let x := w.s a.toNat; let y := w.s b.toNat; x + y)

/-- `ssub` (R151). sd := sa - sb. -/
def execSsub (d a b : BitVec 6) (s : State) : Out :=
  .next (s.scalarOp d.toNat fun w => let x := w.s a.toNat; let y := w.s b.toNat; x - y)

/-- `smul` (R151). sd := the low 64 bits of the product. -/
def execSmul (d a b : BitVec 6) (s : State) : Out :=
  .next (s.scalarOp d.toNat fun w => let x := w.s a.toNat; let y := w.s b.toNat; x * y)

/-- `smulh` (R151). sd := the high 64 bits of the signed product. -/
def execSmulh (d a b : BitVec 6) (s : State) : Out :=
  .next (s.scalarOp d.toNat fun w => let x := w.s a.toNat; let y := w.s b.toNat; BitVec.ofInt 64 (x.toInt * y.toInt / 2 ^ 64))

/-- `smulhn` (R151). sd := the high 64 bits of the unsigned product. -/
def execSmulhn (d a b : BitVec 6) (s : State) : Out :=
  .next (s.scalarOp d.toNat fun w => let x := w.s a.toNat; let y := w.s b.toNat; BitVec.ofNat 64 (x.toNat * y.toNat / 2 ^ 64))

/-- `sand` (R151). sd := sa and sb. -/
def execSand (d a b : BitVec 6) (s : State) : Out :=
  .next (s.scalarOp d.toNat fun w => let x := w.s a.toNat; let y := w.s b.toNat; x &&& y)

/-- `sor` (R151). sd := sa or sb. -/
def execSor (d a b : BitVec 6) (s : State) : Out :=
  .next (s.scalarOp d.toNat fun w => let x := w.s a.toNat; let y := w.s b.toNat; x ||| y)

/-- `sxor` (R151). sd := sa xor sb. -/
def execSxor (d a b : BitVec 6) (s : State) : Out :=
  .next (s.scalarOp d.toNat fun w => let x := w.s a.toNat; let y := w.s b.toNat; x ^^^ y)

/-- `sandn` (R151). sd := sa and not sb. -/
def execSandn (d a b : BitVec 6) (s : State) : Out :=
  .next (s.scalarOp d.toNat fun w => let x := w.s a.toNat; let y := w.s b.toNat; x &&& ~~~y)

/-- `sshl` (R151). sd := sa shifted left by sb[5:0]. -/
def execSshl (d a b : BitVec 6) (s : State) : Out :=
  .next (s.scalarOp d.toNat fun w => let x := w.s a.toNat; let y := w.s b.toNat; x <<< (y.toNat % 64))

/-- `sshr` (R151). sd := sa shifted right by sb[5:0], zeros in. -/
def execSshr (d a b : BitVec 6) (s : State) : Out :=
  .next (s.scalarOp d.toNat fun w => let x := w.s a.toNat; let y := w.s b.toNat; x >>> (y.toNat % 64))

/-- `ssra` (R151). sd := sa shifted right by sb[5:0], copies of sa[63] in. -/
def execSsra (d a b : BitVec 6) (s : State) : Out :=
  .next (s.scalarOp d.toNat fun w => let x := w.s a.toNat; let y := w.s b.toNat; x.sshiftRight (y.toNat % 64))

/-- `smin` (R151). Signed minimum. -/
def execSmin (d a b : BitVec 6) (s : State) : Out :=
  .next (s.scalarOp d.toNat fun w => let x := w.s a.toNat; let y := w.s b.toNat; if x.slt y then x else y)

/-- `smax` (R151). Signed maximum. -/
def execSmax (d a b : BitVec 6) (s : State) : Out :=
  .next (s.scalarOp d.toNat fun w => let x := w.s a.toNat; let y := w.s b.toNat; if x.slt y then y else x)

/-- `sminn` (R151). Unsigned minimum. -/
def execSminn (d a b : BitVec 6) (s : State) : Out :=
  .next (s.scalarOp d.toNat fun w => let x := w.s a.toNat; let y := w.s b.toNat; if x.ult y then x else y)

/-- `smaxn` (R151). Unsigned maximum. -/
def execSmaxn (d a b : BitVec 6) (s : State) : Out :=
  .next (s.scalarOp d.toNat fun w => let x := w.s a.toNat; let y := w.s b.toNat; if x.ult y then y else x)

/-- `sseq` (R151). sd := 1 if sa = sb, else 0. -/
def execSseq (d a b : BitVec 6) (s : State) : Out :=
  .next (s.scalarOp d.toNat fun w => let x := w.s a.toNat; let y := w.s b.toNat; boolWord (x == y))

/-- `ssne` (R151). sd := 1 if sa differs from sb, else 0. -/
def execSsne (d a b : BitVec 6) (s : State) : Out :=
  .next (s.scalarOp d.toNat fun w => let x := w.s a.toNat; let y := w.s b.toNat; boolWord (x != y))

/-- `sslt` (R151). Signed less than. -/
def execSslt (d a b : BitVec 6) (s : State) : Out :=
  .next (s.scalarOp d.toNat fun w => let x := w.s a.toNat; let y := w.s b.toNat; boolWord (x.slt y))

/-- `ssle` (R151). Signed at most. -/
def execSsle (d a b : BitVec 6) (s : State) : Out :=
  .next (s.scalarOp d.toNat fun w => let x := w.s a.toNat; let y := w.s b.toNat; boolWord (x.sle y))

/-- `ssltn` (R151). Unsigned less than. -/
def execSsltn (d a b : BitVec 6) (s : State) : Out :=
  .next (s.scalarOp d.toNat fun w => let x := w.s a.toNat; let y := w.s b.toNat; boolWord (x.ult y))

/-- `sslen` (R151). Unsigned at most. -/
def execSslen (d a b : BitVec 6) (s : State) : Out :=
  .next (s.scalarOp d.toNat fun w => let x := w.s a.toNat; let y := w.s b.toNat; boolWord (x.ule y))

/-- `sclz` (R151). Leading zero bits of sa, 64 when sa = 0. -/
def execSclz (d a : BitVec 6) (s : State) : Out :=
  .next (s.scalarOp d.toNat fun w => BitVec.ofNat 64 (clz 64 (w.s a.toNat).toNat))

/-- `spopc` (R151). Set bits of sa. -/
def execSpopc (d a : BitVec 6) (s : State) : Out :=
  .next (s.scalarOp d.toNat fun w => BitVec.ofNat 64 (popc 64 (w.s a.toNat).toNat))

/-- `pand` (R152). pd := pa and pb. -/
def execPand (d a b : BitVec 6) (s : State) : Out :=
  .next (s.predOp d.toNat fun w => let x := w.p a.toNat; let y := w.p b.toNat; x &&& y)

/-- `por` (R152). pd := pa or pb. -/
def execPor (d a b : BitVec 6) (s : State) : Out :=
  .next (s.predOp d.toNat fun w => let x := w.p a.toNat; let y := w.p b.toNat; x ||| y)

/-- `pxor` (R152). pd := pa xor pb. -/
def execPxor (d a b : BitVec 6) (s : State) : Out :=
  .next (s.predOp d.toNat fun w => let x := w.p a.toNat; let y := w.p b.toNat; x ^^^ y)

/-- `pandn` (R152). pd := pa and not pb. -/
def execPandn (d a b : BitVec 6) (s : State) : Out :=
  .next (s.predOp d.toNat fun w => let x := w.p a.toNat; let y := w.p b.toNat; x &&& ~~~y)

/-- `pnot` (R152). pd := not pa. -/
def execPnot (d a : BitVec 6) (s : State) : Out := .next (s.predOp d.toNat fun w => ~~~(w.p a.toNat))

/-- `pmovs` (R152). pd := sa[31:0]. -/
def execPmovs (d a : BitVec 6) (s : State) : Out := .next (s.predOp d.toNat fun w => (w.s a.toNat).setWidth 32)

/-- `smovp` (R152). sd := pa, zero-extended. -/
def execSmovp (d a : BitVec 6) (s : State) : Out := .next (s.scalarOp d.toNat fun w => (w.p a.toNat).setWidth 64)

/-- `pcnt` (R152). Set bits of pa and pb. -/
def execPcnt (d a b : BitVec 6) (s : State) : Out :=
  .next (s.scalarOp d.toNat fun w => BitVec.ofNat 64 (popc 32 (w.p a.toNat &&& w.p b.toNat).toNat))

/-- `pfirst` (R152). Index of the lowest set bit of pa and pb; 32 when none is set. -/
def execPfirst (d a b : BitVec 6) (s : State) : Out :=
  .next (s.scalarOp d.toNat fun w => BitVec.ofNat 64 (firstBit 32 (w.p a.toNat &&& w.p b.toNat).toNat))

/-- `saddi` (R154). sd := sa + SignExt(imm12). -/
def execSaddi (d a : BitVec 6) (i : BitVec 12) (s : State) : Out :=
  .next (s.scalarOp d.toNat fun w => let x := w.s a.toNat; x + i.signExtend 64)

/-- `sandi` (R154). sd := sa and SignExt(imm12). -/
def execSandi (d a : BitVec 6) (i : BitVec 12) (s : State) : Out :=
  .next (s.scalarOp d.toNat fun w => let x := w.s a.toNat; x &&& i.signExtend 64)

/-- `sori` (R154). sd := sa or SignExt(imm12). -/
def execSori (d a : BitVec 6) (i : BitVec 12) (s : State) : Out :=
  .next (s.scalarOp d.toNat fun w => let x := w.s a.toNat; x ||| i.signExtend 64)

/-- `sxori` (R154). sd := sa xor SignExt(imm12). -/
def execSxori (d a : BitVec 6) (i : BitVec 12) (s : State) : Out :=
  .next (s.scalarOp d.toNat fun w => let x := w.s a.toNat; x ^^^ i.signExtend 64)

/-- `sshli` (R154). sd := sa shifted left by n. -/
def execSshli (d a n : BitVec 6) (s : State) : Out :=
  .next (s.scalarOp d.toNat fun w => let x := w.s a.toNat; x <<< n.toNat)

/-- `sshri` (R154). sd := sa shifted right by n, zeros in. -/
def execSshri (d a n : BitVec 6) (s : State) : Out :=
  .next (s.scalarOp d.toNat fun w => let x := w.s a.toNat; x >>> n.toNat)

/-- `ssrai` (R154). sd := sa shifted right by n, copies of sa[63] in. -/
def execSsrai (d a n : BitVec 6) (s : State) : Out :=
  .next (s.scalarOp d.toNat fun w => let x := w.s a.toNat; x.sshiftRight n.toNat)

/-- `smovi` (R154). sd := SignExt(imm16) shifted left by 16 pos, modulo 2^64. -/
def execSmovi (d : BitVec 6) (p : BitVec 2) (i : BitVec 16) (s : State) : Out :=
  .next (s.scalarOp d.toNat fun _ => i.signExtend 64 <<< (16 * p.toNat))

/-- `sinsi` (R154). sd[16 pos + 15 : 16 pos] := imm16; other bits are kept. -/
def execSinsi (d : BitVec 6) (p : BitVec 2) (i : BitVec 16) (s : State) : Out :=
  .next (s.scalarOp d.toNat fun w =>
    (w.s d.toNat &&& ~~~((0xFFFF#64) <<< (16 * p.toNat))) ||| (i.setWidth 64 <<< (16 * p.toNat)))

/-- `sseqi` (R154). sd := 1 if sa = SignExt(imm12), else 0. -/
def execSseqi (d a : BitVec 6) (i : BitVec 12) (s : State) : Out :=
  .next (s.scalarOp d.toNat fun w => let x := w.s a.toNat; boolWord (x == i.signExtend 64))

/-- `sslti` (R154). Signed less than SignExt(imm12). -/
def execSslti (d a : BitVec 6) (i : BitVec 12) (s : State) : Out :=
  .next (s.scalarOp d.toNat fun w => let x := w.s a.toNat; boolWord (x.slt (i.signExtend 64)))

/-- `ssltni` (R154). Unsigned less than ZeroExt(imm12). -/
def execSsltni (d a : BitVec 6) (i : BitVec 12) (s : State) : Out :=
  .next (s.scalarOp d.toNat fun w => let x := w.s a.toNat; boolWord (x.ult (i.setWidth 64)))

end Sys2Proof.Machine
end

