-- ==== Sys2Proof/Machine/VInt.lean ====
section
/-! DEFINITION. The integer vector instructions and the vector immediates (R155 to R168, R181). -/

namespace Sys2Proof.Machine

/-- What an integer element function sees: the slot's saturate bit, the signedness and width of R157, and the elements
of a, b and d as `w`-bit patterns. -/
structure IntElem where
  sat : Bool
  sgn : Bool
  w : Nat
  x : Nat
  y : Nat
  z : Nat

/-- The element of a as an integer (R157). -/
def IntElem.xi (e : IntElem) : Int := toInt e.sgn e.w e.x
/-- The element of b as an integer. -/
def IntElem.yi (e : IntElem) : Int := toInt e.sgn e.w e.y
/-- The element of d as an integer. -/
def IntElem.zi (e : IntElem) : Int := toInt e.sgn e.w e.z
/-- Fit of R161. -/
def IntElem.fit (e : IntElem) (i : Int) : Nat × Flags := fitInt e.sat e.sgn e.w i
/-- Sat of R101. -/
def IntElem.satTo (e : IntElem) (i : Int) : Nat × Flags := satInt e.sgn e.w i

/-- The shape of an integer vector instruction (R156): every type is read as an integer type of its width (R157). -/
def State.vint (s : State) (m : BitVec 2) (d : BitVec 7) (a : BitVec 7) (y : Wave → W32 → Nat → W32)
    (fields : List (BitVec 7)) (f : IntElem → Nat × Flags) : State :=
  s.vec m fields (fun _ => true) fun w q sl =>
    let t := slType sl
    let ww := typeWidth t
    s.laneOp w q sl d.toNat 0 fun l _ =>
      foldElems (typeCount t) ww (w.v d.toNat l) fun k =>
        f ⟨slSat sl, typeSigned t, ww, elemRaw (w.opnd sl a.toNat l) k ww, elemRaw (y w sl l) k ww,
          elemRaw (w.v d.toNat l) k ww⟩

/-- The operand b of a vector instruction, by lane. -/
def opB (b : BitVec 7) (w : Wave) (sl : W32) (l : Nat) : W32 := w.opnd sl b.toNat l

/-- The shape of an instruction that acts on all 32 bits, whatever the type (R163). -/
def State.vbits (s : State) (m : BitVec 2) (d : BitVec 7) (fields : List (BitVec 7)) (f : Wave → W32 → Nat → W32) :
    State :=
  s.vec m fields (fun _ => true) fun w q sl => s.laneOp w q sl d.toNat 0 fun l _ => (f w sl l, 0)

/-- The shape of an integer compare (R166): a test that must hold of every element, or (`some_`) of one. -/
def State.vicmp (s : State) (m : BitVec 2) (d a b : BitVec 7) (some_ : Bool) (f : Int → Int → Bool) : State :=
  s.vec m [a, b] (fun _ => true) fun w q sl =>
    let t := slType sl
    let ww := typeWidth t
    s.laneCmp w q sl d.toNat fun l =>
      let test := fun k => f (toInt (typeSigned t) ww (elemRaw (w.opnd sl a.toNat l) k ww))
        (toInt (typeSigned t) ww (elemRaw (w.opnd sl b.toNat l) k ww))
      ((if some_ then (List.range (typeCount t)).any test else (List.range (typeCount t)).all test), 0)

/-- A left shift of a `w`-bit element (R163). -/
def shlElem (w x c : Nat) : Nat := x * 2 ^ c % 2 ^ w
/-- A right shift that brings zeros in (R163). -/
def shrElem (w x c : Nat) : Nat := x % 2 ^ w / 2 ^ c
/-- A right shift that brings copies of the top bit in (R163). -/
def sraElem (w x c : Nat) : Nat := ofInt w (toInt true w x / (2 ^ c : Nat))


/-- `vadd` (R162). Fit(x + y). -/
def execVadd (m : BitVec 2) (d a b : BitVec 7) (s : State) : Out :=
  .next (s.vint m d a (opB b) [d, a, b] fun e => e.fit (e.xi + e.yi))

/-- `vsub` (R162). Fit(x - y). -/
def execVsub (m : BitVec 2) (d a b : BitVec 7) (s : State) : Out :=
  .next (s.vint m d a (opB b) [d, a, b] fun e => e.fit (e.xi - e.yi))

/-- `vmul` (R162). Fit(x y). -/
def execVmul (m : BitVec 2) (d a b : BitVec 7) (s : State) : Out :=
  .next (s.vint m d a (opB b) [d, a, b] fun e => e.fit (e.xi * e.yi))

/-- `vmulh` (R162). The high w bits of the exact 2w-bit product. -/
def execVmulh (m : BitVec 2) (d a b : BitVec 7) (s : State) : Out :=
  .next (s.vint m d a (opB b) [d, a, b] fun e => (ofInt e.w (e.xi * e.yi / (2 ^ e.w : Nat)), 0))

/-- `vmad` (R162). Fit(x y + z), the exact sum fitted once. -/
def execVmad (m : BitVec 2) (d a b : BitVec 7) (s : State) : Out :=
  .next (s.vint m d a (opB b) [d, a, b] fun e => e.fit (e.xi * e.yi + e.zi))

/-- `vadds` (R162). Sat(x + y), whatever the saturate bit. -/
def execVadds (m : BitVec 2) (d a b : BitVec 7) (s : State) : Out :=
  .next (s.vint m d a (opB b) [d, a, b] fun e => e.satTo (e.xi + e.yi))

/-- `vsubs` (R162). Sat(x - y), whatever the saturate bit. -/
def execVsubs (m : BitVec 2) (d a b : BitVec 7) (s : State) : Out :=
  .next (s.vint m d a (opB b) [d, a, b] fun e => e.satTo (e.xi - e.yi))

/-- `vand` (R163). a and b. -/
def execVand (m : BitVec 2) (d a b : BitVec 7) (s : State) : Out :=
  .next (s.vbits m d [d, a, b] fun w sl l => w.opnd sl a.toNat l &&& w.opnd sl b.toNat l)

/-- `vor` (R163). a or b. -/
def execVor (m : BitVec 2) (d a b : BitVec 7) (s : State) : Out :=
  .next (s.vbits m d [d, a, b] fun w sl l => w.opnd sl a.toNat l ||| w.opnd sl b.toNat l)

/-- `vxor` (R163). a xor b. -/
def execVxor (m : BitVec 2) (d a b : BitVec 7) (s : State) : Out :=
  .next (s.vbits m d [d, a, b] fun w sl l => w.opnd sl a.toNat l ^^^ w.opnd sl b.toNat l)

/-- `vandn` (R163). a and not b. -/
def execVandn (m : BitVec 2) (d a b : BitVec 7) (s : State) : Out :=
  .next (s.vbits m d [d, a, b] fun w sl l => w.opnd sl a.toNat l &&& ~~~(w.opnd sl b.toNat l))

/-- `vshl` (R163). Left shift by y mod w. -/
def execVshl (m : BitVec 2) (d a b : BitVec 7) (s : State) : Out :=
  .next (s.vint m d a (opB b) [d, a, b] fun e => (shlElem e.w e.x (e.y % e.w), 0))

/-- `vshr` (R163). Right shift by y mod w, zeros in. -/
def execVshr (m : BitVec 2) (d a b : BitVec 7) (s : State) : Out :=
  .next (s.vint m d a (opB b) [d, a, b] fun e => (shrElem e.w e.x (e.y % e.w), 0))

/-- `vsra` (R163). Right shift by y mod w, copies of the top bit in. -/
def execVsra (m : BitVec 2) (d a b : BitVec 7) (s : State) : Out :=
  .next (s.vint m d a (opB b) [d, a, b] fun e => (sraElem e.w e.x (e.y % e.w), 0))

/-- `vmin` (R164). The smaller. -/
def execVmin (m : BitVec 2) (d a b : BitVec 7) (s : State) : Out :=
  .next (s.vint m d a (opB b) [d, a, b] fun e => (if e.xi < e.yi then e.x else e.y, 0))

/-- `vmax` (R164). The larger. -/
def execVmax (m : BitVec 2) (d a b : BitVec 7) (s : State) : Out :=
  .next (s.vint m d a (opB b) [d, a, b] fun e => (if e.xi < e.yi then e.y else e.x, 0))

/-- `vabs` (R164). The magnitude, fitted by Fit; an unsigned element is itself. -/
def execVabs (m : BitVec 2) (d a : BitVec 7) (s : State) : Out :=
  .next (s.vint m d a (fun _ _ _ => 0) [d, a] fun e => e.fit (if e.xi < 0 then -e.xi else e.xi))

/-- `vclz` (R164). Leading zero bits. -/
def execVclz (m : BitVec 2) (d a : BitVec 7) (s : State) : Out :=
  .next (s.vint m d a (fun _ _ _ => 0) [d, a] fun e => (clz e.w e.x, 0))

/-- `vpopc` (R164). Set bits. -/
def execVpopc (m : BitVec 2) (d a : BitVec 7) (s : State) : Out :=
  .next (s.vint m d a (fun _ _ _ => 0) [d, a] fun e => (popc e.w e.x, 0))

/-- `vsel` (R165). The guard selects a or b, in every lane of the issuing quads that works or helps. -/
def execVsel (m : BitVec 2) (d a b : BitVec 7) (s : State) : Out :=
  .next (s.vec m [d, a, b] (fun _ => true) fun w q sl =>
    s.retire (w.writeLanes d.toNat (w.issuing q) fun l =>
      if w.guardBit sl l then w.opnd sl a.toNat l else w.opnd sl b.toNat l))

/-- `vcmpeq` (R166). Bit set when x = y for every element. -/
def execVcmpeq (m : BitVec 2) (d a b : BitVec 7) (s : State) : Out :=
  .next (s.vicmp m d a b false fun x y => decide (x = y))

/-- `vcmpne` (R166). Bit set when x differs from y for some element. -/
def execVcmpne (m : BitVec 2) (d a b : BitVec 7) (s : State) : Out :=
  .next (s.vicmp m d a b true fun x y => decide (x ≠ y))

/-- `vcmplt` (R166). Bit set when x < y for every element. -/
def execVcmplt (m : BitVec 2) (d a b : BitVec 7) (s : State) : Out :=
  .next (s.vicmp m d a b false fun x y => decide (x < y))

/-- `vcmple` (R166). Bit set when x is at most y for every element. -/
def execVcmple (m : BitVec 2) (d a b : BitVec 7) (s : State) : Out :=
  .next (s.vicmp m d a b false fun x y => decide (x ≤ y))

/-- The integer dot products (R167): d is an i32 or n32 accumulator. -/
def State.vidot (s : State) (m : BitVec 2) (d a b : BitVec 7) (types : List Nat) : State :=
  s.vec m [d, a, b] (fun t => types.contains t) fun w q sl =>
    let t := slType sl
    let ww := typeWidth t
    let sg := typeSigned t
    s.laneOp w q sl d.toNat 0 fun l _ =>
      let sum := (List.range (typeCount t)).foldl
        (fun acc k => acc + toInt sg ww (elemRaw (w.opnd sl a.toNat l) k ww) * toInt sg ww (elemRaw (w.opnd sl b.toNat l) k ww))
        (toInt sg 32 (w.v d.toNat l).toNat)
      let r := fitInt (slSat sl) sg 32 sum
      (BitVec.ofNat 32 r.1, r.2)

/-- `vdot4` (R167). Four 8-bit products added to d. -/
def execVdot4 (m : BitVec 2) (d a b : BitVec 7) (s : State) : Out := .next (s.vidot m d a b [7, 8])

/-- `vdot8` (R167). Eight 4-bit products added to d. -/
def execVdot8 (m : BitVec 2) (d a b : BitVec 7) (s : State) : Out := .next (s.vidot m d a b [11, 12])

/-- Position and width of a bit field, from b (R168). -/
def fieldPos (b : W32) : Nat := bitsOf b.toNat 0 5
def fieldWidth (b : W32) : Nat := min (bitsOf b.toNat 8 6) 32

/-- Extract a bit field (R168). -/
def bitExtract (signed : Bool) (x b : W32) : W32 :=
  let f := x.toNat / 2 ^ fieldPos b % 2 ^ fieldWidth b
  BitVec.ofInt 32 (if 0 < fieldWidth b then toInt signed (fieldWidth b) f else f)

/-- Insert a bit field (R168). -/
def bitInsert (x b z : W32) : W32 :=
  let mask := BitVec.ofNat 32 ((2 ^ fieldWidth b - 1) * 2 ^ fieldPos b)
  (z &&& ~~~mask) ||| (BitVec.ofNat 32 (x.toNat * 2 ^ fieldPos b) &&& mask)

/-- `vbfe` (R168). Extracts a bit field of a. -/
def execVbfe (m : BitVec 2) (d a b : BitVec 7) (s : State) : Out :=
  .next (s.vbits m d [d, a, b] fun w sl l =>
    bitExtract (typeSigned (slType sl)) (w.opnd sl a.toNat l) (w.opnd sl b.toNat l))

/-- `vbfi` (R168). Inserts a into a bit field of d. -/
def execVbfi (m : BitVec 2) (d a b : BitVec 7) (s : State) : Out :=
  .next (s.vbits m d [d, a, b] fun w sl l => bitInsert (w.opnd sl a.toNat l) (w.opnd sl b.toNat l) (w.v d.toNat l))

/-! ## Immediates (R181) -/

/-- `vaddi` (R181). Fit(x + SignExt(imm9)), the immediate a signed value. -/
def execVaddi (m : BitVec 2) (d a : BitVec 7) (i : BitVec 9) (s : State) : Out :=
  .next (s.vint m d a (fun _ _ _ => 0) [d, a] fun e => e.fit (e.xi + i.toInt))

/-- `vandi` (R181). a and SignExt(imm9), to 32 bits. -/
def execVandi (m : BitVec 2) (d a : BitVec 7) (i : BitVec 9) (s : State) : Out :=
  .next (s.vbits m d [d, a] fun w sl l => w.opnd sl a.toNat l &&& i.signExtend 32)

/-- `vori` (R181). a or SignExt(imm9), to 32 bits. -/
def execVori (m : BitVec 2) (d a : BitVec 7) (i : BitVec 9) (s : State) : Out :=
  .next (s.vbits m d [d, a] fun w sl l => w.opnd sl a.toNat l ||| i.signExtend 32)

/-- `vxori` (R181). a xor SignExt(imm9), to 32 bits. -/
def execVxori (m : BitVec 2) (d a : BitVec 7) (i : BitVec 9) (s : State) : Out :=
  .next (s.vbits m d [d, a] fun w sl l => w.opnd sl a.toNat l ^^^ i.signExtend 32)

/-- `vshli` (R181). Left shift by n mod w. -/
def execVshli (m : BitVec 2) (d a : BitVec 7) (n : BitVec 5) (s : State) : Out :=
  .next (s.vint m d a (fun _ _ _ => 0) [d, a] fun e => (shlElem e.w e.x (n.toNat % e.w), 0))

/-- `vshri` (R181). Right shift by n mod w, zeros in. -/
def execVshri (m : BitVec 2) (d a : BitVec 7) (n : BitVec 5) (s : State) : Out :=
  .next (s.vint m d a (fun _ _ _ => 0) [d, a] fun e => (shrElem e.w e.x (n.toNat % e.w), 0))

/-- `vsrai` (R181). Right shift by n mod w, copies of the top bit in. -/
def execVsrai (m : BitVec 2) (d a : BitVec 7) (n : BitVec 5) (s : State) : Out :=
  .next (s.vint m d a (fun _ _ _ => 0) [d, a] fun e => (sraElem e.w e.x (n.toNat % e.w), 0))

/-- `vmovi` (R181). SignExt(imm9) modulo 2^w in every element. -/
def execVmovi (m : BitVec 2) (d : BitVec 7) (i : BitVec 9) (s : State) : Out :=
  .next (s.vint m d 0 (fun _ _ _ => 0) [d] fun e => (ofInt e.w i.toInt, 0))

end Sys2Proof.Machine
end

