-- ==== Sys2Proof/Machine/VFlt.lean ====
section
/-! DEFINITION. The floating-point vector instructions (R169 to R180). -/

namespace Sys2Proof.Machine

/-- The format of the elements of a floating type code (R28, R169). -/
def fltFmt (t : Nat) : Fmt :=
  match t with
  | 5 => fF16
  | 6 => fBf16
  | 9 => fE4m3
  | 10 => fE5m2
  | 13 => fE2m1
  | _ => fF32

/-- The types that most VFLT instructions accept (R169). -/
def fltTypes (t : Nat) : Bool := [2, 5, 6].contains t

/-- Invalid, when a signalling NaN was consumed (R27). -/
def snanFlag (xs : List Num) : Flags := if xs.any Num.isSnan then flInvalid else 0

/-- The shape of a floating vector instruction that rounds (R169): `f` gives the exact result of an element and its
invalid flag, from the format and the values of a, b and d; the result is rounded once. -/
def State.vflt (s : State) (m : BitVec 2) (d a : BitVec 7) (b : Option (BitVec 7)) (fields : List (BitVec 7))
    (f : RMode → Fmt → Num → Num → Num → Num × Flags) : State :=
  s.vec m fields fltTypes fun w q sl =>
    let t := slType sl
    let ww := typeWidth t
    let fm := fltFmt t
    s.laneOp w q sl d.toNat (callsFor (typeCount t)) fun l call =>
      foldElems (typeCount t) ww (w.v d.toNat l) fun k =>
        let val := fun v => fm.value (slFlush sl) (elemRaw v k ww)
        let r := f (slMode sl) fm (val (w.opnd sl a.toNat l))
          (match b with | some b => val (w.opnd sl b.toNat l) | none => .fin false 0 0) (val (w.v d.toNat l))
        let o := roundArith fm (slMode sl) (drawOf (call (k / 4)) k) r.1
        (o.1, o.2 ||| r.2)

/-- The shape of a floating vector instruction that neither rounds nor draws: `f` gives the element's bits and flags. -/
def State.vfltRaw (s : State) (m : BitVec 2) (d a : BitVec 7) (b : Option (BitVec 7)) (types : Nat → Bool)
    (fields : List (BitVec 7)) (f : W32 → Fmt → Nat → Nat → Nat × Flags) : State :=
  s.vec m fields types fun w q sl =>
    let t := slType sl
    let ww := typeWidth t
    s.laneOp w q sl d.toNat 0 fun l _ =>
      foldElems (typeCount t) ww (w.v d.toNat l) fun k =>
        f sl (fltFmt t) (elemRaw (w.opnd sl a.toNat l) k ww)
          (match b with | some b => elemRaw (w.opnd sl b.toNat l) k ww | none => 0)

/-- The exact sum of two values (R170). -/
def addNum (r : RMode) (x y : Num) : Num × Flags :=
  let v := sumNums (decide (r.mode = 2)) [x, y]
  (v.1, (if v.2 then flInvalid else 0) ||| snanFlag [x, y])

/-- `vfadd` (R170). Round(x + y). -/
def execVfadd (m : BitVec 2) (d a b : BitVec 7) (s : State) : Out :=
  .next (s.vflt m d a (some b) [d, a, b] fun r _ x y _ => addNum r x y)

/-- `vfsub` (R170). Round(x - y). -/
def execVfsub (m : BitVec 2) (d a b : BitVec 7) (s : State) : Out :=
  .next (s.vflt m d a (some b) [d, a, b] fun r _ x y _ => addNum r x y.negate)

/-- `vfmul` (R170). Round(x y). -/
def execVfmul (m : BitVec 2) (d a b : BitVec 7) (s : State) : Out :=
  .next (s.vflt m d a (some b) [d, a, b] fun _ _ x y _ =>
    let p := x.mul y
    (p.1, (if p.2 then flInvalid else 0) ||| snanFlag [x, y]))

/-- `vfma` (R170). Round(x y + z), with no rounding of the product. -/
def execVfma (m : BitVec 2) (d a b : BitVec 7) (s : State) : Out :=
  .next (s.vflt m d a (some b) [d, a, b] fun r _ x y z =>
    let p := x.mul y
    let v := sumNums (decide (r.mode = 2)) [p.1, z]
    (v.1, (if p.2 || v.2 then flInvalid else 0) ||| snanFlag [x, y, z]))

/-- Whether x is the smaller for `vfmin`: -0 lies below +0 (R171). -/
def minLess (x y : Num) : Bool := x.lt y || (x.isZero && y.isZero && x.neg && !y.neg)

/-- The bits of a value that was read from a format unrounded: a NaN canonical, a flushed subnormal its zero. -/
def reEncode (f : Fmt) (flush : Bool) (raw : Nat) : Nat :=
  match f.value flush raw with
  | .nan _ => f.canonNan
  | .inf _ => raw
  | .fin n m _ => if m = 0 then f.signBit n else raw

/-- The smaller or larger of two elements (R171). -/
def minMaxElem (larger : Bool) (f : Fmt) (flush : Bool) (a b : Nat) : Nat × Flags :=
  let x := f.value flush a
  let y := f.value flush b
  let r := if x.isNan then b else if y.isNan then a else if (minLess x y) != larger then a else b
  (reEncode f flush r, snanFlag [x, y])

/-- `vfmin` (R171). The smaller of x and y. -/
def execVfmin (m : BitVec 2) (d a b : BitVec 7) (s : State) : Out :=
  .next (s.vfltRaw m d a (some b) fltTypes [d, a, b] fun sl f x y => minMaxElem false f (slFlush sl) x y)

/-- `vfmax` (R171). The larger of x and y. -/
def execVfmax (m : BitVec 2) (d a b : BitVec 7) (s : State) : Out :=
  .next (s.vfltRaw m d a (some b) fltTypes [d, a, b] fun sl f x y => minMaxElem true f (slFlush sl) x y)

/-- `vfneg` (R172). x with its sign inverted; a NaN gives the canonical NaN and no flag. -/
def execVfneg (m : BitVec 2) (d a : BitVec 7) (s : State) : Out :=
  .next (s.vfltRaw m d a none fltTypes [d, a] fun sl f x _ =>
    let r := reEncode f (slFlush sl) x
    (if (f.value false x).isNan then r else Nat.xor r (2 ^ (f.eb + f.mb)), 0))

/-- `vfabs` (R172). x with its sign cleared; a NaN gives the canonical NaN and no flag. -/
def execVfabs (m : BitVec 2) (d a : BitVec 7) (s : State) : Out :=
  .next (s.vfltRaw m d a none fltTypes [d, a] fun sl f x _ => (reEncode f (slFlush sl) x % 2 ^ (f.eb + f.mb), 0))

/-- The shape of a float compare (R173): `f` tests an element; `quiet` says that a quiet NaN sets no invalid. -/
def State.vfcmp (s : State) (m : BitVec 2) (d a b : BitVec 7) (some_ quiet : Bool) (f : Num → Num → Bool) : State :=
  s.vec m [a, b] fltTypes fun w q sl =>
    let t := slType sl
    let ww := typeWidth t
    let fm := fltFmt t
    s.laneCmp w q sl d.toNat fun l =>
      let x := fun k => fm.value (slFlush sl) (elemRaw (w.opnd sl a.toNat l) k ww)
      let y := fun k => fm.value (slFlush sl) (elemRaw (w.opnd sl b.toNat l) k ww)
      let ks := List.range (typeCount t)
      let bad := fun k => if quiet then (x k).isSnan || (y k).isSnan else (x k).isNan || (y k).isNan
      ((if some_ then ks.any fun k => f (x k) (y k) else ks.all fun k => f (x k) (y k)),
        if ks.any bad then flInvalid else 0)

/-- `vfcmpeq` (R173). x = y for every element; NaN is unequal, -0 equals +0. -/
def execVfcmpeq (m : BitVec 2) (d a b : BitVec 7) (s : State) : Out :=
  .next (s.vfcmp m d a b false true fun x y => !x.isNan && !y.isNan && !(x.lt y) && !(y.lt x))

/-- `vfcmplt` (R173). x < y for every element. -/
def execVfcmplt (m : BitVec 2) (d a b : BitVec 7) (s : State) : Out :=
  .next (s.vfcmp m d a b false false fun x y => x.lt y)

/-- `vfcmple` (R173). x at most y for every element. -/
def execVfcmple (m : BitVec 2) (d a b : BitVec 7) (s : State) : Out :=
  .next (s.vfcmp m d a b false false fun x y => !x.isNan && !y.isNan && !(y.lt x))

/-- `vfcmpun` (R173). x or y is a NaN for some element. -/
def execVfcmpun (m : BitVec 2) (d a b : BitVec 7) (s : State) : Out :=
  .next (s.vfcmp m d a b true true fun x y => x.isNan || y.isNan)

/-- The shape of the special functions (R174): rounding by rne, no draw. -/
def State.vspecial (s : State) (m : BitVec 2) (d a : BitVec 7) (fn : Special) : State :=
  s.vfltRaw m d a none fltTypes [d, a] fun sl f x _ =>
    specialTo f (slSat sl) (slFlush sl) fn (f.value (slFlush sl) x)

/-- `vfrcp` (R174). 1/x. -/
def execVfrcp (m : BitVec 2) (d a : BitVec 7) (s : State) : Out := .next (s.vspecial m d a .rcp)
/-- `vfrsq` (R174). 1/√x. -/
def execVfrsq (m : BitVec 2) (d a : BitVec 7) (s : State) : Out := .next (s.vspecial m d a .rsq)
/-- `vfexp2` (R174). 2^x. -/
def execVfexp2 (m : BitVec 2) (d a : BitVec 7) (s : State) : Out := .next (s.vspecial m d a .exp2)
/-- `vflog2` (R174). log2 x. -/
def execVflog2 (m : BitVec 2) (d a : BitVec 7) (s : State) : Out := .next (s.vspecial m d a .log2)

/-- A narrow dot product added to an f32 value (R175): the exact sum, and the invalid flag of its cases. -/
def dotNum (f : Fmt) (w n : Nat) (rdn : Bool) (a b : W32) (z : Num) : Num × Flags :=
  let ps := (List.range n).map fun k => (f.value false (elemRaw a k w)).mul (f.value false (elemRaw b k w))
  let v := sumNums rdn (z :: ps.map (·.1))
  (v.1, (if v.2 || ps.any (·.2) then flInvalid else 0) ||| snanFlag [z])

/-- The shape of the float dot products (R175): d is an f32 accumulator, one rounding, one grain call under rsr. -/
def State.vfdot (s : State) (m : BitVec 2) (d a b : BitVec 7) (types : List Nat) : State :=
  s.vec m [d, a, b] (fun t => types.contains t) fun w q sl =>
    let t := slType sl
    s.laneOp w q sl d.toNat 1 fun l call =>
      let r := dotNum (fltFmt t) (typeWidth t) (typeCount t) (decide (slRound sl = 2)) (w.opnd sl a.toNat l)
        (w.opnd sl b.toNat l) (fF32.value (slFlush sl) (w.v d.toNat l).toNat)
      let o := roundArith fF32 (slMode sl) (drawOf (call 0) 0) r.1
      (BitVec.ofNat 32 o.1, o.2 ||| r.2)

/-- `vfdot4` (R175). Four products of 8-bit float elements added to d. -/
def execVfdot4 (m : BitVec 2) (d a b : BitVec 7) (s : State) : Out := .next (s.vfdot m d a b [9, 10])

/-- `vfdot8` (R175). Eight products of E2M1 elements added to d. -/
def execVfdot8 (m : BitVec 2) (d a b : BitVec 7) (s : State) : Out := .next (s.vfdot m d a b [13])

/-- The exponent of `vfscl`, held to ±2000: beyond that every format's result is the same (R176). -/
def sclExp (n : Int) : Int := max (-2000) (min 2000 n)

/-- `vfscl` (R176). Round(x 2^n), n the integer element of b. -/
def execVfscl (m : BitVec 2) (d a b : BitVec 7) (s : State) : Out :=
  .next (s.vec m [d, a, b] fltTypes fun w q sl =>
    let t := slType sl
    let ww := typeWidth t
    let fm := fltFmt t
    s.laneOp w q sl d.toNat (callsFor (typeCount t)) fun l call =>
      foldElems (typeCount t) ww (w.v d.toNat l) fun k =>
        let x := fm.value (slFlush sl) (elemRaw (w.opnd sl a.toNat l) k ww)
        let n := toInt true ww (elemRaw (w.opnd sl b.toNat l) k ww)
        let o := roundArith fm (slMode sl) (drawOf (call (k / 4)) k) (x.scale (sclExp n))
        (o.1, o.2 ||| snanFlag [x]))

/-- `vfcvt` (R177). Converts min(n(s), n(t)) elements from the source type code in b to the slot's type. -/
def execVfcvt (m : BitVec 2) (d a t : BitVec 7) (s : State) : Out :=
  .next (s.vec m [d, a] (fun _ => true) fun w q sl =>
    let dt := slType sl
    let n := min (typeCount t.toNat) (typeCount dt)
    s.laneOp w q sl d.toNat (callsFor n) fun l call =>
      foldElems n (typeWidth dt) (w.v d.toNat l) fun k =>
        convertTo (typeElt dt) (typeWidth dt) (slMode sl) (drawOf (call (k / 4)) k)
          (eltValue (typeElt t.toNat) (slFlush sl) (typeWidth t.toNat)
            (elemRaw (w.opnd sl a.toNat l) k (typeWidth t.toNat))))

/-- `vfpk4` (R178). Converts the f32 registers a to a + 3 into the four 8-bit elements of d. -/
def execVfpk4 (m : BitVec 2) (d a : BitVec 7) (s : State) : Out :=
  .next (s.vec m [d, a] (fun t => [9, 10].contains t) fun w q sl =>
    let dt := slType sl
    s.laneOp w q sl d.toNat 1 fun l call =>
      foldElems 4 8 (w.v d.toNat l) fun k =>
        roundTo (fltFmt dt) (slMode sl) (drawOf (call 0) k) (fF32.value (slFlush sl) (w.v (a.toNat + k) l).toNat))

/-- Class code of an encoding (R179). -/
def classOf (f : Fmt) (raw : Nat) : Nat :=
  match f.value false raw with
  | .nan s => if s then 0 else 1
  | .inf n => if n then 2 else 9
  | .fin n m _ =>
    let sub := decide (raw % 2 ^ (f.eb + f.mb) < 2 ^ f.mb)
    if m = 0 then (if n then 5 else 6) else if sub then (if n then 4 else 7) else (if n then 3 else 8)

/-- `vfclass` (R179). The class code of each element. -/
def execVfclass (m : BitVec 2) (d a : BitVec 7) (s : State) : Out :=
  .next (s.vfltRaw m d a none (fun t => [2, 5, 6, 9, 10, 13].contains t) [d, a] fun _ f x _ => (classOf f x, 0))

/-- `vfrnd` (R180). Rounds each element to an integral value of its format; a zero keeps its sign. -/
def execVfrnd (m : BitVec 2) (d a : BitVec 7) (s : State) : Out :=
  .next (s.vec m [d, a] fltTypes fun w q sl =>
    let t := slType sl
    let ww := typeWidth t
    let fm := fltFmt t
    s.laneOp w q sl d.toNat (callsFor (typeCount t)) fun l call =>
      foldElems (typeCount t) ww (w.v d.toNat l) fun k =>
        match fm.value (slFlush sl) (elemRaw (w.opnd sl a.toNat l) k ww) with
        | .nan sg => (fm.canonNan, if sg then flInvalid else 0)
        | .inf n => (fm.signBit n + fm.infMag, 0)
        | .fin n x e =>
          if 0 ≤ e then (fm.signBit n + (roundMag fm 0 false 0 n (max x 1) e).1 * (if x = 0 then 0 else 1), 0) else
          let r := roundInt (slRound sl) (drawOf (call (k / 4)) k) n x e
          (if r.1 = 0 then fm.signBit n else (roundTo fm ⟨0, false, false⟩ 0 (.fin n r.1.natAbs 0)).1,
            if r.2 then flInexact else 0))

end Sys2Proof.Machine
end

