-- ==== Sys2Proof/Machine/VXch.lean ====
section
/-! DEFINITION. Lane exchange (R182 to R189). -/

namespace Sys2Proof.Machine

/-- Lane(f, N): register f of lane N; an absent lane reads as zero (R183). -/
def Wave.laneReg (w : Wave) (f n : Nat) : W32 := if w.isWorking n || w.isHelper n then w.v f n else 0

/-- The shape of a move (R183): the type is ignored, no flag is set. -/
def State.vmove (s : State) (m : BitVec 2) (d : BitVec 7) (fields : List (BitVec 7)) (f : Wave → W32 → Nat → W32) :
    State :=
  s.vbits m d (d :: fields) f

/-- `vmov` (R183). v[d] := Opnd(a). -/
def execVmov (m : BitVec 2) (d a : BitVec 7) (s : State) : Out :=
  .next (s.vmove m d [a] fun w sl l => w.opnd sl a.toNat l)

/-- `vmovs` (R183). v[d] := s[a][31:0]. -/
def execVmovs (m : BitVec 2) (d a : BitVec 7) (s : State) : Out :=
  .next (s.vmove m d [] fun w _ _ => (w.s a.toNat).setWidth 32)

/-- `vlaneid` (R183). v[d] := L. -/
def execVlaneid (m : BitVec 2) (d : BitVec 7) (s : State) : Out :=
  .next (s.vmove m d [] fun _ _ l => BitVec.ofNat 32 l)

/-- `vbcst` (R183). v[d] := Lane(a, s[b][4:0]). -/
def execVbcst (m : BitVec 2) (d a b : BitVec 7) (s : State) : Out :=
  .next (s.vmove m d [a] fun w _ _ => w.laneReg a.toNat ((w.s b.toNat).toNat % 32))

/-- `vshfl` (R183). v[d] := Lane(a, Opnd(b)[4:0]). -/
def execVshfl (m : BitVec 2) (d a b : BitVec 7) (s : State) : Out :=
  .next (s.vmove m d [a, b] fun w sl l => w.laneReg a.toNat ((w.opnd sl b.toNat l).toNat % 32))

/-- `vrdlane` (R183). s[d] := Lane(a, s[b][4:0]), zero-extended, whatever the guard. -/
def execVrdlane (m : BitVec 2) (d a b : BitVec 7) (s : State) : Out :=
  .next (s.vec m [a] (fun _ => true) fun w _ _ =>
    s.retire (w.setS d.toNat ((w.laneReg a.toNat ((w.s b.toNat).toNat % 32)).setWidth 64)))

/-- Source lane of a quad swizzle (R184). -/
def swizzle (pat j : Nat) : Nat :=
  match pat with
  | 4 => Nat.xor j 1
  | 5 => Nat.xor j 2
  | 6 => Nat.xor j 3
  | p => p % 4

/-- `vqswz` (R184). Moves values within each quad by a pattern. -/
def execVqswz (m : BitVec 2) (d a p : BitVec 7) (s : State) : Out :=
  .next (s.vmove m d [a] fun w sl l => w.opnd sl a.toNat (l / 4 * 4 + swizzle p.toNat (l % 4)))

/-- What a combination of lanes computes (R185). -/
inductive Comb where
  | add | min | max
  deriving DecidableEq, Repr

/-- The types that combine (R185). -/
def combTypes (t : Nat) : Bool := !([9, 10, 13].contains t)

/-- The combination of element `k` of a list of registers: its bits and flags (R185). -/
def combineElem (c : Comb) (sl : W32) (vals : List W32) (call : Nat → W64) (k : Nat) : Nat × Flags :=
  let t := slType sl
  let ww := typeWidth t
  let raws := vals.map fun v => elemRaw v k ww
  match typeElt t with
  | .int sg =>
    let xs := raws.map (toInt sg ww)
    match c with
    | .add => fitInt (slSat sl) sg ww (xs.foldl (· + ·) 0)
    | .min => (ofInt ww (xs.foldl (fun a b => if b < a then b else a) (intHi sg ww)), 0)
    | .max => (ofInt ww (xs.foldl (fun a b => if a < b then b else a) (intLo sg ww)), 0)
  | .flt f =>
    let nums := raws.map (f.value (slFlush sl))
    match c with
    | .add =>
      match nums with
      | [] => (0, 0)
      | _ =>
        let v := sumNums (decide (slRound sl = 2)) nums
        let o := roundArith f (slMode sl) (drawOf (call (k / 4)) k) v.1
        (o.1, o.2 ||| (if v.2 then flInvalid else 0) ||| snanFlag nums)
    | _ =>
      let larger := decide (c = .max)
      match raws with
      | [] => (f.signBit larger + f.infMag, 0)
      | x :: t =>
        (reEncode f (slFlush sl) (t.foldl (fun a b => (minMaxElem larger f (slFlush sl) a b).1) x), snanFlag nums)

/-- The combination of a list of registers (R185). -/
def combine (c : Comb) (sl : W32) (vals : List W32) (call : Nat → W64) : W32 × Flags :=
  foldElems (typeCount (slType sl)) (typeWidth (slType sl)) 0 (combineElem c sl vals call)

/-- The shape of the combining forms (R185 to R188): every ActiveH lane L receives the combination of `vals L`, which
lane `maker L` computes: that lane's flags and draws, and none when it is a helper. -/
def State.combOp (s : State) (m : BitVec 2) (d a : BitVec 7) (c : Comb)
    (vals : Wave → SubWave → W32 → Nat → List W32) (maker : Wave → SubWave → W32 → Nat → Option Nat) : State :=
  s.vec m [d, a] combTypes fun w q sl =>
    let t := slType sl
    let draws := decide (slRound sl = 4) && decide (c = .add) && fltTypes t
    let calls := callsFor (typeCount t)
    let out := fun l => combine c sl (vals w q sl l) fun j =>
      match maker w q sl l with
      | some k => if draws && w.active q sl k then s.grainCall w k j else 0
      | none => 0
    let owns := fun l => w.active q sl l && (maker w q sl l == some l)
    let w' := (w.writeLanes d.toNat (w.activeH q sl) fun l => (out l).1).orFlags (gatherFlags owns fun l => (out l).2)
    s.retire (if draws then w'.advanceGrain owns calls else w')

/-- `vqsum` (R186). The sum over a quad's ActiveH lanes, made in its lowest Active lane, or its lowest helper. -/
def execVqsum (m : BitVec 2) (d a : BitVec 7) (s : State) : Out :=
  .next (s.combOp m d a .add
    (fun w q sl l => (lanesOf fun n => w.activeH q sl n && n / 4 == l / 4).map (w.opnd sl a.toNat))
    fun w q sl l =>
      match (lanesOf fun n => w.active q sl n && n / 4 == l / 4).head? with
      | some n => some n
      | none => (lanesOf fun n => w.activeH q sl n && n / 4 == l / 4).head?)

/-- `vprfx` (R187). The prefix sum over the Active lanes below, or up to the lane itself in the inclusive form. -/
def execVprfx (m : BitVec 2) (d a : BitVec 7) (e : BitVec 1) (s : State) : Out :=
  .next (s.combOp m d a .add
    (fun w q sl l => (lanesOf fun n => w.active q sl n && (decide (n < l) || (n == l && e == 0))).map (w.opnd sl a.toNat))
    fun _ _ _ l => some l)

/-- The Active lanes' values, and their lowest lane, of the reduction forms (R188). -/
def redVals (a : BitVec 7) (w : Wave) (q : SubWave) (sl : W32) (_ : Nat) : List W32 :=
  (lanesOf (w.active q sl)).map (w.opnd sl a.toNat)
def redMaker (w : Wave) (q : SubWave) (sl : W32) (_ : Nat) : Option Nat := (lanesOf (w.active q sl)).head?

/-- `vredadd` (R188). The sum over the Active lanes. -/
def execVredadd (m : BitVec 2) (d a : BitVec 7) (s : State) : Out := .next (s.combOp m d a .add (redVals a) redMaker)
/-- `vredmin` (R188). The minimum over the Active lanes. -/
def execVredmin (m : BitVec 2) (d a : BitVec 7) (s : State) : Out := .next (s.combOp m d a .min (redVals a) redMaker)
/-- `vredmax` (R188). The maximum over the Active lanes. -/
def execVredmax (m : BitVec 2) (d a : BitVec 7) (s : State) : Out := .next (s.combOp m d a .max (redVals a) redMaker)

/-- `vcmpct` (R189). Packs the Active lanes' values into the lowest lanes of the issuing quads, whatever their guard. -/
def execVcmpct (m : BitVec 2) (d a : BitVec 7) (s : State) : Out :=
  .next (s.vec m [d, a] (fun _ => true) fun w q sl =>
    let vals := (lanesOf (w.active q sl)).map (w.v a.toNat)
    let dest := lanesOf (w.issuing q)
    s.retire (w.writeLanes d.toNat (fun l => decide (dest.idxOf l < vals.length)) fun l => vals.getD (dest.idxOf l) 0))

end Sys2Proof.Machine
end

