-- ==== Sys2Proof/Machine/Engine.lean ====
section
/-! DEFINITION. What an engine operation reads and writes: the addresses that it names, layout records and the moves of a
sector (R237 to R247), a grid descriptor's arrays (R373), the windows of a product (R284), and the ranges of an operation in
flight that releases and fences look at (R72, R75). -/

namespace Sys2Proof.Machine

/-! ## Addresses as an engine reads them (R20, R229, R396) -/

/-- Why an engine operation cannot go on: it is refused with a code and a value (none where no rule states one), or the
walk of an address fails (R255, R256). -/
inductive EngErr where
  | refuse (code : Nat) (value : Option Nat) (addr : Nat)
  | page (addr : Nat)
  deriving DecidableEq, Repr

/-- Bytes that lie together: in external memory by physical address, or in slice memory. -/
structure Chunk where
  ext : Bool
  addr : Nat
  n : Nat
  deriving DecidableEq, Repr

/-- The slice address of `n` bytes that an engine names for an owner of queues, as the forwarding entries send it on (R405); none
where they are unmapped (R396). -/
def State.engSlice (s : State) (c : Context) (ow : Owner) (a n : Nat) : Option Nat :=
  if inSlice a then (if s.sliceMapped c a (max 1 n) then some (s.forwarded a) else none)
  else if Config.windowBase ≤ a ∧ a < Config.sliceBase then
    match ow with
    | .group g =>
      (match s.group? g with
       | some g => if a - Config.windowBase + n ≤ g.winLen then some (g.win + (a - Config.windowBase)) else none
       | none => none)
    | .core _ => none
  else none

/-- The die whose translation unit serves the engine operations of an owner of queues (R9, R229): that of its core. -/
def State.ownerDie (s : State) : Owner → Nat
  | .core k => dieOf k
  | .group g => ((s.group? g).map fun g => dieOf g.core).getD 0

/-- One page's part of an external range: its translation, of which a write asks write permission (R229). -/
def State.extPart (s : State) (die : Nat) (c : Context) (a n : Nat) (write : Bool) : Except EngErr Chunk :=
  match s.walk die c a with
  | some r => if write && !r.2.write then .error (.page a) else .ok ⟨true, r.1, n⟩
  | none => .error (.page a)

/-- Where `n` bytes (at most a page) lie for an engine: in external memory a range crosses at most one page boundary. -/
def State.engChunks (s : State) (c : Context) (ow : Owner) (a n : Nat) (write : Bool) : Except EngErr (List Chunk) :=
  if inExt a && decide (a + n ≤ Config.extTop) then
    let k := min n (65536 - a % 65536)
    match s.extPart (s.ownerDie ow) c a k write with
    | .error e => .error e
    | .ok x =>
      if k = n then .ok [x] else
      match s.extPart (s.ownerDie ow) c (a + k) (n - k) write with
      | .error e => .error e
      | .ok y => .ok [x, y]
  else
    match s.engSlice c ow a n with
    | some b => .ok [⟨false, b, n⟩]
    | none => .error (.refuse 0x80 (some 7) a)

/-- The translation unit of an owner's die keeps the pages of the addresses that an engine operation has named (R9, R229). -/
def State.tlbKeep (s : State) (c : Context) (ow : Owner) (l : List Nat) : State :=
  l.foldl (fun (s : State) a => if inExt a then s.tlbFill (s.ownerDie ow) c a else s) s

/-- The transfers at a port of accesses to ranges (address, bytes) of slices and external memory (R399): one for each 64-byte block of
each that lies outside the issuing core's own slice. -/
def farTransfers (vf core port op : Nat) (l : List (Nat × Nat)) : List Transfer :=
  let blocks := (l.filter fun e => !(inSlice e.1 && homeCore e.1 == core)).flatMap fun e =>
    List.replicate ((e.1 + e.2 + 63) / 64 - e.1 / 64) (⟨port, vf, 1, op, 0, op⟩ : Transfer)
  blocks.mapIdx fun k t => { t with part := k }

/-- The transfers of ranges as an engine operation names them. -/
def State.engTransfers (s : State) (c : Context) (ow : Owner) (core port op : Nat) (l : List (Nat × Nat)) : List Transfer :=
  farTransfers c.vf core port op (l.map fun e => ((s.engSlice c ow e.1 e.2).getD e.1, e.2))

/-- The number under which `eccBad` lists a word of external memory. -/
def extWord (pa : Nat) : Nat := 2 ^ 64 + pa

/-- Whether a chunk has an uncorrectable word (R226, R424). -/
def State.chunkBad (s : State) (x : Chunk) : Bool :=
  let a := if x.ext then extWord x.addr else x.addr
  s.eccBad.any fun e => overlap a x.n e 8

/-- The bytes of a chunk. -/
def State.chunkBytes (s : State) (x : Chunk) : List Byte :=
  if x.ext then s.ext.bytes x.addr x.n else s.slice.bytes x.addr x.n

/-- Bytes that an engine reads; `sector` is the value of an ECC refusal (R256). -/
def State.engRead (s : State) (c : Context) (ow : Owner) (a n sector : Nat) : Except EngErr (List Byte) :=
  match s.engChunks c ow a n false with
  | .error e => .error e
  | .ok xs =>
    if xs.any s.chunkBad then .error (.refuse 0x28 (some sector) a) else .ok (xs.flatMap s.chunkBytes)

/-- A tile block that an engine reads as one unit (R82). -/
def State.engBlock (s : State) (c : Context) (ow : Owner) (a n sector : Nat) : Except EngErr (List Byte) :=
  match s.engChunks c ow a n false with
  | .error e => .error e
  | .ok xs =>
    if xs.any fun x => !x.ext && homeCore x.addr != homeCore (x.addr + x.n - 1) then .error (.refuse 0x41 (some sector) a)
    else s.engRead c ow a n sector

/-! ## Layout records (R237 to R242) -/

/-- One step of CRC-32C for a bit, reflected (R239). -/
def crcBit (x : W32) : W32 := if x.getLsbD 0 then x >>> 1 ^^^ 0x82F63B78 else x >>> 1

/-- CRC-32C of bytes (R239). -/
def crc32c (bs : List Byte) : W32 :=
  ~~~(bs.foldl (fun c b => (List.range 8).foldl (fun x _ => crcBit x) (c ^^^ b.setWidth 32)) 0xFFFFFFFF)

/-- A layout record's fields (R237). -/
structure Layout where
  tiled : Bool
  elem : Nat
  ndim : Nat
  etype : Nat
  tag : Nat
  policy : Nat
  swizzle : Nat
  base : Nat
  size : List Nat
  /-- Byte distances; entry 0 is the contiguous dimension's and is not used. -/
  stride : List Nat
  box : List Nat
  pad : Nat
  hist : Nat
  deriving DecidableEq, Repr

/-- Five 32-bit fields from an offset. -/
def fiveWords (b : List Byte) (o : Nat) : List Nat := (List.range 5).map fun k => field b (o + 4 * k) 4

/-- The fields of a record. -/
def layoutOf (b : List Byte) : Layout where
  tiled := decide (bitsOf (field b 2 1) 0 1 = 1)
  elem := bitsOf (field b 2 1) 1 3
  ndim := field b 3 1
  etype := bitsOf (field b 4 4) 0 4
  tag := bitsOf (field b 4 4) 4 2
  policy := bitsOf (field b 4 4) 8 2
  swizzle := bitsOf (field b 4 4) 12 4
  base := field b 8 8
  size := fiveWords b 16
  stride := 0 :: (List.range 4).map fun k => field b (40 + 8 * k) 8
  box := fiveWords b 72
  pad := field b 92 4
  hist := field b 96 8

/-- Bytes of an element, or of a block of a tiled record. -/
def Layout.esize (l : Layout) : Nat := if l.tiled then blockBytes (decide (l.elem = 5)) else 2 ^ l.elem

/-- Entry `k` of a list of numbers, zero beyond its end. -/
def nth (l : List Nat) (k : Nat) : Nat := l.getD k 0

/-- The box in elements, or in blocks for a tiled record, one entry for each dimension in use. -/
def Layout.boxUnits (l : Layout) : List Nat :=
  (List.range l.ndim).map fun k => if l.tiled && decide (k < 2) then nth l.box k / 16 else nth l.box k

/-- Units of the box. -/
def Layout.boxCount (l : Layout) : Nat := l.boxUnits.foldl (· * ·) 1

/-- Whether every zero field of a record is zero (R237). -/
def zeroFieldsOk (b : List Byte) (l : Layout) : Bool :=
  let opts := field b 4 4
  let zero := fun (o n : Nat) => ((b.drop o).take n).all (· == 0)
  decide (bitsOf (field b 2 1) 4 4 = 0) && decide (bitsOf opts 6 2 = 0) && decide (bitsOf opts 10 2 = 0)
    && decide (bitsOf opts 16 16 = 0) && zero 36 4 && zero 104 80 && zero 186 2
    && ((List.range 5).all fun k => decide (k < l.ndim) || (decide (nth l.size k = 0) && decide (nth l.stride k = 0)
        && decide (nth l.box k = 0)))
    && decide (l.etype < 14) && decide (l.policy < 2)

/-- Whether a record's geometry obeys R238. -/
def Layout.geometryOk (l : Layout) : Bool :=
  let unit := if l.tiled then 16 else l.esize
  let sized := fun k => decide (1 < nth l.size k)
  let rows := if l.tiled then decide (16 < nth l.size 1) else sized 1
  decide (l.base % unit = 0)
    && ((List.range 5).all fun k => decide (k = 0) || decide (l.ndim ≤ k) || decide (nth l.stride k % unit = 0)
        || !(if k = 1 then rows else sized k))
    && (!l.tiled || (decide (nth l.size 0 % 16 = 0) && decide (nth l.size 1 % 16 = 0) && decide (nth l.box 0 % 16 = 0)
        && decide (nth l.box 1 % 16 = 0)))
    && decide (0 < l.boxCount) && decide (l.boxCount * l.esize < 2 ^ 32)

/-- The first value of COPY_INVALID that a record meets, in the order of R256's table. -/
def recordFault (b : List Byte) : Option Nat :=
  let l := layoutOf b
  if field b 0 2 ≠ 1 then some 1
  else if l.ndim < 1 ∨ 5 < l.ndim ∨ (l.tiled = true ∧ l.ndim < 2) then some 2
  else if 5 < l.elem ∨ l.tiled ≠ decide (4 ≤ l.elem) then some 3
  else if !(zeroFieldsOk b l) then some 4
  else if !(l.geometryOk) then some 5
  else if 3 < l.swizzle ∨ (l.tiled = true ∧ l.swizzle ≠ 0) then some 6
  else if l.hist ≠ 0 ∧ (l.hist % 64 ≠ 0 ∨ inSlice l.hist = false) then some 10
  else none

/-- Whether a record is sealed in a context (R239). -/
def sealedIn (r : CtxRec) (b : List Byte) : Bool :=
  decide (field b 184 2 = r.sealEpoch) && decide (field b 188 4 = (crc32c (b.take 184)).toNat)

/-- The location that a handle names: a window handle by its slice address (R240). -/
def State.recordAt (s : State) (c : Context) (ow : Owner) (h : Nat) : Nat :=
  if inExt h then h else (s.engSlice c ow h 192).getD h

/-- The entry of a die's cache for a record of a context. -/
def State.cached (s : State) (cid die h : Nat) : Option CacheEntry :=
  s.cache.find? fun e => e.ctx == cid && e.die == die && e.handle == h

/-! ## Elements and blocks of a box (R238, R241, R242) -/

/-- Coordinates of unit `e` of a box, dimension 0 fastest. -/
def boxCoords : List Nat → Nat → List Nat
  | [], _ => []
  | b :: t, e => e % max 1 b :: boxCoords t (e / max 1 b)

/-- Signed coordinate `k` of a descriptor (R243). -/
def descCoord (d : List Byte) (k : Nat) : Int := toInt true 32 (field d (8 + 4 * k) 4)

/-- The element coordinates of unit `e` of the box at the descriptor's origin. -/
def Layout.coords (l : Layout) (d : List Byte) (e : Nat) : List Int :=
  (boxCoords l.boxUnits e).mapIdx fun k x => descCoord d k + (if l.tiled && decide (k < 2) then 16 * x else x : Nat)

/-- Address of a unit at element coordinates, or none when it lies outside size in some dimension (R238, R241). -/
def Layout.unitAt (l : Layout) (cs : List Int) : Option Nat :=
  if (cs.mapIdx fun k x => decide (0 ≤ x) && decide (x < (nth l.size k : Int))).all id then
    let at_ := fun (k : Nat) (x : Int) =>
      if k = 0 then (if l.tiled then x.toNat / 16 * l.esize else x.toNat * l.esize)
      else (if l.tiled && k == 1 then x.toNat / 16 else x.toNat) * nth l.stride k
    some ((l.base + (cs.mapIdx at_).sum) % 2 ^ 64)
  else none

/-- The lowest dimension in which the box leaves the bounds (R241). -/
def Layout.outDim (l : Layout) (d : List Byte) : Option Nat :=
  (List.range l.ndim).find? fun k =>
    decide (descCoord d k < 0) || decide ((nth l.size k : Int) < descCoord d k + nth l.box k)

/-- Offset of a box byte in the local area (R242). -/
def swizzled (sw o : Nat) : Nat := if sw = 0 then o else o ^^^ (o / 128 % 2 ^ sw * 16)

/-- The bytes of an element, or block, that lies outside the bounds (R237, R241). -/
def Layout.padBytes (l : Layout) : List Byte :=
  if l.tiled then List.replicate l.esize 0
  else if l.elem = 3 then leBytes 4 l.pad ++ leBytes 4 l.pad
  else leBytes l.esize l.pad

/-! ## What a sector moves (R246, R247) -/

/-- A run of a sector: where its bytes go (none: skipped), where they come from (none: the pad), and how many. -/
structure Span where
  dst : Option Nat
  src : Option Nat
  n : Nat
  deriving DecidableEq, Repr

/-- Operand `i` of a request. -/
def EngReq.op (r : EngReq) (i : Nat) : Nat := (r.ops.getD i 0).toNat

/-- The box in a copy or gather descriptor's local field (R243). -/
def localOf (d : List Byte) : Nat := field d 0 8

/-- Row bytes of a gather or scatter record. -/
def Layout.rowBytes (l : Layout) : Nat := nth l.size 0 * l.esize

/-- Entry `n` of a row list. -/
def listAt (b : List Byte) (n : Nat) : Nat := field b (4 * n) 4

/-- The source block of destination block `m` of a transposing copy: block (i, j) goes to block (j, i) (R247). -/
def transposedFrom (rows cols : Nat) (store : Bool) (m : Nat) : Nat :=
  let per := max 1 (rows * cols)
  let z := m / per
  let r := m % per
  let w := max 1 (if store then cols else rows)
  let i := r / w
  let j := r % w
  z * per + (if store then j * rows + i else j * cols + i)

/-- Whether an operation moves whole blocks (R82). -/
def SlipOp.tileMode (o : SlipOp) : Bool :=
  (o.req.kind == .cpt || o.req.kind == .cptt) && (layoutOf o.record).tiled

/-- Whether an operation is a quantising store (R248). -/
def SlipOp.quantises (o : SlipOp) : Bool := o.req.kind == .cpt && o.req.flag && (byteAt o.desc 28).getLsbD 0

/-- The moves of a sector of a copy between a box and its local area (R247). -/
def SlipOp.boxMoves (o : SlipOp) (k : Nat) : List Span :=
  let l := layoutOf o.record
  let lo := localOf o.desc
  let e := l.esize
  if l.tiled then
    let rows := nth l.boxUnits 1
    let cols := nth l.boxUnits 0
    let from_ := if o.req.kind = .cptt then transposedFrom rows cols o.req.flag k else k
    if o.req.flag then [⟨l.unitAt (l.coords o.desc k), some (lo + from_ * e), e⟩]
    else [⟨some (lo + k * e), l.unitAt (l.coords o.desc from_), e⟩]
  else
    (List.range (min 256 (l.boxCount * e - 256 * k) / e)).map fun i =>
      let n := 256 * k / e + i
      let near := lo + swizzled l.swizzle (n * e)
      let far := l.unitAt (l.coords o.desc n)
      if o.req.flag then ⟨far, some near, e⟩ else ⟨some near, far, e⟩

/-- Address of stream byte `p` of a gather's or scatter's rows in the tensor (R247). -/
def SlipOp.rowAt (o : SlipOp) (p : Nat) : Option Nat :=
  let l := layoutOf o.record
  let w := max 1 l.rowBytes
  let idx := listAt o.list (p / w)
  if idx < nth l.size 1 then some ((l.base + idx * nth l.stride 1 + p % w) % 2 ^ 64) else none

/-- The moves of a sector of a gather or scatter (R247).  DEDUCED (log 26): the rows lie packed at local, unswizzled. -/
def SlipOp.rowMoves (o : SlipOp) (k : Nat) : List Span :=
  let l := layoutOf o.record
  let e := l.esize
  let total := field o.desc 16 4 * l.rowBytes
  (List.range (min 256 (total - 256 * k) / e)).map fun i =>
    let p := 256 * k + i * e
    let near := localOf o.desc + p
    if o.req.kind = .cps then ⟨o.rowAt p, some near, e⟩ else ⟨some near, o.rowAt p, e⟩

/-- Length of a `cpl` or the payload of a `wsig`. -/
def EngReq.length (r : EngReq) : Nat := bitsOf (r.op (if r.kind = .cpl then 1 else 3)) 0 32

/-- Source and destination addresses of a `cpl` or `wsig`. -/
def EngReq.ends (r : EngReq) : Nat × Nat := (r.op 2, r.op 0)

/-- The moves of a sector of a `cpl`, a `wsig` payload, or an `hgrd`. -/
def SlipOp.flatMoves (o : SlipOp) (k : Nat) : List Span :=
  if o.req.kind = .hgrd then [⟨some (o.req.op 0), some (o.req.op 1), 256⟩]
  else [⟨some (o.req.ends.2 + 256 * k), some (o.req.ends.1 + 256 * k), min 256 (o.req.length - 256 * k)⟩]

/-- The moves of a sector. -/
def SlipOp.moves (o : SlipOp) (k : Nat) : List Span :=
  match o.req.kind with
  | .cpt | .cptt => o.boxMoves k
  | .cpg | .cps => o.rowMoves k
  | _ => o.flatMoves k

/-- Bytes of the destination stream in a sector, as they count (R246). -/
def SlipOp.sectorBytes (o : SlipOp) (k : Nat) : Nat := ((o.moves k).map (·.n)).sum

/-! ## Modules (R245, R250, R415, R418) -/

/-- The remote module that a module field names, if it is not this one (R245). -/
def remoteOf (r : CtxRec) (m : Nat) : Option Nat := if m = 0xFFFF ∨ m = r.jobself then none else some m

/-- The source and the destination module of an operation. -/
def EngReq.modules (q : EngReq) (r : CtxRec) : Option Nat × Option Nat :=
  match q.kind with
  | .cpl => (remoteOf r (bitsOf (q.op 1) 32 16), remoteOf r (bitsOf (q.op 1) 48 16))
  | .wsig => (none, remoteOf r (bitsOf (q.op 3) 32 16))
  | _ => (none, none)

/-- The remote module of an operation, if any. -/
def EngReq.remote (q : EngReq) (r : CtxRec) : Option Nat :=
  match q.modules r with
  | (some m, _) => some m
  | (none, d) => d

/-- Sectors of an operation whose record and descriptor have been read (R246); a `wsig` has one more, its signal. -/
def SlipOp.sectors (o : SlipOp) : Nat :=
  let l := layoutOf o.record
  match o.req.kind with
  | .cpt | .cptt => if l.tiled then l.boxCount else (l.boxCount * l.esize + 255) / 256
  | .cpg | .cps => (field o.desc 16 4 * l.rowBytes + 255) / 256
  | .cpl => (o.req.length + 255) / 256
  | .wsig => (o.req.length + 255) / 256 + 1
  | .hgrd => 1
  | _ => 0

/-! ## Sieve's descriptor (R373) -/

/-- An f32 encoding as a multiple of 2^-149; none when it is not finite. -/
def f32Int (b : Nat) : Option Int :=
  match fF32.value false b with
  | .fin neg m e => some (if neg then -((m * 2 ^ (e + 149).toNat : Nat) : Int) else ((m * 2 ^ (e + 149).toNat : Nat) : Int))
  | _ => none

/-- One axis of a grid: its length and its cells, and whether it is periodic. -/
structure Axis where
  len : Option Int
  n : Nat
  periodic : Bool
  deriving DecidableEq, Repr

/-- A grid descriptor's fields (R373). -/
structure Grid3 where
  axes : List Axis
  cap : Nat
  rc : Option Int
  skin : Option Int
  np : Nat
  parts : Nat
  bins : Nat
  ovf : Nat
  ovcap : Nat
  ref : Nat
  deriving DecidableEq, Repr

/-- The fields of bytes 0 to 71 of a descriptor. -/
def gridFields (b : List Byte) : Grid3 where
  axes := (List.range 3).map fun a => ⟨f32Int (field b (4 * a) 4), field b (12 + 2 * a) 2, (byteAt b 18).getLsbD a⟩
  cap := 16 * 2 ^ bitsOf (field b 18 1) 4 2
  rc := f32Int (field b 20 4)
  skin := f32Int (field b 24 4)
  np := field b 28 4
  parts := field b 32 8
  bins := field b 40 8
  ovf := field b 48 8
  ovcap := field b 56 4
  ref := field b 64 8

/-- Length of an axis; one where the descriptor holds none. -/
def Axis.l (x : Axis) : Int := x.len.getD 1

/-- Cells of a grid. -/
def Grid3.cells (g : Grid3) : Nat := (g.axes.map (·.n)).foldl (· * ·) 1

/-- Bytes of a bin (R376). -/
def Grid3.binSize (g : Grid3) : Nat := 64 + 4 * g.cap

/-! ## Windows of a reservation (R279, R284) -/

/-- Fields of a reservation descriptor (R279). -/
def rdLength (d : W64) : Nat := bitsOf d.toNat 0 18
def rdClass (d : W64) : Nat := bitsOf d.toNat 18 2
def rdF16 (d : W64) : Bool := d.getLsbD 20
def rdSteps (d : W64) : Nat := bitsOf d.toNat 21 3 + 1
def rdHoff (d : W64) : Nat := bitsOf d.toNat 24 18

/-- The reservation of a handle. -/
def Wave.rsv? (w : Wave) (h : Nat) : Option Reservation := w.rsv.find? fun r => r.handle == h
/-- The handles that an operation names, each with its wave. -/
def MatOp.handles (m : MatOp) : List (Nat × Nat) :=
  match m.kind with
  | .mma a b .. | .mmac a b .. => [(m.wave, a), (m.wave, b)]
  | .joint a _ bw b .. => [(m.wave, a), (bw, b)]
  | .obld h .. => [(m.wave, h)]
  | _ => []

/-- Whether a handle is a window for an operation issued before number `seq`: no earlier fill ends it (R284). -/
def State.windowed (s : State) (wid h seq : Nat) : Bool :=
  ((s.wave? wid).bind fun w => w.rsv? h).any (fun r => r.window.isSome) &&
    !(s.mats.any fun m => m.wave == wid && decide (m.id < seq) && match m.kind with
      | .obld k .. => k == h
      | _ => false)

/-! ## Scopes and domains (R65, R66) -/

/-- Whether the home of a location lies in the domain of a scope for a wave of core `core` (R65). -/
def inDomain (scope core addr : Nat) : Bool :=
  if inSlice addr then
    match scope with
    | 0 | 1 | 2 | 3 => homeCore addr == core
    | 4 => clusterOf (homeCore addr) == clusterOf core
    | 5 => dieOf (homeCore addr) == dieOf core
    | _ => true
  else decide (6 ≤ scope)

/-- The scope at which an ordering operation is performed: reduced to the reach of the name it uses (R66). -/
def reachScope (win : Bool) (scope : Nat) : Nat := if win then min scope 3 else min scope 6

/-! ## What an operation in flight reads and writes (R60, R72, R75) -/

/-- Whether a range of slice or external addresses has a home in the domain of a scope for a wave of core `core` (R65). -/
def rangeInDomain (scope core a n : Nat) : Bool :=
  decide (0 < n) &&
    (if inSlice a then
      (List.range (homeCore (a + n - 1) - homeCore a + 1)).any fun k => inDomain scope core (sliceOf (homeCore a + k))
    else decide (6 ≤ scope))

/-- The same for a range that an engine names for an owner of queues; an unmapped range has no home. -/
def State.namedInDomain (s : State) (c : Context) (ow : Owner) (scope core : Nat) (x : Nat × Nat) : Bool :=
  if inExt x.1 then decide (0 < x.2) && decide (6 ≤ scope)
  else (s.engSlice c ow x.1 x.2).any fun a => rangeInDomain scope core a x.2

/-- The bytes that an engine would read, none where it cannot. -/
def State.peek (s : State) (c : Context) (ow : Owner) (a n : Nat) : List Byte :=
  match s.engRead c ow a n 0 with
  | .ok b => b
  | .error _ => []

/-- An operation with what it would read if it began now: with no sector where it would be refused. -/
def State.foreseen (s : State) (o : SlipOp) : SlipOp :=
  let c := s.ctx o.req.by_.ctx
  let ow := o.req.owner
  if o.total ≠ 0 then o else
  match o.req.kind with
  | .cpt | .cptt | .cpg | .cps =>
    let b := match s.cached c.id o.die (s.recordAt c ow (o.req.op 0)) with
      | some e => e.bytes
      | none => s.peek c ow (o.req.op 0) 192
    let d := s.peek c ow (o.req.op 1) 32
    if (recordFault b).isSome || d.isEmpty then o else
    let rows := o.req.kind == .cpg || o.req.kind == .cps
    let l := if rows then s.peek c ow (field d 8 8) (4 * min 65536 (field d 16 4)) else []
    let o := { o with record := b, desc := d, list := l }
    { o with total := o.sectors }
  | _ => { o with total := o.sectors }

/-- The ranges that sector `k` of an operation writes, or reads, as the operation names them (R246 to R250). -/
def SlipOp.sectorRanges (o : SlipOp) (write : Bool) (k : Nat) : List (Nat × Nat) :=
  let l := layoutOf o.record
  if o.req.kind = .wsig ∧ k + 1 = o.total then (if write then [(o.req.op 1, 8)] else [])
  else
    let moves := (o.moves k).filterMap fun m => (if write then m.dst else m.src).map fun a => (a, m.n)
    let more :=
      if o.req.kind = .hgrd ∧ write = true then [(o.req.op 1, 256)]
      else if o.quantises then (if write then (if l.hist = 0 then [] else [(l.hist, 256)]) else [(localOf o.desc, 1024 * l.boxCount)])
      else []
    moves ++ more

/-- What an operation that has not begun reads before its sectors: its record, descriptor and list (R240, R243). -/
def SlipOp.heads (o : SlipOp) : List (Nat × Nat) :=
  match o.req.kind with
  | .cpt | .cptt => [(o.req.op 0, 192), (o.req.op 1, 32)]
  | .cpg | .cps => [(o.req.op 0, 192), (o.req.op 1, 32), (field o.desc 8 8, 4 * field o.desc 16 4)]
  | _ => []

/-- Whether an operation still writes, or with `reads` also reads, a home in the domain of a scope; another module's memory lies
in the domains of fabric and system scope (R65). -/
def State.slipLeft (s : State) (o : SlipOp) (scope core : Nat) (reads : Bool) : Bool :=
  let c := s.ctx o.req.by_.ctx
  let f := s.foreseen o
  let left := (List.range f.total).filter fun k => !(f.done.contains k)
  let far := o.req.modules c.r
  let hits := fun (write : Bool) (away : Option Nat) =>
    if away.isSome then decide (7 ≤ scope)
    else left.any fun k => (f.sectorRanges write k).any (s.namedInDomain c o.req.owner scope core)
  hits true far.2 || (reads && (hits false far.1 ||
    (decide (o.total = 0) && f.heads.any (s.namedInDomain c o.req.owner scope core))))

/-- The ranges that a Sieve operation writes, or reads, as it names them (R373, R376, R379, R386). -/
def State.sieveRanges (s : State) (o : SieveOp) (write : Bool) : List (Nat × Nat) :=
  let c := s.ctx o.req.by_.ctx
  let d := o.req.op 0
  let r := o.req.op 1
  let g := gridFields (if o.grid.isEmpty then s.peek c o.req.owner d 72 else o.grid)
  let bins := [(g.bins, g.cells * g.binSize), (g.ovf, 8 * g.ovcap)]
  let parts := (g.parts, 16 * g.np)
  let ref := (g.ref, 16 * g.np)
  let ring := (s.slice.num r 8, 32 * s.slice.num (r + 8) 4)
  let state := (d + 96, 32)
  if write then
    (if o.refused ≠ 0 then [state, (r + 40, if o.req.kind = .svpair then 4 else 0)] else
     match o.req.kind with
     | .svgrid => [(d + 72, 56)]
     | .svbin => [state, ref] ++ bins
     | .svpair => [state, (r + 16, 28), ring]
     | .svcheck => [state]
     | _ => [])
  else
    (d, 128) :: (match o.req.kind with
      | .svbin => [parts]
      | .svpair => [parts, (r, 64)] ++ bins
      | .svcheck => [parts, ref]
      | _ => [])

/-- The ranges that a Strata request or a walk writes: the block of a `trstat`, else the trace memory and the regions, which
reverts write (R337, R356, R366). -/
def Context.strataRanges (c : Context) (r : EngReq) : List (Nat × Nat) :=
  match r.kind with
  | .lrfl | .lrins => []
  | .trstat => if r.op 0 = 0 then [] else [(r.op 0, 64)]
  | _ => (Config.extBase, 1) :: (c.trace.regions.map fun x => (x.base, x.len))

/-- Whether the propagation of a wave issued before number `seq` still runs and writes a home in the domain (R353). -/
def Context.walkLeft (c : Context) (wid seq scope core : Nat) : Bool :=
  c.trace.walk.any fun k => k.by_.wave == wid && decide (k.by_.seq < seq) &&
    (decide (6 ≤ scope) || c.trace.regions.any fun x => rangeInDomain scope core x.base x.len)

/-- The ranges that a matrix operation writes, or reads, in memory (R282, R284, R300). -/
def State.matRanges (s : State) (m : MatOp) (write : Bool) : List (Nat × Nat) :=
  match m.kind with
  | .accst addr _ four _ hist => if write then (addr, blockBytes four) :: (hist.map fun h => (h, 256)).toList else []
  | .obld h addr .. =>
    if write then [] else [(addr, (((s.wave? m.wave).bind fun w => w.rsv? h).map fun r => rdLength r.desc).getD 0)]
  | _ =>
    if write then [] else
    (m.handles.filter fun h => s.windowed h.1 h.2 m.id).filterMap fun h =>
      ((s.wave? h.1).bind fun w => w.rsv? h.2).bind fun r => r.window.map fun a => (a + rdHoff r.desc, rdLength r.desc - rdHoff r.desc)

/-- The engine operations that the wave issued before number `seq`, that are still to be performed, and that write, or with `reads`
read or write, a home in the domain of the scope: issue number and address of each (R72, R75). -/
def State.enginesLeft (s : State) (wid seq scope core : Nat) (reads : Bool) : List (Nat × W64) :=
  let mine := fun (i : Issuer) => i.wave == wid && decide (i.seq < seq)
  let named := fun (r : EngReq) => s.namedInDomain (s.ctx r.by_.ctx) r.owner scope core
  let slips := s.slip.filter fun o => mine o.req.by_ && s.slipLeft o scope core reads
  let sieves := s.sieve.filter fun o => mine o.req.by_ &&
    (s.sieveRanges o true ++ (if reads then s.sieveRanges o false else [])).any (named o.req)
  let reqs := s.requests.filter fun o => mine o.req.by_ && ((s.ctx o.req.by_.ctx).strataRanges o.req).any (named o.req)
  let mats := s.mats.filter fun m => m.wave == wid && decide (m.by_.seq < seq) &&
    (s.matRanges m true ++ (if reads then s.matRanges m false else [])).any fun x => rangeInDomain scope core x.1 x.2
  let walks := (s.ctxs.filter fun c => c.walkLeft wid seq scope core).filterMap (·.trace.walk)
  (slips.map (·.req.by_) ++ sieves.map (·.req.by_) ++ reqs.map (·.req.by_) ++ walks.map (·.by_) ++ mats.map (·.by_)).map fun i =>
    (i.seq, i.pc)

/-- Whether an engine operation of the wave is left (R72, R75). -/
def State.pendingEngine (s : State) (wid seq scope core : Nat) (reads : Bool) : Bool :=
  !(s.enginesLeft wid seq scope core reads).isEmpty

end Sys2Proof.Machine
end

