-- ==== Sys2Proof/Machine/Order.lean ====
section
/-! DEFINITION. When an access is performed, and who sees a write (R60 to R76): the accesses in flight, their order,
the domains of releases and fences, bound regions, and the counters of R142. -/

namespace Sys2Proof.Machine

/-! ## Kinds of access -/

/-- Whether an access of this kind writes its location; a buffered `vafadd` counts as accepted (R73). -/
def AccKind.writes : AccKind → Bool
  | .load .. | .check .. | .bphase | .bind .. | .decs .. | .wlpull | .drained => false
  | _ => true

/-- Bit of the kinds mask of `fence` that names the kind (R75): 0 loads, 1 stores, 2 atomics and reductions. -/
def AccKind.fenceBit : AccKind → Nat
  | .load .. | .check .. | .bphase => 0
  | .store | .binit .. | .rgrel | .tkpass => 1
  | _ => 2

/-- Whether an access is a transfer of its own at the port (R399): arrivals and checks are not charged, and a reduction
travels in its packet. -/
def AccKind.charged : AccKind → Bool
  | .arrive .. | .check .. | .bind .. | .decs .. | .drained | .red .. => false
  | _ => true

/-- Whether an access is a reduction on its way through the combiner. -/
def AccKind.isRed : AccKind → Bool
  | .red .. => true
  | _ => false

/-- Whether an access is a plain or traced load. -/
def AccKind.isLoad : AccKind → Bool
  | .load .. => true
  | _ => false

/-- Whether every unit of an access has been performed. -/
def Access.finished (a : Access) : Bool := a.units.all (·.done)

/-! ## Writes of a wave not yet performed (R72, R74, R75) -/

/-- Whether an access of the wave `wid` issued before number `seq` still has a unit to perform that writes a home in
the domain of the scope. -/
def State.pendingWrite (s : State) (wid seq scope core : Nat) : Bool :=
  s.flight.any fun a => a.wave == wid && decide (a.id < seq) && a.kind.writes &&
    a.units.any fun u => !u.done && inDomain scope core u.addr

/-- Whether an access of the wave issued before number `seq`, of a sort that a test gives, is still to be performed.  A buffered
`vafadd` counts as accepted (R73). -/
def State.priorLeft (s : State) (wid seq : Nat) (p : Access → Bool) : Bool :=
  s.flight.any fun b => b.wave == wid && decide (b.id < seq) && !b.finished && p b

/-- Whether an access only reads, so that a release waits for it wherever its home lies (R72). -/
def Access.isRead (a : Access) : Bool := !a.kind.writes && a.kind != .drained

/-- Whether what a release issued as number `seq` waits for is performed (R72): the earlier writes in its domain, engine
operations among them, and the earlier loads. -/
def State.releaseReady (s : State) (wid seq scope core : Nat) : Bool :=
  !(s.pendingWrite wid seq scope core) && !(s.pendingEngine wid seq scope core false) && !(s.priorLeft wid seq Access.isRead)

/-- Whether an operation issued as number `seq` may take its reads as a release (R72, R74): every earlier acquire and load of its
wave and every earlier write in the domain is performed.  DEDUCED (log 15): the wave's own writes, not its other engine
operations, which R76 leaves unordered between queues. -/
def State.released (s : State) (wid seq scope core : Nat) : Bool :=
  !(s.pendingWrite wid seq scope core) && !(s.priorLeft wid seq fun b => b.acq || b.isRead)

/-- Whether a release that the wave of an operation has issued since waits for it, so that a halt lets it complete (R195; DEDUCED,
log 103). -/
def State.releaseOwed (s : State) (i : Issuer) : Bool :=
  s.flight.any fun a => a.wave == i.wave && a.rel && !a.finished && decide (i.seq < a.id)

/-- Whether an engine operation is one that a halt lets complete (R258, R392). -/
def EngKind.completesFirst : EngKind → Bool
  | .lrfl | .lrins | .hgrd | .svgrid | .svstat => true
  | _ => false

/-- Whether a fence may end (R75): no earlier access of a kind in the mask, and no engine operation with bit [3], is
still to be performed in the domain. -/
def State.fenceDone (s : State) (w : Wave) (mask scope : Nat) : Bool :=
  !(s.flight.any fun a => a.wave == w.id && mask.testBit a.kind.fenceBit &&
      a.units.any fun u => !u.done && inDomain scope w.core u.addr)
  && !(mask.testBit 3 && s.pendingEngine w.id s.nextId scope w.core true)
  && !(mask.testBit 2 && (s.group? w.gid).any fun g => !w.task && g.drain.any fun e =>
        (e.upds.any fun u => u.wave == w.id) && inDomain scope w.core e.addr)

/-! ## Which unit may be performed (R61, R63, R72) -/

/-- Whether unit `i` of an access may be performed now: at a home that does not forward it (R405), in program order at each location,
after every earlier acquire, and, for a release, after the writes it waits for (R63, R72). -/
def State.unitReady (s : State) (a : Access) (i : Nat) : Bool :=
  match a.units[i]? with
  | none => false
  | some u =>
    let core := a.core
    let scope := reachScope u.win a.scope
    !u.done && !(s.isForwarded u.addr)
    && (a.kind.isLoad || !((a.units.take i).any fun v => !v.done && overlap u.addr u.size v.addr v.size))
    && !(s.priorLeft a.wave a.id fun b => b.acq || (b.kind != .drained && b.units.any fun v => !v.done && overlap u.addr u.size v.addr v.size))
    && (!a.rel || s.releaseReady a.wave a.id scope core)
    && !(s.transfers.any fun t => t.op == a.id && t.part == u.addr / 64)

/-! ## Bound regions (R67 to R70) -/

/-- The binding that holds an address. -/
def Context.bindingOf (c : Context) (a : Nat) : Option Binding :=
  c.bindings.find? fun b => decide (b.base ≤ a) && decide (a < b.base + b.len)

/-- The numbers of the writes to a range of bound bytes, newest first. -/
def Context.writesTo (c : Context) (a n : Nat) : List Nat :=
  ((c.versions.filter fun v => decide (a ≤ v.addr) && decide (v.addr < a + n)).map (·.nr)).eraseDups

/-- Whether a reader must see the write with a number to a range (R63, R69). -/
def Context.mustSee (c : Context) (wid a n nr : Nat) : Bool :=
  c.versions.any fun v => v.nr == nr && decide (a ≤ v.addr) && decide (v.addr < a + n) && v.must.contains wid

/-- The newest `back` writes to a range, as whole writes (R62), none that the reader must see, nor any before it (R63, R69). -/
def Context.unseen (c : Context) (wid a n back : Nat) : List Nat :=
  ((c.writesTo a n).takeWhile fun k => !(c.mustSee wid a n k)).take back

/-- The byte of a location without some of the newest writes. -/
def Context.pastByte (c : Context) (m : Memory) (gone : List Nat) (a : Nat) : Byte :=
  match (c.versions.filter fun v => v.addr == a && gone.contains v.nr).getLast? with
  | some v => v.old
  | none => m.byte a

/-- A byte as a wave reads it: its own held write first (R63, R69), else without the writes that its view lacks. -/
def State.readByte (s : State) (c : Context) (wid : Nat) (gone : List Nat) (a : Nat) : Byte :=
  let own := c.held.foldl (fun (b : Option Byte) h =>
    if h.wave == wid && decide (h.addr ≤ a) && decide (a < h.addr + h.bytes.length) then h.bytes[a - h.addr]? else b) none
  match own with
  | some b => b
  | none => c.pastByte s.slice gone a

/-- The bytes as a wave reads them, its view being `back` writes old where the region is bound. -/
def State.readBytes (s : State) (c : Context) (wid a n back : Nat) : List Byte :=
  (List.range n).map fun i => s.readByte c wid (c.unseen wid a n back) (a + i)

/-- After a read without some writes, the newest version of the byte that was read must be seen from then on (R63). -/
def markSeen (wid a : Nat) (gone : List Nat) : List Version → List Version
  | [] => []
  | v :: t =>
    if v.addr = a ∧ gone.contains v.nr = false then
      (if v.must.contains wid then v :: t else { v with must := wid :: v.must } :: t)
    else v :: markSeen wid a gone t

/-- Record that a wave read some bytes. -/
def Context.sawBytes (c : Context) (wid a n back : Nat) : Context :=
  { c with versions := (List.range n).foldl (fun vs i => markSeen wid (a + i) (c.unseen wid a n back) vs) c.versions }

/-- Who performs a write: a wave, an engine operation in one of its landings with the wave that issued it, or the host. -/
structure Writer where
  wave : Nat
  op : Nat
  land : Nat
  host : Bool
  issuer : Nat
  deriving DecidableEq, Repr

/-- Writer of a wave. -/
def Writer.ofWave (wid : Nat) : Writer := ⟨wid, 0, 0, false, 0⟩
/-- Writer of an engine operation, in one of its landings, that a wave issued. -/
def Writer.ofOp (op land issuer : Nat) : Writer := ⟨0, op, land, false, issuer⟩
/-- The K9 itself as a writer: a ticket word, a list, a reverted word. -/
def Writer.ofUnit : Writer := ⟨0, 0, 0, false, 0⟩
/-- The host as a writer (R70). -/
def Writer.ofHost : Writer := ⟨0, 0, 0, true, 0⟩

/-- The version of a bound byte that a write replaces. -/
def Writer.version (by_ : Writer) (nr a obj : Nat) (old : Byte) : Version where
  addr := a
  old := old
  nr := nr
  by_ := by_.wave
  op := by_.op
  land := by_.land
  issuer := by_.issuer
  got := false
  obj := obj
  seq := 0
  released := by_.host
  must := if by_.wave = 0 then [] else [by_.wave]

/-- Perform a write at its home (R60): slice memory changes, and a bound byte's old value stays readable to those that
have not acquired the new one (R69). -/
def State.perform (s : State) (cid : Nat) (by_ : Writer) (a : Nat) (bs : List Byte) : State :=
  let c := s.ctx cid
  let nr := ((c.versions.head?).map (·.nr)).getD 0 + 1
  let vs := (List.range bs.length).filterMap fun i =>
    (c.bindingOf (a + i)).map fun b => by_.version nr (a + i) b.obj (s.slice.byte (a + i))
  let s := { s with slice := s.slice.setBytes a bs }
  if vs.isEmpty then s else s.updCtx cid fun c => { c with versions := vs ++ c.versions }

/-- A store of a wave: a write to a bound region is held at its core (R69), any other is performed at the home. -/
def State.storeAs (s : State) (cid wid a : Nat) (bs : List Byte) : State :=
  if ((s.ctx cid).bindingOf a).isSome then
    s.updCtx cid fun c => { c with held := c.held ++ [⟨wid, a, bs⟩] }
  else s.perform cid (.ofWave wid) a bs

/-- Perform the pending writes that satisfy a test (R70): they become visible to nobody by that alone. -/
def State.flushHeld (s : State) (cid : Nat) (p : HeldWrite → Bool) : State :=
  let hs := (s.ctx cid).held.filter p
  let s := s.updCtx cid fun c => { c with held := c.held.filter fun h => !(p h) }
  hs.foldl (fun s h => s.perform cid (.ofWave h.wave) h.addr h.bytes) s

/-- An engine operation begins (R74): the pending writes of its wave in its domain are performed, so that it reads them.  DEDUCED
(log 95): R74 has it see the wave's earlier writes, which R69 holds at the core until then. -/
def State.flushFor (s : State) (i : Issuer) (scope : Nat) : State :=
  s.flushHeld i.ctx fun h => h.wave == i.wave && inDomain scope i.core h.addr

/-- Whether a pending write lies in a region bound to an object. -/
def Context.heldFor (c : Context) (obj : Nat) (h : HeldWrite) : Bool :=
  (c.bindingOf h.addr).any fun b => b.obj == obj

/-- A release of a wave on an object (R68 to R70): its pending writes to the regions bound to the object are performed,
and they, with the bytes of engine operations that it issued and has since acquired (R69), are released as number `seq`. -/
def State.releaseOn (s : State) (cid wid obj seq : Nat) : State :=
  let c := s.ctx cid
  let s := s.flushHeld cid fun h => h.wave == wid && c.heldFor obj h
  s.updCtx cid fun c => { c with
    versions := updWhere (fun v => v.obj == obj && !v.released && (v.by_ == wid || (v.issuer == wid && v.got)))
      (fun v => { v with released := true, seq := seq }) c.versions }

/-- A wave must see the versions that satisfy a test from now on. -/
def State.acquireIf (s : State) (cid wid : Nat) (p : Version → Bool) : State :=
  s.updCtx cid fun c => { c with
    versions := updWhere (fun v => p v && !(v.must.contains wid)) (fun v => { v with must := wid :: v.must }) c.versions }

/-- An acquire on an object of what was released on it up to number `seq`, modulo 2^32 (R68, R69), and of the host's
writes performed before it (R70). -/
def State.acquireOn (s : State) (cid wid obj seq : Nat) : State :=
  s.acquireIf cid wid fun v => v.released && v.obj == obj &&
    ((v.by_ == 0 && v.op == 0) || decide ((seq + 2 ^ 32 - v.seq % 2 ^ 32) % 2 ^ 32 < 2 ^ 31))

/-- An acquire of the bytes of engine operations that satisfy a test: their issuer may release them from now on (R69). -/
def State.acquireEngine (s : State) (cid wid : Nat) (p : Version → Bool) : State :=
  let q := fun (v : Version) => v.by_ == 0 && v.op != 0 && p v
  (s.acquireIf cid wid q).updCtx cid fun c => { c with
    versions := updWhere (fun v => q v && v.issuer == wid) (fun v => { v with got := true }) c.versions }

/-- An acquire of the bytes that engine operations wrote (R80). -/
def State.acquireOps (s : State) (cid wid : Nat) (ops : List Nat) : State := s.acquireEngine cid wid fun v => ops.contains v.op

/-- An acquire of the bytes of landings that a phase counted (R79). -/
def State.acquireLandings (s : State) (cid wid : Nat) (lands : List Nat) : State :=
  s.acquireEngine cid wid fun v => lands.contains v.land

/-! ## What `end` waits for (R131, R269) -/

/-- Whether a read of a wave, issued before number `seq`, has still to write its registers (R131); `buffered` leaves out what
a drain buffer holds. -/
def State.readsLeft (s : State) (wid seq : Nat) (buffered : Bool) : Bool :=
  s.flight.any fun a => a.wave == wid && decide (a.id < seq) && !a.finished && !(buffered && a.kind == .drained) &&
    (a.inLd || a.kind.isLoad || a.kind == .bphase || a.kind == .wlpull)

/-- Whether a write of a wave to a bound region has still to be accepted or performed (R70, R131). -/
def State.boundLeft (s : State) (cid wid seq : Nat) : Bool :=
  s.flight.any fun a => a.wave == wid && decide (a.id < seq) && a.kind.writes &&
    a.units.any fun u => !u.done && ((s.ctx cid).bindingOf u.addr).isSome

/-- Whether all that `end` waits for of what was issued before number `seq` is done (R131), but for `vafadd` results that a drain
buffer holds when `buffered`. -/
def State.endReady (s : State) (w : Wave) (seq : Nat) (buffered : Bool) : Bool :=
  !(s.readsLeft w.id seq buffered) && !(s.boundLeft w.ctx w.id seq) && !(s.mats.any fun m => m.wave == w.id && decide (m.id < seq))

/-- Whether `end` may complete for what was issued before number `seq` (R131). -/
def State.mayEnd (s : State) (w : Wave) (seq : Nat) : Bool := s.endReady w seq false

/-- Whether a wave counts as ended for R269: it waits at `end` only for values that the group's buffer holds. -/
def State.endsBuffered (s : State) (w : Wave) : Bool :=
  !w.subs.isEmpty && w.subs.all fun q =>
    match q.st with
    | .ending seq => s.endReady w seq true
    | _ => false

/-! ## The counters of R142 -/

/-- Outstanding loads of a wave. -/
def State.ldCount (s : State) (wid : Nat) : Nat := (s.flight.filter fun a => a.wave == wid && a.inLd).length
/-- Outstanding stores of a wave. -/
def State.stCount (s : State) (wid : Nat) : Nat := (s.flight.filter fun a => a.wave == wid && a.inSt).length

/-- Drop the accesses that are complete. -/
def State.retireAccesses (s : State) : State := { s with flight := s.flight.filter fun a => !a.finished }

/-- Change unit `i` of the access `acc`. -/
def State.updUnit (s : State) (acc i : Nat) (f : AccUnit → AccUnit) : State :=
  let g := fun (a : Access) => { a with units := a.units.mapIdx fun j u => if j = i then f u else u }
  { s with flight := updWhere (fun a => a.id == acc) g s.flight }

/-- The access with a number. -/
def State.access? (s : State) (acc : Nat) : Option Access := s.flight.find? fun a => a.id == acc

/-! ## Issuing accesses (R73, R142, R399) -/

/-- How the ordering field reads for a kind of instruction (R73): acquire, release, and whether it counts a mismatch. -/
structure Ordering_ where
  acq : Bool
  rel : Bool
  mismatch : Bool
  deriving DecidableEq, Repr

/-- A plain or traced load (R73). -/
def loadOrder (o : Nat) : Ordering_ := ⟨o == 1 || o == 3, false, o == 2 || o == 3⟩
/-- A plain or traced store (R73). -/
def storeOrder (o : Nat) : Ordering_ := ⟨false, o == 2 || o == 3, o == 1 || o == 3⟩
/-- A returning atomic (R73). -/
def atomicOrder (o : Nat) : Ordering_ := ⟨o == 1 || o == 3, o == 2 || o == 3, false⟩

/-- Count a mode mismatch of the context, once per instruction (R73). -/
def State.mismatch (s : State) (cid : Nat) (b : Bool) : State :=
  if b then (s.updCtx cid fun c => { c with modeMismatch := c.modeMismatch + 1 }).count cid 4 1 else s

/-- Bytes of a reduction's cell (R260). -/
def cellSize (minor : Nat) : Nat := if minor = 13 then 16 else 4

/-- The transfer of a reduction packet to another core's slice (R399): of one merged value, or of the list of a `vrx96` (R259). -/
def RedEntry.transfer (e : RedEntry) (vf : Nat) : List Transfer :=
  let bytes := if e.minor = 13 then 4 * e.upds.length else 4
  if homeCore e.addr == e.core then [] else [⟨e.core, vf, (bytes + 63) / 64, e.id, e.addr / 64, e.id⟩]

/-- Send the combiner entries that satisfy a test as packets (R259), each counted in its context (R431). -/
def State.sendEntries (s : State) (p : RedEntry → Bool) : State :=
  let hit := fun (e : RedEntry) => !e.sent && p e
  let ts := (s.red.filter hit).flatMap fun e => e.transfer (s.ctx e.ctx).vf
  (s.red.filter hit).foldl (fun s e => s.count e.ctx 8 1) { s with
    transfers := s.transfers ++ ts
    red := updWhere hit (fun e => { e with sent := true }) s.red }

/-- A release by a wave sends every combiner entry that holds an update of it (R259). -/
def State.sendCombiner (s : State) (wid : Nat) : State := s.sendEntries fun e => e.upds.any fun u => u.wave == wid

/-- The data bytes that a unit's access moves (R399): a `wlpull` brings an item of 4 bytes for each lane that asks. -/
def AccUnit.moved (kind : AccKind) (u : AccUnit) : Nat := if kind == .wlpull then 4 * (lanesOf fun l => u.data.getLsbD l).length else u.size

/-- The transfers of an access: one for each 64-byte block in another core's slice that its units touch (R399). -/
def transfersOf (vf core acc : Nat) (kind : AccKind) (units : List AccUnit) : List Transfer :=
  let blocks := ((units.filter fun u => homeCore u.addr != core).map fun u => u.addr / 64).eraseDups
  blocks.map fun b =>
    let bytes := ((units.filter fun u => u.addr / 64 == b).map fun u => u.moved kind).sum
    ⟨core, vf, (bytes + 63) / 64, acc, b, acc⟩

/-- Put an access in flight; an instruction with no unit puts none (R142).  A release sends the wave's combiner
entries first (R259). -/
def State.launch (s : State) (w : Wave) (mk : Nat → Access) : State :=
  let f := s.fresh
  let a := mk f.1
  if a.units.isEmpty then s else
  let s := f.2
  let s := if a.rel then s.sendCombiner w.id else s
  { s with
    flight := s.flight ++ [a]
    transfers := s.transfers ++ (if a.kind.charged then transfersOf (s.ctx w.ctx).vf w.core a.id a.kind a.units else []) }

/-- A unit of an access, not yet performed. -/
def mkUnit (lane addr size : Nat) (win : Bool) (data : W64) (reg : Nat) (helper : Bool) : AccUnit where
  lane := lane
  addr := addr
  size := size
  win := win
  data := data
  data2 := 0
  reg := reg
  helper := helper
  draw := 0
  done := false
  taken := false
  value := 0

/-- The checks of R191 items 1 to 3 on one address: the location named, or the fault code. -/
def State.checkAddr (s : State) (w : Wave) (a size align : Nat) : Except Nat (Nat × Bool) :=
  if 2 ^ 57 ≤ a then .error 0x20 else
  match s.resolve w a with
  | .error e => .error e
  | .ok r =>
    if a % align ≠ 0 then .error 0x22 else
    match s.resolve w (a + size - 1) with
    | .error e => .error e
    | .ok _ => .ok r

/-- Whether any of `n` bytes from a slice address lies in a modifiable region of the context's live trace: a trace in
any state but none (R191 item 4, R335, R345). -/
def Context.modifiable (c : Context) (a n : Nat) : Bool :=
  decide (c.trace.state ≠ 0) && c.trace.regions.any fun r => overlap a n r.base r.len

end Sys2Proof.Machine
end

