-- ==== Sys2Proof/Machine/Control.lean ====
section
/-! DEFINITION. The control instructions and the branches (R106 to R110, R116, R118, R128 to R149), but for `end` and
`bkpt`; and the two ways in which a fetched word is refused (R97, R98). -/

namespace Sys2Proof.Machine

/-- `nop` (R130). No effect. -/
def execNop (s : State) : Out := .next (s.onIssuer fun w _ => s.retire w)

/-- `trap` (R132). Raises TRAP with the immediate in kTRAPVAL. -/
def execTrap (i : BitVec 16) (s : State) : Out := .next (s.onIssuer fun w q => s.raise w q 0x09 (i.setWidth 64))

/-- `eret` (R134, R223). Returns from the handler to kTRAPPC; outside the handler it raises ERET_OUTSIDE. -/
def execEret (s : State) : Out :=
  .next (s.onIssuer fun w q =>
    if w.handler.isNone then s.raise w q 0x0B w.trapPc else
    match targetFault (s.ctx w.ctx).r w.trapPc with
    | some code => s.raise w q code w.trapPc
    | none => s.put (w.returnTo s.tick w.trapPc))

/-! ## Special registers (R128, R135, R136) -/

/-- A field that reads as all ones in a task wave (R123, R128). -/
def Wave.gridOnly (w : Wave) (v : W64) : W64 := if w.task then BitVec.allOnes 64 else v

/-- kWSTATE (R128). -/
def Wave.wstate (w : Wave) : W64 :=
  (if w.handler.isSome then 1 else 0) ||| (if w.ext then 2 else 0) ||| (if w.task then 4 else 0)

/-- A special register as `getk` sees it (R128). -/
def State.special (s : State) (w : Wave) (q : SubWave) (k : Nat) : W64 :=
  let r := (s.ctx w.ctx).r
  match k with
  | 0 => w.flags.setWidth 64
  | 1 => w.livemask.setWidth 64
  | 2 => r.gseed
  | 3 => if r.det then 1 else 0
  | 4 => w.kcores.setWidth 64
  | 5 => w.gridOnly (BitVec.ofNat 64 w.ord)
  | 6 => w.gridOnly (w.kngroups.setWidth 64)
  | 7 => w.gridOnly (w.knlanes.setWidth 64)
  | 8 => w.gridOnly (BitVec.ofNat 64 w.group)
  | 9 => w.gridOnly (BitVec.ofNat 64 w.widx)
  | 10 =>
    if w.task then (match w.lowestWorking q.quads with | some l => w.keyOf l | none => BitVec.allOnes 64)
    else BitVec.allOnes 64
  | 11 => w.working.setWidth 64
  | 12 => q.quads.setWidth 64
  | 13 => w.wstate
  | 14 => w.trapCause.setWidth 64
  | 15 => w.trapPc
  | 16 => w.trapVal
  | 17 => w.joint.setWidth 64
  | 18 => if r.sealOnly then 1 else 0
  | _ => 0

/-- `getk` (R135). sd := the special register. -/
def execGetk (s k : BitVec 6) (st : State) : Out :=
  .next (st.onIssuer fun w q => st.retire (w.setS s.toNat (st.special w q k.toNat)))

/-- A write to a special register by its access kind (R136); flags that an operation in flight sets in the same clk stay (R43). -/
def Wave.setSpecial (w : Wave) (tick k : Nat) (v : W64) : Wave :=
  match k with
  | 0 => { w with flags := w.flags &&& ~~~(v.setWidth 8) ||| (if w.lateTick = tick then w.lateFlags else 0) }
  | 1 => { w with livemask := v.setWidth 32 }
  | 14 => { w with trapCause := v.setWidth 16 }
  | 15 => { w with trapPc := v }
  | 16 => { w with trapVal := v }
  | _ => w

/-- `setk` (R136). Writes sa to a special register; too large a kLIVEMASK raises LIVEMASK_LIMIT (R116). -/
def execSetk (s k : BitVec 6) (st : State) : Out :=
  .next (st.onIssuer fun w q =>
    let v := w.s s.toNat
    if k.toNat = 1 ∧ 16 < popc 32 v.toNat then st.raise w q 0x07 ((v.setWidth 32).setWidth 64)
    else st.retire (w.setSpecial st.tick k.toNat v))

/-! ## Mode slots (R93, R137) -/

/-- Write a mode slot, or refuse a reserved value with ILLEGAL_MODE (R93). -/
def State.setMode (s : State) (w : Wave) (q : SubWave) (m : Nat) (v : W32) (k : Wave → Wave) : State :=
  if slotLegal v then s.retire (k { w with modes := w.modes.set m v }) else s.raise w q 0x02 (v.setWidth 64)

/-- `mode` (R137). Slot m := sa[31:0]. -/
def execMode (m : BitVec 2) (a : BitVec 6) (s : State) : Out :=
  .next (s.onIssuer fun w q => s.setMode w q m.toNat ((w.s a.toNat).setWidth 32) id)

/-- `modea` (R137). Replaces the bits of slot m that sb selects. -/
def execModea (m : BitVec 2) (a b : BitVec 6) (s : State) : Out :=
  .next (s.onIssuer fun w q =>
    let x := (w.s a.toNat).setWidth 32
    let y := (w.s b.toNat).setWidth 32
    s.setMode w q m.toNat ((w.slotOf m.toNat &&& ~~~y) ||| (x &&& y)) id)

/-- `modem` (R137). Slot m := sb[31:0], and sa := the old slot. -/
def execModem (m : BitVec 2) (a b : BitVec 6) (s : State) : Out :=
  .next (s.onIssuer fun w q =>
    s.setMode w q m.toNat ((w.s b.toNat).setWidth 32) fun v => v.setS a.toNat ((w.slotOf m.toNat).setWidth 64))

/-! ## Extended blocks (R118, R139) -/

/-- Number of a wave's quadrant in the package (R10). -/
def Wave.quadrant (w : Wave) : Nat := 4 * w.core + w.quad

/-- Free extended blocks of a quadrant (R118). -/
def State.freeBlocks (s : State) (quadrant : Nat) : Nat :=
  8 - (s.waves.filter fun w => w.quadrant == quadrant && w.ext).length

/-- Whether a quadrant's queue of kind `k` (0 blocks, 1 operand buffer, 2 tiles) has a waiting request. -/
def State.queued (s : State) (quadrant k : Nat) : Bool := s.waitList.any fun e => e.1 == quadrant && e.2.1 == k

/-- The wave with its extended block: it reads as zero in every lane (R118). -/
def Wave.withBlock (w : Wave) : Wave :=
  { w with ext := true, vregs := w.vregs.takeWhile fun e => decide (e.1 < 1024) }

/-- `xacq` (R139). Grants an extended block or waits for one, first come first served on the quadrant. -/
def execXacq (s : State) : Out :=
  .next (s.onIssuer fun w q =>
    if w.ext then s.retire w
    else if 0 < s.freeBlocks w.quadrant ∧ s.queued w.quadrant 0 = false then s.retire w.withBlock
    else
      let s := s.put { w with subs := { q with st := .forBlock } :: w.subs.tail }
      { s with waitList := s.waitList ++ [(w.quadrant, 0, w.id, .xacq)] })

/-- `xrel` (R139). Returns the extended block. -/
def execXrel (s : State) : Out := .next (s.onIssuer fun w _ => s.retire { w with ext := false })

/-- EXTENDED_BLOCK_GRANT (R118). A returned block goes to the oldest waiting `xacq` of the quadrant. -/
def execExtendedBlockGrant (quad : Nat) (s : State) : Out :=
  .next (
    match s.waitList.find? fun e => e.1 == quad && e.2.1 == 0 with
    | none => s
    | some e =>
      if s.freeBlocks quad = 0 then s else
      let wid := e.2.2.1
      let wake := fun (q : SubWave) => if q.st = .forBlock then { q with st := .ready, pc := q.pc + 4 } else q
      let s := s.updWave wid fun w => { w.withBlock with subs := w.subs.map wake }
      { s with waitList := s.waitList.filter fun f => !(f.2.1 == 0 && f.2.2.1 == wid) })

/-! ## Waiting and rejoining -/

/-- `yield` (R140, R122). Not ready for one clk, age zero. -/
def execYield (s : State) : Out := .next (s.onIssuer fun w _ => s.retire { w with notBefore := s.tick + 2 })

/-- The least element of a nonempty list of numbers. -/
def leastOf (l : List Nat) : Nat := l.foldl min (l.headD 0)
/-- The greatest element of a list of numbers. -/
def greatestOf (l : List Nat) : Nat := l.foldl max 0

/-- After a sub-wave parked or exited: when every sub-wave is parked, they join at the common address + 4 (R109), or the
wave raises REJOIN_MISMATCH in the sub-wave parked lowest (R110).  DESIGN CHOICE (unsafe; log 96): a joining that the handler's
sub-wave completes makes all of the wave the handler's.  DESIGN CHOICE (unsafe; log 97): of several sub-waves parked lowest, the
one with the lowest quad. -/
def State.tryRejoin (s : State) (wid : Nat) : State :=
  match s.wave? wid with
  | none => s
  | some w =>
    if w.subs.isEmpty || !(w.subs.all fun q => decide (q.st = .parked)) then s else
    let pcs := w.subs.map fun q => q.pc.toNat
    let lo := leastOf pcs
    let hi := greatestOf pcs
    if lo = hi then
      s.updWave wid fun w => { w with
        subs := [⟨w.subs.foldl (fun m q => m ||| q.quads) 0, BitVec.ofNat 64 (lo + 4), .ready⟩]
        handler := w.handler.map fun _ => w.subs.foldl (fun m q => m ||| q.quads) 0 }
    else
      let lowest := (w.subs.filter fun q => q.pc.toNat == lo).map (·.quads)
      let quads := lowest.foldl (fun b x => if lowQuad x < lowQuad b then x else b) (lowest.headD 0)
      s.fault wid quads 0x06 (BitVec.ofNat 64 lo) (BitVec.ofNat 64 hi)

/-- `rejoin` (R109, R110, R140). A wave of one sub-wave passes; otherwise the sub-wave parks. -/
def execRejoin (s : State) : Out :=
  .next (s.onIssuer fun w q =>
    if w.subs.length = 1 then s.retire w
    else (s.put { w with subs := { q with st := .parked } :: w.subs.tail, lastIssue := s.tick }).tryRejoin w.id)

/-- `fence` (R75, R141). Waits, wave-wide, for the earlier accesses of the kinds in the mask. -/
def execFence (k c : BitVec 4) (s : State) : Out :=
  .next (s.onIssuer fun w q =>
    if 8 < c.toNat then
      s.raise w q 0x02 (0x00E00000#64 ||| (k.setWidth 64 <<< 16) ||| (c.setWidth 64 <<< 12))
    else
      let s := if k.toNat.testBit 2 then s.sendCombiner w.id else s
      if s.fenceDone w k.toNat c.toNat then s.retire w else s.again w q)

/-- Whether an operation number names an operation still under way: a copy or a matrix operation. -/
def State.opLive (s : State) (op : Nat) : Bool := s.slip.any (fun o => o.id == op) || s.mats.any fun o => o.id == op

/-- The batches of a list that are not complete (R253, R294). -/
def State.openBatches (s : State) (bs : List Batch) : List Batch := bs.filter fun b => b.ops.any s.opLive

/-- Whether a count meets a limit, where 15 means any count (R143). -/
def underLimit (n : Nat) (lim : BitVec 4) : Bool := lim == 15 || decide (n ≤ lim.toNat)

/-- `waitc` (R143). Waits, wave-wide, until the four counters are at most their limits; then it acquires the bytes of
every batch that it found complete (R80). -/
def execWaitc (l st c m : BitVec 4) (s : State) : Out :=
  .next (s.onIssuer fun w q =>
    let oc := s.openBatches w.batchesC
    let om := s.openBatches w.batchesM
    if underLimit (s.ldCount w.id) l && underLimit (s.stCount w.id) st && underLimit oc.length c
        && underLimit om.length m then
      let done := ((w.batchesC ++ w.batchesM).filter fun b => !(b.ops.any s.opLive)).flatMap (·.ops)
      (s.retire { w with batchesC := oc, batchesM := om }).acquireOps w.ctx w.id done
    else s.again w q)

/-- `tick` (R144). sd := the global tick. -/
def execTick (s : BitVec 6) (st : State) : Out :=
  .next (st.onIssuer fun w _ => st.retire (w.setS s.toNat (BitVec.ofNat 64 st.tick)))

/-! ## Control transfers (R98, R107, R145 to R149) -/

/-- Send the whole issuing sub-wave to a target, after the check of R98; `link` writes the return address. -/
def State.jump (s : State) (w : Wave) (q : SubWave) (target : W64) (link : Bool) : State :=
  match targetFault (s.ctx w.ctx).r target with
  | some code => s.raise w q code target
  | none => s.put ((if link then w.setS 63 (q.pc + 4) else w).goto s.tick target)

/-- `jmp` (R145). -/
def execJmp (s : BitVec 6) (st : State) : Out := .next (st.onIssuer fun w q => st.jump w q (w.s s.toNat) false)

/-- `callr` (R145). Reads sa, writes PC + 4 to s63, and transfers. -/
def execCallr (s : BitVec 6) (st : State) : Out := .next (st.onIssuer fun w q => st.jump w q (w.s s.toNat) true)

/-- The target of a branch (R98, R147). -/
def branchTarget (pc : W64) (o : BitVec 19) : W64 := pc + o.signExtend 64 <<< 2

/-- `bra` (R148). -/
def execBra (o : BitVec 19) (s : State) : Out :=
  .next (s.onIssuer fun w q => s.jump w q (branchTarget q.pc o) false)

/-- `call` (R148). -/
def execCall (o : BitVec 19) (s : State) : Out :=
  .next (s.onIssuer fun w q => s.jump w q (branchTarget q.pc o) true)

/-- A branch on a scalar test: a branch not taken checks nothing (R98, R148). -/
def State.branchIf (s : State) (o : BitVec 19) (f : Wave → Bool) : State :=
  s.onIssuer fun w q => if f w then s.jump w q (branchTarget q.pc o) false else s.retire w

/-- `brz` (R148). -/
def execBrz (r : BitVec 6) (o : BitVec 19) (s : State) : Out := .next (s.branchIf o fun w => w.s r.toNat == 0)
/-- `brnz` (R148). -/
def execBrnz (r : BitVec 6) (o : BitVec 19) (s : State) : Out := .next (s.branchIf o fun w => w.s r.toNat != 0)

/-- The working lanes of a quad. -/
def Wave.quadLanes (w : Wave) (quad : Nat) : List Nat :=
  ((List.range 4).map fun i => 4 * quad + i).filter w.isWorking

/-- The quads of a set whose test holds. -/
def quadsWhere (quads : BitVec 8) (t : Nat → Bool) : BitVec 8 :=
  (List.range 8).foldl (fun m k => if quads.getLsbD k && t k then m ||| BitVec.twoPow 8 k else m) 0

/-- A predicate branch (R107, R148): quads whose test holds go to the target, the others to PC + 4; when both sets have
a quad, the sub-wave divides. -/
def State.branchQuads (s : State) (o : BitVec 19) (t : Wave → Nat → Bool) : State :=
  s.onIssuer fun w q =>
    let yes := quadsWhere q.quads (t w)
    let no := q.quads &&& ~~~yes
    let target := branchTarget q.pc o
    if yes = 0 then s.retire w
    else if no = 0 then s.jump w q target false
    else
      match targetFault (s.ctx w.ctx).r target with
      | some code => s.raise w q code target
      | none =>
        s.put { w with
          subs := ⟨yes, target, .ready⟩ :: ⟨no, q.pc + 4, .ready⟩ :: w.subs.tail
          wait := .none
          lastIssue := s.tick }

/-- `brany` (R148). Taken by the quads with a set bit among their working lanes. -/
def execBrany (r : BitVec 6) (o : BitVec 19) (s : State) : Out :=
  .next (s.branchQuads o fun w k => (w.quadLanes k).any fun l => (w.p r.toNat).getLsbD l)
/-- `brnone` (R148). Taken by the quads with none set. -/
def execBrnone (r : BitVec 6) (o : BitVec 19) (s : State) : Out :=
  .next (s.branchQuads o fun w k => !((w.quadLanes k).any fun l => (w.p r.toNat).getLsbD l))
/-- `brall` (R148). Taken by the quads with all set. -/
def execBrall (r : BitVec 6) (o : BitVec 19) (s : State) : Out :=
  .next (s.branchQuads o fun w k => (w.quadLanes k).all fun l => (w.p r.toNat).getLsbD l)

/-! ## Words that do not issue (R97, R98) -/

/-- ILLEGAL_INSTRUCTION (R97). A fetched word that names no instruction raises the fault and changes nothing else. -/
def execIllegalInstruction (word : W32) (s : State) : Out :=
  .next (s.onIssuer fun w q => s.raise w q 0x01 (word.setWidth 64))

/-- CODE_FETCH_FAULT (R98). A fetch past the segment's last word names that word as the faulting instruction; a word
inside the segment whose page fails its walk names itself. -/
def execCodeFetchFault (addr : W64) (s : State) : Out :=
  .next (s.onIssuer fun w q =>
    s.fault w.id q.quads 0x05 (if (s.ctx w.ctx).r.inCode addr then addr else addr - 4) addr)

end Sys2Proof.Machine
end

