-- ==== Sys2Proof/Machine/Object.lean ====
section
/-! DEFINITION. Barrier objects (R19, R78, R79, R202 to R209): their fields in memory, the election record, arrivals and
byte counts, the completion of a phase and the waking of its waiters, and the faulted mark. -/

namespace Sys2Proof.Machine

/-! ## The fields and the record -/

/-- A field of the object at a slice address (R202). -/
def objExpected (m : Memory) (a : Nat) : Nat := m.num a 4
def objArrived (m : Memory) (a : Nat) : Nat := m.num (a + 4) 4
def objExpbytes (m : Memory) (a : Nat) : Nat := m.num (a + 8) 8
def objLanded (m : Memory) (a : Nat) : Nat := m.num (a + 16) 8
def objPhase (m : Memory) (a : Nat) : Nat := m.num (a + 24) 4
def objFlags (m : Memory) (a : Nat) : Nat := m.num (a + 28) 4
def objFaulted (m : Memory) (a : Nat) : Bool := (objFlags m a).testBit 0
def objElect (m : Memory) (a : Nat) : Bool := (objFlags m a).testBit 1
def objBound (m : Memory) (a : Nat) : Nat := bitsOf (objFlags m a) 2 7

/-- The flags word of an object; the slice ALU writes its upper bits as zero (R202). -/
def objFlagWord (faulted elect : Bool) (bound : Nat) : Nat :=
  (if faulted then 1 else 0) + (if elect then 2 else 0) + bound % 128 * 4

/-- Whether a phase is complete when the current phase is `phase` (R207). -/
def phaseDone (phase k : Nat) : Bool :=
  let d := (phase + 2 ^ 32 - k % 2 ^ 32) % 2 ^ 32
  decide (1 ≤ d) && decide (d ≤ 2 ^ 31)

/-- A record with nothing in it. -/
def ObjRec.zero (a : Nat) : ObjRec where
  addr := a
  candidate := none
  elected := none
  releases := 0
  counted := []
  landTick := none

/-- The slice ALU's record of an object or lock word (R202). -/
def Context.objRec (c : Context) (a : Nat) : ObjRec := (c.objs.find? fun o => o.addr == a).getD (ObjRec.zero a)

/-- Change the record of an object or lock word. -/
def Context.updObj (c : Context) (a : Nat) (f : ObjRec → ObjRec) : Context :=
  { c with objs := f (c.objRec a) :: c.objs.filter fun o => o.addr != a }

/-- The elected identity of the last completed phase, if any (R206). -/
def State.elected (s : State) (cid a : Nat) : Option W64 := ((s.ctx cid).objRec a).elected

/-! ## Waits -/

/-- A wait on phase `k` of an object completes as an acquire of what was released on it up to that phase, and of every byte
counted into those phases (R68, R79). -/
def State.acquirePhase (s : State) (cid wid a k : Nat) : State :=
  let upTo := fun p => decide ((k + 2 ^ 32 - p % 2 ^ 32) % 2 ^ 32 < 2 ^ 31)
  let lands := (((s.ctx cid).objRec a).counted.filter fun e => upTo e.1).map (·.2)
  (s.acquireOn cid wid a k).acquireLandings cid wid lands

/-- A sub-wave that waits on a completed phase goes on at its continuation counter (R113). -/
def SubWave.wakeAt (a phase : Nat) (q : SubWave) : SubWave :=
  match q.st with
  | .waiting o k cont _ => if o = a ∧ phaseDone phase k.toNat then { q with pc := cont, st := .ready } else q
  | _ => q

/-- The phases of an object that a wave's sub-waves wait on and that are complete. -/
def Wave.wokenBy (w : Wave) (a phase : Nat) : List Nat :=
  w.subs.filterMap fun q =>
    match q.st with
    | .waiting o k _ _ => if o = a ∧ phaseDone phase k.toNat then some k.toNat else none
    | _ => none

/-- Wake every grid waiter whose phase is complete (R113, R203). -/
def State.wakeWaiters (s : State) (a : Nat) : State :=
  let phase := objPhase s.slice a
  s.waves.foldl (fun s w =>
    match w.wokenBy a phase with
    | [] => s
    | ks => ks.foldl (fun s k => s.acquirePhase w.ctx w.id a k)
        (s.updWave w.id fun w => { w with subs := w.subs.map (SubWave.wakeAt a phase) })) s

/-- Complete the phase of an object whose counts are both met (R19, R203). -/
def State.tryComplete (s : State) (cid a : Nat) : State :=
  let m := s.slice
  if objArrived m a = objExpected m a ∧ objLanded m a = objExpbytes m a then
    let m := ((m.setNum (a + 4) 4 0).setNum (a + 16) 8 0).setNum (a + 24) 4 ((objPhase m a + 1) % 2 ^ 32)
    let s := ({ s with slice := m }).updCtx cid fun c =>
      c.updObj a fun o => { o with elected := o.candidate, candidate := none }
    s.wakeWaiters a
  else s

/-! ## The faulted mark (R78, R81, R209) -/

/-- A grid sub-wave parked on a faulted object raises BARRIER_FAULTED at its `waitp`; while its wave is in the handler,
the fault waits in a check of its own. -/
def State.faultWaiter (s : State) (w : Wave) (q : SubWave) (k : W32) (va : W64) (a : Nat) : State :=
  if w.handler.isSome then
    let f := s.fresh
    let u := { mkUnit 0 a 32 false (k.setWidth 64) 0 false with data2 := va }
    let acc : Access :=
      { id := f.1, wave := w.id, ctx := w.ctx, core := w.core, ident := 0, queue := 0, pc := q.pc, kind := .check k, traced := false, slot := 0, acq := false, rel := false,
        scope := 0, inLd := false, inSt := false, sdst := none, vdst := none, quads := q.quads, units := [u] }
    { f.2 with flight := f.2.flight ++ [acc] }.updWave w.id fun w => { w with
      subs := updWhere (fun p => p.quads == q.quads) (fun p => { p with st := .atHome f.1 }) w.subs }
  else s.fault w.id q.quads 0x31 q.pc va

/-- Mark an object faulted: its parked grid waiters are woken into the fault (R78, R209). -/
def State.markFaulted (s : State) (a : Nat) : State :=
  let m := s.slice
  if objFaulted m a then s else
  let s := { s with slice := m.setNum (a + 28) 4 (objFlagWord true (objElect m a) (objBound m a)) }
  s.waves.foldl (fun s w =>
    w.subs.foldl (fun s q =>
      match q.st with
      | .waiting o k _ va =>
        match s.wave? w.id with
        | some w => if o = a then s.faultWaiter w q k va a else s
        | none => s
      | _ => s) s) s

/-! ## Arrivals and byte counts (R19, R78, R205, R206) -/

/-- The candidate after arrivers are offered (R206). -/
def nextCandidate (elect : Bool) (old : Option W64) (idents : List W64) : Option W64 :=
  let top := fun (l : List W64) => l.foldl (fun (b : Option W64) i =>
    match b with
    | none => some i
    | some j => if j.toNat < i.toNat then some i else some j) none
  if idents.isEmpty then old
  else if elect then top (old.toList ++ idents)
  else top idents

/-- An arrival of `n` arrivers, of which `idents` are offered to the election, applied at the home; `rep` is the report
of an overrun (R78).  The phase that counted it is the phase before it. -/
def State.objArrive (s : State) (cid a n : Nat) (idents : List W64) (rep : Rep) : State :=
  let m := s.slice
  if objExpected m a < objArrived m a + n then
    (s.markFaulted a).report cid { rep with code := 0x30, flags := 8, object := a }
  else
    let s := { s with slice := m.setNum (a + 4) 4 (objArrived m a + n) }
    let s := s.updCtx cid fun c => c.updObj a fun o =>
      { o with candidate := nextCandidate (objElect m a) o.candidate idents }
    s.tryComplete cid a

/-- Whether bytes have been counted into an object in this clk: an arrival that reaches its home in the same clk was applied before
them, so one still to be applied comes in a later clk (R19). -/
def State.landedNow (s : State) (a : Nat) : Bool := s.ctxs.any fun c => (c.objRec a).landTick == some s.tick

/-- `n` performed bytes of an engine operation counted into an object (R78, R79): landing number `land`. -/
def State.objLand (s : State) (cid a n land : Nat) (rep : Rep) : State :=
  let m := s.slice
  if objExpbytes m a < objLanded m a + n then
    (s.markFaulted a).report cid { rep with code := 0x30, flags := rep.flags ||| 8, object := a }
  else
    let s := { s with slice := m.setNum (a + 16) 8 (objLanded m a + n) }
    let s := s.updCtx cid fun c => c.updObj a fun o => { o with counted := (objPhase m a, land) :: o.counted, landTick := some s.tick }
    s.tryComplete cid a

/-- Add to the bound field of an object (R202, R210, R211). -/
def State.objBind (s : State) (a : Nat) (up : Bool) : State :=
  let m := s.slice
  let n := if up then objBound m a + 1 else objBound m a - 1
  { s with slice := m.setNum (a + 28) 4 (objFlagWord (objFaulted m a) (objElect m a) n) }

/-! ## `binit` (R204) -/

/-- Whether anyone waits on an object: a parked sub-wave, or a continuation frame (R204). -/
def State.objWaited (s : State) (a : Nat) : Bool :=
  (s.waves.any fun w => w.subs.any fun q =>
    match q.st with
    | .waiting o _ _ _ => o == a
    | _ => false)
  || s.tasks.any fun t =>
    match t.st with
    | .waiting o _ => o == a
    | _ => false

/-- The 32 bytes that `binit` writes (R204). -/
def binitBytes (expected : W32) (expbytes : W64) (det : Bool) : List Byte :=
  leBytes 4 expected.toNat ++ leBytes 4 0 ++ leBytes 8 expbytes.toNat ++ leBytes 8 0 ++ leBytes 4 0
    ++ leBytes 4 (objFlagWord false det 0)

/-- Whether a home refuses a `binit` (R204). -/
def State.binitRefused (s : State) (a : Nat) (expected : W32) (expbytes : W64) : Bool :=
  (expected == 0 && expbytes == 0) || objBound s.slice a != 0 || s.objWaited a

end Sys2Proof.Machine
end

