-- ==== Sys2Proof/Machine/Trace.lean ====
section
/-! DEFINITION. The trace records of Strata (R335 to R352) and one traced step: the tree, its read and write records,
stale marks, the heap, and the bytes that the K9 keeps of them in trace memory.

The records are held as structures; `Trace.image` gives their bytes, which every change writes through the context's
page tables.  DESIGN CHOICE (log 16): a record takes the lowest free aligned run of the heap, where R342 leaves the
place to the K9. -/

namespace Sys2Proof.Machine

/-! ## The heap (R336, R342) -/

/-- First unit of the heap: after the 512-byte header and the root record. -/
def heapFirst : Nat := 36
/-- Unit offset of the root record (R336). -/
def rootOff : Nat := 32

/-- Units of the heap that are free (R337). -/
def Trace.freeUnits (t : Trace) : Nat := t.len / 16 - heapFirst - (t.used.map (·.2)).sum

/-- The first place at or after `from_`, a multiple of `align`, where `n` units fit between used runs that rise. -/
def fitAt (n align from_ : Nat) : List (Nat × Nat) → Nat
  | [] => roundUp from_ align
  | u :: t => if roundUp from_ align + n ≤ u.1 then roundUp from_ align else fitAt n align (max from_ (u.1 + u.2)) t

/-- Insert a run into the list of used runs, which rises. -/
def insertRun (r : Nat × Nat) : List (Nat × Nat) → List (Nat × Nat)
  | [] => [r]
  | u :: t => if r.1 < u.1 then r :: u :: t else u :: insertRun r t

/-- Allocate a run of `n` units aligned on `align` (R342). -/
def Trace.alloc (t : Trace) (n align : Nat) : Option (Nat × Trace) :=
  let a := fitAt n align heapFirst t.used
  if a + n ≤ t.len / 16 then some (a, { t with used := insertRun (a, n) t.used }) else none

/-- Return a run to the heap (R342). -/
def Trace.release (t : Trace) (a : Nat) : Trace := { t with used := t.used.filter fun u => u.1 != a }

/-! ## The tree (R338, R348, R352) -/

/-- The task record at an offset. -/
def Trace.task? (t : Trace) (off : Nat) : Option TTask := t.tasks.find? fun x => x.off == off

/-- Change a task record. -/
def Trace.updTask (t : Trace) (off : Nat) (f : TTask → TTask) : Trace :=
  { t with tasks := updWhere (fun x => x.off == off) f t.tasks }

/-- The strict ancestors of a task, nearest first; a tree is at most 64 deep (R348). -/
def Trace.ancestors (t : Trace) : Nat → Nat → List Nat
  | 0, _ => []
  | n + 1, off =>
    match t.task? off with
    | none => []
    | some x => if x.parent = 0 then [] else x.parent :: t.ancestors n x.parent

/-- Raise or lower the stale counts of a task's strict ancestors (R352). -/
def Trace.bumpAncestors (t : Trace) (off : Nat) (up : Bool) : Trace :=
  (t.ancestors 70 off).foldl (fun t a => t.updTask a fun x => { x with scount := if up then x.scount + 1 else x.scount - 1 }) t

/-- Mark one task stale, when it is not (R352). -/
def Trace.markTask (t : Trace) (off : Nat) : Trace :=
  match t.task? off with
  | some x => if x.stale then t else (t.updTask off fun x => { x with stale := true }).bumpAncestors off true
  | none => t

/-- Clear a task's stale flag (R354, R356): each strict ancestor's count falls. -/
def Trace.clean (t : Trace) (off : Nat) : Trace :=
  match t.task? off with
  | some x =>
    if x.stale then (t.updTask off fun x => { x with stale := false, new_ := false }).bumpAncestors off false
    else t.updTask off fun x => { x with new_ := false }
  | none => t

/-- The region and word of a slice address, as a record names it (R339, R341). -/
def Trace.wordOf (t : Trace) (a : Nat) : Option Nat :=
  (List.range t.regions.length).findSome? fun i =>
    match t.regions[i]? with
    | some r => if r.base ≤ a ∧ a < r.base + r.len then some (i * 2 ^ 28 + (a - r.base) / 4) else none
    | none => none

/-- The slice address of a word. -/
def Trace.addrOf (t : Trace) (word : Nat) : Nat :=
  ((t.regions[word / 2 ^ 28]?).map fun r => r.base + 4 * (word % 2 ^ 28)).getD 0

/-- The writer of a word, 0 for none (R340). -/
def Trace.writerOf (t : Trace) (word : Nat) : Nat := sget 0 t.writers word

/-- Mark stale the readers of a word other than a task (R352). -/
def Trace.markReaders (t : Trace) (word except_ : Nat) : Trace :=
  (t.reads.filter fun r => r.word.toNat == word && r.task != except_).foldl (fun t r => t.markTask r.task) t

/-- Record a traced read of a word by a task: at most one record (R340, R349); none when the heap is full. -/
def Trace.recordRead (t : Trace) (task word : Nat) : Option Trace :=
  if t.reads.any fun r => r.task == task && r.word.toNat == word then some t else
  match t.alloc 1 1 with
  | some (off, t) => some { t with reads := ⟨off, task, BitVec.ofNat 32 word⟩ :: t.reads }
  | none => none

/-- Add a write record (R339). -/
def Trace.recordWrite (t : Trace) (task word : Nat) (old new_ : W32) : Option Trace :=
  match t.alloc 2 2 with
  | some (off, t) =>
    some { t with
      writes := ⟨off, task, BitVec.ofNat 32 word, old, new_, 0⟩ :: t.writes
      writers := sset 0 word task t.writers }
  | none => none

/-- Whether `off` is the task or one of its descendants in the old subtree list. -/
def Trace.under (t : Trace) (roots : List Nat) (off : Nat) : Bool :=
  roots.contains off || (t.ancestors 70 off).any roots.contains

/-- What a traced write of a recorded task does at the word's home (R350, R357). -/
inductive WriteFate where
  | done (t : Trace)
  | refused
  | full
  deriving DecidableEq, Repr

/-- The trace after a traced write by the task `task` of a word that held `old` (R350, R357). -/
def Trace.taskWrite (t : Trace) (task word : Nat) (old new_ : W32) : WriteFate :=
  let mark := fun (t : Trace) => if old = new_ then t else t.markReaders word task
  let w := t.writerOf word
  let mine := fun (r : TWrite) => r.task == task && r.word.toNat == word && r.held != 2
  if w = 0 then
    match t.recordWrite task word old new_ with
    | some t => .done (mark t)
    | none => .full
  else if w = task then
    .done (mark { t with writes := updWhere mine (fun r => { r with new_ := new_, held := 0 }) t.writes })
  else
    match t.walk with
    | some k =>
      if t.under k.oldChildren w then
        let prev := t.writes.find? fun r => r.task == w && r.word.toNat == word && r.held != 2
        let t := { t with
          writes := updWhere (fun r => r.task == w && r.word.toNat == word && r.held != 2) (fun r => { r with held := 2 })
            t.writes }
        match t.recordWrite task word ((prev.map (·.old)).getD old) new_ with
        | some t => .done (mark t)
        | none => .full
      else .refused
    | none => .refused

/-- Raise count `i` of the last propagation (R337): 0 rerun, 1 spliced, 2 discarded, 3 created, 4 reverted. -/
def Trace.bump (t : Trace) (i n : Nat) : Trace := { t with counts := t.counts.mapIdx fun j c => if j = i then c + n else c }

/-! ## The bytes in trace memory (R337 to R341) -/

/-- The next element after each of a list whose element satisfies nothing else: offset of the successor of `x`. -/
def nextOff (l : List Nat) (x : Nat) : Nat := ((l.drop (l.idxOf x + 1)).head?).getD 0

/-- Header bytes 0 to 63 (R337). -/
def Trace.header (t : Trace) : List Byte :=
  let stale := ((t.task? rootOff).map (·.scount)).getD 0
  leBytes 4 t.state ++ leBytes 4 t.result ++ leBytes 8 t.len ++ leBytes 4 (t.tasks.length - 1) ++ leBytes 4 t.reads.length
    ++ leBytes 4 t.writes.length ++ leBytes 4 stale ++ (List.range 5).flatMap (fun i => leBytes 4 (t.counts.getD i 0))
    ++ leBytes 4 t.freeUnits ++ leBytes 4 t.regions.length
    ++ leBytes 4 (if t.state = 3 then ((t.walk.map (·.visit)).getD 0) else 0)

/-- A region entry (R341). -/
def TRegion.bytes (r : TRegion) : List Byte := leBytes 8 r.base ++ leBytes 4 r.len ++ leBytes 4 r.shadow

/-- A task record's bytes (R338). -/
def Trace.taskBytes (t : Trace) (x : TTask) : List Byte :=
  let sibs := ((t.task? x.parent).map (·.children)).getD []
  leBytes 4 x.parent ++ leBytes 4 (x.children.headD 0) ++ leBytes 4 (if x.parent = 0 then 0 else nextOff sibs x.off)
    ++ leBytes 4 (x.children.getLast?.getD 0) ++ leBytes 8 x.entry.toNat
    ++ (List.range 4).flatMap (fun i => leBytes 4 (x.args.getD i 0).toNat) ++ leBytes 8 x.key.toNat
    ++ leBytes 4 (((t.reads.find? fun r => r.task == x.off).map (·.off)).getD 0)
    ++ leBytes 4 (((t.writes.find? fun r => r.task == x.off).map (·.off)).getD 0) ++ leBytes 4 x.scount
    ++ leBytes 4 ((if x.stale then 1 else 0) + (if x.new_ then 2 else 0) + (if x.ended then 4 else 0)
        + (if x.off = rootOff then 8 else 0) + 16 * x.depth)

/-- The offset of the next record of the same task or word after `off` in a list of records. -/
def nextIn (l : List (Nat × Nat)) (off key : Nat) : Nat := nextOff ((l.filter fun p => p.2 == key).map (·.1)) off

/-- The words that have a reader or a writer (R340). -/
def Trace.words (t : Trace) : List Nat := ((t.reads.map (·.word.toNat)) ++ t.writers.map (·.1)).eraseDups

/-- The byte offset of a word's shadow (R341). -/
def Trace.shadowAt (t : Trace) (w : Nat) : Option Nat :=
  (t.regions[w / 2 ^ 28]?).map fun r => 16 * r.shadow + 8 * (w % 2 ^ 28)

/-- The region entries of the header, zero where none is declared (R337, R341). -/
def Trace.regtab (t : Trace) : List Byte :=
  t.regions.flatMap TRegion.bytes ++ List.replicate (256 - 16 * t.regions.length) 0

/-- Every structure of the trace with its byte offset and bytes (R337 to R341). -/
def Trace.image (t : Trace) : List (Nat × List Byte) :=
  let byTask := t.reads.map fun r => (r.off, r.task)
  let byWord := t.reads.map fun r => (r.off, r.word.toNat)
  let wByTask := t.writes.map fun r => (r.off, r.task)
  [(0, t.header), (64, t.regtab)]
    ++ (t.tasks.map fun x => (16 * x.off, t.taskBytes x))
    ++ (t.reads.map fun r => (16 * r.off, leBytes 4 r.task ++ leBytes 4 (nextIn byTask r.off r.task)
          ++ leBytes 4 (nextIn byWord r.off r.word.toNat) ++ leBytes 4 r.word.toNat))
    ++ (t.writes.map fun r => (16 * r.off, leBytes 4 r.task ++ leBytes 4 (nextIn wByTask r.off r.task)
          ++ leBytes 4 r.word.toNat ++ leBytes 4 0 ++ leBytes 4 r.old.toNat ++ leBytes 4 r.new_.toNat ++ leBytes 8 0))
    ++ (t.words.filterMap fun w => (t.shadowAt w).map fun a => (a,
          leBytes 4 (((t.reads.find? fun x => x.word.toNat == w).map (·.off)).getD 0) ++ leBytes 4 (t.writerOf w)))

/-- The words whose shadows memory may hold. -/
def Trace.shadowed (t : Trace) : List Nat := (t.words ++ t.unclear).eraseDups

/-- The shadows of the words that a trace had, as zeros: written before the next image, which lists those still in use. -/
def Trace.cleared (t : Trace) : List (Nat × List Byte) :=
  t.shadowed.filterMap fun w => (t.shadowAt w).map fun a => (a, List.replicate 8 0)

/-- External memory after bytes have been written at byte offsets from the base of trace memory; or the address whose page fails its
walk (R336). -/
def State.traceMem (s : State) (c : Context) (base : Nat) : List (Nat × List Byte) → Memory → Except Nat Memory
  | [], m => .ok m
  | e :: l, m =>
    match s.walk (s.homeDie c) c (base + e.1) with
    | some (pa, pte) => if pte.write then s.traceMem c base l (m.setBytes pa e.2) else .error (base + e.1)
    | none => .error (base + e.1)

/-- Write bytes of trace memory, at byte offsets from its base; or the address whose page fails its walk (R336). -/
def State.writeTraceBytes (s : State) (cid base : Nat) (l : List (Nat × List Byte)) : Except Nat State :=
  let c := s.ctx cid
  match s.traceMem c base l s.ext with
  | .error a => .error a
  | .ok m => .ok (l.foldl (fun (s : State) e => s.tlbFill (s.homeDie c) c (base + e.1)) { s with ext := m })

/-- Write a trace's structures to trace memory; or the address whose page fails its walk (R336). -/
def State.writeTrace (s : State) (cid : Nat) (t : Trace) : Except Nat State :=
  s.writeTraceBytes cid t.base ((s.ctx cid).trace.cleared ++ t.image)

/-- A report of Strata, with the propagation's issuer and object, where one is under way (R367). -/
def Trace.rep (t : Trace) (code addr : Nat) : Rep :=
  let by_ := t.walk.map (·.by_)
  { code := code, source := 3, object := (t.walk.map (·.obj)).getD 0, address := addr, issuer := by_.map (·.ident),
    pc := by_.map (·.pc), queue := by_.map fun i => i.queueField (dieOf i.core) 0 }

/-- Replace a context's trace and write it through; where a page fails, the unit reports and waits, and writes it once the host has
resumed it (R336). -/
def State.setTrace (s : State) (cid : Nat) (t : Trace) : State :=
  let old := (s.ctx cid).trace
  let keep := fun (s : State) => s.updCtx cid fun c => { c with trace := { t with stalled := true, unclear := old.shadowed } }
  if t.stalled then keep s else
  match s.writeTrace cid t with
  | .ok s => s.updCtx cid fun c => { c with trace := { t with unclear := [] } }
  | .error a => (keep s).report cid (t.rep 0xA1 a)

/-- Faults of Strata that make the trace invalid, at some addresses (R342, R357, R367): each is reported with the propagation's issuer and
object, a walk stops, and the object of the propagation is marked faulted (R358). -/
def State.traceFail (s : State) (cid code : Nat) (addrs : List Nat) : State :=
  let t := (s.ctx cid).trace
  let s := s.setTrace cid { t with state := 4, result := code, fullRec := code == 0x64 && t.state == 1, walk := none }
  let s := match t.walk with
    | some k => s.markFaulted k.obj
    | none => s
  addrs.foldl (fun (s : State) a => s.report cid { t.rep code a with flags := if t.walk.isSome then 8 else 0 }) s

/-- TRACE_FULL (R342). -/
def State.traceFull (s : State) (cid addr : Nat) : State := s.traceFail cid 0x64 [addr]

/-- Whether the accesses of a task record are recorded now (R335, R347): any recorded task while recording, the task
being re-executed while propagating. -/
def Trace.records (t : Trace) (off : Nat) : Bool :=
  decide (off ≠ 0) && (t.state == 1 || (t.state == 3 && (t.walk.bind (·.cur)) == some off))

/-- One traced read of a word by a task record (0 for none): the trace after it, within the word's order of steps
(R343, R349). -/
def State.tracedRead (s : State) (cid off a : Nat) : State :=
  let t := (s.ctx cid).trace
  if t.records off then
    match t.wordOf a with
    | none => s
    | some w =>
      match t.recordRead off w with
      | some t' => (s.setTrace cid t').count cid 10 (t'.reads.length - t.reads.length)
      | none => s.traceFull cid a
  else s

/-- One traced write of a word by a task record (0 for none), performed at the word's home (R343, R344, R350, R357);
the second part says whether the writer test refused it. -/
def State.tracedWrite (s : State) (cid : Nat) (by_ : Writer) (off a : Nat) (v : W32) : State × Bool :=
  let t := (s.ctx cid).trace
  let old := BitVec.ofNat 32 (s.slice.num a 4)
  let put := fun (s : State) => s.perform cid by_ a (leBytes 4 v.toNat)
  match t.wordOf a with
  | none => (put s, false)
  | some w =>
    if t.records off then
      match t.taskWrite off w old v with
      | .done t => ((put s).setTrace cid t, false)
      | .refused => (s, true)
      | .full => ((put s).traceFull cid a, false)
    else
      let marks := decide (old ≠ v) && (t.state == 1 || t.state == 2 || t.state == 3)
      let s := put s
      (if marks then s.setTrace cid (t.markReaders w 0) else s, false)

end Sys2Proof.Machine
end

