-- ==== Sys2Proof/Machine/MemV.lean ====
section
/-! DEFINITION. Vector memory (R190 to R195): the loads and stores of the lanes, and the steps in which they are
performed at their homes (R61, R62, R142, R193, R194, R343). -/

namespace Sys2Proof.Machine

/-! ## Lane addresses and their checks -/

/-- Addr(L) of a MEMV instruction (R190).  DEDUCED (log 17): a sum beyond 64 bits keeps its low 64 bits. -/
def Wave.vaddr (w : Wave) (sl : W32) (b : BitVec 6) (x : BitVec 7) (c : BitVec 2) (lane : Nat) : W64 :=
  w.s b.toNat + ((w.opnd sl x.toNat lane).setWidth 64) <<< c.toNat

/-- What the checks of R191 found for a lane. -/
structure LaneAddr where
  lane : Nat
  /-- The address as the lane gave it. -/
  va : W64
  /-- The slice address of its location and whether the window named it, or the fault code. -/
  at_ : Except Nat (Nat × Bool)

/-- The checks of R191 for one lane: items 1 to 3, then item 4 for an access that writes plainly. -/
def State.checkLane (s : State) (w : Wave) (size : Nat) (plainWrite : Bool) (lane : Nat) (va : W64) : LaneAddr :=
  let r := s.checkAddr w va.toNat size size
  { lane := lane
    va := va
    at_ := match r with
      | .ok p => if plainWrite && (s.ctx w.ctx).modifiable p.1 size then .error 0x60 else r
      | .error e => .error e }

/-- The first Active lane that met a condition, with its code and address (R191): a helper's is never raised. -/
def laneFault (w : Wave) (ls : List LaneAddr) : Option (Nat × W64) :=
  ls.findSome? fun x =>
    match x.at_ with
    | .error e => if w.isWorking x.lane then some (e, x.va) else none
    | .ok _ => none

/-- The address of the first Active lane whose word has an uncorrectable ECC error (R226). -/
def State.eccFault (s : State) (w : Wave) (ls : List LaneAddr) (size : Nat) : Option W64 :=
  ls.findSome? fun x =>
    match x.at_ with
    | .ok p => if w.isWorking x.lane && s.eccBad.any (fun e => overlap p.1 size e 8) then some x.va else none
    | .error _ => none

/-! ## The traced forms (R193, R344, R349) -/

/-- The task record for which a lane of a wave records its traced accesses, 0 for none (R347, R349). -/
def Wave.traceOf (w : Wave) (lane : Nat) : Nat := ((w.taskOf lane).map (·.trace)).getD 0

/-- The recording fault of a traced access (R344, R349), for the lowest lane that has one: a read by a recorded task that
has spawned, or an input write in the propagating state.  `owner` gives the lane whose task an access belongs to. -/
def State.traceFault (s : State) (w : Wave) (write : Bool) (ls : List LaneAddr) (size : Nat) (owner : Nat → Nat) :
    Option (Nat × W64) :=
  let c := s.ctx w.ctx
  ls.findSome? fun x =>
    match x.at_ with
    | .ok p =>
      if !(w.isWorking x.lane) || !(c.modifiable p.1 size) then none else
      let off := w.traceOf (owner x.lane)
      if write then
        if c.trace.state = 3 && !(c.trace.records off) then some (0x65, x.va) else none
      else if c.trace.records off && ((w.taskOf (owner x.lane)).map (·.spawned)).getD false then some (0x67, x.va)
      else none
    | .error _ => none

/-! ## Issue -/

/-- The units of a lane of an element: one, or two halves of 8 bytes (R62).  `data` gives register `d + k` of the lane. -/
def laneUnits (x : LaneAddr) (size d : Nat) (helper : Bool) (data : Nat → W32) : List AccUnit :=
  match x.at_ with
  | .error _ => []
  | .ok p =>
    let one := fun (k sz : Nat) =>
      { mkUnit x.lane (p.1 + 4 * k) sz p.2 ((data (d + k + 1)) ++ (data (d + k))) (d + k) helper with data2 := x.va }
    if size = 16 then [one 0 8, one 2 8] else [one 0 size]

/-- An access of the issuing sub-wave with nothing set but what every access has. -/
def mkAccess (id : Nat) (w : Wave) (q : SubWave) (sl : W32) (kind : AccKind) (o : Ordering_) (units : List AccUnit) :
    Access where
  id := id
  wave := w.id
  ctx := w.ctx
  core := w.core
  ident := w.reportIdent q.quads
  queue := w.reportQueue
  pc := q.pc
  kind := kind
  traced := false
  slot := sl
  acq := o.acq
  rel := o.rel
  scope := slScope sl
  inLd := false
  inSt := false
  sdst := none
  vdst := none
  quads := q.quads
  units := units

/-- The lanes of a MEMV instruction with their addresses, checked in ascending order (R191). -/
def State.vmemLanes (s : State) (w : Wave) (q : SubWave) (sl : W32) (b : BitVec 6) (x : BitVec 7) (c : BitVec 2)
    (size : Nat) (plainWrite : Bool) : List LaneAddr :=
  (lanesOf (w.activeH q sl)).map fun l => s.checkLane w size plainWrite l (w.vaddr sl b x c l)

/-- A vector load (R190 to R194): the checks, then one unit for each lane of ActiveH; a helper whose address meets a
condition takes zero. -/
def State.vload (s : State) (m : BitVec 2) (d : BitVec 7) (b : BitVec 6) (x : BitVec 7) (c : BitVec 2) (size : Nat)
    (traced : Bool) : State :=
  s.vec m [d, x] (fun _ => true) fun w q sl =>
    let ls := s.vmemLanes w q sl b x c size false
    match laneFault w ls with
    | some e => s.raise w q e.1 e.2
    | none =>
    match (if traced then s.traceFault w false ls size id else none) with
    | some e => s.raise w q e.1 e.2
    | none =>
    match s.eccFault w ls size with
    | some va => s.raise w q 0x28 va
    | none =>
      let o := loadOrder (slOrder sl)
      let units := ls.flatMap fun l => laneUnits l size d.toNat (!w.isWorking l.lane) (fun _ => 0)
      let signed := typeSigned (slType sl)
      let bad := fun l => ls.any fun y => y.lane == l &&
        (match y.at_ with
         | .error _ => true
         | .ok _ => false)
      let w' := (List.range (max 1 (size / 4))).foldl (fun w k => w.writeLanes (d.toNat + k) bad fun _ => 0) w
      let any := ls.any fun l => w.isWorking l.lane
      ((s.mismatch w.ctx o.mismatch).launch w fun id =>
        { mkAccess id w q sl (.load signed false) o units with traced := traced, inLd := any, vdst := some d.toNat }).retire w'

/-- A vector store (R190 to R192): the checks, then one unit for each Active lane.  A traced store to a modifiable region
of a recording or propagating trace holds the wave until every step has been applied (R350). -/
def State.vstore (s : State) (m : BitVec 2) (d : BitVec 7) (b : BitVec 6) (x : BitVec 7) (c : BitVec 2) (size : Nat)
    (traced : Bool) : State :=
  s.vec m [d, x] (fun _ => true) fun w q sl =>
    let ls := s.vmemLanes w q sl b x c size (!traced)
    match laneFault w ls with
    | some e => s.raise w q e.1 e.2
    | none =>
    match (if traced then s.traceFault w true ls size id else none) with
    | some e => s.raise w q e.1 e.2
    | none =>
      let o := storeOrder (slOrder sl)
      let mine := ls.filter fun l => w.isWorking l.lane
      let units := mine.flatMap fun l => laneUnits l size d.toNat false fun r => w.v r l.lane
      let t := (s.ctx w.ctx).trace.state
      let hold := traced && (t == 1 || t == 3) && units.any fun u => (s.ctx w.ctx).modifiable u.addr u.size
      let s' := (s.mismatch w.ctx o.mismatch).launch w fun id =>
        { mkAccess id w q sl .store o units with traced := traced, inSt := true }
      if hold then s'.put { w with wait := .home s.nextId, lastIssue := s.tick } else s'.retire w

/-- `vld` (R192). -/
def execVld (m : BitVec 2) (d : BitVec 7) (b : BitVec 6) (x : BitVec 7) (c : BitVec 2) (s : State) : Out :=
  .next (s.vload m d b x c 4 false)
/-- `vld8` (R192). -/
def execVld8 (m : BitVec 2) (d : BitVec 7) (b : BitVec 6) (x : BitVec 7) (c : BitVec 2) (s : State) : Out :=
  .next (s.vload m d b x c 1 false)
/-- `vld16` (R192). -/
def execVld16 (m : BitVec 2) (d : BitVec 7) (b : BitVec 6) (x : BitVec 7) (c : BitVec 2) (s : State) : Out :=
  .next (s.vload m d b x c 2 false)
/-- `vld64` (R192). -/
def execVld64 (m : BitVec 2) (d : BitVec 7) (b : BitVec 6) (x : BitVec 7) (c : BitVec 2) (s : State) : Out :=
  .next (s.vload m d b x c 8 false)
/-- `vld128` (R192). -/
def execVld128 (m : BitVec 2) (d : BitVec 7) (b : BitVec 6) (x : BitVec 7) (c : BitVec 2) (s : State) : Out :=
  .next (s.vload m d b x c 16 false)
/-- `vst` (R192). -/
def execVst (m : BitVec 2) (d : BitVec 7) (b : BitVec 6) (x : BitVec 7) (c : BitVec 2) (s : State) : Out :=
  .next (s.vstore m d b x c 4 false)
/-- `vst8` (R192). -/
def execVst8 (m : BitVec 2) (d : BitVec 7) (b : BitVec 6) (x : BitVec 7) (c : BitVec 2) (s : State) : Out :=
  .next (s.vstore m d b x c 1 false)
/-- `vst16` (R192). -/
def execVst16 (m : BitVec 2) (d : BitVec 7) (b : BitVec 6) (x : BitVec 7) (c : BitVec 2) (s : State) : Out :=
  .next (s.vstore m d b x c 2 false)
/-- `vst64` (R192). -/
def execVst64 (m : BitVec 2) (d : BitVec 7) (b : BitVec 6) (x : BitVec 7) (c : BitVec 2) (s : State) : Out :=
  .next (s.vstore m d b x c 8 false)
/-- `vst128` (R192). -/
def execVst128 (m : BitVec 2) (d : BitVec 7) (b : BitVec 6) (x : BitVec 7) (c : BitVec 2) (s : State) : Out :=
  .next (s.vstore m d b x c 16 false)
/-- `vldm` (R193). -/
def execVldm (m : BitVec 2) (d : BitVec 7) (b : BitVec 6) (x : BitVec 7) (c : BitVec 2) (s : State) : Out :=
  .next (s.vload m d b x c 4 true)
/-- `vstm` (R193). -/
def execVstm (m : BitVec 2) (d : BitVec 7) (b : BitVec 6) (x : BitVec 7) (c : BitVec 2) (s : State) : Out :=
  .next (s.vstore m d b x c 4 true)

/-! ## Performing the units -/

/-- Write a register lane of a wave when a load returns; a register of an extended block that has been returned is not
written. -/
def Wave.deliver (w : Wave) (r lane : Nat) (v : W32) : Wave := if isExtended r && !w.ext then w else w.setV r lane v

/-- The value of a narrow element, extended (R190). -/
def extendTo (signed : Bool) (size v : Nat) : Nat := ofInt 64 (toInt (signed && decide (size < 4)) (8 * size) v)

/-- A wave with what a load unit read (R190, R198). -/
def Wave.takeLoad (w : Wave) (a : Access) (u : AccUnit) (v : Nat) : Wave :=
  match a.sdst with
  | some d =>
    if a.traced && u.size == 4 then
      let half := BitVec.ofNat 64 (v % 2 ^ 32)
      w.setS d (if u.reg = 0 then (w.s d &&& 0xFFFFFFFF00000000#64) ||| half
        else (w.s d &&& 0x00000000FFFFFFFF#64) ||| half <<< 32)
    else w.setS d (BitVec.ofNat 64 v)
  | none =>
    let x := match a.kind with
      | .load signed _ => extendTo signed u.size v
      | _ => v
    let w := w.deliver u.reg u.lane (BitVec.ofNat 32 x)
    if u.size = 8 then w.deliver (u.reg + 1) u.lane (BitVec.ofNat 32 (x / 2 ^ 32)) else w

/-- The task record to which a traced unit belongs: its lane's task, or for a scalar access that of the lowest Active
lane, which the unit holds as its lane (R349). -/
def State.unitTrace (s : State) (a : Access) (u : AccUnit) : Nat :=
  match s.wave? a.wave with
  | some w => if u.helper then 0 else w.traceOf u.lane
  | none => 0

/-- The words of a unit: its address and that of its second word (R343). -/
def AccUnit.words (u : AccUnit) : List Nat := (List.range ((u.size + 3) / 4)).map fun k => u.addr + 4 * k

/-- The wave whose instruction a home has answered goes on (R453). -/
def Wave.answered (w : Wave) (quads : BitVec 8) : Wave :=
  { w with
    wait := .none
    subs := updWhere (fun q => q.quads == quads) (fun q => { q with pc := q.pc + 4, st := .ready }) w.subs }

/-- Whether a wave waits, wave-wide, for the home to answer an access. -/
def Wave.awaits (w : Wave) (acc : Nat) : Bool := decide (w.wait = .home acc)

/-- After a unit of an access is done: a wave held for the access goes on when every unit is done, or takes
MODIFIABLE_REWRITE for the lowest lane that a home refused (R350). -/
def State.settle (s : State) (acc : Nat) : State :=
  match s.access? acc with
  | none => s
  | some a =>
    if !a.finished then s else
    match s.wave? a.wave with
    | none => s
    | some w =>
      if !(w.awaits acc) then s else
      match a.units.find? fun u => u.value == 1 && a.traced with
      | some u => s.fault w.id a.quads 0x61 a.pc u.data2
      | none => s.updWave w.id fun w => w.answered a.quads

/-- WRITE_PERFORMED (R142, R192). A store's unit is performed at its home, or held at the core for a bound region. -/
def execWritePerformed (acc unit : Nat) (s : State) : Out :=
  .next (
    match s.access? acc with
    | none => s
    | some a =>
      match a.units[unit]?, a.kind with
      | some u, .store =>
        if !(s.unitReady a unit) || (a.traced && (s.ctx a.ctx).modifiable u.addr u.size) then s else
        let s := s.storeAs a.ctx a.wave u.addr (leBytes u.size u.data.toNat)
        ((s.updUnit acc unit fun u => { u with done := true }).settle acc).retireAccesses
      | _, _ => s)

/-- Keep a value that a load took, for every unit of the load that names the same location (R61). -/
def State.keepValue (s : State) (acc : Nat) (u : AccUnit) (v : Nat) : State :=
  let f := fun (x : AccUnit) => if x.addr = u.addr ∧ x.size = u.size ∧ x.done = false then
    { x with taken := true, value := BitVec.ofNat 64 v } else x
  { s with flight := updWhere (fun a => a.id == acc) (fun a => { a with units := a.units.map f }) s.flight }

/-- TRACED_ACCESS_STEP (R343). A traced access to a modifiable region is applied with its shadow's update at the word's
home, one word at a time; a value taken waits for its sector (R194); a refused write marks its unit (R350). -/
def execTracedAccessStep (acc unit : Nat) (s : State) : Out :=
  .next (
    match s.access? acc with
    | none => s
    | some a =>
      match a.units[unit]? with
      | some u =>
        if u.taken || !(s.unitReady a unit) || !(a.traced && (s.ctx a.ctx).modifiable u.addr u.size) || (s.ctx a.ctx).trace.stalled then s else
        let off := s.unitTrace a u
        match a.kind with
        | .load .. =>
          let v := s.slice.num u.addr u.size
          let same := a.units.filter fun x => x.addr == u.addr && x.size == u.size
          let s := same.foldl (fun s x => x.words.foldl (fun s y => s.tracedRead a.ctx (s.unitTrace a x) y) s) s
          s.keepValue acc u v
        | .store =>
          let r := (List.range u.words.length).foldl (fun (r : State × Bool) k =>
            let x := r.1.tracedWrite a.ctx (.ofWave a.wave) off (u.addr + 4 * k) (BitVec.ofNat 32 (u.data.toNat / 2 ^ (32 * k)))
            (x.1, r.2 || x.2)) (s, false)
          ((r.1.updUnit acc unit fun u => { u with done := true, value := if r.2 then 1 else 0 }).settle acc).retireAccesses
        | _ => s
      | none => s)

end Sys2Proof.Machine
end

