-- ==== Sys2Proof/Machine/MemS.lean ====
section
/-! DEFINITION. Scalar memory and synchronisation (R196 to R217): what each instruction checks and puts in flight.  The
steps at the homes stand in Atom.lean, Barrier.lean and MemV.lean. -/

namespace Sys2Proof.Machine

/-- The address of a MEMS instruction (R196): s[base] + SignExt(offset, 9) times the scale of R86. -/
def Wave.saddr (w : Wave) (b : BitVec 6) (o : BitVec 9) (scale : Nat) : W64 :=
  w.s b.toNat + o.signExtend 64 * BitVec.ofNat 64 scale

/-- The lowest Active lane; 32, which no lane has, when there is none. -/
def Wave.lowActive (w : Wave) (q : SubWave) (sl : W32) : Nat := (w.leader q sl).getD 32

/-- Whether a MEMS instruction does nothing for want of an Active lane (R197).  `perLane` marks the six that act per
Active lane in a task wave; every other acts once there, whatever the guard (log 18). -/
def Wave.idle (w : Wave) (q : SubWave) (sl : W32) (perLane : Bool) : Bool :=
  (w.leader q sl).isNone && (!w.task || perLane)

/-- How a MEMS instruction treats its address: its scale, size and alignment, whether item 4 of R191 or R346 applies, and
whether it reads the word (R226). -/
structure SForm where
  scale : Nat
  size : Nat
  writes : Bool
  reads : Bool

/-- The checks of R191 items 1 to 4 and of R226 on A. -/
def State.checkScalar (s : State) (w : Wave) (f : SForm) (va : W64) : Except Nat (Nat × Bool) :=
  match s.checkAddr w va.toNat f.size f.size with
  | .error e => .error e
  | .ok p =>
    if f.writes && (s.ctx w.ctx).modifiable p.1 f.size then .error 0x60
    else if f.reads && s.eccBad.any (fun e => overlap p.1 f.size e 8) then .error 0x28
    else .ok p

/-- A MEMS instruction of the issuing wave: `k` goes on with the slot, A, and what A names (R196, R197). -/
def State.mems (s : State) (m : BitVec 2) (b : BitVec 6) (o : BitVec 9) (f : SForm) (perLane : Bool)
    (k : Wave → SubWave → W32 → W64 → Nat × Bool → State) : State :=
  s.onIssuer fun w q =>
    let sl := w.slotOf m.toNat
    if w.idle q sl perLane then s.retire w else
    let va := w.saddr b o f.scale
    match s.checkScalar w f va with
    | .error e => s.raise w q e va
    | .ok p => k w q sl va p

/-- One unit at A for the lowest Active lane. -/
def scalarUnit (w : Wave) (q : SubWave) (sl : W32) (va : W64) (p : Nat × Bool) (size : Nat) (data : W64) : AccUnit :=
  { mkUnit (w.lowActive q sl) p.1 size p.2 data 0 false with data2 := va }

/-! ## Plain accesses and atomics (R198, R199) -/

/-- The units of a traced scalar access: two words when the bytes lie in a modifiable region (R343). -/
def State.pairUnits (s : State) (w : Wave) (q : SubWave) (sl : W32) (va : W64) (p : Nat × Bool) (data : W64) :
    List AccUnit :=
  let u := scalarUnit w q sl va p 8 data
  if (s.ctx w.ctx).modifiable p.1 8 then
    [{ u with size := 4 }, { u with size := 4, addr := p.1 + 4, data := data >>> 32, data2 := va + 4, reg := 1 }]
  else [u]

/-- The words of a traced scalar access as the lanes of R349 and R344: both belong to the lowest Active lane's task. -/
def State.pairFault (s : State) (w : Wave) (q : SubWave) (sl : W32) (write : Bool) (va : W64) (p : Nat × Bool) :
    Option (Nat × W64) :=
  let lane := (w.lowestWorking q.quads).getD 0
  s.traceFault w write [⟨lane, va, .ok p⟩, ⟨lane, va + 4, .ok (p.1 + 4, p.2)⟩] 4 fun _ => w.lowActive q sl

/-- A scalar load (R198). -/
def State.sload (s : State) (d b : BitVec 6) (m : BitVec 2) (o : BitVec 9) (size : Nat) (traced : Bool) : State :=
  s.mems m b o ⟨size, size, false, true⟩ false fun w q sl va p =>
    match (if traced then s.pairFault w q sl false va p else none) with
    | some e => s.raise w q e.1 e.2
    | none =>
      let or_ := loadOrder (slOrder sl)
      let units := if traced then s.pairUnits w q sl va p 0 else [scalarUnit w q sl va p size 0]
      ((s.mismatch w.ctx or_.mismatch).launch w fun id =>
        { mkAccess id w q sl (.load false true) or_ units with traced := traced, inLd := true, sdst := some d.toNat }).retire w

/-- A scalar store (R198); a traced one to a modifiable region of a recording or propagating trace holds the wave (R350). -/
def State.sstore (s : State) (d b : BitVec 6) (m : BitVec 2) (o : BitVec 9) (size : Nat) (traced : Bool) : State :=
  s.mems m b o ⟨size, size, !traced, false⟩ false fun w q sl va p =>
    match (if traced then s.pairFault w q sl true va p else none) with
    | some e => s.raise w q e.1 e.2
    | none =>
      let or_ := storeOrder (slOrder sl)
      let units := if traced then s.pairUnits w q sl va p (w.s d.toNat) else [scalarUnit w q sl va p size (w.s d.toNat)]
      let t := (s.ctx w.ctx).trace.state
      let hold := traced && (t == 1 || t == 3) && (s.ctx w.ctx).modifiable p.1 8
      let s' := (s.mismatch w.ctx or_.mismatch).launch w fun id =>
        { mkAccess id w q sl .store or_ units with traced := traced, inSt := true }
      if hold then s'.put { w with wait := .home s.nextId, lastIssue := s.tick } else s'.retire w

/-- `sld` (R198). -/
def execSld (d b : BitVec 6) (m : BitVec 2) (o : BitVec 9) (s : State) : Out := .next (s.sload d b m o 8 false)
/-- `sld32` (R198). -/
def execSld32 (d b : BitVec 6) (m : BitVec 2) (o : BitVec 9) (s : State) : Out := .next (s.sload d b m o 4 false)
/-- `sst` (R198). -/
def execSst (d b : BitVec 6) (m : BitVec 2) (o : BitVec 9) (s : State) : Out := .next (s.sstore d b m o 8 false)
/-- `sst32` (R198). -/
def execSst32 (d b : BitVec 6) (m : BitVec 2) (o : BitVec 9) (s : State) : Out := .next (s.sstore d b m o 4 false)
/-- `sldm` (R198). -/
def execSldm (d b : BitVec 6) (m : BitVec 2) (o : BitVec 9) (s : State) : Out := .next (s.sload d b m o 8 true)
/-- `sstm` (R198). -/
def execSstm (d b : BitVec 6) (m : BitVec 2) (o : BitVec 9) (s : State) : Out := .next (s.sstore d b m o 8 true)

/-- `scas` and `samo` (R199): one atomic unit at the home, its old value to sd. -/
def State.satomic (s : State) (d b : BitVec 6) (m : BitVec 2) (o : BitVec 9) (kind : W64 → AccKind) : State :=
  s.mems m b o ⟨8, 8, true, true⟩ false fun w q sl va p =>
    let x := w.s d.toNat
    let y := w.s (d.toNat + 1)
    let u := { scalarUnit w q sl va p 8 x with data2 := y }
    (s.launch w fun id =>
      { mkAccess id w q sl (kind y) (atomicOrder (slOrder sl)) [u] with inLd := true, sdst := some d.toNat }).retire w

/-- `scas` (R199). -/
def execScas (d b : BitVec 6) (m : BitVec 2) (o : BitVec 9) (s : State) : Out :=
  .next (s.satomic d b m o fun _ => .scas)
/-- `samo` (R199). -/
def execSamo (d b : BitVec 6) (m : BitVec 2) (o : BitVec 9) (s : State) : Out :=
  .next (s.satomic d b m o fun y => .samo (y.toNat % 8))

/-! ## Barrier objects (R202 to R208) -/

/-- No ordering of its own. -/
def noOrder : Ordering_ := ⟨false, false, false⟩
/-- A release at the slot's scope (R68, R217). -/
def relOrder : Ordering_ := ⟨false, true, false⟩

/-- A home-tested instruction (R453): its access is in flight and the wave is not ready until the home has answered. -/
def State.atHomeWait (s : State) (w : Wave) (mk : Nat → Access) : State :=
  (s.launch w mk).put { w with wait := .home s.nextId, lastIssue := s.tick }

/-- The issuing sub-wave alone waits for the home (R112). -/
def State.subWait (s : State) (w : Wave) (q : SubWave) (mk : Nat → Access) : State :=
  (s.launch w mk).put { w with
    subs := { q with st := .atHome s.nextId } :: w.subs.tail
    wait := .none
    lastIssue := s.tick }

/-- `binit` (R204, R453). -/
def execBinit (d b : BitVec 6) (m : BitVec 2) (o : BitVec 9) (s : State) : Out :=
  .next (s.mems m b o ⟨32, 32, true, false⟩ false fun w q sl va p =>
    let kind := AccKind.binit ((w.s d.toNat).setWidth 32) (w.s (d.toNat + 1))
    s.atHomeWait w fun id => { mkAccess id w q sl kind noOrder [scalarUnit w q sl va p 32 0] with inSt := true })

/-- The parties of an instruction that acts for the wave, or for each Active lane's task: (lane, identity) (R205, R212). -/
def Wave.parties (w : Wave) (q : SubWave) (sl : W32) : List (Nat × W64) :=
  if w.task then (lanesOf (w.active q sl)).map fun l => (l, w.ident l) else [(w.lowActive q sl, w.ident 0)]

/-- `barv` (R205). An arrival on its way to the home, as a release; the phase returns to sd. -/
def execBarv (d b : BitVec 6) (m : BitVec 2) (o : BitVec 9) (s : State) : Out :=
  .next (s.mems m b o ⟨32, 32, true, true⟩ true fun w q sl va p =>
    let kind := AccKind.arrive ((w.parties q sl).map (·.2)) false
    (s.launch w fun id =>
      { mkAccess id w q sl kind relOrder [scalarUnit w q sl va p 32 0] with sdst := some d.toNat }).retire w)

/-- The Active lanes as a mask. -/
def Wave.activeMask (w : Wave) (q : SubWave) (sl : W32) : W32 := maskBits 0 (fun _ => true) (w.active q sl)

/-- `barb` (R205). `barv` and then `waitp` on the phase that it was counted in; the sub-wave waits. -/
def execBarb (d b : BitVec 6) (m : BitVec 2) (o : BitVec 9) (s : State) : Out :=
  .next (s.mems m b o ⟨32, 32, true, true⟩ true fun w q sl va p =>
    let kind := AccKind.arrive ((w.parties q sl).map (·.2)) true
    let u := scalarUnit w q sl va p 32 ((w.activeMask q sl).setWidth 64)
    s.subWait w q fun id => { mkAccess id w q sl kind relOrder [u] with sdst := some d.toNat })

/-- `waitp` (R113, R114, R207). A check on its way to the home, whatever the guard in a grid wave; the sub-wave waits. -/
def execWaitp (d b : BitVec 6) (m : BitVec 2) (o : BitVec 9) (s : State) : Out :=
  .next (s.onIssuer fun w q =>
    let sl := w.slotOf m.toNat
    if w.task && (w.leader q sl).isNone then s.retire w else
    let va := w.saddr b o 32
    match s.checkScalar w ⟨32, 32, false, true⟩ va with
    | .error e => s.raise w q e va
    | .ok p =>
      let u := scalarUnit w q sl va p 32 ((w.activeMask q sl).setWidth 64)
      s.subWait w q fun id => mkAccess id w q sl (.check ((w.s d.toNat).setWidth 32)) noOrder [u])

/-- `bphase` (R208). A relaxed read of the object on its way to the home. -/
def execBphase (d b : BitVec 6) (m : BitVec 2) (o : BitVec 9) (s : State) : Out :=
  .next (s.mems m b o ⟨32, 32, false, true⟩ true fun w q sl va p =>
    let u := scalarUnit w q sl va p 32 ((w.activeMask q sl).setWidth 64)
    (s.launch w fun id => { mkAccess id w q sl .bphase noOrder [u] with sdst := some d.toNat }).retire w)

/-! ## Bound regions (R67, R210, R211) -/

/-- The slice address of a region, or its range fault (R67): external memory before an unmapped range. -/
def State.regionAt (s : State) (w : Wave) (base len : Nat) : Except Nat Nat :=
  let bad := if overlap base len Config.extBase (Config.extTop - Config.extBase) then 0x21 else 0x20
  if Config.windowBase ≤ base ∧ base < Config.sliceBase then
    match (if w.task then none else s.group? w.gid) with
    | some g => if base - Config.windowBase + len ≤ g.winLen then .ok (g.win + (base - Config.windowBase)) else .error bad
    | none => .error bad
  else if s.sliceMapped (s.ctx w.ctx) base len then .ok base
  else .error bad

/-- The bindings of a context with those whose `bind` is still on its way. -/
def State.bindingsAhead (s : State) (cid : Nat) : List Binding :=
  (s.ctx cid).bindings ++ (s.flight.filter fun a => (s.wave? a.wave).any fun w => w.ctx == cid).filterMap fun a =>
    match a.kind with
    | .bind base len lock => some ⟨base, len, ((a.units.head?).map (·.addr)).getD 0, lock⟩
    | _ => none

/-- The operand of a `bind` that BIND_OPERAND names, in the order in which R210 lists the tests. -/
def bindOperandFault (base lw : W64) : Option W64 :=
  if lw.toNat % 64 / 2 ≠ 0 then some lw
  else if base.toNat % 64 ≠ 0 then some base
  else if lw.toNat / 64 = 0 then some lw
  else none

/-- `bind` (R210). The checks in its order; then the wave is not ready until every core holds the binding. -/
def execBind (d b : BitVec 6) (m : BitVec 2) (o : BitVec 9) (s : State) : Out :=
  .next (s.onIssuer fun w q =>
    let sl := w.slotOf m.toNat
    if w.idle q sl false then s.retire w else
    let base := w.s d.toNat
    let lw := w.s (d.toNat + 1)
    match bindOperandFault base lw with
    | some v => s.raise w q 0x2A v
    | none =>
    let lock := lw.getLsbD 0
    let size := if lock then 8 else 32
    let va := w.saddr b o 8
    match s.checkScalar w ⟨8, size, true, true⟩ va with
    | .error e => s.raise w q e va
    | .ok p =>
    let len := lw.toNat / 64 * 64
    match s.regionAt w base.toNat len with
    | .error e => s.raiseFree w q e
    | .ok r =>
    let bs := s.bindingsAhead w.ctx
    if 64 ≤ bs.length then s.raiseFree w q 0x23
    else if bs.any (fun (x : Binding) => overlap r len x.base x.len) then s.raiseFree w q 0x24
    else s.atHomeWait w fun id => mkAccess id w q sl (.bind r len lock) noOrder [scalarUnit w q sl va p size 0])

/-- Whether a write of the context to a region is still in flight (R70). -/
def State.writesInFlight (s : State) (cid a n : Nat) : Bool :=
  s.flight.any fun x => ((s.wave? x.wave).any fun w => w.ctx == cid) && x.kind.writes &&
    x.units.any fun u => !u.done && overlap u.addr u.size a n

/-- `unbind` (R211, R70). The wave is not ready while a write to the region is in flight; then the pending writes are
performed and the binding goes, with its versions.  DEDUCED (log 20): where no binding has the base, A is checked
against the alignment of a lock word. -/
def execUnbind (d b : BitVec 6) (m : BitVec 2) (o : BitVec 9) (s : State) : Out :=
  .next (s.onIssuer fun w q =>
    let sl := w.slotOf m.toNat
    if w.idle q sl false then s.retire w else
    let base := w.s d.toNat
    let found := match s.resolve w base.toNat with
      | .ok r => (s.ctx w.ctx).bindings.find? fun (x : Binding) => x.base == r.1
      | .error _ => none
    let size := match found with
      | some x => if x.lock then 8 else 32
      | none => 8
    let va := w.saddr b o 8
    match s.checkScalar w ⟨8, size, true, true⟩ va with
    | .error e => s.raise w q e va
    | .ok p =>
    match found with
    | none => s.raise w q 0x25 base
    | some x =>
      if x.obj ≠ p.1 then s.raise w q 0x25 base
      else if s.writesInFlight w.ctx x.base x.len then s.again w q
      else
        let s := s.flushHeld w.ctx fun h => decide (x.base ≤ h.addr) && decide (h.addr < x.base + x.len)
        let s := s.updCtx w.ctx fun c => { c with
          bindings := c.bindings.filter fun y => y.base != x.base
          versions := c.versions.filter fun v => !(decide (x.base ≤ v.addr) && decide (v.addr < x.base + x.len)) }
        (if x.lock then s else s.objBind x.obj false).retire w)

/-- BINDING_INSTALLED (R210). Every core holds the binding: it is in the table, a barrier object's bound field counts it,
and the wave goes on. -/
def execBindingInstalled (acc : Nat) (s : State) : Out :=
  .next (
    match s.access? acc with
    | none => s
    | some a =>
      match a.kind, a.units[0]?, s.wave? a.wave with
      | .bind base len lock, some u, some w =>
        if !(s.unitReady a 0) then s else
        let s := s.updCtx w.ctx fun c => { c with bindings := c.bindings ++ [⟨base, len, u.addr, lock⟩] }
        let s := if lock then s else s.objBind u.addr true
        ((s.updUnit acc 0 fun u => { u with done := true }).updWave w.id fun w => w.answered a.quads).retireAccesses
      | _, _, _ => s)

/-! ## Locks and tickets (R212 to R217) -/

/-- The units of a lock instruction: one for each party, holding its token I + 1 (R212). -/
def lockUnits (w : Wave) (q : SubWave) (sl : W32) (va : W64) (p : Nat × Bool) : List AccUnit :=
  (w.parties q sl).map fun x => { mkUnit x.1 p.1 8 p.2 (x.2 + 1) 0 false with data2 := va }

/-- `rgacq` (R213, R453). -/
def execRgacq (d b : BitVec 6) (m : BitVec 2) (o : BitVec 9) (s : State) : Out :=
  .next (s.mems m b o ⟨8, 8, true, true⟩ true fun w q sl va p =>
    s.atHomeWait w fun id =>
      { mkAccess id w q sl .rgacq noOrder (lockUnits w q sl va p) with inLd := true, sdst := some d.toNat })

/-- `rgrel` (R214, R453). -/
def execRgrel (b : BitVec 6) (m : BitVec 2) (o : BitVec 9) (s : State) : Out :=
  .next (s.mems m b o ⟨8, 8, true, true⟩ true fun w q sl va p =>
    s.atHomeWait w fun id => { mkAccess id w q sl .rgrel relOrder (lockUnits w q sl va p) with inSt := true })

/-- Whether a ticket word's value is the ticket of a wave's group (R215). -/
def Wave.holdsTicket (w : Wave) (v : Nat) : Bool :=
  !w.task && v % 2 ^ 32 == w.group % 2 ^ 32 && bitsOf v 32 23 == w.ord % 2 ^ 23

/-- `tkwait` (R216). Waits, wave-wide, until the word holds the group's ticket; it reads the word after the wave's earlier
writes to it and after its earlier acquires. -/
def execTkwait (b : BitVec 6) (m : BitVec 2) (o : BitVec 9) (s : State) : Out :=
  .next (s.mems m b o ⟨8, 8, false, true⟩ false fun w q _ va p =>
    if w.task then s.raise w q 0x27 va
    else if (s.flight.any fun a => a.wave == w.id && !a.finished &&
        (a.acq || a.units.any fun u => !u.done && overlap u.addr u.size p.1 8)) then s.again w q
    else if w.holdsTicket (s.slice.num p.1 8) then s.retire w
    else s.again w q)

/-- `tkpass` (R217, R453). -/
def execTkpass (b : BitVec 6) (m : BitVec 2) (o : BitVec 9) (s : State) : Out :=
  .next (s.mems m b o ⟨8, 8, true, true⟩ false fun w q sl va p =>
    s.atHomeWait w fun id =>
      { mkAccess id w q sl .tkpass relOrder [scalarUnit w q sl va p 8 0] with inSt := true })

end Sys2Proof.Machine
end

