-- ==== Sys2Proof/Machine/Reduce.lean ====
section
/-! DEFINITION. The non-returning reductions (R259 to R273): the combiner and its packets, the home's updates, and the drain
buffer of determinism mode with the passing of the drain ticket. -/

namespace Sys2Proof.Machine

/-! ## Sorting -/

/-- Insert into a list that is sorted by `le`, after its equals. -/
def insertBy {α : Type} (le : α → α → Bool) (x : α) : List α → List α
  | [] => [x]
  | y :: t => if le y x then y :: insertBy le x t else x :: y :: t

/-- Sort a list by `le`, keeping the order of equals. -/
def sortBy {α : Type} (le : α → α → Bool) (l : List α) : List α := l.foldl (fun acc x => insertBy le x acc) []

/-- Lexicographic order of lists of numbers. -/
def lexLe : List Nat → List Nat → Bool
  | [], _ => true
  | _ :: _, [] => false
  | a :: s, b :: t => if a < b then true else if b < a then false else lexLe s t

/-! ## The combiner (R259) -/

/-- The fields of a slot that separate entries: type, rounding, saturate and flush (R259). -/
def slotKey (sl : W32) : W32 := sl &&& 0x1FF0

/-- The owner of the queues and the combiner that a wave uses (R235, R259). -/
def Wave.owner (w : Wave) : Owner := if w.task then .core w.core else .group w.gid

/-- Whether two entries merge: one owner, address, operation and slot (R259). -/
def RedEntry.same (x e : RedEntry) : Bool :=
  x.owner == e.owner && x.ctx == e.ctx && !x.sent && x.addr == e.addr && x.minor == e.minor && x.slot == e.slot

/-- Whether the wave has an earlier access, no reduction, that an update to this cell must follow (R63, R72). -/
def State.mustFollow (s : State) (wid addr n : Nat) : Bool :=
  s.flight.any fun b => b.wave == wid && !b.finished && !b.kind.isRed &&
    (b.acq || (b.kind != .drained && b.units.any fun v => !v.done && overlap addr n v.addr v.size))

/-- Accept one update into the combiner (R259): into its entry, or a free one, or after the oldest entry is sent.  An entry
that would have to wait for an access that it did not wait for before is sent first. -/
def State.accept (s : State) (e : RedEntry) (u : Upd) : State :=
  let s := if s.mustFollow u.wave e.addr (cellSize e.minor) then s.sendEntries fun x => x.same e else s
  match s.red.find? fun x => x.same e with
  | some x =>
    let s := { s with red := updWhere (fun y => y.id == x.id) (fun y => { y with upds := y.upds ++ [u] }) s.red }
    if 31 ≤ x.upds.length then s.sendEntries fun y => y.id == x.id else s
  | none =>
    let open_ := s.red.filter fun x => x.owner == e.owner && x.ctx == e.ctx && !x.sent
    let s := if 64 ≤ open_.length then
        (match open_.head? with
         | some o => s.sendEntries fun y => y.id == o.id
         | none => s)
      else s
    let f := s.fresh
    { f.2 with red := f.2.red ++ [{ e with id := f.1, seq := f.1, upds := [u], since := s.tick }] }

/-- COMBINER_HOLD_TIMEOUT (R259). An entry held for 16 clk is sent as a packet. -/
def execCombinerHoldTimeout (entry : Nat) (s : State) : Out :=
  .next (s.sendEntries fun e => e.id == entry && decide (e.since + 16 ≤ s.tick))

/-! ## The update at the home (R260 to R264) -/

/-- Round(word + S) of each element, with one rounding (R260, R264): the word, and the flags that arise at the home. -/
def addFloats (sl : W32) (word : W32) (vals : List W32) (draw : W64) : W32 × Flags :=
  let t := slType sl
  let ww := typeWidth t
  let fm := fltFmt t
  foldElems (typeCount t) ww word fun k =>
    let h := fm.value (slFlush sl) (elemRaw word k ww)
    let xs := vals.map fun v => fm.value (slFlush sl) (elemRaw v k ww)
    let v := sumNums (decide (slRound sl = 2)) (h :: xs)
    let o := roundArith fm (slMode sl) (drawOf draw k) v.1
    (o.1, o.2 ||| (if v.2 then flInvalid else 0) ||| snanFlag [h])

/-- The draws of the update whose lane has the lowest identity (R261). -/
def lowestDraw (us : List Upd) : W64 :=
  match us.foldl (fun (b : Option Upd) u =>
    match b with
    | none => some u
    | some v => if u.ident.toNat < v.ident.toNat then some u else some v) none with
  | some u => u.draw
  | none => 0

/-- A packet applied to its cell (R260, R262): the new bytes, and for each update the flags that it raises. -/
def applyPacket (minor : Nat) (sl : W32) (old : List Byte) (us : List Upd) : List Byte × List Flags :=
  let word := BitVec.ofNat 32 (leNat old)
  let sg := typeSigned (slType sl)
  let vals := us.map (·.value)
  let ints := vals.map fun v => toInt sg 32 v.toNat
  let h := toInt sg 32 word.toNat
  let all := fun (x : Nat × Flags) => (leBytes 4 x.1, us.map fun _ => x.2)
  match minor with
  | 9 => all (fitInt (slSat sl) sg 32 (ints.foldl (· + ·) h))
  | 10 => let r := addFloats sl word vals (lowestDraw us); all (r.1.toNat, r.2)
  | 11 => all (ofInt 32 (ints.foldl (fun a b => if b < a then b else a) h), 0)
  | 12 => all (ofInt 32 (ints.foldl (fun a b => if a < b then b else a) h), 0)
  | _ => sumPacket (slRound sl) old vals

/-- Whether an update of a packet may be applied (R63, R72): the wave's earlier acquires and accesses to the cell are
performed, and for a release, at the reach of the update's own name (R66, R264), what it waits for. -/
def State.updateReady (s : State) (e : RedEntry) (u : Upd) : Bool :=
  match s.access? u.acc with
  | none => true
  | some a =>
    let win := (a.units[u.unit]?).any (·.win)
    !(s.priorLeft a.wave a.id fun b => !b.kind.isRed &&
        (b.acq || (b.kind != .drained && b.units.any fun v => !v.done && overlap e.addr (cellSize e.minor) v.addr v.size)))
    && (!a.rel || s.releaseReady a.wave a.id (reachScope win a.scope) e.core)

/-- COMBINER_PACKET_APPLY (R259, R263). The slice ALU applies a packet as one atomic update; its updates leave st and its
flags go to the waves, or to the context for a wave that has ended. -/
def execCombinerPacketApply (packet : Nat) (s : State) : Out :=
  .next (
    match s.red.find? fun e => e.id == packet with
    | none => s
    | some e =>
      if !e.sent || s.isForwarded e.addr || (s.transfers.any fun t => t.op == e.id) || !(e.upds.all fun u => s.updateReady e u) then s else
      let r := applyPacket e.minor e.slot (s.slice.bytes e.addr (cellSize e.minor)) e.upds
      let wid := ((e.upds.head?).map (·.wave)).getD 0
      let s := s.perform e.ctx (.ofWave wid) e.addr r.1
      let s := (e.upds.zip r.2).foldl (fun s x => s.flagWave x.1.wave e.ctx x.2) s
      let s := e.upds.foldl (fun s u => s.updUnit u.acc u.unit fun v => { v with done := true }) s
      { s with red := s.red.filter fun x => x.id != packet }.retireAccesses)

/-! ## Issue (R261, R266) -/

/-- Bytes 8 of an ATOM address: v[a+1][L] : v[a][L] (R200). -/
def Wave.atomAddr (w : Wave) (a : BitVec 7) (lane : Nat) : W64 := w.v (a.toNat + 1) lane ++ w.v a.toNat lane

/-- The group of a grid wave. -/
def State.groupOf (s : State) (w : Wave) : Option Group := if w.task then none else s.group? w.gid

/-- Entries that a group's drain buffer holds: 1,024 and the spill area's (R266). -/
def State.drainCapacity (s : State) (g : Group) : Nat :=
  1024 + 256 * ((s.grids.find? fun x => x.id == g.grid).map (·.spill)).getD 0

/-- Add an update of `vrfadd` to its entry of the drain buffer, or make the entry (R266). -/
def drainAdd (es : List DrainEntry) (e : DrainEntry) : List DrainEntry :=
  if es.any fun x => x.acc.isNone && x.addr == e.addr && x.slot == e.slot then
    updWhere (fun x => x.acc.isNone && x.addr == e.addr && x.slot == e.slot) (fun x => { x with upds := x.upds ++ e.upds }) es
  else es ++ [e]

/-- The lanes of an ATOM instruction, checked (R191, R201, R261): Active lanes only. -/
def State.atomLanes (s : State) (w : Wave) (q : SubWave) (sl : W32) (a : BitVec 7) (size : Nat) : List LaneAddr :=
  (lanesOf (w.active q sl)).map fun l => s.checkLane w size true l (w.atomAddr a l)

/-- The slice address of a lane that passed its checks. -/
def LaneAddr.loc (x : LaneAddr) : Nat × Bool :=
  match x.at_ with
  | .ok p => p
  | .error _ => (0, false)

/-- The fault of a floating reduction that determinism mode buffers (R268, R272), or REDUCE_FULL when `n` entries do not
fit (R266), with the lowest Active lane's address. -/
def State.drainFault (s : State) (w : Wave) (es : List DrainEntry) : Option Nat :=
  match s.groupOf w with
  | none => some 0x27
  | some g => if g.passed then some 0x27 else if s.drainCapacity g < es.length then some 0x29 else none

/-- The scope of a buffered update that is a release, after R66 (R73); none for another. -/
def relOf (o : Ordering_) (sl : W32) (x : LaneAddr) : Option Nat := if o.rel then some (reachScope x.loc.2 (slScope sl)) else none

/-- The update of a lane: its value, and under rsr its draw (R261, R36); `rel` of one that the drain buffer takes. -/
def State.laneUpd (s : State) (w : Wave) (rsr : Bool) (lane : Nat) (v : W32) (acc unit : Nat) (rel : Option Nat) : Upd :=
  { wave := w.id, ident := w.ident lane, value := v, draw := if rsr then s.grainCall w lane 0 else 0, acc := acc,
    unit := unit, pc := w.waiting.2, rel := rel }

/-- Invalid at issue for a signalling NaN operand of `vrfadd` (R263). -/
def issueFlags (sl : W32) (vals : List W32) : Flags :=
  let t := slType sl
  vals.foldl (fun f v => (List.range (typeCount t)).foldl (fun f k =>
    f ||| snanFlag [(fltFmt t).value (slFlush sl) (elemRaw v k (typeWidth t))]) f) 0

/-- A reduction (R261): the checks, then each Active lane's update, to the combiner or, for `vrfadd` in determinism mode,
to the group's drain buffer. -/
def State.reduce (s : State) (m : BitVec 2) (a b : BitVec 7) (minor : Nat) (types : List Nat) : State :=
  s.vec m [a, b] types.contains fun w q sl =>
    if minor = 13 && slRound sl = 4 then s.raise w q 0x02 (sl.setWidth 64) else
    let ls := s.atomLanes w q sl a (cellSize minor)
    match laneFault w ls with
    | some e => s.raise w q e.1 e.2
    | none =>
    match s.eccFault w ls (cellSize minor) with
    | some va => s.raise w q 0x28 va
    | none =>
    if ls.isEmpty then s.retire w else
    let rsr := minor = 10 && slRound sl = 4
    let val := fun (x : LaneAddr) => w.opnd sl b.toNat x.lane
    let fl := if minor = 10 then issueFlags sl (ls.map val) else 0
    let w' := (if rsr then w.advanceGrain (w.active q sl) 1 else w).orFlags fl
    let o := storeOrder (slOrder sl)
    if minor = 10 && (s.ctx w.ctx).r.det then
      let f := s.fresh
      let add := fun es (x : LaneAddr) => drainAdd es
        { acc := none, widx := w.logical, seq := f.1, lane := x.lane, addr := x.loc.1, slot := slotKey sl,
          upds := [s.laneUpd w rsr x.lane (val x) f.1 0 (relOf o sl x)], asked := false }
      let es := ls.foldl add (((s.groupOf w).map (·.drain)).getD [])
      match s.drainFault w es with
      | some code => s.raise w q code (((ls.head?).map (·.va)).getD 0)
      | none =>
        ((f.2.mismatch w.ctx o.mismatch).updGroup w.gid fun g => { g with drain := es }).retire w'
    else
      let units := ls.map fun x => { mkUnit x.lane x.loc.1 (cellSize minor) x.loc.2 0 0 false with data2 := x.va }
      let acc := s.nextId
      let s := (s.mismatch w.ctx o.mismatch).launch w fun id =>
        { mkAccess id w q sl (.red minor) o units with inSt := true }
      let s := (ls.zip (List.range ls.length)).foldl (fun s x =>
        s.accept { id := 0, ctx := w.ctx, owner := w.owner, core := w.core, addr := x.1.loc.1, win := x.1.loc.2, minor := minor,
                   slot := slotKey sl, upds := [], since := 0, seq := 0, sent := false }
          (s.laneUpd w rsr x.1.lane (val x.1) acc x.2 none)) s
      s.retire w'

/-- `vradd` (R260). -/
def execVradd (m : BitVec 2) (a b : BitVec 7) (s : State) : Out := .next (s.reduce m a b 9 [0, 1])
/-- `vrfadd` (R260). -/
def execVrfadd (m : BitVec 2) (a b : BitVec 7) (s : State) : Out := .next (s.reduce m a b 10 [2, 5, 6])
/-- `vrmin` (R260). -/
def execVrmin (m : BitVec 2) (a b : BitVec 7) (s : State) : Out := .next (s.reduce m a b 11 [0, 1])
/-- `vrmax` (R260). -/
def execVrmax (m : BitVec 2) (a b : BitVec 7) (s : State) : Out := .next (s.reduce m a b 12 [0, 1])
/-- `vrx96` (R260). -/
def execVrx96 (m : BitVec 2) (a b : BitVec 7) (s : State) : Out := .next (s.reduce m a b 13 [2])

/-! ## The drain (R267 to R271) -/

/-- The context's drain ticket word (R215). -/
def State.ticketWord (s : State) (c : Context) : Nat := s.slice.num c.r.ticket 8

/-- The ordinal of a group's grid, and its index, against a ticket word (R215). -/
def Group.holds (g : Group) (v : Nat) : Bool := v % 2 ^ 32 == g.index % 2 ^ 32 && bitsOf v 32 23 == g.ord % 2 ^ 23

/-- Whether a group holds its context's drain ticket. -/
def State.holdsDrain (s : State) (g : Group) : Bool := g.holds (s.ticketWord (s.ctx g.ctx))

/-- Whether a group's ticket is frozen: a wave of it is halted by an unhandled fault (R271). -/
def State.isFrozen (s : State) (g : Group) : Bool :=
  s.waves.any fun w => !w.task && w.gid == g.id && w.halt == .unhandled

/-- The order in which a group's buffer drains (R267). -/
def drainOrder (e : DrainEntry) : List Nat :=
  match e.acc with
  | some _ => [0, e.widx, e.seq, e.lane]
  | none => [1, e.addr, slType e.slot, (e.slot.toNat / 256) % 32]

/-- The draws of a `vrfadd` entry: those of its first update by logical wave, program order and lane (R266). -/
def firstDraw (us : List Upd) : W64 :=
  match (sortBy (fun (x y : Upd) => lexLe [x.ident.toNat / 32, x.acc, x.ident.toNat % 32]
      [y.ident.toNat / 32, y.acc, y.ident.toNat % 32]) us).head? with
  | some u => u.draw
  | none => 0

/-- One entry of the buffer is drained (R267): its flags go to the context alone, and a `vafadd`'s old value to its lane. -/
def State.drainOne (s : State) (cid : Nat) (e : DrainEntry) : State :=
  let old := BitVec.ofNat 32 (s.slice.num e.addr 4)
  let draw := match e.acc with
    | some _ => ((e.upds.head?).map (·.draw)).getD 0
    | none => firstDraw e.upds
  let r := addFloats e.slot old (e.upds.map (·.value)) draw
  let s := s.perform cid (.ofWave (((e.upds.head?).map (·.wave)).getD 0)) e.addr (leBytes 4 r.1.toNat)
  let s := s.updCtx cid fun c => { c with sumflags := c.sumflags ||| r.2 ||| (if e.acc.isSome then issueFlags e.slot (e.upds.map (·.value)) else 0) }
  match e.acc with
  | none => s
  | some au =>
    match s.access? au.1 with
    | none => s
    | some a =>
      let d := a.vdst.getD 0
      ((s.updUnit au.1 au.2 fun u => { u with done := true }).updWave a.wave fun w => w.deliver d e.lane old).retireAccesses

/-- Whether every update of a group's buffer may be performed (R63, R72, R73, R201): after its wave's earlier acquires, its
earlier accesses to the word and, for a release, what that waits for. -/
def State.drainReady (s : State) (g : Group) : Bool :=
  g.drain.all fun e => e.upds.all fun u =>
    !(s.priorLeft u.wave u.acc fun b => b.kind != .drained &&
        (b.acq || b.units.any fun v => !v.done && overlap e.addr 4 v.addr v.size))
    && u.rel.all fun scope => s.releaseReady u.wave u.acc scope g.core

/-- The transfers of a group's buffer that its port has still to be asked for (R399): one for each entry of another core's slice. -/
def State.drainAsks (s : State) (g : Group) : List Transfer :=
  (g.drain.filter fun e => !e.asked && homeCore e.addr != g.core).map fun e => ⟨g.core, (s.ctx g.ctx).vf, 1, g.id, e.addr / 64, g.id⟩

/-- An entry of a buffer that is saved or moves: the port of its next core is asked for it. -/
def DrainEntry.unasked (e : DrainEntry) : DrainEntry := { e with asked := false }

/-- Ask the port for the transfers of a group's buffer. -/
def State.askDrain (s : State) (g : Group) : State :=
  { s with transfers := s.transfers ++ s.drainAsks g }.updGroup g.id fun g => { g with drain := g.drain.map fun (e : DrainEntry) => { e with asked := true } }

/-- Whether the port has granted every transfer of a group's buffer. -/
def State.drainGranted (s : State) (g : Group) : Bool := (s.drainAsks g).isEmpty && !(s.transfers.any fun t => t.op == g.id)

/-- The single pass over a group's buffer (R267). -/
def State.drainAll (s : State) (g : Group) : State :=
  let s := (sortBy (fun x y => lexLe (drainOrder x) (drainOrder y)) g.drain).foldl (fun s e => s.drainOne g.ctx e) s
  s.updGroup g.id fun g => { g with drain := [] }

/-- Whether a wave of the group waits in a `tkpass` on the context's drain ticket word (R268). -/
def State.passing (s : State) (g : Group) : Bool :=
  s.flight.any fun a => a.kind == .tkpass && (s.wave? a.wave).any fun w => !w.task && w.gid == g.id &&
    a.units.any fun u => u.addr == (s.ctx g.ctx).r.ticket

/-- Whether an f32 atomic scatter that a group issued is not yet performed (R272); its record tells its type once read. -/
def State.scatterHeld (s : State) (g : Group) : Bool :=
  s.slip.any fun o => o.req.kind == .cps && o.req.flag && o.req.owner == .group g.id &&
    (o.record.isEmpty || decide (bitsOf (field o.record 4 4) 0 4 = 2))

/-- DRAIN_PASS (R267, R268). The group holds the drain ticket and passes it: its buffer drains in its fixed order, once its transfers are
granted (R399). -/
def execDrainPass (group : Nat) (s : State) : Out :=
  .next (
    match s.group? group with
    | none => s
    | some g =>
      if (s.ctx g.ctx).r.det && s.holdsDrain g && !g.passed && !s.isFrozen g && s.passing g && s.drainReady g then
        (if s.drainGranted g then s.drainAll g else if (s.drainAsks g).isEmpty then s else s.askDrain g)
      else s)

/-- Write a ticket word's group index, keeping bits [63:32] (R217). -/
def State.passTicket (s : State) (cid a n : Nat) : State :=
  s.perform cid (.ofUnit) a (leBytes 4 (n % 2 ^ 32))

/-- A grid whose groups have all ended. -/
def Grid.allEnded (g : Grid) : Bool := g.ended.length == g.ngroups

/-- TICKET_HANDOVER (R270). The word of a grid that has drained passes to group 0 of the next grid of the context. -/
def execTicketHandover (ctx : Nat) (s : State) : Out :=
  .next (
    let c := s.ctx ctx
    let v := s.ticketWord c
    let mine := s.grids.filter fun g => g.ctx == ctx
    let ended := match mine.find? fun g => bitsOf v 32 23 == g.ord % 2 ^ 23 with
      | some g => g.allEnded && v % 2 ^ 32 == g.ngroups
      | none => false
    if !c.r.det || !ended then s else
    let waiting := mine.filter fun g => g.ord % 2 ^ 23 != bitsOf v 32 23 && !(g.allEnded)
    match (sortBy (fun (x y : Grid) => decide (x.ord ≤ y.ord)) waiting).head? with
    | some g =>
      { s with grids := s.grids.filter fun x => !(x.ctx == ctx && x.allEnded) }.perform ctx (.ofUnit) c.r.ticket
        (leBytes 8 (g.ord % 2 ^ 23 * 2 ^ 32))
    | none => s)

end Sys2Proof.Machine
end

