-- ==== Sys2Proof/Machine/Atom.lean ====
section
/-! DEFINITION. Returning vector atomics (R200, R201) and the step of a home that applies an atomic, a `binit`, a lock or a
ticket instruction (R199, R204, R213, R214, R217, R453). -/

namespace Sys2Proof.Machine

/-! ## Issue -/

/-- Types that an ATOM instruction accepts (R200). -/
def atomTypes (minor t : Nat) : Bool :=
  if minor ≤ 2 then decide (t ≤ 1) else if minor = 8 then fltTypes t else true

/-- A returning atomic (R200, R201): the checks, then one unit for each Active lane; `vafadd` in determinism mode goes to the
drain buffer (R266). -/
def State.vatomic (s : State) (m : BitVec 2) (d a b : BitVec 7) (minor : Nat) : State :=
  s.vec m [d, a, b] (atomTypes minor) fun w q sl =>
    let ls := s.atomLanes w q sl a 4
    match laneFault w ls with
    | some e => s.raise w q e.1 e.2
    | none =>
    match s.eccFault w ls 4 with
    | some va => s.raise w q 0x28 va
    | none =>
    if ls.isEmpty then s.retire w else
    let rsr := minor = 8 && slRound sl = 4
    let w' := if rsr then w.advanceGrain (w.active q sl) 1 else w
    let unit := fun (x : LaneAddr) =>
      { mkUnit x.lane x.loc.1 4 x.loc.2 ((w.opnd sl b.toNat x.lane).setWidth 64) d.toNat false with
        data2 := (w.v d.toNat x.lane).setWidth 64
        draw := if rsr then s.grainCall w x.lane 0 else 0 }
    let o := atomicOrder (slOrder sl)
    if minor = 8 && (s.ctx w.ctx).r.det then
      let acc := s.nextId
      let es := (ls.zip (List.range ls.length)).map fun x =>
        { acc := some (acc, x.2), widx := w.logical, seq := acc, lane := x.1.lane, addr := x.1.loc.1, slot := slotKey sl,
          upds := [s.laneUpd w rsr x.1.lane (w.opnd sl b.toNat x.1.lane) acc x.2 (relOf o sl x.1)], asked := false }
      let all := ((s.groupOf w).map (·.drain)).getD [] ++ es
      match s.drainFault w all with
      | some code => s.raise w q code (((ls.head?).map (·.va)).getD 0)
      | none =>
        let s := s.launch w fun id =>
          { mkAccess id w q sl .drained o (ls.map unit) with inLd := true, vdst := some d.toNat }
        (s.updGroup w.gid fun g => { g with drain := all }).retire w'
    else
      (s.launch w fun id =>
        { mkAccess id w q sl (.vatomic minor) o (ls.map unit) with inLd := true, vdst := some d.toNat }).retire w'

/-- `vaadd` (R200). -/
def execVaadd (m : BitVec 2) (d a b : BitVec 7) (s : State) : Out := .next (s.vatomic m d a b 0)
/-- `vamin` (R200). -/
def execVamin (m : BitVec 2) (d a b : BitVec 7) (s : State) : Out := .next (s.vatomic m d a b 1)
/-- `vamax` (R200). -/
def execVamax (m : BitVec 2) (d a b : BitVec 7) (s : State) : Out := .next (s.vatomic m d a b 2)
/-- `vaand` (R200). -/
def execVaand (m : BitVec 2) (d a b : BitVec 7) (s : State) : Out := .next (s.vatomic m d a b 3)
/-- `vaor` (R200). -/
def execVaor (m : BitVec 2) (d a b : BitVec 7) (s : State) : Out := .next (s.vatomic m d a b 4)
/-- `vaxor` (R200). -/
def execVaxor (m : BitVec 2) (d a b : BitVec 7) (s : State) : Out := .next (s.vatomic m d a b 5)
/-- `vaxch` (R200). -/
def execVaxch (m : BitVec 2) (d a b : BitVec 7) (s : State) : Out := .next (s.vatomic m d a b 6)
/-- `vacas` (R200). -/
def execVacas (m : BitVec 2) (d a b : BitVec 7) (s : State) : Out := .next (s.vatomic m d a b 7)
/-- `vafadd` (R200). -/
def execVafadd (m : BitVec 2) (d a b : BitVec 7) (s : State) : Out := .next (s.vatomic m d a b 8)

/-! ## At the home -/

/-- New(old, L) of R200: the new word, and the flags that reach the issuing lane. -/
def newWord (minor : Nat) (sl old x cmp : W32) (draw : W64) : W32 × Flags :=
  let sg := typeSigned (slType sl)
  let o := toInt sg 32 old.toNat
  let i := toInt sg 32 x.toNat
  match minor with
  | 0 => let r := fitInt (slSat sl) sg 32 (o + i); (BitVec.ofNat 32 r.1, r.2)
  | 1 => (if i < o then x else old, 0)
  | 2 => (if o < i then x else old, 0)
  | 3 => (old &&& x, 0)
  | 4 => (old ||| x, 0)
  | 5 => (old ^^^ x, 0)
  | 6 => (x, 0)
  | 7 => (if old = cmp then x else old, 0)
  | _ => let r := addFloats sl old [x] draw; (r.1, r.2 ||| issueFlags sl [x])

/-- Op of `samo` (R199). -/
def samoOp (op : Nat) (old x : W64) : W64 :=
  match op with
  | 0 => old + x
  | 1 => if x.toInt < old.toInt then x else old
  | 2 => if old.toInt < x.toInt then x else old
  | 3 => if x.toNat < old.toNat then x else old
  | 4 => if old.toNat < x.toNat then x else old
  | 5 => old &&& x
  | 6 => old ||| x
  | _ => old ^^^ x

/-- Finish the single unit of an access, or all of them, and drop the access. -/
def State.finishAll (s : State) (acc : Nat) : State :=
  let f := fun (a : Access) => { a with units := a.units.map fun u => { u with done := true } }
  { s with flight := updWhere (fun a => a.id == acc) f s.flight }.retireAccesses

/-- The home answers a wave that waits for it: the instruction has completed (R453). -/
def State.homeOk (s : State) (a : Access) : State := (s.finishAll a.id).updWave a.wave fun w => w.answered a.quads

/-- The home refuses the instruction of a wave that waits for it: the fault is precise there (R453). -/
def State.homeFault (s : State) (a : Access) (code : Nat) (val : W64) : State :=
  (s.finishAll a.id).fault a.wave a.quads code a.pc val

/-- The parties' tokens of a lock instruction. -/
def Access.tokens (a : Access) : List W64 := a.units.map (·.data)

/-- `rgacq` at the home (R213): the lanes that got the lock, and the word's value after it. -/
def lockTry (word : W64) : List AccUnit → List Nat × W64
  | [] => ([], word)
  | u :: t => if word = 0 then ([u.lane], u.data) else lockTry word t

/-- One lane of a returning atomic, at its home (R201). -/
def State.atomicLane (s : State) (w : Wave) (a : Access) (i minor : Nat) (u : AccUnit) : State :=
  let old := BitVec.ofNat 32 (s.slice.num u.addr 4)
  let r := newWord minor a.slot old (u.data.setWidth 32) (u.data2.setWidth 32) u.draw
  let s := if minor = 7 && old ≠ u.data2.setWidth 32 then s else s.perform w.ctx (.ofWave w.id) u.addr (leBytes 4 r.1.toNat)
  ((s.updUnit a.id i fun u => { u with done := true }).updWave w.id fun w => (w.deliver u.reg u.lane old).orLate s.tick r.2).retireAccesses

/-- A wave's registers after a scalar atomic or an acquire wrote sd. -/
def State.scalarBack (s : State) (a : Access) (v : W64) : State :=
  match a.sdst with
  | some d => s.updWave a.wave fun w => w.setS d v
  | none => s

/-- `wlpull` at the list's home, as one update (R328): items go to the Active lanes, ascending, and their number to sd.  No rule
gives the item of a ring that lies outside the partition: a free value (log 7). -/
def State.pullList (s : State) (w : Wave) (a : Access) (u : AccUnit) : State :=
  let base := s.slice.num u.addr 8
  let cap := s.slice.num (u.addr + 8) 4
  let head := s.slice.num (u.addr + 16) 4
  let tail := s.slice.num (u.addr + 20) 4
  let lanes := lanesOf fun l => u.data.getLsbD l
  let n := min lanes.length ((tail + 2 ^ 32 - head) % 2 ^ 32)
  let c := s.ctx w.ctx
  let item := fun k =>
    let x := base + 4 * ((head + k) % 2 ^ 32 % cap)
    if s.owns c x then BitVec.ofNat 32 (s.slice.num x 4) else (Config.freeValue (s.freeCtr + k)).setWidth 32
  let s := { s with slice := s.slice.setNum (u.addr + 16) 4 ((head + n) % 2 ^ 32), freeCtr := s.freeCtr + n }
  let s := s.updWave w.id fun w =>
    ((lanes.take n).zip (List.range n)).foldl (fun w x => w.deliver (a.vdst.getD 0) x.1 (item x.2)) w
  (s.scalarBack a (BitVec.ofNat 64 n)).finishAll a.id

/-- ATOMIC_AT_HOME (R71, R199, R201, R204, R213, R214, R217, R328, R453). The home applies a returning atomic lane, a scalar
atomic, or an instruction that it tests; a test that fails changes nothing there and faults precisely. -/
def execAtomicAtHome (acc unit : Nat) (s : State) : Out :=
  .next (
    match s.access? acc with
    | none => s
    | some a =>
      match a.units[unit]?, s.wave? a.wave with
      | some u, some w =>
        if a.kind != .rgacq && a.kind != .rgrel && !(s.unitReady a unit) then s else
        if (a.kind == .rgacq || a.kind == .rgrel) && !(unit == 0 && s.unitReady a 0) then s else
        let c := s.ctx w.ctx
        let old := BitVec.ofNat 64 (s.slice.num u.addr 8)
        let put := fun (s : State) (v : W64) => s.perform w.ctx (.ofWave w.id) u.addr (leBytes 8 v.toNat)
        match a.kind with
        | .vatomic minor => s.atomicLane w a unit minor u
        | .scas => (((if old = u.data then put s u.data2 else s).scalarBack a old).finishAll acc)
        | .samo op => ((put s (samoOp op old u.data)).scalarBack a old).finishAll acc
        | .binit expected expbytes =>
          if s.binitRefused u.addr expected expbytes then s.homeFault a 0x32 u.data2
          else
            let s := { s with slice := s.slice.setBytes u.addr (binitBytes expected expbytes c.r.det) }
            (s.updCtx w.ctx fun c => c.updObj u.addr fun _ => ObjRec.zero u.addr).homeOk a
        | .rgacq =>
          if a.tokens.contains old then s.homeFault a 0x26 u.data2
          else
            let r := lockTry old a.units
            let s := if r.1.isEmpty then s else
              (s.perform w.ctx (.ofWave w.id) u.addr (leBytes 8 r.2.toNat)).acquireOn w.ctx w.id u.addr
                (c.objRec u.addr).releases
            let got := r.1.foldl (fun (m : W64) l => m ||| BitVec.twoPow 64 l) 0
            (s.scalarBack a (if w.task then got else boolWord (!r.1.isEmpty))).homeOk a
        | .rgrel =>
          if a.tokens.any fun t => t != old then s.homeFault a 0x26 u.data2
          else
            let n := (c.objRec u.addr).releases + 1
            let s := (s.releaseOn w.ctx w.id u.addr n).updCtx w.ctx fun c => c.updObj u.addr fun o => { o with releases := n }
            (put s 0).homeOk a
        | .tkpass =>
          let drain := c.r.det && u.addr == c.r.ticket
          match s.groupOf w with
          | none => s.homeFault a (0x27 + 65536) old
          | some g =>
            if drain && !g.passed && (!(w.holdsTicket old.toNat) || !g.drain.isEmpty || s.scatterHeld g || s.isFrozen g) then s
            else if !(w.holdsTicket old.toNat) then s.homeFault a (0x27 + 65536) old
            else
              let s := s.perform w.ctx (.ofWave w.id) u.addr (leBytes 4 ((w.group + 1) % 2 ^ 32))
              let s := if drain then s.updGroup g.id fun g => { g with passed := true } else s
              s.homeOk a
        | .wlpull => s.pullList w a u
        | _ => s
      | _, _ => s)

end Sys2Proof.Machine
end

