-- ==== Sys2Proof/Machine/Barrier.lean ====
section
/-! DEFINITION. The steps of the homes that return data to a wave or apply an arrival or landed bytes (R19, R78, R79, R194,
R205, R208). -/

namespace Sys2Proof.Machine

/-- What `bphase` writes (R208): the phase, and whether the wave, or which Active lanes' tasks, were elected. -/
def State.phaseWord (s : State) (w : Wave) (u : AccUnit) : W64 :=
  let phase := BitVec.ofNat 64 (objPhase s.slice u.addr)
  let hi : Nat := match s.elected w.ctx u.addr with
    | none => 0
    | some e =>
      if w.task then (maskBits 0 (fun _ => true) fun l => u.data.getLsbD l && w.ident l == e).toNat
      else if w.ident 0 = e then 2 ^ 32 - 1 else 0
  BitVec.ofNat 64 (phase.toNat + 2 ^ 32 * hi)

/-- The units of an access whose sector unit `u` belongs to (R194): those of a vector load's lanes 8k to 8k + 7 that its register
takes, or all of a scalar load (R198). -/
def Access.sector (a : Access) (u : AccUnit) : List Nat :=
  (List.range a.units.length).filter fun i =>
    match a.units[i]? with
    | some v => !v.done && (a.vdst.isNone || (v.reg == u.reg && v.lane / 8 == u.lane / 8))
    | none => false

/-- Whether the value of unit `i` of a load is at the home, or may be taken there now; a traced word of a modifiable region is
taken by its own step (R343). -/
def State.loadReady (s : State) (a : Access) (i : Nat) : Bool :=
  match a.units[i]? with
  | some u => u.taken || (s.unitReady a i && !(a.traced && (s.ctx a.ctx).modifiable u.addr u.size))
  | none => false

/-- Take the value of unit `i` of a load at its home, if that is still to be done (R61, R63, R69): `back` whole writes old where
the region is bound.  A helper's load of a word with an uncorrectable error takes zero (R105). -/
def State.takeValue (s : State) (acc i back : Nat) : State :=
  match s.access? acc with
  | none => s
  | some a =>
    match a.units[i]? with
    | none => s
    | some u =>
      if u.taken then s else
      let c := s.ctx a.ctx
      let bad := u.helper && s.eccBad.any fun e => overlap u.addr u.size e 8
      let v := if bad then 0 else leNat (s.readBytes c a.wave u.addr u.size back)
      (s.updCtx a.ctx fun c => c.sawBytes a.wave u.addr u.size back).keepValue acc u v

/-- The value of unit `i` of a load reaches its register. -/
def State.deliverUnit (s : State) (acc i : Nat) : State :=
  match s.access? acc with
  | none => s
  | some a =>
    match a.units[i]? with
    | none => s
    | some u => (s.updUnit acc i fun u => { u with done := true }).updWave a.wave fun w => w.takeLoad a u u.value.toNat

/-- LOAD_DATA_RETURN (R24, R61, R62, R194, R208). The home takes the values of a load's sector of 32 bytes, and it reaches the
register as one; digit `i` of `back` in base 65,536 tells how many writes old the view of the `i`th unit is where its region is
bound.  A `bphase` reads its object. -/
def execLoadDataReturn (acc unit back : Nat) (s : State) : Out :=
  .next (
    match s.access? acc with
    | none => s
    | some a =>
      match a.units[unit]? with
      | none => s
      | some u =>
        match a.kind, s.wave? a.wave with
        | .load .., _ =>
          let is := a.sector u
          if u.done || !(is.all fun i => s.loadReady a i) then s else
          let s := (is.zip (List.range is.length)).foldl (fun s x => s.takeValue acc x.1 (back / 65536 ^ x.2 % 65536)) s
          (is.foldl (fun s i => s.deliverUnit acc i) s).retireAccesses
        | .bphase, some w => if s.unitReady a unit then (s.scalarBack a (s.phaseWord w u)).finishAll acc else s
        | _, _ => s)

/-- The check that follows the arrival of a `barb`: the sub-wave now waits for it (R205).  Its unit names register 1, where the check
of a `waitp` names 0: a halt keeps it, since its arrival is not made again (R218). -/
def State.thenCheck (s : State) (a : Access) (u : AccUnit) (phase : Nat) : State :=
  let f := s.fresh
  let k : Access := { a with
    id := f.1
    kind := .check (BitVec.ofNat 32 phase)
    rel := false
    sdst := none
    units := [{ u with done := false, reg := 1 }] }
  { f.2 with flight := f.2.flight ++ [k] }.updWave a.wave fun w => { w with
    subs := updWhere (fun q => q.st == SubState.atHome a.id) (fun q => { q with st := .atHome f.1 }) w.subs }

/-- BARRIER_ARRIVAL_APPLY (R19, R68, R78, R205). The home counts an arrival: what the wave released on the object is
released in that phase, the phase returns to sd, and a `barb` goes on to its check. -/
def execBarrierArrivalApply (acc : Nat) (s : State) : Out :=
  .next (
    match s.access? acc with
    | none => s
    | some a =>
      match a.kind, a.units[0]? with
      | .arrive idents wait, some u =>
        if !(s.unitReady a 0) || s.landedNow u.addr then s else
        let phase := objPhase s.slice u.addr
        let refused := decide (objExpected s.slice u.addr < objArrived s.slice u.addr + idents.length)
        let s := if refused then s else s.releaseOn a.ctx a.wave u.addr phase
        let s := s.objArrive a.ctx u.addr idents.length idents
          { code := 0x30, source := 6, queue := a.queue, issuer := a.ident, pc := a.pc }
        let s := s.scalarBack a (BitVec.ofNat 64 phase)
        (if wait then s.thenCheck a u phase else s).finishAll acc
      | _, _ => s)

/-- The report that an overrun by landed bytes makes (R78, R227): flag [0] tells that the issuing wave has ended. -/
def Landing.rep (l : Landing) (ended : Bool) : Rep :=
  { code := 0x30, source := l.source, flags := if ended then 1 else 0, queue := l.queue, issuer := l.ident, pc := l.pc }

/-- LANDED_BYTES_APPLY (R78, R79). The home counts performed bytes of an engine operation into their object. -/
def execLandedBytesApply (landing : Nat) (s : State) : Out :=
  .next (
    match s.landings.find? fun l => l.id == landing with
    | none => s
    | some l =>
      if s.isForwarded l.obj then s else
      let s := { s with landings := s.landings.filter fun x => x.id != landing }
      s.objLand l.ctx l.obj l.bytes l.id (l.rep (s.wave? l.wave).isNone))

end Sys2Proof.Machine
end

