-- ==== Sys2Proof/Machine/Launch.lean ====
section
/-! DEFINITION. What a wave holds at its first instruction (R123), wave slots, and how quads exit, waves end and groups
leave (R104, R109, R131, R269). -/

namespace Sys2Proof.Machine

/-- A wave with every field zero or empty. -/
def Wave.blank : Wave where
  id := 0
  ctx := 0
  task := false
  ord := 0
  gid := 0
  group := 0
  widx := 0
  core := 0
  quad := 0
  slot := 0
  sregs := []
  vregs := []
  preds := []
  modes := []
  flags := 0
  livemask := 0
  trapCause := 0
  trapPc := 0
  trapVal := 0
  joint := 0
  kcores := 0
  kngroups := 0
  knlanes := 0
  handler := none
  ext := false
  working := 0
  live := 0
  grain := []
  tasks := []
  subs := []
  unsealedC := []
  batchesC := []
  nextC := 0
  unsealedM := []
  batchesM := []
  nextM := 0
  halt := .running
  wait := .none
  lastIssue := 0
  notBefore := 0
  readySince := none
  lateFlags := 0
  lateTick := 0
  rsv := []
  tiles := []
  eccRegs := []
  eccSoft := []

/-- The quads that have a working lane (R104). -/
def quadsOfLanes (working : W32) : BitVec 8 :=
  quadsWhere 0xFF fun k => (List.range 4).any fun i => working.getLsbD (4 * k + i)

/-- The low `n` lanes, 32 at most. -/
def lowLanes (n : Nat) : W32 := BitVec.ofNat 32 (2 ^ min n 32 - 1)

/-- The mode slots m0 to m3 from 16 bytes (R92). -/
def modesOf (bs : List Byte) : Regs 32 :=
  (List.range 4).foldl (fun r i => r.set i (BitVec.ofNat 32 (field bs (4 * i) 4))) []

/-- Whether four slot values hold no reserved value (R93). -/
def modesLegal (bs : List Byte) : Bool := (List.range 4).all fun i => slotLegal (BitVec.ofNat 32 (field bs (4 * i) 4))

/-! ## Wave slots (R11, R118) -/

/-- The wave slots of a quadrant of the package that are free. -/
def State.freeSlots (s : State) (quadrant : Nat) : List Nat :=
  (List.range 32).filter fun k => !(s.waves.any fun w => w.quadrant == quadrant && w.slot == k)

/-- The quadrants of a partition on a core. -/
def Partition.quadrants (p : Partition) (core : Nat) : List Nat := (p.quadsOf core).map fun q => 4 * core + q

/-! ## Groups and grids that end -/

/-- A group leaves its core: its place in the grid is ended, and outside determinism mode a finished grid goes. -/
def State.groupLeave (s : State) (g : Group) : State :=
  let det := (s.ctx g.ctx).r.det
  let gs := updWhere (fun x => x.id == g.grid) (fun x => { x with ended := g.index :: x.ended }) s.grids
  { s with
    groups := s.groups.filter fun x => x.id != g.id
    grids := if det then gs else gs.filter fun x => !(x.allEnded) }

/-- Whether a group's engine queues hold an operation.  DEDUCED (log 24): its window stays mapped for them (R20), so the
group keeps its allocation until they are performed. -/
def State.groupBusy (s : State) (gid : Nat) : Bool :=
  (s.slip.any fun o => o.req.owner == .group gid) || s.sieve.any fun o => o.req.owner == .group gid

/-- A group with no wave left leaves; in determinism mode only when it has passed the drain ticket (R269). -/
def State.tryLeave (s : State) (gid : Nat) : State :=
  match s.group? gid with
  | none => s
  | some g =>
    if s.waves.any (fun w => !w.task && w.gid == gid) then s
    else if ((s.ctx g.ctx).r.det && !g.passed) || s.groupBusy gid then s
    else s.groupLeave g

/-- GROUP_EXIT_PASS (R269). A group of which every wave has ended is drained and passed in its turn; a group that has
already passed only exits. -/
def execGroupExitPass (group : Nat) (s : State) : Out :=
  .next (
    match s.group? group with
    | none => s
    | some g =>
      let c := s.ctx g.ctx
      let ws := s.waves.filter fun w => !w.task && w.gid == g.id
      if c.r.det && !g.passed && s.holdsDrain g && !s.isFrozen g && !s.scatterHeld g && s.drainReady g && ws.all fun w => s.endsBuffered w then
        (if s.drainGranted g then
          let s := (s.drainAll g).passTicket g.ctx c.r.ticket (g.index + 1)
          (s.updGroup g.id fun g => { g with passed := true }).tryLeave g.id
        else if (s.drainAsks g).isEmpty then s else s.askDrain g)
      else s)

/-- The K9 rewrites the summary flags in the context record as waves end (R40, R411). -/
def State.sumFlags (s : State) (cid : Nat) (f : Flags) : State :=
  let s := s.updCtx cid fun c => { c with sumflags := c.sumflags ||| f }
  let c := s.ctx cid
  if inSlice c.recAddr then { s with slice := s.slice.setNum (c.recAddr + 40) 4 c.sumflags.toNat } else s

/-- A wave ends (R131): its flags go to the context, its combiner entries are sent, its latches break, and its slot, block,
tiles and reservations are free with it. -/
def State.endWave (s : State) (wid : Nat) : State :=
  match s.wave? wid with
  | none => s
  | some w =>
    let s := (s.sendCombiner wid).breakLatches 1024 [(wid, none)]
    let s := s.sumFlags w.ctx w.flags
    let s := { s with
      waves := s.waves.filter fun x => x.id != wid
      waitList := s.waitList.filter fun e => e.2.2.1 != wid }
    if w.task then s else s.tryLeave w.gid

/-- Take quads out of a wave's sub-waves; a handler whose quads have all gone resumes the others (R131, R223). -/
def Wave.dropQuads (w : Wave) (quads : BitVec 8) : Wave :=
  { w with
    live := w.live &&& ~~~quads
    subs := (w.subs.map fun q => { q with quads := q.quads &&& ~~~quads }).filter fun q => q.quads != 0
    handler := match w.handler with
      | none => none
      | some h => if h &&& ~~~quads = 0 then none else some (h &&& ~~~quads) }

/-- Quads of a wave exit (R104, R109, R131). -/
def State.exitQuads (s : State) (wid : Nat) (quads : BitVec 8) : State :=
  let s := s.updWave wid fun w => w.dropQuads quads
  match s.wave? wid with
  | none => s
  | some w => if w.subs.isEmpty then s.endWave wid else s.tryRejoin wid

/-- Lanes of a task wave whose tasks have ended become helpers, and a quad of helpers exits (R104). -/
def State.retireLanes (s : State) (wid : Nat) (lanes : W32) : State :=
  let s := s.updWave wid fun w => { w with
    working := w.working &&& ~~~lanes
    tasks := w.tasks.filter fun t => !(lanes.getLsbD t.1) }
  match s.wave? wid with
  | none => s
  | some w =>
    let gone := quadsWhere w.live fun k => !(w.quadWorks k)
    if gone = 0 then s else s.exitQuads wid gone

end Sys2Proof.Machine
end

