-- ==== Sys2Proof/Machine/TraceTree.lean ====
section
/-! DEFINITION. How a spawn is recorded in the trace tree, or matched against the old children of a re-executed task (R347,
R348, R355). -/

namespace Sys2Proof.Machine

/-- A task as a spawn describes it (R312). -/
structure Spawned where
  lane : Nat
  entry : W64
  args : List W32
  key : W64
  prio : Nat
  ctr : Option Nat
  deriving DecidableEq, Repr

/-- Insert a child of the root by its order, or append a child of a task (R348). -/
def Trace.placeChild (t : Trace) (parent off : Nat) : List Nat :=
  let cs := ((t.task? parent).map (·.children)).getD []
  if parent = rootOff then
    insertBy (fun a b => lexLe (((t.task? a).map (·.order)).getD []) (((t.task? b).map (·.order)).getD [])) off cs
  else cs ++ [off]

/-- Add a task record under a parent (R338, R348); none when the heap is full. -/
def Trace.addTask (t : Trace) (parent : Nat) (x : Spawned) (order : List Nat) : Option (Nat × Trace) :=
  match t.alloc 4 4 with
  | none => none
  | some (off, t) =>
    let depth := ((t.task? parent).map (·.depth)).getD 0 + 1
    let rec_ : TTask :=
      { off := off, parent := parent, children := [], entry := x.entry, args := x.args, key := x.key, scount := 0,
        stale := false, new_ := false, ended := false, depth := depth, order := order }
    let t := { t with tasks := t.tasks ++ [rec_] }
    some (off, t.updTask parent fun p => { p with children := t.placeChild parent off })

/-- The record of the task that a lane's spawn has as its parent, when the spawn is recorded: the root for a grid wave, and
the lane's own record for a recorded task (R347, R348), or the task being re-executed (R355). -/
def State.spawnParent (s : State) (w : Wave) (lane : Nat) : Option Nat :=
  let t := (s.ctx w.ctx).trace
  let off := w.traceOf lane
  if t.state = 1 then (if w.task then (if off = 0 then none else some off) else some rootOff)
  else if t.state = 3 && t.records off then some off
  else none

/-- The depth of a spawn's parent where the task would be deeper than 64 (R348). -/
def State.tooDeep (s : State) (w : Wave) (lane : Nat) : Option Nat :=
  match s.spawnParent w lane with
  | none => none
  | some p =>
    let d := (((s.ctx w.ctx).trace.task? p).map (·.depth)).getD 0
    if 64 ≤ d then some d else none

/-- Whether a spawn must wait for the Strata unit, which waits for the host, to record it (R336, R120). -/
def State.spawnStalls (s : State) (w : Wave) (ls : List Nat) : Bool :=
  (s.ctx w.ctx).trace.stalled && ls.any fun l => (s.spawnParent w l).isSome

/-- Record a spawn while recording (R347, R348): the offset of its task record, 0 when it is not recorded. -/
def State.recordSpawn (s : State) (w : Wave) (x : Spawned) (seq : Nat) : State × Nat :=
  match s.spawnParent w x.lane with
  | none => (s, 0)
  | some p =>
    let t := (s.ctx w.ctx).trace
    match t.addTask p x [w.ord, w.logical, seq, x.lane] with
    | some (off, t) => (s.setTrace w.ctx t, off)
    | none => (s.traceFull w.ctx (t.base + 16 * p), 0)

/-- The first old child after the cursor, not yet matched, with the spawn's entry and arguments (R355). -/
def Trace.matchChild (t : Trace) (k : Walk) (x : Spawned) : Option (Nat × Nat) :=
  (List.range k.oldChildren.length).findSome? fun i =>
    if i < k.cursor then none else
    match k.oldChildren[i]? with
    | none => none
    | some o =>
      match t.task? o with
      | some c => if !(k.matched.contains o) && c.entry == x.entry && c.args == x.args then some (i, o) else none
      | none => none

/-- A spawn of the task being re-executed (R355): it keeps an old child, or makes a new stale one.  No task is created. -/
def State.rerunSpawn (s : State) (w : Wave) (x : Spawned) : State :=
  let t := (s.ctx w.ctx).trace
  match t.walk, s.spawnParent w x.lane with
  | some k, some p =>
    match t.matchChild k x with
    | some (i, o) =>
      let kept := ((t.task? o).map fun c => !c.stale).getD false
      let t := (t.updTask o fun c => { c with key := x.key }).updTask p fun c => { c with children := c.children ++ [o] }
      let t := if kept then t.bump 1 1 else t
      s.setTrace w.ctx { t with walk := some { k with matched := o :: k.matched, cursor := i + 1 } }
    | none =>
      match t.addTask p x [] with
      | some (off, t) =>
        let t := (t.updTask off fun c => { c with new_ := true }).markTask off
        s.setTrace w.ctx (t.bump 3 1)
      | none => s.traceFull w.ctx (t.base + 16 * p)
  | _, _ => s

end Sys2Proof.Machine
end

