-- ==== Sys2Proof/Machine/Tilth.lean ====
section
/-! DEFINITION. The Tilth task engine (R304 to R330) and the task side of `waitp` (R112 to R117): spawns, dependency counters,
ready queues, bins and task waves, continuation frames, work lists and termination. -/

namespace Sys2Proof.Machine

/-! ## The TASK word's shared checks (R310, R311) -/

/-- The fault of a run operand (R310): no legal run first, then an extended register without a block. -/
def Wave.runFault (w : Wave) (v : W64) (multiple : Nat) (top : Nat) : Option (Nat × W64) :=
  let r := v.toNat % 128
  if 128 ≤ v.toNat ∨ r % multiple ≠ 0 ∨ top < r then some (0x71, v)
  else if isExtended r && !w.ext then some (0x03, BitVec.ofNat 64 r)
  else none

/-- A TASK instruction of the issuing wave (R311): with no Active lane it does nothing. -/
def State.taskOp (s : State) (m : BitVec 2) (k : Wave → SubWave → W32 → List Nat → State) : State :=
  s.onIssuer fun w q =>
    let sl := w.slotOf m.toNat
    match lanesOf (w.active q sl) with
    | [] => s.retire w
    | ls => k w q sl ls

/-- The same for an instruction with a run operand: with no Active lane it raises only the fault of R89 that the run has (R94). -/
def State.runOrSkip (s : State) (m : BitVec 2) (fault : Wave → Option (Nat × W64))
    (k : Wave → SubWave → W32 → List Nat → State) : State :=
  s.onIssuer fun w q =>
    let sl := w.slotOf m.toNat
    match lanesOf (w.active q sl) with
    | [] =>
      (match fault w with
       | some (0x03, v) => s.raise w q 0x03 v
       | _ => s.retire w)
    | ls => k w q sl ls

/-- A TASK instruction whose first fault is its run's (R310, R311). -/
def State.runOp (s : State) (m : BitVec 2) (run : BitVec 6) (multiple top : Nat) (k : Wave → SubWave → W32 → List Nat → State) :
    State :=
  let fault := fun (w : Wave) => w.runFault (w.s run.toNat) multiple top
  s.runOrSkip m fault fun w q sl ls =>
    match fault w with
    | some e => s.raise w q e.1 e.2
    | none => k w q sl ls

/-- Whether the effect of a release by a wave at package scope may be performed (R72, R311): its earlier writes, engine
operations and loads are performed. -/
def State.relDone (s : State) (wid seq core : Nat) : Bool := s.releaseReady wid seq 6 core

/-- Whether a wave has a write of its own to some bytes still to be performed. -/
def State.ownPending (s : State) (wid a n : Nat) : Bool :=
  s.flight.any fun b => b.wave == wid && b.kind.writes && b.units.any fun u => !u.done && overlap a n u.addr u.size

/-! ## The pool (R308) -/

/-- The pool entries that tasks of a context occupy on a core. -/
def State.poolUsed (s : State) (cid core : Nat) : List Nat :=
  (s.tasks.filter fun t => t.ctx == cid && t.core == core && t.frame.isNone).map (·.entryIdx)

/-- The lowest `n` free pool entries (R308). -/
def State.poolFree (s : State) (cid core n : Nat) : List Nat :=
  let used := s.poolUsed cid core
  ((List.range (min (s.ctx cid).r.poolent (used.length + n))).filter fun i => !(used.contains i)).take n

/-- The list that a task stands in, and its place there (R308, R322). -/
def Task.listKey (det : Bool) (t : Task) : List Nat × List Nat :=
  match t.st with
  | .held => ([0, t.ref.ctr.getD 0], [t.order])
  | .ready | .arriving => ([1, t.ref.prio], if det then [t.ref.key.toNat, t.order] else [t.order])
  | .spilled => ([2], [t.order])
  | .binned b => ([3, b], [t.order])
  | .waiting .. => ([4], [t.order])

/-- The state code of a pool entry (R308). -/
def TaskState.code : TaskState → Nat
  | .held => 0
  | .spilled => 2
  | .binned _ => 3
  | _ => 1

/-- The 64 bytes of a pool entry (R308). -/
def Task.bytes (t : Task) (link : Nat) : List Byte :=
  leBytes 8 t.ref.entry.toNat ++ leBytes 8 t.ref.key.toNat ++ (List.range 4).flatMap (fun i => leBytes 4 (t.ref.args.getD i 0).toNat)
    ++ leBytes 4 (t.ref.ctr.getD (2 ^ 32 - 1)) ++ leBytes 4 (t.ref.prio % 4 + 4 * t.st.code) ++ leBytes 8 link
    ++ leBytes 8 t.ref.trace ++ leBytes 8 0

/-- Address of a pool entry. -/
def Context.poolAddr (c : Context) (core idx : Nat) : Nat := sliceOf core + c.r.pooloff + 64 * idx

/-- Write the pool entries of a core as its tasks stand (R308). -/
def State.syncPool (s : State) (cid core : Nat) : State :=
  let c := s.ctx cid
  let ts := s.tasks.filter fun t => t.ctx == cid && t.core == core && t.frame.isNone
  let key := Task.listKey c.r.det
  ts.foldl (fun s t =>
    let after := ts.filter fun u => (key u).1 == (key t).1 && u.id != t.id && lexLe (key t).2 (key u).2
    let link := match (sortBy (fun x y => lexLe (key x).2 (key y).2) after).head? with
      | some u => c.poolAddr core u.entryIdx
      | none => 0
    { s with slice := s.slice.setBytes (c.poolAddr core t.entryIdx) (t.bytes link) }) s

/-! ## Spawning (R312 to R314) -/

/-- The task-table entry of an entry address: its mode slots as 16 bytes (R307). -/
def State.taskEntry (s : State) (c : Context) (entry : W64) : Option (List Byte) :=
  (List.range c.r.tasktabn).findSome? fun i =>
    let a := c.r.tasktab + 32 * i
    if s.slice.num a 8 = entry.toNat then some (s.slice.bytes (a + 8) 16) else none

/-- The task that a lane of a spawn describes (R312). -/
def Wave.spawnLane (w : Wave) (entry : W64) (r prio : Nat) (dep : Bool) (lane : Nat) : Spawned where
  lane := lane
  entry := entry
  args := (List.range 4).map fun i => w.v (r + i) lane
  key := (w.v (r + 5) lane &&& 0x7FFFFFFF) ++ w.v (r + 4) lane
  prio := prio
  ctr := if dep then some (w.v (r + 6) lane).toNat else none

/-- The entry, key and counter faults of a spawn (R313), then TRACE_DEPTH (R348), in the order of R311. -/
def State.spawnFault (s : State) (w : Wave) (entry : W64) (r : Nat) (xs : List Spawned) : Option (Nat × W64) :=
  let c := s.ctx w.ctx
  match targetFault c.r entry with
  | some code => some (code, entry)
  | none =>
  if (s.taskEntry c entry).isNone then some (0x71, entry) else
  match xs.find? fun x => (w.v (r + 5) x.lane).getLsbD 31 || x.key == 0x7FFFFFFFFFFFFFFF#64 with
  | some x => some (0x72, w.v (r + 5) x.lane ++ w.v (r + 4) x.lane)
  | none =>
  match xs.find? fun x => x.ctr.any fun n => decide (c.r.ctrcount ≤ n) with
  | some x => some (0x73, BitVec.ofNat 64 (x.ctr.getD 0))
  | none =>
  match xs.findSome? fun x => s.tooDeep w x.lane with
  | some d => some (0x63, BitVec.ofNat 64 d)
  | none => none

/-- Create the task of one lane (R312): recorded when its spawner is (R347), its readiness or registration on its way. -/
def State.spawnOne (s : State) (w : Wave) (seq : Nat) (x : Spawned) : State :=
  let r := s.recordSpawn w x seq
  let f := r.1.fresh
  let idx := ((s.poolFree w.ctx w.core 1).head?).getD 0
  let t : Task :=
    { id := f.1, ctx := w.ctx, core := w.core, st := .arriving, order := f.1, entryIdx := idx, frame := none, acq := none,
      wave := w.id, seq := seq
      ref := { key := x.key, entry := x.entry, args := x.args, ctr := x.ctr, prio := x.prio, trace := r.2, spawned := false,
               decDone := [] } }
  let s := { f.2 with tasks := f.2.tasks ++ [t] }
  match x.ctr with
  | none => s
  | some n =>
    let g := s.fresh
    { g.2 with ctrMsgs := g.2.ctrMsgs ++
        [{ id := g.1, ctx := w.ctx, core := w.core, ctr := n, kind := .register t.id, wave := w.id, seq := seq, ident := 0 }] }

/-- A wave whose lanes' tasks have spawned (R349). -/
def Wave.markSpawned (w : Wave) (ls : List Nat) : Wave :=
  { w with tasks := updWhere (fun t => ls.contains t.1) (fun t => (t.1, { t.2 with spawned := true })) w.tasks }

/-- `spawn` and `spawnd` (R312, R313, R355). -/
def State.spawnOp (s : State) (a b : BitVec 6) (m p : BitVec 2) (dep : Bool) : State :=
  s.runOp m b 8 88 fun w q _ ls =>
    let r := (w.s b.toNat).toNat
    let entry := w.s a.toNat
    let xs := ls.map (w.spawnLane entry r p.toNat dep)
    match s.spawnFault w entry r xs with
    | some e => s.raise w q e.1 e.2
    | none =>
    let rerun := fun (x : Spawned) => (s.ctx w.ctx).trace.state = 3 && (s.spawnParent w x.lane).isSome
    let real := xs.filter fun x => !(rerun x)
    if (s.poolFree w.ctx w.core real.length).length < real.length || s.spawnStalls w ls then s.stall w q else
    let f := s.fresh
    let s := xs.foldl (fun s x => if rerun x then s.rerunSpawn w x else s.spawnOne w f.1 x) f.2
    ((s.sendCombiner w.id).syncPool w.ctx w.core).retire (w.markSpawned ls)

/-- `spawn` (R312). -/
def execSpawn (a b : BitVec 6) (m p : BitVec 2) (s : State) : Out := .next (s.spawnOp a b m p false)
/-- `spawnd` (R312). -/
def execSpawnd (a b : BitVec 6) (m p : BitVec 2) (s : State) : Out := .next (s.spawnOp a b m p true)

/-! ## Dependency counters (R315 to R321) -/

/-- Address of counter record n (R315). -/
def Context.ctrAddr (c : Context) (n : Nat) : Nat := c.r.ctrbase + 32 * n

/-- The value that a lane of `dcinit` names out of range: its record, then its successors (R316). -/
def Wave.initFault (w : Wave) (r count lane : Nat) : Option W32 :=
  if count ≤ (w.v r lane).toNat then some (w.v r lane)
  else ((List.range 4).map fun k => w.v (r + 2 + k) lane).find? fun x => x != BitVec.allOnes 32 && decide (count ≤ x.toNat)

/-- `dcinit` (R316): one message for each Active lane. -/
def execDcinit (a : BitVec 6) (m : BitVec 2) (s : State) : Out :=
  .next (s.runOp m a 8 88 fun w q _ ls =>
    let r := (w.s a.toNat).toNat
    match ls.findSome? fun l => w.initFault r (s.ctx w.ctx).r.ctrcount l with
    | some v => s.raise w q 0x73 (v.setWidth 64)
    | none =>
    let f := s.fresh
    let s := ls.foldl (fun s l =>
      let g := s.fresh
      { g.2 with ctrMsgs := g.2.ctrMsgs ++
          [{ id := g.1, ctx := w.ctx, core := w.core, ctr := (w.v r l).toNat, wave := w.id, seq := f.1, ident := 0,
             kind := .init (w.v (r + 1) l) ((List.range 4).map fun k => w.v (r + 2 + k) l) }] }) f.2
    (s.sendCombiner w.id).retire w)

/-- Send the decrements of an access, one for each unit (R318, R320): (lane, counter). -/
def State.sendDecs (s : State) (w : Wave) (acc : Nat) (decs : List (Nat × Nat)) : State :=
  (decs.zip (List.range decs.length)).foldl (fun s x =>
    let g := s.fresh
    { g.2 with ctrMsgs := g.2.ctrMsgs ++
        [{ id := g.1, ctx := w.ctx, core := w.core, ctr := x.1.2, wave := w.id, seq := acc, ident := w.ident x.1.1,
           kind := .decrement acc x.2 }] })
    (s.sendCombiner w.id)

/-- `dcdec` (R319): one decrement for each Active lane; the wave is not ready until every result has returned. -/
def execDcdec (a : BitVec 6) (m : BitVec 2) (s : State) : Out :=
  .next (s.runOp m a 8 88 fun w q sl ls =>
    let r := (w.s a.toNat).toNat
    let c := s.ctx w.ctx
    match ls.find? fun l => decide (c.r.ctrcount ≤ (w.v r l).toNat) with
    | some l => s.raise w q 0x73 ((w.v r l).setWidth 64)
    | none =>
    let units := ls.map fun l => mkUnit l (c.ctrAddr (w.v r l).toNat) 4 false ((w.v r l).setWidth 64) 0 false
    let acc := s.nextId
    let s := s.atHomeWait w fun id => mkAccess id w q sl (.decs false) noOrder units
    s.sendDecs w acc (ls.map fun l => (l, (w.v r l).toNat)))

/-- The tasks held on a counter, in registration order (R317). -/
def State.heldOn (s : State) (cid ctr : Nat) : List Task :=
  sortBy (fun x y => decide (x.order ≤ y.order))
    (s.tasks.filter fun t => t.ctx == cid && t.st == .held && t.ref.ctr == some ctr)

/-- Tasks become ready in the order given (R322). -/
def State.makeReady (s : State) (ids : List Nat) : State :=
  ids.foldl (fun s i =>
    let f := s.fresh
    { f.2 with tasks := updWhere (fun t => t.id == i) (fun t => { t with st := .ready, order := f.1 }) f.2.tasks }) s

/-- Every task held on a record becomes ready, and its held field is zero (R316, R318). -/
def State.releaseHeld (s : State) (cid ctr : Nat) : State :=
  let a := (s.ctx cid).ctrAddr ctr
  let ts := s.heldOn cid ctr
  let s := s.makeReady (ts.map (·.id))
  let s := { s with slice := s.slice.setNum (a + 4) 4 0 }
  ((ts.map (·.core)).eraseDups).foldl (fun s core => s.syncPool cid core) s

/-- Whether a message is a decrement. -/
def CtrMsg.isDec (m : CtrMsg) : Bool :=
  match m.kind with
  | .decrement .. => true
  | _ => false

/-- Whether a message may be applied (R311, R317, R318, R321): its release is done; the wave's earlier messages to the record are
applied, of one instruction's all but its decrements; and a decrement applied in this clk does not come after it, as every one does
after a registration and one of a greater identity after a decrement. -/
def State.msgReady (s : State) (m : CtrMsg) : Bool :=
  let after := fun (x : CtrMsg) => decide (x.seq < m.seq) || (x.seq == m.seq && decide (x.id < m.id) && !m.isDec)
  s.relDone m.wave m.seq m.core
    && !(s.ctrMsgs.any fun x => x.ctx == m.ctx && x.ctr == m.ctr && x.wave == m.wave && after x)
    && !((s.ctx m.ctx).decs.any fun d => d.1 == m.ctr && d.2.1 == s.tick && (!m.isDec || decide (m.ident.toNat < d.2.2.toNat)))

/-- Record a decrement applied now (R318). -/
def Context.decremented (c : Context) (tick ctr : Nat) (ident : W64) : Context :=
  { c with decs := (ctr, tick, ident) :: c.decs.filter fun d => d.2.1 == tick && d.1 != ctr }

/-- TASK_REGISTRATION (R316, R317). A registration, or a `dcinit`, is applied at the counter's home. -/
def execTaskRegistration (msg : Nat) (s : State) : Out :=
  .next (
    match s.ctrMsgs.find? fun m => m.id == msg with
    | none => s
    | some m =>
      if !(s.msgReady m) then s else
      let a := (s.ctx m.ctx).ctrAddr m.ctr
      let drop := fun (s : State) => { s with ctrMsgs := s.ctrMsgs.filter fun x => x.id != msg }
      match m.kind with
      | .decrement .. => s
      | .init count succ =>
        let s := { drop s with
          slice := (s.slice.setNum a 4 count.toNat).setBytes (a + 8) (succ.flatMap fun x => leBytes 4 x.toNat) }
        if count = 0 then s.releaseHeld m.ctx m.ctr else s
      | .register t =>
        if s.slice.num a 4 = 0 then ((drop s).makeReady [t]).syncPool m.ctx m.core
        else
          let f := (drop s).fresh
          let s := { f.2 with
            tasks := updWhere (fun x => x.id == t) (fun x => { x with st := .held, order := f.1 }) f.2.tasks
            slice := f.2.slice.setNum (a + 4) 4 ((f.2.slice.num (a + 4) 4 + 1) % 2 ^ 32) }
          s.syncPool m.ctx m.core)

/-- The first refused unit of a decrement access, by lane (R319). -/
def Access.refusedUnit (a : Access) : Option AccUnit :=
  (sortBy (fun (x y : AccUnit) => decide (x.lane ≤ y.lane)) (a.units.filter fun u => u.value == 1)).head?

/-- The trap value of DEPENDENCE_UNDERFLOW (R319). -/
def underflowVal (u : AccUnit) : W64 := BitVec.ofNat 64 (u.data.toNat % 2 ^ 32 + 2 ^ 32 * u.lane)

/-- A task record whose task has ended (R338, R354). -/
def State.traceEnded (s : State) (cid off : Nat) : State :=
  let t := (s.ctx cid).trace
  if t.records off then s.setTrace cid (t.updTask off fun x => { x with ended := true }) else s

/-- The tasks of some quads of a task wave end, or a grid wave's quads do (R131): the quads exit. -/
def State.finishEnd (s : State) (wid : Nat) (quads : BitVec 8) : State :=
  match s.wave? wid with
  | none => s
  | some w =>
    let ls := lanesOf fun l => hasQuad quads l && w.isWorking l
    let s := if w.task then ls.foldl (fun s l => s.traceEnded w.ctx (w.traceOf l)) s else s
    let s := if w.task then s.updWave wid fun w => { w with
        working := w.working &&& ~~~(maskBits 0 (fun _ => true) fun l => ls.contains l)
        tasks := w.tasks.filter fun t => !(ls.contains t.1) } else s
    s.exitQuads wid quads

/-- The decrements of an `end` that were applied, recorded with their tasks (R320). -/
def Wave.recordDecs (w : Wave) (a : Access) : Wave :=
  { w with tasks := w.tasks.map fun t =>
      (t.1, { t.2 with decDone := t.2.decDone ++ (a.units.filter fun u => u.lane == t.1 && u.value == 0).map (·.reg) }) }

/-- When every decrement of an access has returned (R319, R320): the wave of a `dcdec` goes on, and the tasks of an `end` end;
or the instruction faults for the lowest lane refused. -/
def State.settleDecs (s : State) (acc : Nat) : State :=
  match s.access? acc with
  | none => s
  | some a =>
    if !a.finished then s else
    match a.kind, a.refusedUnit with
    | .decs false, some u => s.homeFault a 0x70 (underflowVal u)
    | .decs false, none => s.homeOk a
    | .decs true, r =>
      let s := (s.finishAll acc).updWave a.wave fun w =>
        { w.recordDecs a with subs := updWhere (fun q => q.st == SubState.atHome acc) (fun q => { q with st := .ready }) w.subs }
      (match r with
       | some u => s.fault a.wave a.quads 0x70 a.pc (underflowVal u)
       | none => s.finishEnd a.wave a.quads)
    | _, _ => s

/-- COUNTER_DECREMENT (R318, R320). A decrement is applied at the counter's home: refused at zero, else the count falls and
at zero the held tasks become ready. -/
def execCounterDecrement (msg : Nat) (s : State) : Out :=
  .next (
    match s.ctrMsgs.find? fun m => m.id == msg with
    | none => s
    | some m =>
      match m.kind with
      | .decrement acc unit =>
        if !(s.msgReady m) then s else
        let a := (s.ctx m.ctx).ctrAddr m.ctr
        let s := { s with ctrMsgs := s.ctrMsgs.filter fun x => x.id != msg }.updCtx m.ctx fun c => c.decremented s.tick m.ctr m.ident
        let n := s.slice.num a 4
        if n = 0 then (s.updUnit acc unit fun u => { u with done := true, value := 1 }).settleDecs acc
        else
          let s := { s with slice := s.slice.setNum a 4 (n - 1) }
          let s := if n = 1 then s.releaseHeld m.ctx m.ctr else s
          (s.updUnit acc unit fun u => { u with done := true }).settleDecs acc
      | _ => s)

/-! ## Dispatch and bins (R322 to R324) -/

/-- The tasks of a bin, in the order in which they entered it. -/
def State.binTasks (s : State) (b : Nat) : List Task :=
  sortBy (fun x y => decide (x.order ≤ y.order)) (s.tasks.filter fun t => t.st == .binned b)

/-- Whether a task stands on a core for the partition of function `vf`, which has queues, bins and a spill ring of its own there
(R396). -/
def State.taskOn (s : State) (vf core : Nat) (t : Task) : Bool := t.core == core && (s.ctx t.ctx).vf == vf

/-- Spawned tasks whose release is done become ready, in the order of their spawns (R311, R322). -/
def State.admitTasks (s : State) (vf core : Nat) : State :=
  s.makeReady ((s.tasks.filter fun t => s.taskOn vf core t && t.st == .arriving && t.ref.ctr.isNone &&
    s.relDone t.wave t.seq t.core).map (·.id))

/-- The bin with room for an entry on a core (R323). -/
def State.binFor (s : State) (cid core : Nat) (entry : W64) : Option Bin :=
  s.bins.find? fun b => b.ctx == cid && b.core == core && b.entry == entry && decide ((s.binTasks b.id).length < 32)

/-- The lowest bin number of a core that is free for a partition: 16 for each quadrant that it owns there (R11, R396). -/
def State.freeBin (s : State) (vf core : Nat) : Option Nat :=
  let own := ((s.part? vf).map fun p => p.quadsOf core).getD []
  (own.flatMap fun q => (List.range 16).map fun i => 64 * core + 16 * q + i).find? fun b => !(s.bins.any fun x => x.id == b)

/-- The part of a continuation frame that frames of one wave must share: livemask, modes and scalars (R117). -/
def State.frameShare (s : State) (t : Task) : Option (List Byte) :=
  t.frame.map fun f => s.slice.bytes (f + 32) 4 ++ s.slice.bytes (f + 48) 144

/-- The tasks at the head of a bin that one wave may take (R117, R324). -/
def State.waveTasks (s : State) (ts : List Task) : List Task :=
  match ts with
  | [] => []
  | t :: _ => (ts.takeWhile fun u => s.frameShare u == s.frameShare t).take 32

/-- Whether a bin's tasks launch a wave before its timer expires: 32 of them, or a first set that the next cannot join (R117, R324). -/
def State.binFull (s : State) (b : Nat) : Bool :=
  let ts := s.binTasks b
  let n := (s.waveTasks ts).length
  n == 32 || decide (n < ts.length)

/-- A bin that has become able to launch is ready from this clk on (R324). -/
def State.markBin (s : State) (b : Nat) : State :=
  if s.binFull b then
    { s with bins := updWhere (fun x => x.id == b && x.expired.isNone) (fun x => { x with expired := some s.tick }) s.bins }
  else s

/-- Put a task into a bin, keyed to its entry, or at the tail of the spill ring (R323). -/
def State.placeTask (s : State) (t : Task) : State :=
  let f := s.fresh
  let s := f.2
  let put := fun (s : State) (st : TaskState) =>
    { s with tasks := updWhere (fun x => x.id == t.id) (fun x => { x with st := st, order := f.1 }) s.tasks }
  match s.binFor t.ctx t.core t.ref.entry with
  | some b =>
    let s := if (s.binTasks b.id).isEmpty then
        { s with bins := updWhere (fun x => x.id == b.id) (fun x => { x with since := s.tick, expired := none }) s.bins } else s
    (put s (.binned b.id)).markBin b.id
  | none =>
    match s.freeBin (s.ctx t.ctx).vf t.core with
    | some n =>
      put { s with bins := s.bins ++ [{ id := n, ctx := t.ctx, core := t.core, entry := t.ref.entry, since := s.tick, expired := none }] }
        (.binned n)
    | none => put s .spilled

/-- The task that a dispatcher takes next (R323): a spilled one with room in a bin, then the head of the highest-priority
queue that is not empty. -/
def State.nextTask (s : State) (vf core : Nat) : Option Task :=
  let mine := s.tasks.filter (s.taskOn vf core)
  let spilled := sortBy (fun x y => decide (x.order ≤ y.order)) (mine.filter fun t => t.st == .spilled)
  match spilled.find? fun t => (s.binFor t.ctx core t.ref.entry).isSome || (s.freeBin vf core).isSome with
  | some t => some t
  | none =>
    let key := fun (t : Task) => t.ref.prio :: (Task.listKey (s.ctx t.ctx).r.det t).2
    (sortBy (fun x y => lexLe (key x) (key y)) (mine.filter fun t => t.st == .ready)).head?

/-- Take up to `n` tasks. -/
def State.dispatch (vf core : Nat) : Nat → State → State
  | 0, s => s
  | n + 1, s =>
    match s.nextTask vf core with
    | some t => State.dispatch vf core n (s.placeTask t)
    | none => s

/-- Tasks that the dispatcher of a core has taken for a partition in this clk (R323). -/
def State.dispatchedNow (s : State) (vf core : Nat) : Nat :=
  ((s.dispatched.find? fun d => d.1 == core && d.2.1 == vf && d.2.2.1 == s.tick).map (·.2.2.2)).getD 0

/-- Tasks that stand in the queues and the spill ring of a core for a partition. -/
def State.undispatched (s : State) (vf core : Nat) : Nat :=
  (s.tasks.filter fun t => s.taskOn vf core t && (t.st == .ready || t.st == .spilled)).length

/-- TASK_DISPATCH (R322, R323). The dispatcher of a core moves tasks of the context's partition into bins or the spill ring, up to 4 in
a clk. -/
def execTaskDispatch (ctx core : Nat) (s : State) : Out :=
  .next (
    let vf := (s.ctx ctx).vf
    let s := s.admitTasks vf core
    let had := s.dispatchedNow vf core
    let n := min (4 - had) (s.undispatched vf core)
    if n = 0 then s else
    let s := State.dispatch vf core n { s with
      dispatched := (core, vf, s.tick, had + n) :: s.dispatched.filter fun d => !(d.1 == core && d.2.1 == vf) }
    (((s.ctxs.filter fun c => c.vf == vf).map (·.id))).foldl (fun s c => s.syncPool c core) s)

/-- BIN_TIMER_EXPIRY (R324). -/
def execBinTimerExpiry (bin : Nat) (s : State) : Out :=
  .next { s with
    bins := updWhere
      (fun b => b.id == bin && b.expired.isNone && decide (b.since + (s.ctx b.ctx).r.bintimer ≤ s.tick) && !(s.binTasks bin).isEmpty)
      (fun b => { b with expired := some s.tick }) s.bins }

/-- Whether a bin may launch a wave (R117, R324). -/
def State.binReady (s : State) (b : Bin) : Bool := !(s.binTasks b.id).isEmpty && b.expired.isSome

/-- The order of bins that compete for one slot (R324). -/
def State.binRank (s : State) (b : Bin) : List Nat :=
  match (s.binTasks b.id).head? with
  | none => [4]
  | some t =>
    if (s.ctx b.ctx).r.det then [t.ref.prio, t.ref.key.toNat, b.id]
    else [t.ref.prio, b.expired.getD s.tick, b.id]

/-- The registers of lane `lane` that runs a fresh task (R123). -/
def freshLane (w : Wave) (lane : Nat) (t : TaskRef) : Wave :=
  let w := (List.range 4).foldl (fun w i => w.setV i lane (t.args.getD i 0)) w
  (w.setV 4 lane (t.key.setWidth 32)).setV 5 lane ((t.key >>> 32).setWidth 32)

/-- The registers of lane `lane` that runs a continuation, from its frame (R115, R117). -/
def frameLane (m : Memory) (w : Wave) (lane f : Nat) : Wave :=
  let live := (List.range 32).filter fun n => w.livemask.getLsbD n
  let w := ((live.take 16).zip (List.range 16)).foldl (fun w x => w.setV x.1 lane (BitVec.ofNat 32 (m.num (f + 192 + 4 * x.2) 4))) w
  let preds := m.num (f + 40) 4
  let w := (List.range 7).foldl (fun w i =>
    if preds.testBit i then w.setP (i + 1) (w.p (i + 1) ||| BitVec.twoPow 32 lane) else w) w
  { w with grain := w.grain.set lane (BitVec.ofNat 32 (m.num (f + 36) 4)) }

/-- A task wave with these tasks in lanes 0, 1, … (R117, R123, R324), its mode slots and first counter. -/
def State.taskWave (s : State) (cid core quad slot id : Nat) (modes : Regs 32) (pc : W64)
    (ts : List (TaskRef × Option Nat)) : Wave :=
  let working := lowLanes ts.length
  let cores := (((s.part? (s.ctx cid).vf).map (·.cores)).getD []).length
  let w := { Wave.blank with
    id := id, ctx := cid, task := true, core := core, quad := quad, slot := slot, modes := modes
    kcores := BitVec.ofNat 32 cores, working := working, live := quadsOfLanes working
    tasks := (List.range ts.length).zip (ts.map (·.1))
    subs := [⟨quadsOfLanes working, pc, .ready⟩]
    lastIssue := s.tick }
  let w := match ts.head? with
    | some (_, some f) => { w with
        livemask := BitVec.ofNat 32 (s.slice.num (f + 32) 4)
        modes := modesOf (s.slice.bytes (f + 48) 16)
        sregs := (List.range 16).foldl (fun r i => r.set i (BitVec.ofNat 64 (s.slice.num (f + 64 + 8 * i) 8))) [] }
    | _ => w
  ((List.range ts.length).zip ts).foldl (fun w x =>
    match x.2.2 with
    | some f => frameLane s.slice w x.1 f
    | none => freshLane w x.1 x.2.1) w

/-- A wave that runs the task being re-executed, or goes on with it, is one of the walk's (R358). -/
def Walk.joinedBy (k : Walk) (wid : Nat) (ts : List Task) : Walk :=
  if k.cur.any fun o => ts.any fun t => t.ref.trace == o then { k with waves := wid :: k.waves } else k

/-- The tasks leave their entries and frames and run in the lanes of a new wave, which acquires what the continuations
waited for (R79, R117, R324). -/
def State.launchTasks (s : State) (cid core quad slot : Nat) (modes : Regs 32) (pc : W64) (ts : List Task) : State :=
  let f := s.fresh
  let w := s.taskWave cid core quad slot f.1 modes pc (ts.map fun t => (t.ref, t.frame))
  let s := { f.2 with
    waves := f.2.waves ++ [w]
    tasks := f.2.tasks.filter fun t => !(ts.any fun u => u.id == t.id) }.count cid 12 ts.length
  let s := s.updCtx cid fun c => { c with trace := { c.trace with walk := c.trace.walk.map fun k => k.joinedBy f.1 ts } }
  ts.foldl (fun s t =>
    match t.acq with
    | some (a, k) => s.acquirePhase cid f.1 a k.toNat
    | none => s) s

/-- After a launch: an empty bin is free, and one that still holds tasks restarts its timer (R323, R324). -/
def State.afterLaunch (s : State) (b : Nat) : State :=
  if (s.binTasks b).isEmpty then { s with bins := s.bins.filter fun x => x.id != b }
  else { s with bins := updWhere (fun x => x.id == b) (fun x => { x with since := s.tick, expired := none }) s.bins }.markBin b

/-- TASK_WAVE_LAUNCH (R324, R403). The best ready bin of a core launches a wave into a free slot of a quadrant of its partition.
Task-table modes with a reserved value are reported ILLEGAL_MODE, and the launch's tasks go with it (R93, log 22). -/
def execTaskWaveLaunch (bin quad : Nat) (s : State) : Out :=
  .next (
    match s.bins.find? fun b => b.id == bin with
    | none => s
    | some b =>
      let c := s.ctx b.ctx
      let mine := (s.part? c.vf).any fun p => (p.quadrants b.core).contains quad
      let rivals := s.bins.filter fun x => x.core == b.core && (s.ctx x.ctx).pre == .none && s.ctxHeld (s.ctx x.ctx) && (s.ctx x.ctx).vf == c.vf && s.binReady x
      let best := (sortBy (fun x y => lexLe (s.binRank x) (s.binRank y)) rivals).head?
      match s.freeSlots quad with
      | [] => s
      | slot :: _ =>
        if !mine || best.map (·.id) != some bin then s else
        let ts := s.waveTasks (s.binTasks bin)
        let raw := (s.taskEntry c b.entry).getD (leBytes 16 0)
        if (ts.head?).any (fun t => t.frame.isNone) && !(modesLegal raw) then
          let s := { s with tasks := s.tasks.filter fun t => !(ts.any fun u => u.id == t.id) }
          (s.report b.ctx { code := 0x02, source := 4 }).afterLaunch bin
        else
          ((s.launchTasks b.ctx b.core (quad % 4) slot (modesOf raw) b.entry ts).afterLaunch bin).syncPool b.ctx b.core)

/-! ## Continuations (R112 to R117) -/

/-- Address of frame `i` of a core's frame pool (R115, R411). -/
def Context.frameAddr (c : Context) (core i : Nat) : Nat := sliceOf core + c.r.frameoff + 256 * i

/-- The lowest `n` free frames of a core (R114). -/
def State.framesFree (s : State) (cid core n : Nat) : List Nat :=
  let c := s.ctx cid
  let used := s.tasks.filterMap fun t => if t.ctx == cid && t.core == core then t.frame else none
  (((List.range (min c.r.frames (used.length + n))).map (c.frameAddr core)).filter fun a => !(used.contains a)).take n

/-- The 256 bytes of a lane's continuation frame (R115). -/
def Wave.frameBytes (w : Wave) (lane : Nat) (t : TaskRef) (cont : W64) : List Byte :=
  let live := (List.range 32).filter fun n => w.livemask.getLsbD n
  let regs := (live.take 16).flatMap fun n => leBytes 4 (w.v n lane).toNat
  let preds := (List.range 7).foldl (fun x i => if (w.p (i + 1)).getLsbD lane then x + 2 ^ i else x) 0
  leBytes 8 cont.toNat ++ leBytes 8 t.key.toNat ++ leBytes 8 0 ++ leBytes 8 t.trace ++ leBytes 4 w.livemask.toNat
    ++ leBytes 4 (w.grain.get lane).toNat ++ leBytes 4 preds ++ leBytes 4 (t.prio % 4)
    ++ (List.range 4).flatMap (fun i => leBytes 4 (w.slotOf i).toNat) ++ (List.range 16).flatMap (fun i => leBytes 8 (w.s i).toNat)
    ++ regs ++ List.replicate (64 - regs.length) 0

/-- The frames that wait on an object, in the order of their registration. -/
def State.framesOn (s : State) (a : Nat) : List Task :=
  sortBy (fun x y => decide (x.order ≤ y.order)) (s.tasks.filter fun t =>
    match t.st with
    | .waiting o _ => o == a
    | _ => false)

/-- Write the link fields of the frames that wait on an object (R115). -/
def State.linkFrames (s : State) (a : Nat) : State :=
  let fs := (s.framesOn a).filterMap (·.frame)
  (fs.zip (fs.drop 1 ++ [0])).foldl (fun s x => { s with slice := s.slice.setNum (x.1 + 16) 8 x.2 }) s

/-- Write one frame and register it with the object (R114). -/
def State.waitLane (s : State) (w : Wave) (a : Nat) (k : W32) (cont : W64) (x : Nat × Nat) : State :=
  match w.taskOf x.1 with
  | none => s
  | some r =>
    let f := s.fresh
    let t : Task :=
      { id := f.1, ctx := w.ctx, core := w.core, st := .waiting a k, ref := r, order := f.1, entryIdx := 0, frame := some x.2,
        acq := some (a, k), wave := 0, seq := 0 }
    { f.2 with
      slice := f.2.slice.setBytes x.2 (w.frameBytes x.1 r cont)
      tasks := f.2.tasks ++ [t] }

/-- The sub-wave of a wave whose check is number `acc`. -/
def Wave.checking (w : Wave) (acc : Nat) : Option SubWave := w.subs.find? fun q => q.st == SubState.atHome acc

/-- A sub-wave of a wave goes on. -/
def Wave.subTo (w : Wave) (acc : Nat) (f : SubWave → SubWave) : Wave :=
  { w with subs := updWhere (fun q => q.st == SubState.atHome acc) f w.subs }

/-- Whether a check of a task wave waits for free frames (R114): the phase is not complete, and its Active lanes need more frames than
are free. -/
def State.frameStall (s : State) (a : Access) : Bool :=
  match a.kind, a.units[0]?, s.wave? a.wave with
  | .check k, some u, some w =>
    let n := (lanesOf fun l => (u.data.setWidth 32 &&& w.working).getLsbD l).length
    w.task && !(objFaulted s.slice u.addr) && !(phaseDone (objPhase s.slice u.addr) k.toNat)
      && decide ((s.framesFree w.ctx w.core n).length < n)
  | _, _, _ => false

/-- Whether a stalled check is a `waitp`'s, which a halt withdraws, and not the rest of a `barb`, which it saves (R218). -/
def Access.isWaitp (a : Access) : Bool := a.units.all fun u => u.reg == 0

/-- WAITP_CHECK (R112 to R114, R207, R209). The home checks a wait: a complete phase lets the sub-wave go on as an acquire; a
grid sub-wave else parks, and a task wave's Active lanes end their tasks into frames, when enough are free. -/
def execWaitpCheck (acc : Nat) (s : State) : Out :=
  .next (
    match s.access? acc with
    | none => s
    | some a =>
      match a.kind, a.units[0]?, s.wave? a.wave with
      | .check k, some u, some w =>
        match w.checking acc with
        | none => s
        | some q =>
          if !(s.unitReady a 0) || w.handler.any (fun h => h != q.quads) then s else
          let cont := q.pc + 4
          let go := fun (s : State) => s.updWave w.id fun w => w.subTo acc fun q => { q with pc := cont, st := .ready }
          if objFaulted s.slice u.addr then (s.finishAll acc).fault w.id q.quads 0x31 q.pc u.data2
          else if phaseDone (objPhase s.slice u.addr) k.toNat then
            (go (s.acquirePhase w.ctx w.id u.addr k.toNat)).finishAll acc
          else if !w.task then
            (s.updWave w.id fun w => w.subTo acc fun q => { q with st := .waiting u.addr k cont u.data2 }).finishAll acc
          else
            let mask := u.data.setWidth 32 &&& w.working
            let ls := lanesOf fun l => mask.getLsbD l
            let fs := s.framesFree w.ctx w.core ls.length
            if fs.length < ls.length then s else
            let s := s.flushHeld w.ctx fun h => h.wave == w.id
            let s := (ls.zip fs).foldl (fun s x => s.waitLane w u.addr k cont x) (go s)
            ((s.finishAll acc).linkFrames u.addr).retireLanes w.id mask
      | _, _, _ => s)

/-- CONTINUATION_ENQUEUE (R117, R209). A frame whose phase is complete becomes a ready task, as its bytes stand. -/
def execContinuationEnqueue (frame : Nat) (s : State) : Out :=
  .next (
    match s.tasks.find? fun t => t.id == frame with
    | none => s
    | some t =>
      match t.st, t.frame with
      | .waiting a k, some f =>
        if !(phaseDone (objPhase s.slice a) k.toNat) || objFaulted s.slice a then s else
        let r := { t.ref with
          entry := BitVec.ofNat 64 (s.slice.num f 8)
          key := BitVec.ofNat 64 (s.slice.num (f + 8) 8 % 2 ^ 63)
          trace := s.slice.num (f + 24) 8
          prio := s.slice.num (f + 44) 4 % 4 }
        let s := { s with tasks := updWhere (fun x => x.id == frame) (fun x => { x with ref := r }) s.tasks }
        ({ s.makeReady [frame] with slice := s.slice.setNum (f + 16) 8 0 }).linkFrames a
      | _, _ => s)

/-! ## Work lists (R325 to R328) -/

/-- Whether an aligned structure of `n` bytes lies in the context's slice space. -/
def State.inContext (s : State) (c : Context) (a n : Nat) : Bool := s.sliceMapped c a n

/-- The unsent packet of a list on a die (R327). -/
def State.packetFor (s : State) (cid die table list : Nat) : Option WlPacket :=
  s.packets.find? fun p => p.ctx == cid && p.die == die && p.table == table && p.list == list && !p.sent

/-- The pend field of the list descriptor at `d`, raised by `n` modulo 2^32; a descriptor outside the context's slice space has none
(R326, R327, R396). -/
def State.raisePend (s : State) (cid d n : Nat) : State :=
  if s.inContext (s.ctx cid) d 64 then { s with slice := s.slice.setNum (d + 24) 4 ((s.slice.num (d + 24) 4 + n) % 2 ^ 32) } else s

/-- One item enters the compaction unit of a die (R326, R327). -/
def State.pushItem (s : State) (w : Wave) (table seq : Nat) (x : Nat × W32) : State :=
  let s := s.raisePend w.ctx (table + 64 * (x.1 + 1)) 1
  match s.packetFor w.ctx (dieOf w.core) table x.1 with
  | some p =>
    let add := fun (y : WlPacket) => { y with
      items := y.items ++ [x.2]
      rels := if y.rels.contains (w.id, seq) then y.rels else y.rels ++ [(w.id, seq)]
      sent := decide (15 ≤ y.items.length) }
    { s with packets := updWhere (fun y => y.id == p.id) add s.packets }
  | none =>
    let f := s.fresh
    { f.2 with packets := f.2.packets ++
        [{ id := f.1, ctx := w.ctx, die := dieOf w.core, table := table, list := x.1, items := [x.2], since := s.tick, sent := false,
           rels := [(w.id, seq)] }] }

/-- `wlpush` (R326). -/
def execWlpush (a b : BitVec 6) (m : BitVec 2) (s : State) : Out :=
  .next (s.runOp m b 8 88 fun w q _ ls =>
    let r := (w.s b.toNat).toNat
    let tab := w.s a.toNat
    let c := s.ctx w.ctx
    if tab.toNat % 64 ≠ 0 || !(s.inContext c tab.toNat 64) then s.raise w q 0x75 tab
    else if c.modifiable tab.toNat 64 then s.raise w q 0x60 tab
    else if s.ownPending w.id tab.toNat 64 then s.stall w q
    else
    let n := s.slice.num tab.toNat 4
    match ls.find? fun l => decide (n ≤ (w.v r l).toNat) with
    | some l => s.raise w q 0x75 ((w.v r l).setWidth 64)
    | none =>
    let f := s.fresh
    let t := ls.foldl (fun s l => s.pushItem w tab.toNat f.1 ((w.v r l).toNat, w.v (r + 1) l)) f.2
    if 256 < (t.packets.filter fun p => p.die == dieOf w.core).length then s.stall w q
    else (t.sendCombiner w.id).retire w)

/-- COMPACTION_TIMEOUT (R327). A packet is sent 32 clk after its first item. -/
def execCompactionTimeout (packet : Nat) (s : State) : Out :=
  .next { s with
    packets := updWhere (fun p => p.id == packet && decide (p.since + 32 ≤ s.tick)) (fun p => { p with sent := true }) s.packets }

/-- Whether a list descriptor is one that R325 allows, with no byte of it or its ring in a modifiable region (R346). -/
def State.listOk (s : State) (c : Context) (d : Nat) : Bool :=
  let base := s.slice.num d 8
  let cap := s.slice.num (d + 8) 4
  decide (base % 64 = 0) && decide (16 ≤ cap) && decide (cap ≤ 2 ^ 24) && decide (2 ^ Nat.log2 cap = cap)
    && s.slice.num (d + 12) 4 == 0 && (s.slice.bytes (d + 28) 36).all (· == 0)
    && s.inContext c d 64 && s.inContext c base (4 * cap) && !(c.modifiable d 64) && !(c.modifiable base (4 * cap))

/-- WORK_LIST_PACKET_WRITE (R327). A packet is written into its ring, tail advances and pend falls; one that does not fit
waits, and one for a bad descriptor is reported and dropped. -/
def execWorkListPacketWrite (packet : Nat) (s : State) : Out :=
  .next (
    match s.packets.find? fun p => p.id == packet with
    | none => s
    | some p =>
      let earlier := s.packets.any fun x => x.die == p.die && x.ctx == p.ctx && x.table == p.table && x.list == p.list && decide (x.id < p.id)
      if !p.sent || earlier || !(p.rels.all fun r => s.relDone r.1 r.2 (16 * p.die)) then s else
      let c := s.ctx p.ctx
      let d := p.table + 64 * (p.list + 1)
      let n := p.items.length
      let drop := fun (s : State) => { s with packets := s.packets.filter fun x => x.id != packet }.raisePend p.ctx d (2 ^ 32 - n)
      if !(s.listOk c d) then
        (drop s).report p.ctx { code := 0x75, source := 4, value := p.list }
      else
        let head := s.slice.num (d + 16) 4
        let tail := s.slice.num (d + 20) 4
        let cap := s.slice.num (d + 8) 4
        let base := s.slice.num d 8
        if cap < (tail + 2 ^ 32 - head) % 2 ^ 32 + n then s else
        let s := (p.items.zip (List.range n)).foldl (fun s x =>
          s.perform p.ctx .ofUnit (base + 4 * ((tail + x.2) % 2 ^ 32 % cap)) (leBytes 4 x.1.toNat)) s
        drop { s with slice := s.slice.setNum (d + 20) 4 ((tail + n) % 2 ^ 32) })

/-- `wlpull` (R328). The pull is on its way to the list's home; its registers are pending until it returns. -/
def execWlpull (a b c : BitVec 6) (m : BitVec 2) (s : State) : Out :=
  .next (s.runOp m c 1 95 fun w q sl _ =>
    let run := w.s c.toNat
    let d := w.s b.toNat
    let cx := s.ctx w.ctx
    if d.toNat % 64 ≠ 0 || !(s.inContext cx d.toNat 64) then s.raise w q 0x75 d
    else if cx.modifiable d.toNat 64 then s.raise w q 0x75 d
    else if cx.modifiable (s.slice.num d.toNat 8) (4 * s.slice.num (d.toNat + 8) 4) then s.raise w q 0x75 d
    else
    let u := mkUnit 0 d.toNat 64 false ((w.activeMask q sl).setWidth 64) run.toNat false
    (s.launch w fun id => { mkAccess id w q sl .wlpull noOrder [u] with
      acq := true
      sdst := some a.toNat
      vdst := some run.toNat }).retire w)

/-! ## Termination (R329, R330) -/

/-- Whether a task is ready, spilled, binned or on its way, or its frame's phase is complete so that it will be enqueued (R329). -/
def State.taskGoes (s : State) (t : Task) : Bool :=
  match t.st with
  | .held => false
  | .waiting a k => phaseDone (objPhase s.slice a) k.toNat && !(objFaulted s.slice a)
  | _ => true

/-- Whether a wave waits in `quiesce`. -/
def Wave.quiescing (w : Wave) : Bool :=
  !w.task && match w.wait with
    | .quiesce _ => true
    | _ => false

/-- Whether the conditions of a context's termination report hold (R329): waves of groups still to start, and saved ones that are not
placed yet, have not ended. -/
def State.isQuiet (s : State) (cid : Nat) : Bool :=
  (s.waves.all fun w => w.ctx != cid || w.quiescing)
  && (s.limbo.all fun l => l.ctx != cid) && (s.grids.all fun g => g.ctx != cid || g.started.length == g.ngroups)
  && (s.tasks.all fun t => t.ctx != cid || !(s.taskGoes t))
  && (s.ctrMsgs.all fun m => m.ctx != cid) && (s.packets.all fun p => p.ctx != cid)
  && (s.slip.all fun o => !(o.req.by_.ctx == cid && o.req.by_.task))
  && (s.sieve.all fun o => !(o.req.by_.ctx == cid && o.req.by_.task))
  && (s.requests.all fun o => !(o.req.by_.ctx == cid && o.req.by_.task))

/-- Whether a write that a task made is still to be performed: `quiesce` completes as an acquire of every one to an unbound location
(R330).  A task's identity has bit [63] set (R34). -/
def State.taskWrites (s : State) (cid : Nat) : Bool :=
  s.flight.any fun a => a.ctx == cid && a.ident.getLsbD 63 && a.kind.writes && !a.finished

/-- `quiesce` (R330). The wave is not ready until the termination report. -/
def execQuiesce (a : BitVec 6) (m : BitVec 2) (s : State) : Out :=
  .next (s.taskOp m fun w q _ _ =>
    if w.task then s.raise w q 0x74 0
    else s.put { w with wait := .quiesce a.toNat, lastIssue := s.tick })

/-- The wave goes on from a wave-wide wait, with the scalar it waited for. -/
def Wave.resumeWith (w : Wave) (dst : Nat) (v : W64) : Wave :=
  let w := w.setS dst v
  { w with
    wait := .none
    subs := match w.subs with
      | [] => []
      | q :: t => { q with pc := q.pc + 4 } :: t }

/-- TERMINATION_REPORT (R329, R330). The detector reports a context quiescent, and its waves in `quiesce` go on. -/
def execTerminationReport (ctx : Nat) (s : State) : Out :=
  .next (
    if !(s.isQuiet ctx) || s.taskWrites ctx then s else
    let held := (s.tasks.filter fun t => t.ctx == ctx && t.st == .held).length
    let frames := (s.tasks.filter fun t => t.ctx == ctx && t.st != .held).length
    let v := BitVec.ofNat 64 (held + 2 ^ 32 * frames)
    { s with waves := s.waves.map fun w =>
        match w.wait with
        | .quiesce d => if w.ctx == ctx then w.resumeWith d v else w
        | _ => w })

end Sys2Proof.Machine
end

