-- ==== Sys2Proof/Machine/Strata.lean ====
section
/-! DEFINITION. The Strata instructions, the performing of their requests, and the propagation walk (R353 to R366). -/

namespace Sys2Proof.Machine

/-! ## Requests to engines (R17, R74, R227) -/

/-- What the issuer of a request leaves with it. -/
def Wave.issuer (w : Wave) (q : SubWave) (sl : W32) (lane seq : Nat) : Issuer where
  ctx := w.ctx
  wave := w.id
  ident := if w.task then w.ident lane else w.ident 0
  pc := q.pc
  group := if w.task then 0xFFFF else w.group % 65536
  core := w.core
  task := w.task
  laneIdent := w.ident lane
  grain0 := w.grain.get lane
  slot := sl
  seq := seq

/-- Put a Strata or record-cache request in its queue, as a release (R74, R259): the new state, the request's number. -/
def State.request (s : State) (w : Wave) (q : SubWave) (sl : W32) (lane : Nat) (kind : EngKind) (ops : List W64) (dst : Nat) :
    State × Nat :=
  let s := if kind = .trstat then s else s.sendCombiner w.id
  let f := s.fresh
  let r : EngReq :=
    { kind := kind, owner := w.owner, queue := 0, ops := ops, flag := false, dst := dst, by_ := w.issuer q sl lane f.1 }
  ({ f.2 with requests := f.2.requests ++ [⟨f.1, r⟩] }, f.1)

/-- Put a request in its queue and hold the wave until its effect is complete (R360). -/
def State.requestWait (s : State) (w : Wave) (q : SubWave) (sl : W32) (lane : Nat) (kind : EngKind) (ops : List W64) (dst : Nat) :
    State :=
  let r := s.request w q sl lane kind ops dst
  r.1.put { w with wait := .request r.2, lastIssue := s.tick }

/-- A Strata instruction (R360): through the lowest Active lane; in a task wave TRACE_STATE, but for `trstat`. -/
def State.strataOp (s : State) (m : BitVec 2) (taskOk : Bool) (k : Wave → SubWave → W32 → Nat → State) : State :=
  s.taskOp m fun w q sl ls =>
    if w.task && !taskOk then s.raise w q 0x65 (BitVec.ofNat 64 (s.ctx w.ctx).trace.state)
    else k w q sl (ls.headD 0)

/-! ## Issue (R361 to R366) -/

/-- The operand that `trrec` refuses (R361). -/
def recOperandFault (b l : W64) : Option W64 :=
  if b.toNat % 65536 ≠ 0 ∨ inExt b.toNat = false then some b
  else if l.toNat % 65536 ≠ 0 ∨ l.toNat < 2 ^ 20 ∨ 2 ^ 36 < l.toNat ∨ Config.extTop < b.toNat + l.toNat then some l
  else none

/-- `trrec` (R361). -/
def execTrrec (a b : BitVec 6) (m : BitVec 2) (s : State) : Out :=
  .next (s.strataOp m false fun w q sl lane =>
    match recOperandFault (w.s a.toNat) (w.s b.toNat) with
    | some v => s.raise w q 0x66 v
    | none => s.requestWait w q sl lane .trrec [w.s a.toNat, w.s b.toNat] 0)

/-- `trstop` (R363). -/
def execTrstop (a : BitVec 6) (m : BitVec 2) (s : State) : Out :=
  .next (s.strataOp m false fun w q sl lane => s.requestWait w q sl lane .trstop [] a.toNat)

/-- `propagate` (R364). The request is accepted and the wave goes on, its destination pending. -/
def execPropagate (a b : BitVec 6) (m : BitVec 2) (s : State) : Out :=
  .next (s.strataOp m false fun w q sl lane =>
    let o := w.s b.toNat
    if o.toNat % 32 ≠ 0 then s.raise w q 0x66 o else
    match s.resolve w o.toNat with
    | .error _ => s.raise w q 0x66 o
    | .ok p =>
      if (s.ctx w.ctx).modifiable p.1 32 then s.raise w q 0x60 o
      else (s.request w q sl lane .propagate [BitVec.ofNat 64 p.1] a.toNat).1.retire w)

/-- The operand that `mdecl` refuses for its own sake (R362). -/
def declOperandFault (b l : W64) : Option W64 :=
  if b.toNat % 64 ≠ 0 ∨ inSlice b.toNat = false then some b
  else if l.toNat % 64 ≠ 0 ∨ l.toNat < 64 ∨ 2 ^ 26 < l.toNat then some l
  else none

/-- `mdecl` (R362). -/
def execMdecl (a b : BitVec 6) (m : BitVec 2) (s : State) : Out :=
  .next (s.strataOp m false fun w q sl lane =>
    match declOperandFault (w.s a.toNat) (w.s b.toNat) with
    | some v => s.raise w q 0x66 v
    | none => s.requestWait w q sl lane .mdecl [w.s a.toNat, w.s b.toNat] 0)

/-- `trdrop` (R365). -/
def execTrdrop (m : BitVec 2) (s : State) : Out :=
  .next (s.strataOp m false fun w q sl lane => s.requestWait w q sl lane .trdrop [] 0)

/-- `trstat` (R366): a relaxed read, in a task wave too. -/
def execTrstat (a b : BitVec 6) (m : BitVec 2) (s : State) : Out :=
  .next (s.strataOp m true fun w q sl lane =>
    let p := w.s b.toNat
    if p ≠ 0 && (p.toNat % 64 ≠ 0 || !(s.inContext (s.ctx w.ctx) p.toNat 64)) then s.raise w q 0x66 p
    else s.requestWait w q sl lane .trstat [p] a.toNat)

/-! ## Performing a request -/

/-- The wave of a request goes on, with a scalar result if it has one. -/
def State.requestDone (s : State) (r : Request) (v : Option W64) : State :=
  let s := { s with requests := s.requests.filter fun x => x.id != r.id }
  s.updWave r.req.by_.wave fun w =>
    if w.wait = .request r.id then
      (match v with
       | some x => w.resumeWith r.req.dst x
       | none => w.answered w.waiting.1)
    else match v with
      | some x => w.setS r.req.dst x
      | none => w

/-- The request of a wave is refused with a precise fault. -/
def State.requestFault (s : State) (r : Request) (code : Nat) (v : W64) : State :=
  let s := { s with requests := s.requests.filter fun x => x.id != r.id }
  match s.wave? r.req.by_.wave with
  | some w => s.fault w.id w.waiting.1 code w.waiting.2 v
  | none => s

/-- Whether a region overlaps a fixed structure of a context; one of no bytes overlaps nothing (R346, R362). -/
def hitsFixed (base len : Nat) (l : List (Nat × Nat)) : Bool := l.any fun x => decide (0 < x.2) && overlap base len x.1 x.2

/-- Ranges of slice memory that no modifiable region may overlap (R346): (address, bytes). -/
def State.fixedRanges (s : State) (c : Context) : List (Nat × Nat) :=
  let r := c.r
  let cores := ((s.part? c.vf).map (·.cores)).getD []
  let f := s.func c.vf
  let head := ((f.lhead.get c.slot).toNat)
  let tail := ((f.ltail.get c.slot).toNat)
  let unread := (List.range ((tail + 2 ^ 32 - head) % 2 ^ 32)).map fun k => r.lq + 64 * ((head + k) % 2 ^ 32 % max 1 r.lqent)
  [(c.recAddr, 256), (r.fq, 64 + 64 * 2 ^ r.fqlog), (r.lq, 64 * r.lqent), (r.ticket, 8), (r.tasktab, 32 * r.tasktabn),
   (r.ctrbase, 32 * r.ctrcount)]
    ++ cores.map (fun k => (sliceOf k + r.pooloff, 64 * r.poolent)) ++ cores.map (fun k => (sliceOf k + r.frameoff, 256 * r.frames))
    ++ (s.grids.filter fun g => g.ctx == c.id && !(g.allEnded)).map (fun g => (g.kernel, 64))
    ++ unread.map (fun a => (s.slice.num (a + 16) 8, 64))
    ++ (s.groups.filter fun g => g.ctx == c.id).map (fun g => (g.spill, g.spillLen))

/-- Whether no recorded task runs, in a wave or in one that waits for room after a resume, or is ready, spilled or binned, and no
recording is in flight (R363). -/
def State.recordingQuiet (s : State) (cid : Nat) : Bool :=
  ((s.waves ++ s.limbo.flatMap (·.waves)).all fun w => w.ctx != cid || w.tasks.all fun t => t.2.trace == 0)
  && (s.tasks.all fun t => t.ctx != cid || t.ref.trace == 0 || t.st == .held || match t.st with | .waiting .. => true | _ => false)
  && (s.flight.all fun a => a.ctx != cid || !a.traced)

/-- Recorded tasks that are held or waiting (R363). -/
def State.recordedHeld (s : State) (cid : Nat) : Nat :=
  (s.tasks.filter fun t => t.ctx == cid && t.ref.trace != 0 && (t.st == .held || match t.st with | .waiting .. => true | _ => false)).length

/-- The root record that `trrec` writes (R361). -/
def rootRecord : TTask where
  off := rootOff
  parent := 0
  children := []
  entry := 0
  args := [0, 0, 0, 0]
  key := 0
  scount := 0
  stale := false
  new_ := false
  ended := true
  depth := 0
  order := []

/-- The stale count (R337, R352). -/
def Trace.staleCount (t : Trace) : Nat := ((t.task? rootOff).map (·.scount)).getD 0

/-- A wave whose tasks are recorded no longer. -/
def Wave.untraced (w : Wave) : Wave := { w with tasks := w.tasks.map fun t => (t.1, { t.2 with trace := 0 }) }

/-- Recorded tasks go on as ordinary tasks after `trdrop` (R365). -/
def State.untrace (s : State) (cid : Nat) : State :=
  let fs := (s.tasks.filter fun t => t.ctx == cid).filterMap (·.frame)
  let s := fs.foldl (fun s f => { s with slice := s.slice.setNum (f + 24) 8 0 }) s
  { s with
    tasks := updWhere (fun t => t.ctx == cid) (fun t => { t with ref := { t.ref with trace := 0 } }) s.tasks
    waves := updWhere (fun w => w.ctx == cid) Wave.untraced s.waves
    limbo := updWhere (fun l => l.ctx == cid) (fun l => { l with waves := l.waves.map Wave.untraced }) s.limbo }

/-! ## The walk (R353) -/

/-- The first stale task of a list of siblings and their subtrees, in pre-order (R353). -/
def Trace.firstStale (t : Trace) : Nat → List Nat → Option Nat
  | 0, _ => none
  | _ + 1, [] => none
  | n + 1, o :: rest =>
    match t.task? o with
    | none => t.firstStale n rest
    | some x =>
      if x.stale then some o
      else if 0 < x.scount then
        match t.firstStale n x.children with
        | some y => some y
        | none => t.firstStale n rest
      else t.firstStale n rest

/-- The next stale task after the subtree of `o`: among its later siblings, then its ancestors' (R353). -/
def Trace.staleAfter (t : Trace) (fuel : Nat) : Nat → Nat → Option Nat
  | 0, _ => none
  | n + 1, o =>
    match t.task? o with
    | none => none
    | some x =>
      if x.parent = 0 then none else
      let sibs := ((t.task? x.parent).map (·.children)).getD []
      match t.firstStale fuel (sibs.drop (sibs.idxOf o + 1)) with
      | some y => some y
      | none => t.staleAfter fuel n x.parent

/-- The task that the walk visits next, from the one it visited last (R353). -/
def Trace.nextStale (t : Trace) (o : Nat) : Option Nat :=
  let fuel := 70 * (t.tasks.length + 1)
  match t.firstStale fuel (((t.task? o).map (·.children)).getD []) with
  | some y => some y
  | none => t.staleAfter fuel 70 o

/-- Whether a write of a wave that the walk launched is still on its way to its home. -/
def State.walkWrites (s : State) (k : Walk) : Bool :=
  s.flight.any fun a => k.waves.contains a.wave && a.kind.writes && !a.finished

/-- The writes of a propagation, its reverts among them, as one landing that the phase at the object counts (R79, R358): whoever finds that
phase complete sees them, whatever object their region is bound to. -/
def State.walkLand (s : State) (cid : Nat) (k : Walk) : State :=
  let s := s.flushHeld cid fun h => k.waves.contains h.wave
  let phase := objPhase s.slice k.obj
  s.updCtx cid fun c => { c.updObj k.obj (fun o => { o with counted := (phase, k.id) :: o.counted }) with
    versions := updWhere (fun v => k.waves.contains v.by_ || v.op == k.id)
      (fun v => { v with by_ := 0, op := k.id, land := k.id, issuer := k.by_.wave }) c.versions }

/-- The walk has ended, once its writes are performed (R358): the trace is live and one arrival, which no election counts, reaches the
object, in no clk in which bytes were counted there before (R19). -/
def State.walkEnd (s : State) (cid : Nat) (t : Trace) (k : Walk) : State :=
  if s.walkWrites k || s.landedNow k.obj then s else
  (((s.setTrace cid { t with state := 2, walk := none }).walkLand cid k).objArrive cid k.obj 1 []
    { code := 0x30, source := 3, queue := k.by_.queueField (dieOf k.by_.core) 0, issuer := k.by_.ident, pc := k.by_.pc })

/-- The walk goes on from the task it visited last, and ends when no stale task follows (R353, R358). -/
def State.walkOn (s : State) (cid : Nat) : State :=
  let t := (s.ctx cid).trace
  match t.walk with
  | none => s
  | some k => if (t.nextStale k.visit).isNone then s.walkEnd cid t k else s

/-- Replace a trace at the end of a request, which is then done as `k` says; where a page fails, the unit reports and waits with the request
(R336, R360). -/
def State.traceEffect (s : State) (r : Request) (t : Trace) (k : State → State) : State :=
  let cid := r.req.by_.ctx
  let i := r.req.by_
  match s.writeTrace cid t with
  | .ok s => k (s.updCtx cid fun c => { c with trace := { t with unclear := [] } })
  | .error a =>
    (s.updCtx cid fun c => { c with trace := { c.trace with stalled := true } }).report cid
      { code := 0xA1, source := 3, queue := i.queueField (dieOf i.core) 0, issuer := i.ident, pc := i.pc, address := a }

/-- The walk of an accepted propagation, at the root (R353, R364). -/
def startWalk (r : Request) (obj : Nat) : Walk where
  id := r.id
  visit := rootOff
  cur := none
  waves := []
  oldChildren := []
  matched := []
  cursor := 0
  obj := obj
  by_ := r.req.by_

/-- `propagate` is performed (R364). -/
def State.performPropagate (s : State) (r : Request) (t : Trace) (obj : Nat) : State :=
  let cid := r.req.by_.ctx
  let answer := fun (s : State) (v : W64) => s.requestDone r (some v)
  match t.state with
  | 0 => answer s 1
  | 1 => answer s 2
  | 3 => answer s 3
  | 2 => s.traceEffect r { t with state := 3, counts := [0, 0, 0, 0, 0], walk := some (startWalk r obj) } fun s =>
    answer (s.walkOn cid) 0
  | _ => answer s 4

/-- `mdecl` is performed (R346, R362): its region and a zero shadow array, or TRACE_FULL. -/
def State.performDecl (s : State) (r : Request) (t : Trace) (base len : Nat) (b : W64) : State :=
  let cid := r.req.by_.ctx
  let c := s.ctx cid
  if t.state ≠ 1 ∧ t.state ≠ 2 then s.requestFault r 0x65 (BitVec.ofNat 64 t.state)
  else if !(s.inContext c base len) || (t.regions.any fun x => overlap base len x.base x.len) || 16 ≤ t.regions.length
      || hitsFixed base len (s.fixedRanges c) then s.requestFault r 0x66 b
  else
    match t.alloc (len / 8) 1 with
    | none => (s.traceFull cid base).requestDone r none
    | some (off, t) =>
      let n := 2 ^ 28 * t.regions.length
      s.traceEffect r { t with regions := t.regions ++ [⟨base, len, off⟩], unclear := [] } fun s =>
        let zeros := (List.range (len / 8)).map fun i => (16 * (off + i), List.replicate 16 (0 : Byte))
        match s.writeTraceBytes cid t.base zeros with
        | .ok s => s.requestDone r none
        | .error a =>
          ((s.updCtx cid fun c => { c with trace := { c.trace with
              stalled := true, unclear := (List.range (len / 4)).map fun i => n + i } }).report cid
            { code := 0xA1, source := 3, queue := r.req.by_.queueField (dieOf r.req.by_.core) 0, issuer := r.req.by_.ident,
              pc := r.req.by_.pc, address := a }).requestDone r none

/-- `trstat` is performed (R345, R366). -/
def State.performStat (s : State) (r : Request) (t : Trace) (a : Nat) : State :=
  let v := BitVec.ofNat 64 (t.state + 2 ^ 32 * (if t.state = 0 then 0 else t.staleCount))
  let head := if t.state = 0 then List.replicate 64 0 else t.header
  let s := if a = 0 then s
    else if (s.ctx r.req.by_.ctx).modifiable a 64 then
      s.report r.req.by_.ctx { code := 0x60, source := 3, queue := r.req.by_.queueField (dieOf r.req.by_.core) 0,
                               issuer := r.req.by_.ident, pc := r.req.by_.pc, address := a }
    else s.perform r.req.by_.ctx (.ofOp r.id 0 r.req.by_.wave) a head
  s.requestDone r (some v)

/-- STRATA_REQUEST_PERFORM (R360 to R366). The oldest request of a core's queue is performed after its release: its effect is
applied, or refused by the state that the trace then has, and its wave goes on. -/
def execStrataRequestPerform (req : Nat) (s : State) : Out :=
  .next (
    match s.requests.find? fun r => r.id == req with
    | none => s
    | some r =>
      let i := r.req.by_
      let cid := i.ctx
      let t := (s.ctx cid).trace
      let op := fun k => (r.req.ops.getD k 0).toNat
      let earlier := s.requests.any fun x => x.req.by_.ctx == cid && x.req.by_.core == i.core && decide (x.id < r.id)
        && x.req.kind != .lrfl && x.req.kind != .lrins
      let scope := reachScope false (slScope i.slot)
      let ok := s.released i.wave i.seq scope i.core
      if t.stalled || earlier || (r.req.kind != .trstat && !ok) then s else
      let s := if r.req.kind = .trstat then s else s.flushFor i scope
      let state := BitVec.ofNat 64 t.state
      match r.req.kind with
      | .trrec =>
        if t.state ≠ 0 then s.requestFault r 0x65 state else
        let t' := { Trace.empty with state := 1, base := op 0, len := op 1, tasks := [rootRecord] }
        s.traceEffect r t' fun s => s.requestDone r none
      | .mdecl => s.performDecl r t (op 0) (op 1) (r.req.ops.getD 0 0)
      | .trstop =>
        if t.state ≠ 1 ∧ !(t.state = 4 ∧ t.fullRec) then s.requestFault r 0x65 state
        else if !(s.recordingQuiet cid) then s
        else
          let n := s.recordedHeld cid
          let t' := if 0 < n then { t with state := 4, result := 0x65 } else if t.state = 1 then { t with state := 2 } else t
          s.traceEffect r t' fun s => s.requestDone r (some (BitVec.ofNat 64 (t'.state + 2 ^ 32 * n)))
      | .trdrop =>
        if t.state ≠ 2 ∧ t.state ≠ 4 then s.requestFault r 0x65 state
        else if t.state = 4 && !(s.recordingQuiet cid) then s
        else
          let t' := { t with state := 0, regions := [], tasks := t.tasks.take 1, reads := [], writes := [], writers := [] }
          s.traceEffect r t' fun s => ((s.untrace cid).updCtx cid fun c => { c with trace := Trace.empty }).requestDone r none
      | .trstat => s.performStat r t (op 0)
      | .propagate => s.performPropagate r t (op 0)
      | _ => s)

/-! ## Re-execution (R354 to R357) -/

/-- Free the units of some records and drop them. -/
def Trace.freeReads (t : Trace) (p : TRead → Bool) : Trace :=
  let gone := (t.reads.filter p).map (·.off)
  gone.foldl (fun t o => t.release o) { t with reads := t.reads.filter fun r => !(p r) }

/-- The same for write records. -/
def Trace.freeWrites (t : Trace) (p : TWrite → Bool) : Trace :=
  let gone := (t.writes.filter p).map (·.off)
  gone.foldl (fun t o => t.release o) { t with writes := t.writes.filter fun r => !(p r) }

/-- RERUN_LAUNCH (R354, R358). The next stale task is cleaned, its reads retired, its writes and children set aside, and it is
launched alone in lane 0 of a wave on the propagation's core, once a slot is free.  Task-table modes with a reserved value are reported
ILLEGAL_MODE, and the task ends as it stands (R93, log 22).  With no stale task left, the walk ends. -/
def execRerunLaunch (ctx : Nat) (s : State) : Out :=
  .next (
    let c := s.ctx ctx
    let t := c.trace
    match t.walk with
    | none => s
    | some k =>
      if t.stalled || t.state ≠ 3 || k.cur.isSome || c.pre ≠ .none then s else
      match t.nextStale k.visit with
      | none => s.walkOn ctx
      | some o =>
        match t.task? o with
        | none => s
        | some x =>
          let quads := ((s.part? c.vf).map fun p => p.quadrants k.by_.core).getD []
          match quads.findSome? fun q => ((s.freeSlots q).head?).map fun sl => (q, sl) with
          | none => s
          | some (quad, slot) =>
            let t := (t.clean o).freeReads fun r => r.task == o
            let t := { t with writes := updWhere (fun r => r.task == o) (fun r => { r with held := 1 }) t.writes }
            let t := t.updTask o fun x => { x with children := [], ended := false }
            let ref : TaskRef :=
              { key := x.key, entry := x.entry, args := x.args, ctr := none, prio := 0, trace := o, spawned := false, decDone := [] }
            let f := s.fresh
            let raw := (s.taskEntry c x.entry).getD (leBytes 16 0)
            let k' := { k with
              visit := o, cur := some o, waves := f.1 :: k.waves, oldChildren := x.children, matched := [], cursor := 0 }
            if modesLegal raw then
              let w := s.taskWave ctx k.by_.core (quad % 4) slot f.1 (modesOf raw) x.entry [(ref, none)]
              let s := f.2.setTrace ctx { t with walk := some k' }
              { s with waves := s.waves ++ [w] }.count ctx 12 1
            else
              (s.report ctx { code := 0x02, source := 4 }).setTrace ctx
                { t.updTask o (fun x => { x with ended := true }) with walk := some k' })

/-- A task and its descendants, in pre-order (R356). -/
def Trace.subtree (t : Trace) : Nat → List Nat → List Nat
  | 0, _ => []
  | _ + 1, [] => []
  | n + 1, o :: rest =>
    match t.task? o with
    | none => t.subtree n rest
    | some x => o :: t.subtree n (x.children ++ rest)

/-- Revert the word of a write record (R356): its old value returns, it has no writer, and its readers are marked when the
value changed. -/
def State.revertWord (s : State) (cid walk : Nat) (t : Trace) (r : TWrite) : State × Trace :=
  let a := t.addrOf r.word.toNat
  let now := BitVec.ofNat 32 (s.slice.num a 4)
  let t := { t with writers := sset 0 r.word.toNat 0 t.writers }
  let t := (if now = r.old then t else t.markReaders r.word.toNat 0).bump 4 1
  (s.perform cid (.ofOp walk 0 0) a (leBytes 4 r.old.toNat), t)

/-- RERUN_END (R356, R357). The re-executed task has ended: unmatched children are discarded, their writes and those not made
again are reverted, held records settle, each with a kept writer in a report of its own, and the walk goes on. -/
def execRerunEnd (ctx : Nat) (s : State) : Out :=
  .next (
    let t := (s.ctx ctx).trace
    match t.walk with
    | none => s
    | some k =>
      match k.cur.bind t.task? with
      | none => s
      | some x =>
        if t.stalled || t.state ≠ 3 || !x.ended then s else
        let disc := t.subtree (2 * t.tasks.length + 2) (k.oldChildren.filter fun o => !(k.matched.contains o))
        let gone := fun o => disc.contains o
        let t := t.freeReads fun r => gone r.task
        let t := (disc.foldl (fun t o => t.clean o) t).bump 2 disc.length
        let back := (t.writes.filter fun r => gone r.task && t.writerOf r.word.toNat == r.task)
          ++ t.writes.filter fun r => r.task == x.off && r.held == 1
        let st := back.foldl (fun st r => State.revertWord st.1 ctx k.id st.2 r) (s, t)
        let t := st.2
        let clash := t.writes.filter fun r => r.held == 2 && !(gone r.task)
        let t := (t.freeWrites fun r => gone r.task || (r.task == x.off && r.held == 1)).bump 0 1
        let t := disc.foldl (fun t o => t.release o) { t with tasks := t.tasks.filter fun y => !(gone y.off) }
        let t := { t with walk := some { k with cur := none, oldChildren := [], matched := [], cursor := 0 } }
        if clash.isEmpty then (st.1.setTrace ctx t).walkOn ctx
        else (st.1.setTrace ctx t).traceFail ctx 0x62 (clash.map fun r => t.addrOf r.word.toNat))

end Sys2Proof.Machine
end

