-- ==== Sys2Proof/Machine/End.lean ====
section
/-! DEFINITION. `end` (R70, R131, R320). -/

namespace Sys2Proof.Machine

/-- The number before which an ending sub-wave waits for what was issued: taken when its `end` first issues (R131). -/
def SubWave.endSeq (q : SubWave) (s : State) : Nat :=
  match q.st with
  | .ending seq => seq
  | _ => s.nextId

/-- The successor decrements that an ending lane has still to send (R320): (lane, place, counter).  DESIGN CHOICE (log 39): a
successor at or above ctrcount, which only an ordinary store can leave in a record, is none (R315). -/
def State.successors (s : State) (w : Wave) (lane : Nat) : List (Nat × Nat × Nat) :=
  match w.taskOf lane with
  | none => []
  | some t =>
    match t.ctr with
    | none => []
    | some n =>
      (List.range 4).filterMap fun k =>
        let x := s.slice.num ((s.ctx w.ctx).ctrAddr n + 8 + 4 * k) 4
        if (s.ctx w.ctx).r.ctrcount ≤ x ∨ t.decDone.contains k then none else some (lane, k, x)

/-- `end` (R131). The sub-wave waits until what the wave issued before is done; then pending bound writes are performed, the
ending tasks' successors are decremented, and the quads exit. -/
def execEndq (s : State) : Out :=
  .next (s.onIssuer fun w q =>
    let seq := q.endSeq s
    if !(s.mayEnd w seq) then s.put { w with subs := { q with st := .ending seq } :: w.subs.tail, wait := .none }
    else
      let s := s.flushHeld w.ctx fun h => h.wave == w.id
      let w := { w with lastIssue := s.tick, wait := .none }
      let decs := if w.task then
          (lanesOf fun l => hasQuad q.quads l && w.isWorking l).flatMap fun l => s.successors w l
        else []
      if decs.isEmpty then (s.put w).finishEnd w.id q.quads
      else
        let c := s.ctx w.ctx
        let units := decs.map fun d =>
          mkUnit d.1 (c.ctrAddr d.2.2) 4 false (BitVec.ofNat 64 d.2.2) d.2.1 false
        let acc := s.nextId
        let s := s.subWait w q fun id => mkAccess id w q 0 (.decs true) noOrder units
        s.sendDecs w acc (decs.map fun d => (d.1, d.2.2)))

end Sys2Proof.Machine
end

