-- ==== Sys2Proof/Machine/Slip.lean ====
section
/-! DEFINITION. The Slip copy engines (R235 to R258): layout records and their cache, the copy forms sector by sector,
histograms, `wsig`, batches, queue fences, and how an operation is refused or stops on a page fault. -/

namespace Sys2Proof.Machine

/-! ## Writes of an engine, and the record cache (R82, R240, R345) -/

/-- Where an engine may write `n` bytes: no byte in a modifiable region (R345), and a tile block not across slices
(R82). -/
def State.engDest (s : State) (c : Context) (ow : Owner) (a n sector : Nat) (tile : Bool) : Except EngErr (List Chunk) :=
  match s.engChunks c ow a n true with
  | .error e => .error e
  | .ok xs =>
    if tile && xs.any fun x => !x.ext && homeCore x.addr != homeCore (x.addr + x.n - 1) then
      .error (.refuse 0x41 (some sector) a)
    else if xs.any fun x => !x.ext && c.modifiable x.addr x.n then .error (.refuse 0x60 none a)
    else .ok xs

/-- Write bytes to chunks, for an operation and one of its landings. -/
def State.engPut (s : State) (cid : Nat) (by_ : Writer) : List Chunk → List Byte → State
  | [], _ => s
  | x :: t, bs =>
    let s := if x.ext then { s with ext := s.ext.setBytes x.addr (bs.take x.n) } else s.perform cid by_ x.addr (bs.take x.n)
    s.engPut cid by_ t (bs.drop x.n)

/-- Put an entry into a die's cache of 128, in the place of the least recently used one that is not pinned (R240). -/
def State.cachePut (s : State) (e : CacheEntry) : State :=
  let l := s.cache.filter fun x => !(x.ctx == e.ctx && x.die == e.die && x.handle == e.handle)
  let mine := l.filter fun x => x.die == e.die
  let l := if mine.length < 128 then l else
    match mine.find? fun x => !x.pinned with
    | some old => l.filter fun x => x != old
    | none => l
  { s with cache := if (l.filter fun x => x.die == e.die).length < 128 then l ++ [e] else l }

/-- A record as an operation on a die reads it when it begins (R240): from the cache, moved to its newest place, or from
memory and cached. -/
def State.readRecord (s : State) (c : Context) (ow : Owner) (die h : Nat) : Except EngErr (List Byte × State) :=
  let loc := s.recordAt c ow h
  match s.cached c.id die loc with
  | some e => .ok (e.bytes, s.cachePut { e with used := s.tick })
  | none =>
    match s.engRead c ow h 192 0 with
    | .error e => .error e
    | .ok b => .ok (b, s.cachePut ⟨c.id, die, loc, false, b, s.tick⟩)

/-- The link with a number. -/
def State.link? (s : State) (n : Nat) : Option Link := s.links.find? fun l => l.num == n

/-- The job-table entry for a remote module, when it may be reached (R415, R416, R418). -/
def State.jobEntry (s : State) (c : Context) (m : Nat) : Option W32 :=
  let e := c.jobTable.getD m 0
  match s.link? (bitsOf e.toNat 12 4) with
  | none => none
  | some l =>
    if decide (m < c.r.jobn) && e.getLsbD 16 && l.st != LinkState.down && (!(s.isSecure c) || (e.getLsbD 17 && l.secure))
    then some e else none

/-! ## Queues (R76, R77, R235) -/

/-- The operations of a queue, oldest first. -/
def State.slipQueue (s : State) (cid : Nat) (ow : Owner) (q : Nat) : List SlipOp :=
  s.slip.filter fun o => o.req.by_.ctx == cid && o.req.owner == ow && o.req.queue == q

/-- Whether an operation is the oldest of its queue. -/
def State.slipHead (s : State) (o : SlipOp) : Bool :=
  ((s.slipQueue o.req.by_.ctx o.req.owner o.req.queue).head?).any fun x => x.id == o.id

/-- The request of the issuing wave. -/
def State.engReq (s : State) (w : Wave) (q : SubWave) (sl : W32) (lane : Nat) (kind : EngKind) (queue : Nat) (ops : List W64)
    (flag : Bool) (dst : Nat) : EngReq where
  kind := kind
  owner := w.owner
  queue := queue
  ops := ops
  flag := flag
  dst := dst
  by_ := w.issuer q sl lane s.nextId

/-- A queued operation that has not begun. -/
def SlipOp.start (id die : Nat) (r : EngReq) : SlipOp where
  id := id
  req := r
  die := die
  st := .queued
  record := []
  desc := []
  list := []
  total := 0
  done := []
  counted := 0
  applied := 0
  progress := 0
  batch := none
  asked := 0

/-- Whether a request advances its leader's grain counter by 34 (R248). -/
def EngReq.draws (r : EngReq) : Bool := r.kind == .cpt && r.flag && decide (slRound r.by_.slot = 4)

/-- A queue accepts a request (R235): the operation joins the wave's unsealed ones, and a `cpt` store under rsr takes its
draws. -/
def State.slipPush (s : State) (r : EngReq) : State :=
  let f := s.fresh
  let s := { f.2 with slip := f.2.slip ++ [SlipOp.start f.1 (dieOf r.by_.core) { r with by_ := { r.by_ with seq := f.1 } }] }
  s.updWave r.by_.wave fun w =>
    let w := { w with unsealedC := w.unsealedC ++ [f.1] }
    match w.subs.head? with
    | some q => if r.draws then w.advanceGrain (fun l => w.leader q r.by_.slot == some l) 34 else w
    | none => w

/-- Queues that a mask names. -/
def maskQueues (m : Nat) : List Nat := (List.range 4).filter fun q => m.testBit q

/-- A fence entry in each queue of its mask (R254); they share one issue number. -/
def State.fencePush (s : State) (r : EngReq) : State :=
  let seq := s.nextId
  (maskQueues (r.op 0)).foldl (fun s q =>
    let f := s.fresh
    { f.2 with slip := f.2.slip ++ [SlipOp.start f.1 (dieOf r.by_.core)
        { r with queue := q, by_ := { r.by_ with seq := seq } }] }) s

/-- Whether a request's queues have room (R235). -/
def State.slipRoom (s : State) (r : EngReq) : Bool :=
  let qs := if r.kind = .qfence then maskQueues (r.op 0) else [r.queue]
  qs.all fun q => decide ((s.slipQueue r.by_.ctx r.owner q).length < 32)

/-- The queue takes a request. -/
def State.slipAccept (s : State) (r : EngReq) : State := if r.kind = .qfence then s.fencePush r else s.slipPush r

/-- The unsealed operations of a wave that are still to be performed: one that has been performed or refused has left its entry, and
the next `sealc` still closes it into its batch (R253). -/
def State.unsealedLeft (s : State) (w : Wave) : Nat := (w.unsealedC.filter fun i => s.slip.any fun o => o.id == i).length

/-- An ASYNC instruction that queues an operation (R236): with no Active lane it does nothing; a wave with 64 unsealed
operations is not ready until one leaves (R253). -/
def State.asyncOp (s : State) (m : BitVec 2) (k : Wave → SubWave → W32 → Nat → State) : State :=
  s.taskOp m fun w q sl ls => if 64 ≤ s.unsealedLeft w then s.stall w q else k w q sl (ls.headD 0)

/-- Ask a Slip queue of the issuing wave to take a request (R17, R236): accepted, and the wave goes on; or the wave stalls
on the full queue. -/
def State.slipIssue (s : State) (w : Wave) (q : SubWave) (sl : W32) (lane : Nat) (kind : EngKind) (queue : Nat)
    (ops : List W64) (flag : Bool) : State :=
  let s := s.sendCombiner w.id
  let r := s.engReq w q sl lane kind queue ops flag 0
  if s.slipRoom r then (s.retire w).slipAccept r
  else s.put { w with wait := .queue r, lastIssue := s.tick }

/-! ## Issue (R244, R245) -/

/-- Whether an address lies in slice space or, for a grid wave, in the window's range, at an alignment (R245). -/
def Wave.engRange (w : Wave) (a : W64) (align : Nat) : Bool :=
  decide (a.toNat % align = 0) &&
    (inSlice a.toNat || (!w.task && decide (Config.windowBase ≤ a.toNat ∧ a.toNat < Config.sliceBase)))

/-- Whether an object operand is accepted (R245). -/
def Wave.objectOk (w : Wave) (o : W64) : Bool := o == 0 || w.engRange o 32

/-- Whether a named object has a byte in a modifiable region (R346). -/
def State.objectModifiable (s : State) (w : Wave) (o : W64) : Bool :=
  match s.resolve w o.toNat with
  | .ok p => o != 0 && (s.ctx w.ctx).modifiable p.1 32
  | .error _ => false

/-- Whether a record handle is accepted (R245). -/
def handleOk (h : W64) : Bool := h != 0 && decide (h.toNat % 64 = 0)

/-- An ASYNC instruction with a record, a descriptor and an object (R245, R346). -/
def State.recordCopy (s : State) (kind : EngKind) (a b c : BitVec 6) (m : BitVec 2) (x q : Nat) : State :=
  s.asyncOp m fun w sub sl lane =>
    let h := w.s a.toNat
    let d := w.s b.toNat
    let o := w.s c.toNat
    if !(handleOk h) then s.raise w sub 0x82 h
    else if !(w.engRange d 8) then s.raise w sub 0x82 d
    else if !(w.objectOk o) then s.raise w sub 0x82 o
    else if s.objectModifiable w o then s.raise w sub 0x60 o
    else s.slipIssue w sub sl lane kind q [h, d, o] (decide (x = 1))

/-- `cpt` (R245, R247). -/
def execCpt (a b c : BitVec 6) (m : BitVec 2) (x : BitVec 1) (q : BitVec 2) (s : State) : Out :=
  .next (s.recordCopy .cpt a b c m x.toNat q.toNat)
/-- `cptt` (R245, R247). -/
def execCptt (a b c : BitVec 6) (m : BitVec 2) (x : BitVec 1) (q : BitVec 2) (s : State) : Out :=
  .next (s.recordCopy .cptt a b c m x.toNat q.toNat)
/-- `cpg` (R245, R247). -/
def execCpg (a b c : BitVec 6) (m : BitVec 2) (q : BitVec 2) (s : State) : Out :=
  .next (s.recordCopy .cpg a b c m 0 q.toNat)
/-- `cps` (R245, R247). -/
def execCps (a b c : BitVec 6) (m : BitVec 2) (x : BitVec 1) (q : BitVec 2) (s : State) : Out :=
  .next (s.recordCopy .cps a b c m x.toNat q.toNat)

/-- Whether a module field names a module of a job (R245). -/
def moduleOk (m : Nat) : Bool := decide (m = 0xFFFF) || decide (m < 4096)

/-- `cpl` (R245, R247). -/
def execCpl (a b c : BitVec 6) (m q : BitVec 2) (s : State) : Out :=
  .next (s.asyncOp m fun w sub sl lane =>
    let r := (s.ctx w.ctx).r
    let lm := w.s (a.toNat + 1)
    let o := w.s c.toNat
    let src := bitsOf lm.toNat 32 16
    let dst := bitsOf lm.toNat 48 16
    if !(moduleOk src) || !(moduleOk dst) || ((remoteOf r src).isSome && (remoteOf r dst).isSome) then s.raise w sub 0x82 lm
    else if !(w.objectOk o) then s.raise w sub 0x82 o
    else if s.objectModifiable w o then s.raise w sub 0x60 o
    else s.slipIssue w sub sl lane .cpl q.toNat [w.s a.toNat, lm, w.s b.toNat, o] false)

/-- `wsig` (R245, R250). -/
def execWsig (a b c : BitVec 6) (m : BitVec 2) (x : BitVec 1) (q : BitVec 2) (s : State) : Out :=
  .next (s.asyncOp m fun w sub sl lane =>
    let sig := w.s (a.toNat + 1)
    let lm := w.s (b.toNat + 1)
    if sig.toNat % 8 ≠ 0 ∨ inSlice sig.toNat = false then s.raise w sub 0x82 sig
    else if bitsOf lm.toNat 48 16 ≠ 0 ∨ moduleOk (bitsOf lm.toNat 32 16) = false then s.raise w sub 0x82 lm
    else s.slipIssue w sub sl lane .wsig q.toNat [w.s a.toNat, sig, w.s b.toNat, lm, w.s c.toNat]
      (decide (x = 1)))

/-- `hgrd` (R245, R249). -/
def execHgrd (a b c : BitVec 6) (m q : BitVec 2) (s : State) : Out :=
  .next (s.asyncOp m fun w sub sl lane =>
    let d := w.s a.toNat
    let h := w.s b.toNat
    let o := w.s c.toNat
    let bad := fun (v : W64) => decide (v.toNat % 64 ≠ 0) || !(inSlice v.toNat)
    if bad d then s.raise w sub 0x82 d
    else if bad h then s.raise w sub 0x82 h
    else if !(w.objectOk o) then s.raise w sub 0x82 o
    else if s.objectModifiable w o then s.raise w sub 0x60 o
    else s.slipIssue w sub sl lane .hgrd q.toNat [d, h, o] false)

/-- `qfence` (R254): whatever the guard, a fence in each queue of the mask; a mask of 0 does nothing. -/
def execQfence (k : BitVec 4) (m : BitVec 2) (s : State) : Out :=
  .next (s.onIssuer fun w q =>
    if k = 0 then s.retire w
    else s.slipIssue w q (w.slotOf m.toNat) ((w.lowestWorking q.quads).getD 0) .qfence 0 [k.setWidth 64] false)

/-- `sealc` (R253): whatever the guard, the unsealed operations close into one batch.  As a release it sends the wave's combiner entries
(R236, R259); it requests no operation whose reads its slot's scope would delay (R74), and its batch completes with its operations. -/
def execSealc (a : BitVec 6) (_m : BitVec 2) (s : State) : Out :=
  .next (s.onIssuer fun w q =>
    if w.unsealedC.isEmpty then (s.sendCombiner w.id).retire (w.setS a.toNat (BitVec.allOnes 64))
    else if 14 ≤ (s.openBatches w.batchesC).length then s.stall w q
    else
      let ops := w.unsealedC
      let s := s.sendCombiner w.id
      let s := { s with slip := updWhere (fun o => ops.contains o.id) (fun o => { o with batch := some w.nextC }) s.slip }
      s.retire { w.setS a.toNat (w.nextC.setWidth 64) with
        unsealedC := []
        batchesC := w.batchesC ++ [⟨w.nextC, ops, q.pc⟩]
        nextC := w.nextC + 1 })

/-- `lrfl` and `lrins`: the wave waits until every die has done it (R251, R252). -/
def State.recordControl (s : State) (kind : EngKind) (a : BitVec 6) (m : BitVec 2) : State :=
  s.taskOp m fun w q sl ls =>
    let h := w.s a.toNat
    if !(handleOk h) then s.raise w q 0x82 h else s.requestWait w q sl (ls.headD 0) kind [h] 0

/-- `lrfl` (R251). -/
def execLrfl (a : BitVec 6) (m : BitVec 2) (s : State) : Out := .next (s.recordControl .lrfl a m)
/-- `lrins` (R252). -/
def execLrins (a : BitVec 6) (m : BitVec 2) (s : State) : Out := .next (s.recordControl .lrins a m)

/-! ## Reports, marks and the end of an operation (R253, R255 to R257) -/

/-- Whether the issuer of an operation has ended (R257). -/
def State.issuerGone (s : State) (i : Issuer) : Bool :=
  match s.wave? i.wave with
  | none => true
  | some w => w.task && !(w.tasks.any fun t => w.ident t.1 == i.laneIdent)

/-- The object operand of a Slip or Sieve request; zero for none. -/
def EngReq.object (r : EngReq) : Nat :=
  match r.kind with
  | .cpl => r.op 3
  | .cpt | .cptt | .cpg | .cps | .hgrd | .svbin | .svpair | .svcheck => r.op 2
  | _ => 0

/-- The slice address of an operation's object, where it names one that is mapped. -/
def State.objectAt (s : State) (r : EngReq) : Option Nat :=
  if r.object = 0 then none else s.engSlice (s.ctx r.by_.ctx) r.owner r.object 32

/-- The report of a Slip operation (R257): a code, an address and a value; a free value where no rule states one. -/
def State.slipReport (s : State) (o : SlipOp) (code addr : Nat) (value : Option Nat) : State :=
  let i := o.req.by_
  let obj := if o.req.object ≠ 0 then o.req.object else
    match o.batch with
    | some n => 2 ^ 63 + n.toNat
    | none => 0
  s.report i.ctx
    { code := code, source := 1,
      flags := (if s.issuerGone i then 1 else 0) + (if o.progress ≠ 0 then 2 else 0) + (if (s.objectAt o.req).isSome then 8 else 0)
      queue := i.queueField o.die o.req.queue, issuer := i.ident, pc := i.pc, object := obj, address := addr,
      progress := o.progress, value := value }

/-- Mark an operation's object faulted (R255, R256). -/
def State.markObject (s : State) (r : EngReq) : State :=
  match s.objectAt r with
  | some a => s.markFaulted a
  | none => s

/-- Take the flits that satisfy a test out of the replay buffers (R414). -/
def State.dropFlits (s : State) (p : Flit → Bool) : State :=
  { s with links := s.links.map fun l => { l with replay := l.replay.filter fun f => !(p f) } }

/-- An operation leaves its queue, and its group with it when nothing else keeps it. -/
def State.slipLeave (s : State) (o : SlipOp) : State :=
  let s := { s with
    slip := s.slip.filter fun x => x.id != o.id
    transfers := s.transfers.filter fun t => t.op != o.id }.dropFlits fun f => f.op == o.id
  match o.req.owner with
  | .group g => s.tryLeave g
  | .core _ => s

/-- An operation is refused (R256): reported, its object marked, complete for its batch. -/
def State.slipRefuse (s : State) (o : SlipOp) (code addr : Nat) (value : Option Nat) : State :=
  ((s.slipReport { o with progress := 0 } code addr value).markObject o.req).slipLeave o

/-- Replace an operation. -/
def State.setSlip (s : State) (o : SlipOp) : State := { s with slip := updWhere (fun x => x.id == o.id) (fun _ => o) s.slip }

/-- The lowest sector that has not been performed. -/
def SlipOp.low (o : SlipOp) : Nat := ((List.range (o.done.length + 1)).find? fun k => !(o.done.contains k)).getD 0

/-- Bit k of the window field: sector low + k is performed (R255). -/
def SlipOp.windowBits (o : SlipOp) : Nat :=
  (List.range 64).foldl (fun b k => if o.done.contains (o.low + k) then b + 2 ^ k else b) 0

/-- The 64 bytes of a progress record (R255). -/
def SlipOp.progressBytes (o : SlipOp) (fsect entry tick : Nat) : List Byte :=
  leBytes 8 o.low ++ leBytes 8 o.windowBits ++ leBytes 8 fsect ++ leBytes 8 o.total ++ leBytes 8 o.counted ++ leBytes 8 entry
    ++ leBytes 8 tick ++ leBytes 8 0

/-- The place of a new progress record: the first 64 bytes of the save area that no other operation's has taken.  DESIGN
CHOICE (log 27): R255 leaves the place to the K9. -/
def State.progressPlace (s : State) (c : Context) (o : SlipOp) : Nat :=
  if o.progress ≠ 0 then o.progress else
  let used := (s.slip ++ s.limbo.flatMap (·.slip)).filterMap fun x => if x.req.by_.ctx == c.id && x.progress != 0 then some x.progress else none
  ((List.range (used.length + 1)).map fun k => c.r.save + 64 * k).find? (fun a => !(used.contains a)) |>.getD c.r.save

/-- Write an operation's progress record with this fsect, where the save area can be written (R255); and its address, 0 for none. -/
def State.writeProgress (s : State) (o : SlipOp) (fsect : Nat) : State × Nat :=
  let c := s.ctx o.req.by_.ctx
  let f := s.free
  let a := s.progressPlace c o
  if o.total = 0 then (s, 0)
  else if a + 64 ≤ c.r.save + c.r.savelen then
    match s.engChunks c o.req.owner a 64 true with
    | .ok xs => (f.2.engPut c.id (.ofOp o.id 0 o.req.by_.wave) xs (o.progressBytes fsect f.1.toNat s.tick), a)
    | .error _ => (s, 0)
  else (s, 0)

/-- The walk of an address of sector `k` fails, or of what the operation reads as it begins (R255): a progress record where the
save area can be written, the report, the mark, and the queue stops. -/
def State.slipStop (s : State) (o : SlipOp) (k addr : Nat) : State :=
  let p := s.writeProgress o k
  let s := p.1
  let o := { o with st := .stopped k addr, progress := p.2 }
  ((s.setSlip o).slipReport o 0xA1 addr (if o.total = 0 then none else some k)).markObject o.req

/-- What an error of an operation does to it; `k` is the sector. -/
def State.slipFail (s : State) (o : SlipOp) (k : Nat) (e : EngErr) : State :=
  match e with
  | .refuse code value addr => s.slipRefuse o code addr value
  | .page addr => s.slipStop o k addr

/-! ## Beginning (R240, R241, R243, R256) -/

/-- The checks of a copy against its record and descriptor, in the order of R256's table; none when it may begin. -/
def SlipOp.copyFault (o : SlipOp) (local_ : Bool) : Option EngErr :=
  let l := layoutOf o.record
  let d := o.desc
  let quant := (byteAt d 28).getLsbD 0
  let bad := fun v => some (EngErr.refuse 0x80 (some v) 0)
  if 1 < (byteAt d 28).toNat ∨ field d 29 3 ≠ 0 then bad 4
  else if l.tiled = true ∧ (descCoord d 0 % 16 ≠ 0 ∨ descCoord d 1 % 16 ≠ 0) then bad 5
  else if !local_ then bad 7
  else if (o.req.kind = .cptt ∧ (l.tiled = false ∨ quant = true)) ∨
      (quant = true ∧ (o.req.flag = false ∨ l.tiled = false ∨ ¬ [2, 5, 6].contains l.etype)) then bad 8
  else if quant = true ∧ l.tag = 3 then some (.refuse 0x40 (some 0) 0)
  else if l.policy = 1 then
    match l.outDim d with
    | some k => some (.refuse 0x83 (some k) 0)
    | none => none
  else none

/-- Whether a scatter adds f32 elements (R272). -/
def SlipOp.floatScatter (o : SlipOp) : Bool := o.req.kind == .cps && o.req.flag && (layoutOf o.record).etype == 2

/-- The checks of a gather or scatter before its list is read. -/
def SlipOp.gatherFault (o : SlipOp) (local_ task det : Bool) : Option EngErr :=
  let l := layoutOf o.record
  let d := o.desc
  let bad := fun v => some (EngErr.refuse 0x80 (some v) 0)
  let adds := o.req.kind == .cps && o.req.flag
  if field d 20 12 ≠ 0 ∨ 65536 < field d 16 4 then bad 4
  else if !local_ ∨ inSlice (field d 8 8) = false ∨ field d 8 8 % 4 ≠ 0 then bad 7
  else if l.tiled = true ∨ l.ndim ≠ 2 ∨ (adds = true ∧ (l.elem ≠ 2 ∨ ¬ [0, 1, 2].contains l.etype ∨ inExt l.base = true)) then bad 9
  else if o.floatScatter && task && det then bad 12
  else none

/-- The list of a gather or scatter, and the refusal of an index out of bounds under policy 1 (R241). -/
def State.readList (s : State) (c : Context) (o : SlipOp) : Except EngErr SlipOp :=
  let n := field o.desc 16 4
  match (if n = 0 then .ok [] else s.engRead c o.req.owner (field o.desc 8 8) (4 * n) 0) with
  | .error e => .error e
  | .ok b =>
    let l := layoutOf o.record
    if l.policy = 1 && (List.range n).any (fun k => decide (nth l.size 1 ≤ listAt b k)) then .error (.refuse 0x83 (some 5) 0)
    else .ok { o with list := b }

/-- The checks of an operation whose record and descriptor have been read, and its list (R240, R241, R256). -/
def State.beginChecked (s : State) (c : Context) (o : SlipOp) : Except EngErr SlipOp :=
  let l := layoutOf o.record
  let near := inSlice (localOf o.desc) || (match o.req.owner with
    | .group _ => decide (Config.windowBase ≤ localOf o.desc ∧ localOf o.desc < Config.sliceBase)
    | .core _ => false)
  let hist := l.hist == 0 || !(o.quantises) || (s.engSlice c o.req.owner l.hist 256).isSome
  if o.req.kind = .cpt ∨ o.req.kind = .cptt then
    match o.copyFault (near && hist) with
    | some e => .error e
    | none => .ok o
  else
    match o.gatherFault near o.req.by_.task c.r.det with
    | some e => .error e
    | none => s.readList c o

/-- An operation with a record begins: the record, which the die's cache keeps whatever comes of the operation (R240), then its
descriptor, then its checks, then its list. -/
def State.beginRecord (s : State) (c : Context) (o : SlipOp) : Except EngErr SlipOp × State :=
  let h := o.req.op 0
  let pinned := (s.cached c.id o.die (s.recordAt c o.req.owner h)).any (·.pinned)
  if c.r.sealOnly && !pinned then (.error (.refuse 0x81 (some 0) 0), s) else
  match s.readRecord c o.req.owner o.die h with
  | .error e => (.error e, s)
  | .ok (b, s') =>
    match recordFault b with
    | some v => (.error (.refuse 0x80 (some v) 0), s')
    | none =>
    match s'.engRead c o.req.owner (o.req.op 1) 32 0 with
    | .error e => (.error e, s')
    | .ok d => (s'.beginChecked c { o with record := b, desc := d }, s')

/-- An operation between modules begins: the entry through which it goes on is kept (R416). -/
def State.beginFlat (s : State) (c : Context) (o : SlipOp) : Except EngErr SlipOp :=
  match o.req.remote c.r with
  | none => .ok o
  | some m =>
    match s.jobEntry c m with
    | some e => .ok { o with desc := leBytes 4 e.toNat }
    | none => .error (.refuse 0x80 (some 11) 0)

/-- An operation begins: its object must be mapped, then what it reads; and the state with the records that it has read. -/
def State.slipBegin (s : State) (o : SlipOp) : Except EngErr SlipOp × State :=
  let c := s.ctx o.req.by_.ctx
  if o.req.object ≠ 0 && (s.objectAt o.req).isNone then (.error (.refuse 0x80 (some 7) 0), s) else
  match o.req.kind with
  | .cpt | .cptt | .cpg | .cps => s.beginRecord c o
  | _ => (s.beginFlat c o, s)

/-- The engines of a partition on a die, in ascending order; a queue uses one of them (R397).  DESIGN CHOICE (log 28): the
one at its number modulo their count, which only its port shows. -/
def State.slipPort (s : State) (o : SlipOp) : Nat :=
  let es := match s.part? (s.ctx o.req.by_.ctx).vf with
    | some p => (List.range 12).filter fun e => p.slip.getLsbD (16 * o.die + e)
    | none => []
  16 * o.die + nth es (o.req.queue % max 1 es.length)

/-- Whether bytes that an operation names lie outside the issuing core's own slice (R399). -/
def State.farOf (s : State) (o : SlipOp) (remote : Bool) (a n : Nat) : Bool :=
  remote || !((s.engSlice (s.ctx o.req.by_.ctx) o.req.owner a n).any fun x => homeCore x == o.req.by_.core)

/-- Ask the port for the transfers of the sectors that the window of 64 has come to (R246, R399): the bytes that a sector
reads, and those that it writes, outside the issuing core's own slice. -/
def State.askSectors (s : State) (o : SlipOp) : State :=
  let hi := min o.total (o.low + 64)
  let port := s.slipPort o
  let c := s.ctx o.req.by_.ctx
  let far := o.req.modules c.r
  let side := fun (remote : Bool) (f : Span → Option Nat) (k : Nat) =>
    ((o.moves k).filterMap fun m => (f m).bind fun a => if s.farOf o remote a m.n then some m.n else none).sum
  let ts := (List.range (hi - o.asked)).flatMap fun i =>
    let k := o.asked + i
    let signal := o.req.kind == .wsig && k + 1 == o.total
    let r := if signal then 0 else side far.1.isSome (·.src) k
    let w := if signal then (if s.farOf o far.2.isSome (o.req.op 1) 8 then 8 else 0) else side far.2.isSome (·.dst) k
    if o.done.contains k then [] else
    (if r = 0 then [] else [(⟨port, c.vf, (r + 63) / 64, o.id, 2 * k, o.id⟩ : Transfer)])
      ++ if w = 0 then [] else [⟨port, c.vf, (w + 63) / 64, o.id, 2 * k + 1, o.id⟩]
  { s with transfers := s.transfers ++ ts }.setSlip { o with asked := max o.asked hi }

/-- Whether every entry of a fence has come to the head of its queue (R77). -/
def State.fenceReady (s : State) (o : SlipOp) : Bool :=
  s.slip.all fun x => !(x.req.kind == .qfence && x.req.by_.seq == o.req.by_.seq) || s.slipHead x

/-- Whether an operation goes on: its context does not stand, or the halt lets it complete, or an issued release waits for it or for one
behind it in its queue (R195, R232, R258). -/
def State.slipGoes (s : State) (o : SlipOp) : Bool :=
  !(s.stands (s.ctx o.req.by_.ctx)) || (o.req.kind.completesFirst && o.st != .queued)
    || (s.slipQueue o.req.by_.ctx o.req.owner o.req.queue).any fun x => decide (o.id ≤ x.id) && s.releaseOwed x.req.by_

/-- COPY_BEGIN (R74, R76, R77, R240). The oldest operation of a queue begins once its release is done: it reads its record,
descriptor and list, or is refused; one with nothing to move is done; a fence whose entries are all oldest goes. -/
def execCopyBegin (op : Nat) (s : State) : Out :=
  .next (
    match s.slip.find? fun o => o.id == op with
    | none => s
    | some o =>
      let i := o.req.by_
      if o.st ≠ .queued || !(s.slipHead o) || !(s.slipGoes o) then s
      else
        let scope := reachScope false (slScope i.slot)
        if !(s.released i.wave i.seq scope i.core) then s
        else if o.req.kind = .qfence then
          (if s.fenceReady o then { s with slip := s.slip.filter fun x => !(x.req.kind == .qfence && x.req.by_.seq == i.seq) }
           else s)
        else
        let s := s.flushFor i scope
        match s.slipBegin o with
        | (.error e, s) => s.slipFail o 0 e
        | (.ok o, s) =>
          let o := { o with st := .running, total := o.sectors }
          let s := (s.setSlip o).tlbKeep (s.ctx i.ctx) o.req.owner [o.req.op 0, o.req.op 1]
          if o.total = 0 then s.slipLeave o else s.askSectors o)

/-! ## Performing a sector (R246 to R250) -/

/-- Whether sector `k` of an operation writes a byte that an earlier sector, not yet performed, writes too (R246). -/
def SlipOp.behind (o : SlipOp) (k : Nat) : Bool :=
  let mine := o.moves k
  ((List.range k).filter fun j => !(o.done.contains j)).any fun j =>
    (o.moves j).any fun x => mine.any fun y =>
      match x.dst, y.dst with
      | some a, some b => overlap a x.n b y.n
      | _, _ => false

/-- The bytes of a move: its source, or the pad. -/
def State.moveBytes (s : State) (c : Context) (o : SlipOp) (k : Nat) (m : Span) : Except EngErr (List Byte) :=
  match m.src with
  | none => .ok (layoutOf o.record).padBytes
  | some a =>
    if o.tileMode then
      match s.engBlock c o.req.owner a m.n k with
      | .ok b => .ok (if o.req.kind = .cptt then blockTranspose (decide ((layoutOf o.record).elem = 5)) b else b)
      | .error e => .error e
    else s.engRead c o.req.owner a m.n k

/-- What a sector would write: chunks with their bytes, all checked before any is written (R345). -/
def State.sectorWrites (s : State) (c : Context) (o : SlipOp) (k : Nat) : List Span → Except EngErr (List (List Chunk × List Byte))
  | [] => .ok []
  | m :: t =>
    match m.dst with
    | none => s.sectorWrites c o k t
    | some a =>
      match s.moveBytes c o k m with
      | .error e => .error e
      | .ok b =>
        match s.engDest c o.req.owner a m.n k o.tileMode with
        | .error e => .error e
        | .ok xs =>
          match s.sectorWrites c o k t with
          | .error e => .error e
          | .ok r => .ok ((xs, b) :: r)

/-- The 16 × 16 source values of block `k` of a quantising store: row-major at box[0] × box[1] per slice (R247). -/
def State.quantSource (s : State) (c : Context) (o : SlipOp) (k : Nat) : Except EngErr (List Num) :=
  let l := layoutOf o.record
  let e := if l.etype = 2 then 4 else 2
  let fm := fltFmt l.etype
  let b0 := nth l.box 0
  let per := max 1 (nth l.boxUnits 0 * nth l.boxUnits 1)
  let z := k / per
  let row := 16 * (k % per / max 1 (nth l.boxUnits 0))
  let col := 16 * (k % per % max 1 (nth l.boxUnits 0))
  (List.range 16).foldl (fun r i =>
    match r with
    | .error e => .error e
    | .ok vs =>
      match s.engRead c o.req.owner (localOf o.desc + ((z * nth l.box 1 + row + i) * b0 + col) * e) (16 * e) k with
      | .error e => .error e
      | .ok b => .ok (vs ++ (List.range 16).map fun j => fm.value false (field b (e * j) e))) (.ok [])

/-- The histogram bin of a source value (R248). -/
def histBin (x : Num) : Option Nat :=
  match x with
  | .fin _ 0 _ => none
  | .fin _ _ _ => some (max 0 (min 63 (x.bigE + 32))).toNat
  | _ => some 63

/-- One increment of a histogram bin at its home, saturating (R249). -/
def State.histAdd (s : State) (cid op issuer a : Nat) (x : Num) : State :=
  match histBin x with
  | none => s
  | some k => s.perform cid (.ofOp op 0 issuer) (a + 4 * k) (leBytes 4 (min (2 ^ 32 - 1) (s.slice.num (a + 4 * k) 4 + 1)))

/-- A block of a quantising store: its write, its values and its flags (R248); none where the block is skipped.  DEDUCED
(log 25): of the slot only the rounding is read. -/
def State.quantWrite (s : State) (c : Context) (o : SlipOp) (k : Nat) :
    Except EngErr (Option (List Chunk × List Byte × List Num × Flags)) :=
  let l := layoutOf o.record
  let i := o.req.by_
  match l.unitAt (l.coords o.desc k) with
  | none => .ok none
  | some a =>
    match s.quantSource c o k with
    | .error e => .error e
    | .ok vs =>
      match s.engDest c o.req.owner a l.esize k true with
      | .error e => .error e
      | .ok xs =>
        if l.hist ≠ 0 && c.modifiable l.hist 256 then .error (.refuse 0x60 none l.hist) else
        let r := quantBlock (decide (l.elem = 5)) l.tag (slRound i.slot) false (blockGrain c.r.gseed i.laneIdent i.grain0 k)
          fun y x => vs.getD (16 * y + x) (.nan false)
        .ok (some (xs, r.1, vs, r.2))

/-- One element of an atomic scatter added at its home (R247): the word and its flags, as `vaadd` and `vafadd` do. -/
def scatterAdd (t : Nat) (sl old x : W32) (draw : W64) : W32 × Flags :=
  let sl := (sl &&& ~~~(0xF0#32)) ||| BitVec.ofNat 32 (16 * t)
  if t = 2 then
    let r := addFloats sl old [x] draw
    (r.1, r.2 ||| issueFlags sl [x])
  else newWord 0 sl old x 0 0

/-- Apply the checked elements of an atomic scatter sector.  Under rsr the draw of an f32 element is a free value: no rule
states one (log 29). -/
def State.scatterSector (s : State) (cid : Nat) (o : SlipOp) (land : Nat) : List (List Chunk × List Byte) → State
  | [] => s
  | (xs, b) :: t =>
    let ty := (layoutOf o.record).etype
    let sl := o.req.by_.slot
    let f := s.free
    let draws := ty == 2 && decide (slRound sl = 4)
    let a := ((xs.head?).map (·.addr)).getD 0
    let r := scatterAdd ty sl (BitVec.ofNat 32 (s.slice.num a 4)) (BitVec.ofNat 32 (leNat b)) (if draws then f.1 else 0)
    let s := if draws then f.2 else s
    let s := (s.perform cid (.ofOp o.id land o.req.by_.wave) a (leBytes 4 r.1.toNat)).updCtx cid fun c => { c with sumflags := c.sumflags ||| r.2 }
    s.scatterSector cid o land t

/-- Count performed bytes towards the operation's object (R78): they are on their way to its home. -/
def State.land (s : State) (o : SlipOp) (id n : Nat) : State :=
  let i := o.req.by_
  match s.objectAt o.req with
  | none => s
  | some a =>
    if n = 0 then s else
    { s with landings := s.landings ++ [⟨id, i.ctx, a, n, o.id, 1, i.queueField o.die o.req.queue, i.wave, i.ident, i.pc⟩] }

/-- Sector `k` has been performed: it counts, and the operation goes on or is done; a halted one takes up no further sector (R258). -/
def State.sectorDone (s : State) (o : SlipOp) (k id : Nat) : State :=
  let n := if o.req.kind = .wsig then 0 else o.sectorBytes k
  let o' := { o with done := k :: o.done, counted := o.counted + n }
  let s := (s.land o id n).count o.req.by_.ctx 7 n
  if o'.done.length = o'.total then s.slipLeave o'
  else if s.slipGoes o then (s.setSlip o').askSectors o' else s.setSlip o'

/-- Write a sector's chunks. -/
def State.putAll (s : State) (cid : Nat) (by_ : Writer) (ws : List (List Chunk × List Byte)) : State :=
  ws.foldl (fun s w => s.engPut cid by_ w.1 w.2) s

/-- The signal of a `wsig` at this module's home (R250). -/
def State.signalHome (s : State) (c : Context) (o : SlipOp) (k land : Nat) : State :=
  match s.engDest c o.req.owner (o.req.op 1) 8 k false with
  | .error e => s.slipFail o k e
  | .ok xs =>
    let old := leNat (xs.flatMap s.chunkBytes)
    let v := if o.req.flag then o.req.op 4 else (old + o.req.op 4) % 2 ^ 64
    (s.engPut c.id (.ofOp o.id land o.req.by_.wave) xs (leBytes 8 v)).sectorDone o k land

/-- Whether a `wsig` signal still waits: for its payload, and at fabric or system scope for the wave's earlier writes to
other modules (R84). -/
def State.signalHeld (s : State) (c : Context) (o : SlipOp) : Bool :=
  decide (o.done.length + 1 < o.total)
    || (decide (7 ≤ slScope o.req.by_.slot) && s.slip.any fun x => x.req.by_.wave == o.req.by_.wave
        && decide (x.req.by_.seq < o.req.by_.seq) && (x.req.modules c.r).2.isSome)

/-- A flit on a link (R414): 256 bytes with their CRC-32C, queued in the sender's replay buffer. -/
def State.sendFlit (s : State) (ln dest addr op part : Nat) (bs : List Byte) : State :=
  let data := (bs ++ List.replicate (256 - bs.length) 0).take 256
  { s with links := updWhere (fun l => l.num == ln) (fun l =>
      { l with nextSeq := l.nextSeq + 1, replay := l.replay ++ [⟨l.nextSeq, dest, addr, data, crc32c data, 1, op, part⟩] }) s.links }

/-- The source queue of a flit (R414): that of the operation that it carries a sector of. -/
def State.flitQueue (s : State) (f : Flit) : Option (Nat × Owner × Nat) :=
  (s.slip.find? fun o => o.id == f.op).map fun o => (o.req.by_.ctx, o.req.owner, o.req.queue)

/-- Whether an operation's sector has a flit that the link may deliver now (R414): its CRC holds, and no earlier flit of its source queue
to the same module is outstanding. -/
def State.flitDelivers (s : State) (ln op part : Nat) : Bool :=
  (s.link? ln).any fun l => l.replay.any fun f => f.op == op && f.part == part && f.crc == crc32c f.bytes &&
    !(l.replay.any fun g => decide (g.seq < f.seq) && g.dest == f.dest && s.flitQueue g == s.flitQueue f)

/-- Whether a flit of an operation's sector is under way. -/
def State.flitOut (s : State) (op part : Nat) : Bool := s.links.any fun l => l.replay.any fun f => f.op == op && f.part == part

/-- Eight free bytes at a time: what another module's memory holds. -/
def State.freeBytes : Nat → State → List Byte × State
  | 0, s => ([], s)
  | n + 1, s =>
    let f := s.free
    let r := f.2.freeBytes n
    (leBytes 8 f.1.toNat ++ r.1, r.2)

/-- A sector of an operation between modules (R84, R250, R414): first its flit is sent; once the link has delivered it, it is
performed there, or its data, which this module cannot know, is written here.  A secure context's traffic goes only over a secure link
and entry (R418), and an operation that was held when its link went down is refused (R416). -/
def State.remoteSector (s : State) (c : Context) (o : SlipOp) (k : Nat) : State :=
  let e := field o.desc 0 4
  let ln := bitsOf e 12 4
  let up := (s.link? ln).any fun l => l.st == LinkState.up
  let signal := o.req.kind == .wsig && k + 1 == o.total
  let read := (o.req.modules c.r).1.isSome
  let m := ((o.flatMoves k).head?).getD ⟨none, none, 0⟩
  let id := s.fresh
  let secure := !(s.isSecure c) || (e >>> 17 % 2 == 1 && (s.link? ln).any fun l => l.secure)
  let down := (s.link? ln).any fun l => l.st == LinkState.down
  if !secure || down then s.slipRefuse o 0x80 0 (some 11)
  else if !up then s
  else if !(s.flitOut o.id k) then
    if signal then s.sendFlit ln (bitsOf e 0 12) (o.req.op 1) o.id k (leBytes 8 (o.req.op 4))
    else if read then s.sendFlit ln (bitsOf e 0 12) (m.src.getD 0) o.id k []
    else
      match s.engRead c o.req.owner (m.src.getD 0) m.n k with
      | .error e => s.slipFail o k e
      | .ok b => s.sendFlit ln (bitsOf e 0 12) (m.dst.getD 0) o.id k b
  else if !(s.flitDelivers ln o.id k) then s
  else
    let s' := id.2.dropFlits fun f => f.op == o.id && f.part == k
    if !read then s'.sectorDone o k id.1
    else
      match s'.engDest c o.req.owner (m.dst.getD 0) m.n k false with
      | .error e => s.slipFail o k e
      | .ok xs =>
        let r := s'.freeBytes ((m.n + 7) / 8)
        (r.2.engPut c.id (.ofOp o.id id.1 o.req.by_.wave) xs (r.1.take m.n)).sectorDone o k id.1

/-- A sector on this module. -/
def State.homeSector (s : State) (c : Context) (o : SlipOp) (k : Nat) : State :=
  let id := s.fresh
  if o.req.kind = .wsig ∧ k + 1 = o.total then (if s.signalHeld c o then s else id.2.signalHome c o k id.1)
  else if o.quantises then
    match s.quantWrite c o k with
    | .error e => s.slipFail o k e
    | .ok none => id.2.sectorDone o k id.1
    | .ok (some (xs, b, vs, fl)) =>
      let s := (id.2.engPut c.id (.ofOp o.id id.1 o.req.by_.wave) xs b).updCtx c.id fun c => { c with sumflags := c.sumflags ||| fl }
      let h := (layoutOf o.record).hist
      let s := if h = 0 then s else vs.foldl (fun s x => s.histAdd c.id o.id o.req.by_.wave h x) s
      s.sectorDone o k id.1
  else
    match s.sectorWrites c o k (o.moves k) with
    | .error e => s.slipFail o k e
    | .ok ws =>
      if o.req.kind = .cps ∧ o.req.flag = true then
        let o' := { o with applied := o.applied + ws.length }
        (id.2.scatterSector c.id o id.1 ws).sectorDone o' k id.1
      else if o.req.kind = .hgrd then
        match s.engDest c o.req.owner (o.req.op 1) 256 k false with
        | .error e => s.slipFail o k e
        | .ok xs => ((id.2.engPut c.id (.ofOp o.id id.1 o.req.by_.wave) xs (List.replicate 256 0)).putAll c.id (.ofOp o.id id.1 o.req.by_.wave) ws).sectorDone o k id.1
      else (id.2.putAll c.id (.ofOp o.id id.1 o.req.by_.wave) ws).sectorDone o k id.1

/-- Whether an f32 atomic scatter waits in determinism mode for its group's turn, or its sector for the one before (R272). -/
def State.scatterWaits (s : State) (c : Context) (o : SlipOp) (k : Nat) : Bool :=
  c.r.det && o.floatScatter && (decide (k ≠ o.low) || match o.req.owner with
    | .group g => !((s.group? g).any s.holdsDrain)
    | .core _ => true)

/-- Whether sector `k` stops or ends the operation on this module, so that the sectors before it come first (R255). -/
def State.sectorErrs (s : State) (c : Context) (o : SlipOp) (k : Nat) : Bool :=
  if o.quantises then (match s.quantWrite c o k with
    | .error _ => true
    | .ok _ => false)
  else (match s.sectorWrites c o k (o.moves k) with
    | .error _ => true
    | .ok _ => false)

/-- Whether sector `k` of an operation is in flight, so that a halt lets it be performed (R246, R258): it has been asked for, and one to
another module has been sent; the signal of a `wsig`, and a scatter that waits for its turn, have still to come. -/
def State.inFlight (s : State) (c : Context) (o : SlipOp) (k : Nat) : Bool :=
  decide (k < o.asked) && !(o.done.contains k) && !(o.req.kind == .wsig && k + 1 == o.total) && !(s.scatterWaits c o k)
    && ((o.req.remote c.r).isNone || s.flitOut o.id k)

/-- COPY_SECTOR_PERFORM (R246). A sector within 64 of the lowest not yet performed is performed at its home and its bytes are
on their way to the object; a sector that fails does so after those before it. -/
def execCopySectorPerform (op sector : Nat) (s : State) : Out :=
  .next (
    match s.slip.find? fun o => o.id == op with
    | none => s
    | some o =>
      let c := s.ctx o.req.by_.ctx
      let remote := (o.req.remote c.r).isSome
      let signal := o.req.kind == .wsig && sector + 1 == o.total
      if o.st ≠ .running || o.total ≤ sector || o.done.contains sector || o.low + 64 ≤ sector then s
      else if s.transfers.any (fun t => t.op == op && t.part / 2 == sector) || s.scatterWaits c o sector then s
      else if !(s.slipGoes o) && !(s.inFlight c o sector) then s
      else if signal && s.signalHeld c o then s
      else if remote then s.remoteSector c o sector
      else if !signal && (o.behind sector || (o.low != sector && s.sectorErrs c o sector)) then s
      else (s.homeSector c o sector).tlbKeep c o.req.owner ((o.moves sector).flatMap fun m => m.src.toList ++ m.dst.toList))

/-- The host resumes a context's Slip queues of a number on a die (R255): marks clear, and the copies go on.  None when no
such queue is stopped. -/
def State.slipResume (s : State) (cid die q : Nat) : Option State :=
  let hit := fun (o : SlipOp) => o.req.by_.ctx == cid && o.die == die && o.req.queue == q &&
    match o.st with
    | .stopped .. => true
    | _ => false
  let os := s.slip.filter hit
  if os.isEmpty then none else
  let clear := fun (s : State) (o : SlipOp) =>
    match s.objectAt o.req with
    | some a => { s with slice := s.slice.setNum (a + 28) 4 (objFlagWord false (objElect s.slice a) (objBound s.slice a)) }
    | none => s
  let s := os.foldl clear s
  some { s with slip := updWhere hit (fun o => { o with st := if o.total = 0 then .queued else .running }) s.slip }

/-! ## Record control (R251, R252) -/

/-- The dies of a partition. -/
def Partition.dies (p : Partition) : List Nat := ((p.cores).map dieOf).eraseDups

/-- Why `lrins` refuses a record, if it does (R239, R240, R252): it is malformed, or in sealed-only mode not sealed (log 114), or the
context has 32 others pinned.  DEDUCED (log 104): so it is where a die of the partition holds 128 pinned records of contexts, which none
may replace. -/
def State.insertFault (s : State) (c : Context) (loc : Nat) (dies : List Nat) (b : List Byte) : Option (Nat × Nat) :=
  match recordFault b with
  | some v => some (0x80, v)
  | none =>
    let pins := s.cache.filter fun e => e.pinned && !(e.ctx == c.id && e.handle == loc)
    let mine := ((pins.filter fun e => e.ctx == c.id).map (·.handle)).eraseDups
    if (c.r.sealOnly && !(sealedIn c.r b)) || 32 ≤ mine.length
        || dies.any fun d => decide (128 ≤ (pins.filter fun e => e.die == d).length) then some (0x81, 0) else none

/-- The report of a refused `lrins`: the handle in the address field (R252); a free value where no rule states one. -/
def State.insertReport (s : State) (r : Request) (code : Nat) (value : Option Nat) : State :=
  let i := r.req.by_
  s.report i.ctx
    { code := code, source := 1, queue := i.queueField (dieOf i.core) 0, issuer := i.ident, pc := i.pc,
      address := r.req.op 0, value := value }

/-- RECORD_CACHE_COMPLETE (R251, R252). Every die of the partition drops or pins the record, and the wave goes on. -/
def execRecordCacheComplete (req : Nat) (s : State) : Out :=
  .next (
    match s.requests.find? fun r => r.id == req with
    | none => s
    | some r =>
      let i := r.req.by_
      let c := s.ctx i.ctx
      let h := r.req.op 0
      let loc := s.recordAt c r.req.owner h
      let dies := ((s.part? c.vf).map (·.dies)).getD []
      if (r.req.kind != .lrfl && r.req.kind != .lrins) || !(s.released i.wave i.seq (reachScope false (slScope i.slot)) i.core) then s
      else
      let s := s.flushFor i (reachScope false (slScope i.slot))
      if r.req.kind = .lrfl then
        { s with cache := s.cache.filter fun e => !(e.ctx == c.id && e.handle == loc) }.requestDone r none
      else
        match s.engRead c r.req.owner h 192 0 with
        | .error (.refuse code v _) => (s.insertReport r code v).requestDone r none
        | .error (.page _) => (s.insertReport r 0xA1 none).requestDone r none
        | .ok b =>
          match s.insertFault c loc dies b with
          | some e => (s.insertReport r e.1 (some e.2)).requestDone r none
          | none => (dies.foldl (fun s d => s.cachePut ⟨c.id, d, loc, true, b, s.tick⟩) s).requestDone r none)

end Sys2Proof.Machine
end

