-- ==== Sys2Proof/Machine/Matrix.lean ====
section
/-! DEFINITION. The matrix engine (R275 to R302): reservations and accumulator tiles, products, joint sets, readout, and the
order in which its operations are performed. -/

namespace Sys2Proof.Machine

/-! ## Reservations and tiles of a wave (R279, R280, R285) -/

/-- Bytes of a tile of a class, and tiles of a step (R279). -/
def tileBytes (cls : Nat) : Nat := if cls = 0 then 512 else blockBytes (decide (cls = 2))
def tilesPerStep (cls : Nat) : Nat := 2 * 2 ^ cls

/-- Whether R279 refuses a descriptor. -/
def descriptorBad (d : W64) : Bool :=
  decide (bitsOf d.toNat 42 22 ≠ 0) || decide (rdLength d = 0) || decide (rdClass d = 3) || (rdF16 d && decide (rdClass d ≠ 0))
    || decide (rdHoff d % 16 ≠ 0)
    || decide (rdLength d < rdHoff d + rdSteps d * tilesPerStep (rdClass d) * tileBytes (rdClass d))

/-- The tile of a name. -/
def Wave.tile? (w : Wave) (t : Nat) : Option Tile := w.tiles.find? fun x => x.name == t
/-- Change the tile of a name. -/
def Wave.updTile (w : Wave) (t : Nat) (f : Tile → Tile) : Wave := { w with tiles := updWhere (fun x => x.name == t) f w.tiles }

/-- Cell `c` of a tile. -/
def Tile.cell (t : Tile) (c : Nat) : Cell := sget Cell.zero t.cells c
/-- Write cell `c` of a tile. -/
def Tile.setCell (t : Tile) (c : Nat) (x : Cell) : Tile := { t with cells := sset Cell.zero c x t.cells }

/-- Granules of a quadrant that are reserved (R281). -/
def State.granulesUsed (s : State) (quadrant : Nat) : List (Nat × Nat) :=
  (s.waves.filter fun w => w.quadrant == quadrant).flatMap fun w => w.rsv.map fun r => (r.base, r.grans)

/-- The lowest-addressed run of `n` free granules of a quadrant's 256 (R281). -/
def State.findRun (s : State) (quadrant n : Nat) : Option Nat :=
  (List.range (257 - n)).find? fun b => !((s.granulesUsed quadrant).any fun u => overlap b n u.1 u.2)

/-- Free accumulator tiles of a quadrant (R275). -/
def State.freeTiles (s : State) (quadrant : Nat) : Nat :=
  8 - ((s.waves.filter fun w => w.quadrant == quadrant).map fun w => w.tiles.length).sum

/-! ## What operations name, and their order (R278, R76) -/

/-- The tiles that an operation names. -/
def MatOp.tilesOf (m : MatOp) : List Nat :=
  match m.kind with
  | .obld .. => []
  | .accadd src => [m.tile, src]
  | _ => [m.tile]

/-- Whether an operation of a wave that names a tile is still to be performed. -/
def State.tileBusy (s : State) (wid t : Nat) : Bool := s.mats.any fun m => m.wave == wid && m.tilesOf.contains t
/-- Whether an operation that names a wave's handle is still to be performed. -/
def State.handleBusy (s : State) (wid h : Nat) : Bool := s.mats.any fun m => m.handles.contains (wid, h)

/-- Whether an operation reads or writes memory. -/
def State.fetching (s : State) (m : MatOp) : Bool :=
  match m.kind with
  | .obld .. | .accst .. => true
  | _ => m.handles.any fun h => s.windowed h.1 h.2 m.id

/-- Entries of the matrix fetch queue that an operation holds (R275): one, or one for each window that it fetches; the B panel of a joint
product is fetched once, for its lowest member (R292). -/
def State.fetches (s : State) (m : MatOp) : Nat :=
  match m.kind with
  | .obld .. | .accst .. => 1
  | .joint a _ bw b .. => ([(m.wave, a), (bw, b)].filter fun h => h.1 == m.wave && s.windowed h.1 h.2 m.id).length
  | _ => (m.handles.filter fun h => s.windowed h.1 h.2 m.id).length

/-- The quadrant of an operation's wave. -/
def State.matQuadrant (s : State) (m : MatOp) : Nat := ((s.wave? m.wave).map (·.quadrant)).getD 0

/-- The lowest member of a wave's joint set. -/
def Wave.lowestMember (w : Wave) : Nat := firstBit 16 w.joint.toNat

/-- Entries of a quadrant's fetch queue kept for the products of waves that stand in a latch (R275, R292). -/
def State.latchFetches (s : State) (quadrant : Nat) : Nat :=
  ((s.groups.flatMap fun g => g.latches.flatMap (·.entered)).map fun e =>
    match s.wave? e.wave with
    | some w =>
      if w.quadrant ≠ quadrant then 0 else
      ((e.a :: (if w.lowestMember = w.widx then [e.b] else [])).filter fun h => s.windowed e.wave h s.nextId).length
    | none => 0).sum

/-- Entries in use of a quadrant's fetch queue. -/
def State.fetchDepth (s : State) (quadrant : Nat) : Nat :=
  ((s.mats.filter fun m => s.matQuadrant m == quadrant).map s.fetches).sum + s.latchFetches quadrant

/-- The unsealed operations of a wave that are still to be performed (R253, R294). -/
def State.unsealedMats (s : State) (w : Wave) : Nat := (w.unsealedM.filter fun i => s.mats.any fun m => m.id == i).length

/-- Whether an operation is an `mma` or `mmac`. -/
def MatKind.isProduct : MatKind → Bool
  | .mma .. | .mmac .. | .joint .. => true
  | _ => false

/-- Products in flight on a quadrant, with those that wait in a latch (R275, R292). -/
def State.productsOn (s : State) (quadrant : Nat) : Nat :=
  (s.mats.filter fun m => m.kind.isProduct && s.matQuadrant m == quadrant).length +
  ((s.groups.flatMap fun g => g.latches.flatMap (·.entered)).filter fun e =>
    (s.wave? e.wave).any fun w => w.quadrant == quadrant).length

/-- The number that the operations of one joint closing share. -/
def MatOp.setOf (m : MatOp) : Option Nat :=
  match m.kind with
  | .joint _ _ _ _ _ _ n => some n
  | _ => none

/-- The scope at which an operation is a release: at the reach of the name that it uses (R66, R74). -/
def MatOp.reach (m : MatOp) : Nat :=
  let win := match m.kind with
    | .accst _ w .. => w
    | .obld _ _ w .. => w
    | _ => false
  reachScope win (slScope m.by_.slot)

/-- Whether an operation may be performed (R74, R76, R278): after the earlier ones of its tiles, its handles and, where it
reads or writes memory, its fetch queue and its release; its transfers are granted (R399). -/
def State.matReady (s : State) (m : MatOp) : Bool :=
  let fetch := s.fetching m
  (s.mats.all fun x => decide (m.id ≤ x.id) || (m.setOf.isSome && x.setOf == m.setOf) ||
    (!(x.wave == m.wave && x.tilesOf.any m.tilesOf.contains) && !(x.handles.any m.handles.contains)
      && !(fetch && s.fetching x && s.matQuadrant x == s.matQuadrant m)))
  && (!fetch || s.released m.wave m.by_.seq m.reach m.by_.core) && !(s.transfers.any fun t => t.op == m.id)

/-- An operation that reads or writes memory begins: its wave's pending writes are performed (R74). -/
def State.matFlush (s : State) (m : MatOp) : State := if s.fetching m then s.flushFor m.by_ m.reach else s

/-! ## Issue: the shared parts (R277, R294) -/

/-- An MTX instruction of the issuing wave that acts once when some lane is Active (R277). -/
def State.mtxOp (s : State) (m : BitVec 2) (k : Wave → SubWave → W32 → Nat → State) : State :=
  s.taskOp m fun w q sl ls => k w q sl (ls.headD 0)

/-- Put an operation in flight, with its transfers (R399), to be sealed unless `loose`; an engine request sends the wave's combiner
entries (R259). -/
def State.matIssue (s : State) (w : Wave) (q : SubWave) (sl : W32) (lane tile : Nat) (kind : MatKind) (active : W32)
    (engine loose : Bool) (w' : Wave) : State :=
  let s := if engine then s.sendCombiner w.id else s
  let f := s.fresh
  let op : MatOp := { id := f.1, wave := w.id, tile := tile, kind := kind, active := active, by_ := w.issuer q sl lane f.1 }
  let moved := match kind with
    | .obld .. | .accst .. => s.matRanges op true ++ s.matRanges op false
    | _ => []
  { f.2 with
    mats := f.2.mats ++ [op]
    transfers := f.2.transfers ++ farTransfers (s.ctx w.ctx).vf w.core w.core op.id moved }.retire (if loose then w' else { w' with unsealedM := w'.unsealedM ++ [f.1] })

/-- The first fault of a list of checks: (fails, code, kTRAPVAL). -/
def firstFault (l : List (Bool × Nat × W64)) : Option (Nat × W64) := (l.find? (·.1)).map (·.2)

/-- ACC_STATE of a tile not held (R301, R452). -/
def Wave.tileFault (w : Wave) (t : Nat) : Bool × Nat × W64 := ((w.tile? t).isNone, 0x51, BitVec.ofNat 64 t)
/-- OPERAND_STATE of a handle not held (R301, R452). -/
def Wave.handleFault (w : Wave) (h : Nat) : Bool × Nat × W64 := ((w.rsv? h).isNone, 0x52, BitVec.ofNat 64 h)

/-- Raise the fault found, or go on. -/
def State.unless (s : State) (w : Wave) (q : SubWave) (e : Option (Nat × W64)) (k : State) : State :=
  match e with
  | some x => s.raise w q x.1 x.2
  | none => k

/-! ## Tiles (R286) -/

/-- A tile as `accz` and `accza` clear it. -/
def clearTile (name rounding : Nat) (anchor : Option (BitVec 12)) : Tile where
  name := name
  cells := []
  anchor := anchor.getD 0
  aset := anchor.isSome
  rounding := rounding
  flags := 0

/-- The instruction that waits for a grant, with its wave halted at it (R281, R286). -/
def State.awaitGrant (s : State) (w : Wave) (kind : Nat) (i : Instr) : State :=
  let s := s.put { w with wait := .grant, lastIssue := s.tick }
  { s with waitList := s.waitList ++ [(w.quadrant, kind, w.id, i)] }

/-- `accz` and `accza` (R286): a held tile is cleared after the wave's earlier operations on it; another is granted, or waited
for in the quadrant's order. -/
def State.grantTile (s : State) (t : BitVec 3) (m : BitVec 2) (anchor : Wave → Option (BitVec 12)) (i : Instr) : State :=
  s.mtxOp m fun w q sl _ =>
    if slRound sl = 4 then s.raise w q 0x02 (sl.setWidth 64) else
    let tile := clearTile t.toNat (slRound sl) (anchor w)
    if (w.tile? t.toNat).isSome then
      (if s.tileBusy w.id t.toNat then s.stall w q else s.retire (w.updTile t.toNat fun _ => tile))
    else if 0 < s.freeTiles w.quadrant ∧ s.queued w.quadrant 2 = false then s.retire { w with tiles := w.tiles ++ [tile] }
    else s.awaitGrant w 2 i

/-- `accz` (R286): clears or grants a tile with the anchor that sA gives; with `rel`, releases it. -/
def execAccz (t : BitVec 3) (m : BitVec 2) (a : BitVec 6) (r : BitVec 1) (s : State) : Out :=
  .next (
    if r = 1 then
      s.mtxOp m fun w q _ _ =>
        if s.tileBusy w.id t.toNat then s.stall w q
        else s.retire { w with tiles := w.tiles.filter fun x => x.name != t.toNat }
    else s.grantTile t m (fun w => some ((w.s a.toNat).setWidth 12)) (.accz t m a r))

/-- `accza` (R286): the anchor is left unset. -/
def execAccza (t : BitVec 3) (m : BitVec 2) (s : State) : Out := .next (s.grantTile t m (fun _ => none) (.accza t m))

/-- The oldest waiting entry of a kind on a quadrant, with its wave. -/
def State.oldestWait (s : State) (quadrant kind : Nat) : Option (Instr × Wave) :=
  match s.waitList.find? fun e => e.1 == quadrant && e.2.1 == kind with
  | some e => (s.wave? e.2.2.1).map fun w => (e.2.2.2, w)
  | none => none

/-- A waiting instruction has what it waited for: the wave goes on. -/
def State.granted (s : State) (kind : Nat) (w : Wave) : State :=
  let s := { s with waitList := s.waitList.filter fun e => !(e.2.1 == kind && e.2.2.1 == w.id) }
  s.updWave w.id fun x => { w with subs := x.subs }.answered x.waiting.1

/-- The tile that a waiting `accz` or `accza` asks for, with the slot and scalar that its wave holds. -/
def Wave.wantedTile (w : Wave) (i : Instr) : Option Tile :=
  match i with
  | .accz t m a _ => some (clearTile t.toNat (slRound (w.slotOf m.toNat)) (some ((w.s a.toNat).setWidth 12)))
  | .accza t m => some (clearTile t.toNat (slRound (w.slotOf m.toNat)) none)
  | _ => none

/-- ACCUMULATOR_TILE_GRANT (R286). A free tile goes to the oldest waiting `accz` or `accza` of the quadrant. -/
def execAccumulatorTileGrant (quad : Nat) (s : State) : Out :=
  .next (
    match s.oldestWait quad 2 with
    | none => s
    | some (i, w) =>
      if s.freeTiles quad = 0 then s else
      match w.wantedTile i with
      | none => s
      | some t => s.granted 2 { w with tiles := w.tiles ++ [t] })

/-! ## Reservations (R281 to R284) -/

/-- Granules of a length. -/
def granules (len : Nat) : Nat := (len + 1023) / 1024

/-- A new reservation: it reads as zero bytes (R281). -/
def newRsv (h : Nat) (d : W64) (base : Nat) : Reservation where
  handle := h
  desc := d
  base := base
  grans := granules (rdLength d)
  window := none
  bytes := []

/-- `obres` (R279, R281). -/
def execObres (h : BitVec 4) (m : BitVec 2) (d : BitVec 6) (s : State) : Out :=
  .next (s.mtxOp m fun w q _ _ =>
    let v := w.s d.toNat
    if (w.rsv? h.toNat).isSome then s.raise w q 0x52 (h.setWidth 64)
    else if descriptorBad v then s.raise w q 0x53 v
    else
      match (if s.queued w.quadrant 1 then none else s.findRun w.quadrant (granules (rdLength v))) with
      | some b => s.retire { w with rsv := w.rsv ++ [newRsv h.toNat v b] }
      | none => s.awaitGrant w 1 (.obres h m d))

/-- OPERAND_BUFFER_GRANT (R281). The oldest waiting `obres` of the quadrant takes the lowest run that fits. -/
def execOperandBufferGrant (quad : Nat) (s : State) : Out :=
  .next (
    match s.oldestWait quad 1 with
    | some (.obres h _ d, w) =>
      let v := w.s d.toNat
      (match s.findRun quad (granules (rdLength v)) with
       | some b => s.granted 1 { w with rsv := w.rsv ++ [newRsv h.toNat v b] }
       | none => s)
    | _ => s)

/-- `obrel` (R281): after the wave's earlier operations on the handle, its range returns. -/
def execObrel (h : BitVec 4) (m : BitVec 2) (s : State) : Out :=
  .next (s.mtxOp m fun w q _ _ =>
    if s.handleBusy w.id h.toNat then s.stall w q
    else s.retire { w with rsv := w.rsv.filter fun r => r.handle != h.toNat })

/-- Whether a tile of a panel at a slice address crosses a slice boundary (R82, R282). -/
def panelSplit (d : W64) (a : Nat) : Bool :=
  (List.range (rdSteps d * tilesPerStep (rdClass d))).any fun u =>
    let x := a + rdHoff d + u * tileBytes (rdClass d)
    homeCore x != homeCore (x + tileBytes (rdClass d) - 1)

/-- The source of an `obld`: R191 items 1 to 3 against 16 bytes over the whole range, then TILE_SPLIT (R282). -/
def State.fillSource (s : State) (w : Wave) (d va : W64) : Except Nat (Nat × Bool) :=
  match s.checkAddr w va.toNat (rdLength d) 16 with
  | .error e => .error e
  | .ok p =>
    if !(s.sliceMapped (s.ctx w.ctx) p.1 (rdLength d)) then .error 0x20
    else if panelSplit d p.1 then .error 0x41
    else .ok p

/-- The targets that a multicast mask names: bits 0 to 63 but for the issuer's own, then 64 for the issuer (R283). -/
def maskTargets (w : Wave) (mask : W64) : List Nat :=
  ((List.range 64).filter fun b => mask.getLsbD b && b != 16 * (w.group % 4) + w.widx) ++ [64]

/-- Whether the launch of a grid wave asked for clusters (R124). -/
def State.clusterLaunch (s : State) (w : Wave) : Bool :=
  ((s.groupOf w).bind fun g => s.grids.find? fun x => x.id == g.grid).any (·.cluster)

/-- Whether a multicast mask is refused (R283). -/
def State.maskBad (s : State) (w : Wave) (mask : W64) : Bool :=
  w.task || (!(s.clusterLaunch w) && (List.range 64).any fun b => mask.getLsbD b && b / 16 != w.group % 4)

/-- The fault of an `obld` control pair: its object as an engine names one, then its mask (R283, R346).  DEDUCED (log 30): a
first register with a nonzero zero field, or an object misaligned or out of range, is OPERAND_RANGE. -/
def State.controlFault (s : State) (w : Wave) (lo mask : W64) : Option (Option (Nat × W64)) :=
  if bitsOf lo.toNat 48 16 ≠ 0 ∨ w.objectOk lo = false ∨ s.maskBad w mask = true then some none
  else if s.objectModifiable w lo then some (some (0x60, lo))
  else none

/-- `obld` (R282, R283). -/
def execObld (h c : BitVec 4) (m : BitVec 2) (s1 : BitVec 6) (x : BitVec 1) (s : State) : Out :=
  .next (s.mtxOp m fun w q sl lane =>
    if 64 ≤ s.unsealedMats w ∨ 16 ≤ s.fetchDepth w.quadrant then s.stall w q else
    match w.rsv? h.toNat with
    | none => s.raise w q 0x52 (h.setWidth 64)
    | some r =>
      let lo := if x = 1 then w.s c.toNat else 0
      let mask := if x = 1 then w.s (c.toNat + 1) else 0
      match (if x = 1 then s.controlFault w lo mask else none) with
      | some none => s.raiseFree w q 0x53
      | some (some e) => s.raise w q e.1 e.2
      | none =>
        let va := w.s s1.toNat
        match s.fillSource w r.desc va with
        | .error e => s.raise w q e va
        | .ok p => s.matIssue w q sl lane 0 (.obld h.toNat p.1 p.2 lo.toNat (maskTargets w mask) []) 0 true false w)

/-- Where a window's panel lies, if `obwin` accepts it (R284): 16-byte aligned, mapped, and its panel bytes wholly in one slice
of the wave's cluster. -/
def State.windowAt (s : State) (w : Wave) (d va : W64) : Option Nat :=
  match s.resolve w (va.toNat + rdHoff d), s.resolve w (va.toNat + rdLength d - 1) with
  | .ok lo, .ok hi =>
    if decide (va.toNat % 16 = 0) && homeCore lo.1 == homeCore hi.1 && clusterOf (homeCore lo.1) == clusterOf w.core
      && s.sliceMapped (s.ctx w.ctx) lo.1 (rdLength d - rdHoff d)
    then some (lo.1 - rdHoff d) else none
  | _, _ => none

/-- `obwin` (R284): after the wave's earlier operations on the handle, it becomes a window. -/
def execObwin (h : BitVec 4) (m : BitVec 2) (s1 : BitVec 6) (s : State) : Out :=
  .next (s.mtxOp m fun w q _ _ =>
    if s.handleBusy w.id h.toNat then s.stall w q else
    match w.rsv? h.toNat with
    | none => s.raise w q 0x52 (h.setWidth 64)
    | some r =>
      match s.windowAt w r.desc (w.s s1.toNat) with
      | none => s.raiseFree w q 0x53
      | some a => s.retire { w with rsv := updWhere (fun x => x.handle == h.toNat) (fun x => { x with window := some a }) w.rsv })

/-! ## Issue of products (R288, R290 to R292) -/

/-- Checks of a product at issue, without those of B when `alone` (R288). -/
def Wave.productFault (w : Wave) (t a b j : Nat) (alone : Bool) : Option (Nat × W64) :=
  let ra := w.rsv? a
  let rb := if alone then ra else w.rsv? b
  firstFault ([w.tileFault t, w.handleFault a] ++ (if alone then [] else [w.handleFault b]) ++
    [((match ra, rb with
       | some x, some y => rdClass x.desc != rdClass y.desc || rdF16 x.desc != rdF16 y.desc
       | _, _ => false), 0x52, BitVec.ofNat 64 b),
     ((match ra, rb with
       | some x, some y => !alone && (decide (rdSteps x.desc ≤ j) || decide (rdSteps y.desc ≤ j))
       | _, _ => false), 0x52, BitVec.ofNat 64 j)])

/-- Whether a product must wait for room (R275, R294): for the fetches of the handles that it reads through windows. -/
def State.productWaits (s : State) (w : Wave) (hs : List Nat) : Bool :=
  let n := (hs.filter fun h => s.windowed w.id h s.nextId).length
  decide (64 ≤ s.unsealedMats w) || decide (8 ≤ s.productsOn w.quadrant)
    || decide (0 < n ∧ 16 < s.fetchDepth w.quadrant + n)

/-- `mmac` (R290). -/
def execMmac (t : BitVec 3) (a b : BitVec 4) (m : BitVec 2) (j : BitVec 3) (h v u : BitVec 1) (s : State) : Out :=
  .next (s.mtxOp m fun w q sl lane =>
    if s.productWaits w [a.toNat, b.toNat] then s.stall w q else
    s.unless w q (w.productFault t.toNat a.toNat b.toNat j.toNat false)
      (s.matIssue w q sl lane t.toNat (.mmac a.toNat b.toNat j.toNat (decide (u = 1)) (decide (v = 1)) (decide (h = 1))) 0
        (s.windowed w.id a.toNat s.nextId || s.windowed w.id b.toNat s.nextId) false w))

/-- The wave index of a latch entry. -/
def State.entryIndex (s : State) (e : LatchEntry) : Nat := ((s.wave? e.wave).map (·.widx)).getD 0

/-- Whether every member wave has entered a latch (R292). -/
def State.latchFull (s : State) (l : Latch) : Bool :=
  (List.range 16).all fun i => !(l.members.getLsbD i) || l.entered.any fun e => s.entryIndex e == i

/-- Whether a member's A reservation disagrees with the shared B (R292). -/
def State.memberFails (s : State) (e low : LatchEntry) : Bool :=
  match (s.wave? e.wave).bind fun w => w.rsv? e.a, (s.wave? low.wave).bind fun w => w.rsv? low.b with
  | some x, some y => rdClass x.desc != rdClass y.desc || rdF16 x.desc != rdF16 y.desc || decide (rdSteps x.desc ≤ low.step)
  | _, _ => true

/-- One member leaves a latch that closed: its operation is in flight and its wave goes on. -/
def State.memberGoes (set : Nat) (low : LatchEntry) (s : State) (e : LatchEntry) : State :=
  match s.wave? e.wave with
  | none => s
  | some w =>
    match w.subs.head? with
    | none => s
    | some q =>
      let f := s.fresh
      let op : MatOp :=
        { id := f.1, wave := w.id, tile := e.tile, kind := .joint e.a e.ta low.wave low.b low.step low.tb set, active := 0,
          by_ := w.issuer q e.slot ((w.leader q e.slot).getD 0) f.1 }
      { f.2 with mats := f.2.mats ++ [op] }.updWave w.id fun w =>
        { w with unsealedM := w.unsealedM ++ [f.1] }.answered w.waiting.1

/-- One member of a latch whose reservations disagree: an operation that is complete already, and OPERAND_STATE (R292). -/
def State.memberFaults (v : W64) (s : State) (e : LatchEntry) : State :=
  let f := s.fresh
  let s := f.2.updWave e.wave fun w => { w with unsealedM := w.unsealedM ++ [f.1] }
  match s.wave? e.wave with
  | some w => s.fault w.id w.waiting.1 0x52 w.waiting.2 v
  | none => s

/-- A full latch closes (R292). -/
def State.closeLatch (s : State) (gid : Nat) (members : BitVec 16) (tag : BitVec 4) : State :=
  match (s.group? gid).bind fun g => g.latches.find? fun l => l.members == members && l.tag == tag with
  | none => s
  | some l =>
    if !(s.latchFull l) then s else
    let es := sortBy (fun x y => decide (s.entryIndex x ≤ s.entryIndex y)) l.entered
    let s' := s.updGroup gid fun g => { g with latches := g.latches.filter fun x => x != l }
    match es.head? with
    | none => s'
    | some low =>
      match es.find? fun e => s.memberFails e low with
      | some bad => es.foldl (State.memberFaults (BitVec.ofNat 64 (s.entryIndex bad))) s'
      | none => es.foldl (State.memberGoes s.nextId low) s'

/-- A wave enters the latch of its group for its members and a tag (R292); it breaks the latches of that tag with other members
that wait for it (R293). -/
def State.enterLatch (s : State) (w : Wave) (tag : BitVec 4) (e : LatchEntry) : State :=
  let s := s.put { w with wait := .joint w.joint tag, lastIssue := s.tick }
  let s := s.breakLatches 1024 [(w.id, some (w.joint, tag))]
  let s := s.updGroup w.gid fun g =>
    if g.latches.any fun l => l.members == w.joint && l.tag == tag then
      { g with latches := updWhere (fun l => l.members == w.joint && l.tag == tag) (fun l => { l with entered := l.entered ++ [e] }) g.latches }
    else { g with latches := g.latches ++ [⟨w.joint, tag, [e]⟩] }
  s.closeLatch w.gid w.joint tag

/-- `mma` (R288, R292). -/
def execMma (t : BitVec 3) (a b : BitVec 4) (m : BitVec 2) (j : BitVec 3) (g : BitVec 4) (o v u : BitVec 1) (s : State) : Out :=
  .next (s.mtxOp m fun w q sl lane =>
    let alone := o = 1 && w.joint ≠ 0 && w.lowestMember ≠ w.widx
    if s.productWaits w (a.toNat :: if alone then [] else [b.toNat]) then s.stall w q else
    s.unless w q (w.productFault t.toNat a.toNat b.toNat j.toNat alone)
      (if o = 1 then
        (if w.joint = 0 then s.raise w q 0x55 0
         else s.enterLatch w g
          { wave := w.id, tile := t.toNat, a := a.toNat, b := b.toNat, step := j.toNat, ta := decide (u = 1), tb := decide (v = 1),
            slot := sl })
      else s.matIssue w q sl lane t.toNat (.mma a.toNat b.toNat j.toNat (decide (u = 1)) (decide (v = 1))) 0
        (s.windowed w.id a.toNat s.nextId || s.windowed w.id b.toNat s.nextId) false w))

/-- `jset` (R291). -/
def execJset (_m : BitVec 2) (s1 : BitVec 6) (s : State) : Out :=
  .next (s.onIssuer fun w q =>
    let v := w.s s1.toNat
    let n := popc 16 v.toNat
    if n < 2 ∨ 6 < n ∨ v.toNat.testBit w.widx = false ∨ 2 ^ w.perGroup ≤ v.toNat % 2 ^ 16 ∨ 2 ^ 16 ≤ v.toNat ∨ w.task = true
    then s.raise w q 0x55 v
    else s.retire { w with joint := v.setWidth 16 })

/-! ## Issue of readout and tile arithmetic (R296 to R300) -/

/-- The faults of `accrd` and `accwr`: the extended block, then the tile, then the part (R277, R296). -/
def State.partOp (s : State) (m : BitVec 2) (t p : Nat) (f : BitVec 7) (k : Wave → SubWave → W32 → State) : State :=
  s.onIssuer fun w q =>
    let sl := w.slotOf m.toNat
    match w.extFault [f.toNat] with
    | some e => s.raise w q 0x03 (BitVec.ofNat 64 e)
    | none =>
      s.unless w q (firstFault [w.tileFault t, (decide (8 / typeCount (slType sl) ≤ p), 0x51, BitVec.ofNat 64 p)]) (k w q sl)

/-- `accrd` (R297): the destination is pending until it is written; under rsr the Active lanes draw at issue. -/
def execAccrd (t : BitVec 3) (d : BitVec 7) (m : BitVec 2) (p : BitVec 3) (s : State) : Out :=
  .next (s.partOp m t.toNat p.toNat d fun w q sl =>
    let act := lanesOf (w.active q sl)
    let all := maskBits 0 (fun _ => true) (w.activeH q sl)
    let w' := if slRound sl = 4 then w.advanceGrain (w.active q sl) (callsFor (typeCount (slType sl))) else w
    s.matIssue w q sl 0 t.toNat (.accrd d.toNat p.toNat (act.map fun l => (l, w.grain.get l))) all false true w')

/-- `accwr` (R298). -/
def execAccwr (t : BitVec 3) (a : BitVec 7) (m : BitVec 2) (p : BitVec 3) (s : State) : Out :=
  .next (s.onIssuer fun w q =>
    if 64 ≤ s.unsealedMats w then s.stall w q else
    s.partOp m t.toNat p.toNat a fun w q sl =>
      let vals := (lanesOf (w.active q sl)).map fun l => (l, w.opnd sl a.toNat l)
      s.matIssue w q sl 0 t.toNat (.accwr p.toNat vals) 0 false false w)

/-- `accadd` (R299). -/
def execAccadd (t u : BitVec 3) (m : BitVec 2) (s : State) : Out :=
  .next (s.mtxOp m fun w q sl lane =>
    if 64 ≤ s.unsealedMats w then s.stall w q else
    s.unless w q (firstFault [w.tileFault t.toNat, w.tileFault u.toNat])
      (s.matIssue w q sl lane t.toNat (.accadd u.toNat) 0 false false w))

/-- The address of an `accst` block (R300): R191 items 1 and 2, alignment, item 4, then R82. -/
def State.storeAt (s : State) (w : Wave) (va : W64) (n align : Nat) (tile : Bool) : Except Nat (Nat × Bool) :=
  match s.checkAddr w va.toNat n align with
  | .error e => .error e
  | .ok p =>
    if (s.ctx w.ctx).modifiable p.1 n then .error 0x60
    else if tile && homeCore p.1 != homeCore (p.1 + n - 1) then .error 0x41
    else .ok p

/-- The address of an `accst` histogram: in slice space, by that name (R300). -/
def State.histAt (s : State) (w : Wave) (va : W64) : Except Nat (Nat × Bool) :=
  match s.storeAt w va 256 64 false with
  | .error e => .error e
  | .ok p => if p.2 then .error 0x20 else .ok p

/-- `accst` (R300). -/
def execAccst (t : BitVec 3) (c : BitVec 1) (g : BitVec 2) (h : BitVec 4) (m : BitVec 2) (s1 : BitVec 6) (x : BitVec 1) (s : State) :
    Out :=
  .next (s.mtxOp m fun w q sl lane =>
    if 64 ≤ s.unsealedMats w ∨ 16 ≤ s.fetchDepth w.quadrant then s.stall w q else
    s.unless w q (firstFault [w.tileFault t.toNat, (decide (g = 3), 0x40, (c ++ g).setWidth 64)])
      (let va := w.s s1.toNat
       match s.storeAt w va (blockBytes (decide (c = 1))) 16 true with
       | .error e => s.raise w q e va
       | .ok p =>
         let hv := w.s h.toNat
         match (if x = 1 then (s.histAt w hv).map fun y => some y.1 else .ok none) with
         | .error e => s.raise w q e hv
         | .ok hist =>
           let w' := if slRound sl = 4 then w.advanceGrain (fun l => l == lane) 34 else w
           s.matIssue w q sl lane t.toNat (.accst p.1 p.2 (decide (c = 1)) g.toNat hist) 0 true false w'))

/-- `sealm` (R294). -/
def execSealm (_m : BitVec 2) (d : BitVec 6) (s : State) : Out :=
  .next (s.onIssuer fun w q =>
    if w.unsealedM.isEmpty then s.retire (w.setS d.toNat (BitVec.allOnes 64))
    else if 14 ≤ (s.openBatches w.batchesM).length then s.stall w q
    else s.retire { w.setS d.toNat (w.nextM.setWidth 64) with
      unsealedM := []
      batchesM := w.batchesM ++ [⟨w.nextM, w.unsealedM, q.pc⟩]
      nextM := w.nextM + 1 })

/-! ## The product (R287 to R290) -/

/-- The bytes of panel tile `u` of a reservation: from its window, or from the buffer. -/
def State.panelTile (s : State) (r : Reservation) (u : Nat) : List Byte :=
  let n := tileBytes (rdClass r.desc)
  let o := rdHoff r.desc + u * n
  match r.window with
  | some a => s.slice.bytes (a + o) n
  | none => r.bytes.bytes o n

/-- Element (i, j) of a panel tile (R47, R287). -/
def tileElem (d : W64) (b : List Byte) (i j : Nat) : Num :=
  if rdClass d = 0 then (if rdF16 d then fF16 else fBf16).value false (field b (2 * (16 * i + j)) 2)
  else blockDecode (decide (rdClass d = 2)) b i j

/-- The tiles of a step. -/
def State.stepTiles (s : State) (r : Reservation) (j : Nat) : List (List Byte) :=
  let n := tilesPerStep (rdClass r.desc)
  (List.range n).map fun t => s.panelTile r (j * n + t)

/-- The values OpA(i, k), row by row, or OpB(k, j), column by column: entry (x, k) is element x of tile k div 16 along the
outer dimension (R287); `flip` reads the tiles the other way. -/
def panelValues (d : W64) (ts : List (List Byte)) (flip : Bool) : List (List Num) :=
  (List.range 16).map fun x => ts.flatMap fun b => (List.range 16).map fun c => if flip then tileElem d b c x else tileElem d b x c

/-- The first reserved tag among the tiles of a step, by its buffer index (R289). -/
def reservedTile (d : W64) (j : Nat) (ts : List (List Byte)) : Option Nat :=
  if rdClass d = 0 then none
  else (List.range ts.length).find? (fun t => decide (blockTag (ts.getD t []) = 3)) |>.map fun t => j * ts.length + t

/-- A product with its operands, as R53 and R55 take it. -/
structure Prod where
  x : Num
  y : Num
  /-- The exact product (negated for a real term that R57 subtracts), and whether it sets invalid. -/
  p : Num
  bad : Bool
  deriving DecidableEq, Repr

/-- The opposite of a value. -/
def Num.opposite : Num → Num
  | .fin s m e => .fin (!s) m e
  | .inf s => .inf (!s)
  | .nan s => .nan s

/-- One product (R55). -/
def mkProd (neg : Bool) (x y : Num) : Prod :=
  let r := accProduct x y
  ⟨x, y, if neg then r.1.opposite else r.1, r.2⟩

/-- E(a) + E(b) + 1 of a finite nonzero product (R53). -/
def Prod.top (r : Prod) : Option Int :=
  match r.p with
  | .fin _ m _ => if m = 0 then none else some (r.x.bigE + r.y.bigE + 1)
  | _ => none

/-- The greatest of some integers. -/
def maxInt (l : List Int) : Option Int :=
  l.foldl (fun b x =>
    match b with
    | none => some x
    | some y => some (max x y)) none

/-- One step into a tile: the products of each cell (R53 to R56, R288). -/
def Tile.addStep (t : Tile) (cells : List (Nat × List Prod)) : Tile :=
  let t := if t.aset then t else
    match maxInt (cells.flatMap fun c => c.2.filterMap Prod.top) with
    | some m => { t with anchor := anchorOf m, aset := true }
    | none => t
  cells.foldl (fun t c =>
    let r := (t.cell c.1).step (anchorInt t.anchor) t.aset t.rounding (c.2.map (·.p))
    { t.setCell c.1 r.1 with flags := t.flags ||| r.2 ||| (if c.2.any (·.bad) then flInvalid else 0) }) t

/-- The products of `mma` for each cell (R288). -/
def realCells (a b : List (List Num)) : List (Nat × List Prod) :=
  (List.range 256).map fun n =>
    (n, ((a.getD (n / 16) []).zip (b.getD (n % 16) [])).map fun p => mkProd false p.1 p.2)

/-- The pairs (even, odd) of a list. -/
def pairsOf : List Num → List (Num × Num)
  | x :: y :: t => (x, y) :: pairsOf t
  | _ => []

/-- The real terms of `mmac` for each cell (R57, R290). -/
def complexCells (a b : List (List Num)) (hi : Bool) : List (Nat × List Prod) :=
  (List.range 256).map fun n =>
    let q := n % 16 / 2
    let ps := (pairsOf (a.getD (n / 16) [])).zip (pairsOf (b.getD ((if hi then 8 else 0) + q) []))
    (n, ps.flatMap fun p =>
      if n % 2 = 0 then [mkProd false p.1.1 p.2.1, mkProd true p.1.2 p.2.2]
      else [mkProd false p.1.1 p.2.2, mkProd false p.1.2 p.2.1])

/-! ## Performing (R278, R283, R289, R292, R297 to R300) -/

/-- The report of a matrix operation (R301): its object, or its batch; a free value where no rule states one. -/
def State.matReport (s : State) (m : MatOp) (code addr obj : Nat) (value : Option Nat) (marked : Bool) : State :=
  let i := m.by_
  let batch := ((s.wave? m.wave).map fun w => w.batchesM).getD []
  let o := if obj ≠ 0 then obj else
    match batch.find? fun b => b.ops.contains m.id with
    | some b => 2 ^ 63 + b.num.toNat
    | none => 0
  s.report i.ctx
    { code := code, source := 5, flags := (if s.issuerGone i then 1 else 0) + (if marked then 8 else 0),
      queue := i.queueField (dieOf i.core) 0, issuer := i.ident, pc := i.pc, object := o, address := addr,
      value := value }

/-- Drop an operation that has been performed. -/
def State.matDone (s : State) (m : MatOp) : State :=
  { s with
    mats := s.mats.filter fun x => x.id != m.id
    transfers := s.transfers.filter fun t => t.op != m.id }

/-- The address of an uncorrectable word of the operands of a step; a word of the buffer has no virtual address, and zero stands for it
(R227, R289). -/
def State.operandBad (s : State) (r : Reservation) (w : Wave) (j : Nat) : Option Nat :=
  let n := tilesPerStep (rdClass r.desc) * tileBytes (rdClass r.desc)
  match r.window with
  | some a => if s.eccBad.any fun e => overlap (a + rdHoff r.desc + j * n) n e 8 then some (a + rdHoff r.desc + j * n) else none
  | none => if w.eccRegs.any fun e => e.2.1 == 4 && e.2.2 == r.handle then some 0 else none

/-- A product of a wave is performed on its tile: A's reservation, and B's with its wave (R288 to R290). -/
def State.performProduct (s : State) (m : MatOp) (w : Wave) (ra : Reservation) (wb : Wave) (rb : Reservation) (j : Nat)
    (cells : List (List Byte) → List (List Byte) → List (Nat × List Prod)) : State :=
  let ta := s.stepTiles ra j
  let tb := s.stepTiles rb j
  let s' := s.matDone m
  match (s.operandBad ra w j).or (s.operandBad rb wb j) with
  | some a => s'.matReport m 0x28 a 0 none false
  | none =>
    match (reservedTile ra.desc j ta).or (reservedTile rb.desc j tb) with
    | some u => s'.matReport m 0x40 0 0 (some u) false
    | none => (s'.updWave w.id fun w => w.updTile m.tile fun t => t.addStep (cells ta tb)).count m.by_.ctx 6 1

/-- The reservation of a wave's handle, with the wave. -/
def State.panel (s : State) (wid h : Nat) : Option (Wave × Reservation) :=
  (s.wave? wid).bind fun w => (w.rsv? h).map fun r => (w, r)

/-- A product with its operands found. -/
def State.runProduct (s : State) (m : MatOp) (a : Nat) (bw b j : Nat) (ta tb : Bool) (hi : Option Bool) : State :=
  match s.panel m.wave a, s.panel bw b with
  | some (w, ra), some (wb, rb) =>
    s.performProduct m w ra wb rb j fun xs ys =>
      let va := panelValues ra.desc xs ta
      let vb := panelValues rb.desc ys (!tb)
      match hi with
      | none => realCells va vb
      | some h => complexCells va vb h
  | _, _ => s.matDone m

/-- `accrd` is performed (R297). -/
def State.runRead (s : State) (m : MatOp) (w : Wave) (t : Tile) (d p : Nat) (draws : List (Nat × W32)) : State :=
  let sl := m.by_.slot
  let ty := slType sl
  let n := typeCount ty
  let ww := typeWidth ty
  let rsr := decide (slRound sl = 4)
  let call := fun (l j : Nat) =>
    match draws.find? fun x => x.1 == l with
    | some x => if rsr then grainOf (s.ctx w.ctx).r.gseed (w.ident l) (x.2 + BitVec.ofNat 32 j) else 0
    | none => 0
  let out := fun (l : Nat) => foldElems n ww 0 fun e =>
    convertTo (typeElt ty) ww (slMode sl) (drawOf (call l (e / 4)) e) ((t.cell (32 * (n * p + e) + l)).value (anchorInt t.anchor))
  let lanes := lanesOf fun l => m.active.getLsbD l
  let fl := draws.foldl (fun f x => f ||| (out x.1).2) t.flags
  (s.matDone m).updWave w.id fun w => (lanes.foldl (fun w l => w.deliver d l (out l).1) w).orLate s.tick fl

/-- `accwr` is performed (R298). -/
def Tile.write (t : Tile) (sl : W32) (p : Nat) (vals : List (Nat × W32)) : Tile :=
  let ty := slType sl
  let n := typeCount ty
  let ww := typeWidth ty
  let cells := vals.flatMap fun v => (List.range n).map fun e =>
    (32 * (n * p + e) + v.1, eltValue (typeElt ty) (slFlush sl) ww (elemRaw v.2 e ww))
  let tops := cells.filterMap fun c =>
    match c.2 with
    | .fin _ m _ => if m = 0 then none else some (c.2.bigE + 1)
    | _ => none
  let t := if t.aset then t else
    match maxInt tops with
    | some m => { t with anchor := anchorOf m, aset := true }
    | none => t
  cells.foldl (fun t c =>
    let r := Cell.zero.step (anchorInt t.anchor) t.aset t.rounding [c.2]
    { t.setCell c.1 r.1 with flags := t.flags ||| r.2 ||| snanFlag [c.2] }) t

/-- `accadd` is performed on the tiles (R299). -/
def Tile.addTile (t u : Tile) : Tile :=
  let flags := t.flags ||| u.flags
  if !u.aset then { t with flags := flags } else
  let t := if t.aset then t else { t with anchor := u.anchor, aset := true }
  (List.range 256).foldl (fun t c =>
    let r := (t.cell c).step (anchorInt t.anchor) true t.rounding [(u.cell c).value (anchorInt u.anchor)]
    { t.setCell c r.1 with flags := t.flags ||| r.2 }) { t with flags := flags }

/-- `accst` is performed (R300): the block in one unit, the histogram, and the flags; a group that has moved has them sent on (R405). -/
def State.runStore (s : State) (m : MatOp) (w : Wave) (t : Tile) (addr : Nat) (four : Bool) (tag : Nat) (hist : Option Nat) : State :=
  let i := m.by_
  let vals := fun (y x : Nat) => (t.cell (16 * y + x)).value (anchorInt t.anchor)
  let r := quantBlock four tag (slRound i.slot) false (blockGrain (s.ctx w.ctx).r.gseed i.laneIdent i.grain0 0) vals
  let s := (s.matDone m).perform w.ctx (.ofOp m.id 0 m.wave) (s.forwarded addr) r.1
  let s := match hist with
    | some h => (List.range 256).foldl (fun (s : State) c => s.histAdd w.ctx m.id m.wave (s.forwarded h) (vals (c / 16) (c % 16))) s
    | none => s
  s.updWave w.id fun w => w.orLate s.tick (t.flags ||| r.2)

/-- MATRIX_OP_PERFORM (R278). An issued matrix operation is performed on its tile, in the order of R278; the members of one joint
product together. -/
def execMatrixOpPerform (op : Nat) (s : State) : Out :=
  .next (
    match s.mats.find? fun m => m.id == op with
    | none => s
    | some m =>
      match s.wave? m.wave with
      | none => s
      | some w =>
        if !(s.matReady m) then s else
        let s := s.matFlush m
        match m.kind, w.tile? m.tile with
        | .mma a b j ta tb, some _ => s.runProduct m a m.wave b j ta tb none
        | .mmac a b j ta tb hi, some _ => s.runProduct m a m.wave b j ta tb (some hi)
        | .joint _ _ _ _ _ _ set, _ =>
          let all := s.mats.filter fun x => x.setOf == some set
          if !(all.all s.matReady) then s else
          (all.foldl (fun s x => s.matFlush x) s) |> all.foldl fun s x =>
            match x.kind with
            | .joint a ta bw b j tb _ => s.runProduct x a bw b j ta tb none
            | _ => s
        | .accrd d p draws, some t => s.runRead m w t d p draws
        | .accwr p vals, some _ => (s.matDone m).updWave w.id fun w => w.updTile m.tile fun t => t.write m.by_.slot p vals
        | .accadd src, some t =>
          let u := (w.tile? src).getD t
          let r := t.addTile u
          (s.matDone m).updWave w.id fun w => (w.updTile m.tile fun _ => r).orLate s.tick r.flags
        | .accst addr _ four tag hist, some t => s.runStore m w t addr four tag hist
        | .obld .., _ => s
        | _, none => s.matDone m)

/-- The wave that a target of a fill names, with its identity's low word (R283, R34). -/
def State.fillTarget (s : State) (w : Wave) (target : Nat) : Option Wave × Nat :=
  if target = 64 then (some w, 0) else
  let group := w.group / 4 * 4 + target / 16
  let hit := s.waves.find? fun x => !x.task && x.ctx == w.ctx && x.ord == w.ord && x.group == group && x.widx == target % 16
  (hit, ({ w with group := group, widx := target % 16 }.ident 0).toNat % 2 ^ 32)

/-- One range takes the bytes of a fill, which ends its window (R282 to R284). -/
def Wave.takeFill (w : Wave) (h : Nat) (bs : List Byte) : Wave :=
  { w with rsv := updWhere (fun r => r.handle == h) (fun r => { r with window := none, bytes := r.bytes.setBytes 0 bs }) w.rsv }

/-- The object of a fill is marked faulted, where it names one that is mapped (R283). -/
def State.fillMark (s : State) (at_ : Option Nat) : State :=
  match at_ with
  | some a => s.markFaulted a
  | none => s

/-- The object of a fill counts the bytes of one range (R283). -/
def State.fillLand (s : State) (m : MatOp) (w : Wave) (obj n : Nat) : State :=
  let i := m.by_
  match (if obj = 0 then none else s.engSlice (s.ctx i.ctx) w.owner obj 32) with
  | none => s
  | some a =>
    let f := s.fresh
    { f.2 with landings := f.2.landings ++ [⟨f.1, i.ctx, a, n, m.id, 5, i.queueField (dieOf i.core) 0, i.wave, i.ident, i.pc⟩] }

/-- OPERAND_FILL_LAND (R282, R283, R226). The bytes of an `obld` land in one of its ranges and are counted, or the target is missing:
reported, and the object marked faulted.  DEDUCED (log 105): so is a fill whose source has an uncorrectable word, which lands nowhere. -/
def execOperandFillLand (op target : Nat) (s : State) : Out :=
  .next (
    match s.mats.find? fun m => m.id == op with
    | none => s
    | some m =>
      match m.kind, s.wave? m.wave with
      | .obld h addr win obj left data, some w =>
        if !(left.contains target) || !(s.matReady m) then s else
        match w.rsv? h with
        | none => s.matDone m
        | some r =>
          let n := rdLength r.desc
          let s := s.matFlush m
          let at_ := if obj = 0 then none else s.engSlice (s.ctx m.by_.ctx) w.owner obj 32
          match (if data.isEmpty then s.eccBad.find? (fun e => overlap addr n e 8) else none) with
          | some e => ((s.matDone m).matReport m 0x28 (max addr e) obj none at_.isSome).fillMark at_
          | none =>
          let bs := if data.isEmpty then s.slice.bytes addr n else data
          let rest := left.filter fun x => x != target
          let s := if rest.isEmpty then s.matDone m
            else { s with mats := updWhere (fun x => x.id == op) (fun x => { x with kind := .obld h addr win obj rest bs }) s.mats }
          let t := s.fillTarget w target
          let ok := t.1.any fun x => (x.rsv? h).any fun y => y.desc.toNat % 2 ^ 20 == r.desc.toNat % 2 ^ 20
          if ok then ((match t.1 with
            | some x => s.updWave x.id fun x => x.takeFill h bs
            | none => s).fillLand m w obj n)
          else
            (s.matReport m 0x54 0 obj (some t.2) at_.isSome).fillMark at_
      | _, _ => s)

end Sys2Proof.Machine
end

