-- ==== Sys2Proof/Machine/Sieve.lean ====
section
/-! DEFINITION. The Sieve neighbour engine (R371 to R392): its queue, the grid descriptor, binning, pair streams, the skin
check, `svpull` and `svclr`; and QUEUE_ACCEPT (R17), which gives a stalled request to its queue. -/

namespace Sys2Proof.Machine

/-! ## Checking the descriptor (R374) -/

/-- Whether an array lies wholly in mapped slice memory or wholly in external memory (R373).  DEDUCED (log 31): an array of
no bytes lies anywhere. -/
def State.arrayOk (s : State) (c : Context) (a align n : Nat) : Bool :=
  decide (a % align = 0) &&
    (n == 0 || s.sliceMapped c a n || (inExt a && decide (a + n ≤ Config.extTop)))

/-- Whether a length is finite and positive. -/
def positive (x : Option Int) : Bool := x.any fun v => decide (0 < v)

/-- The reason of R374 for which the bytes 0 to 71 of a descriptor are refused; 0 for none. -/
def State.gridReason (s : State) (c : Context) (b : List Byte) : Nat :=
  let g := gridFields b
  let opts := field b 18 1
  if !(g.axes.all fun x => positive x.len) then 1
  else if !(g.axes.all fun x => decide (x.n ≤ 256) && decide ((if x.periodic then 3 else 1) ≤ x.n)) then 2
  else if !(positive g.rc) || !(g.skin.any fun v => decide (0 ≤ v)) then 3
  else if g.axes.any fun x => decide (2 ≤ x.n) && decide (x.l < x.n * (g.rc.getD 0 + g.skin.getD 0)) then 4
  else if bitsOf opts 4 2 = 3 then 5
  else if g.np = 0 ∨ 2 ^ 26 < g.np ∨ 2 ^ 26 < g.ovcap then 6
  else if !(s.arrayOk c g.parts 16 (16 * g.np)) || !(s.arrayOk c g.bins 64 (g.cells * g.binSize))
      || !(s.arrayOk c g.ovf 8 (8 * g.ovcap)) || !(s.arrayOk c g.ref 16 (16 * g.np)) then 7
  else if bitsOf opts 3 1 ≠ 0 ∨ bitsOf opts 6 2 ≠ 0 ∨ field b 19 1 ≠ 0 ∨ field b 60 4 ≠ 0 then 8
  else 0

/-! ## Exact coordinates (R377, R380, R389) -/

/-- Wrap of R377. -/
def Axis.wrap (x : Axis) (v : Int) : Int := if x.periodic then v % x.l else v

/-- Cell of R377 on one axis. -/
def Axis.cell (x : Axis) (v : Int) : Nat := (max 0 (min ((x.n : Int) - 1) (x.wrap v * x.n / x.l))).toNat

/-- The cell of a particle (R376, R378). -/
def Grid3.cellOf (g : Grid3) (v : List Int) : Nat :=
  ((g.axes.zip v).foldr (fun e r => e.1.cell e.2 + e.1.n * r) 0)

/-- The image s of -1, 0, 1 that makes |d + s × L| least, the smaller on a tie; 0 on an axis that is not periodic. -/
def Axis.image (x : Axis) (d : Int) : Int :=
  if x.periodic then
    [-1, 0, 1].foldl (fun b t => if (d + t * x.l).natAbs < (d + b * x.l).natAbs then t else b) (-1)
  else 0

/-- The image and the exact displacement from u to v on an axis (R380). -/
def Axis.disp (x : Axis) (u v : Int) : Int × Int :=
  let d := x.wrap v - x.wrap u
  (x.image d, d + x.image d * x.l)

/-- A multiple of 2^w rounded to f32 by rne. -/
def f32Round (i : Int) (w : Int) : Nat := (roundTo fF32 ⟨0, false, false⟩ 0 (.fin (decide (i < 0)) i.natAbs w)).1

/-- L / n rounded to f32 by rne (R373). -/
def cellWidth (x : Axis) : Nat :=
  let m := x.l.natAbs * 2 ^ 64
  (roundTo fF32 ⟨0, false, false⟩ 0 (withSticky false (m / max 1 x.n) (-149 - 64) (decide (m % max 1 x.n = 0)))).1

/-- The record of the pair (i, j) at coordinates u and v, when it is included (R380). -/
def Grid3.pairRecord (g : Grid3) (i j : Nat) (u v : List Int) : Option (List Byte) :=
  let ds := (g.axes.zip (u.zip v)).map fun e => e.1.disp e.2.1 e.2.2
  let enc := ds.map fun d => f32Round d.2 (-149)
  let rounded := enc.map f32Int
  if rounded.any (·.isNone) then none else
  let q := (rounded.map fun r => (r.getD 0) * (r.getD 0)).sum
  let rc := g.rc.getD 0
  if q ≤ rc * rc then
    let image := ds.foldl (fun k d => 3 * k + (d.1 + 1)) 0
    some (leBytes 4 i ++ leBytes 4 j ++ enc.flatMap (leBytes 4) ++ leBytes 4 (f32Round q (-298))
      ++ leBytes 1 image.toNat ++ List.replicate 7 0)
  else none

/-- Whether a particle has moved beyond half the skin from its binned position (R389). -/
def Grid3.stale (g : Grid3) (now binned : List (Option Int)) : Bool :=
  if now.any (·.isNone) then true else
  let t := (g.axes.zip (now.zip binned)).map fun e =>
    let d := (e.2.1.getD 0) - (e.2.2.getD 0)
    d + e.1.image d * e.1.l
  decide ((g.skin.getD 0) * (g.skin.getD 0) < 4 * (t.map fun x => x * x).sum)

/-! ## Queue, requests and issue (R371, R372, R383) -/

/-- The operations of a die's Sieve queue, oldest first. -/
def State.sieveQueue (s : State) (die : Nat) : List SieveOp := s.sieve.filter fun o => o.die == die

/-- An accepted operation that has not begun. -/
def SieveOp.start (id : Nat) (r : EngReq) : SieveOp where
  id := id
  req := r
  die := dieOf r.by_.core
  st := .queued
  grid := []
  cursor := ⟨0, 0, 0, 0, 0, false, []⟩
  written := 0
  stop := false
  binning := ⟨[], [], false, false, []⟩
  checked := 0
  stale := 0
  asked := 0
  refused := 0

/-- Whether a die's queue has room for a request (R371). -/
def State.sieveRoom (s : State) (r : EngReq) : Bool := decide ((s.sieveQueue (dieOf r.by_.core)).length < 16)

/-- The queue takes a request. -/
def State.sieveAccept (s : State) (r : EngReq) : State :=
  let f := s.fresh
  { f.2 with sieve := f.2.sieve ++ [SieveOp.start f.1 { r with by_ := { r.by_ with seq := f.1 } }] }

/-- Whether a context's partition owns the Sieve engine of a die (R397). -/
def State.ownsSieve (s : State) (c : Context) (die : Nat) : Bool :=
  (s.part? c.vf).any fun p => p.sieve.getLsbD die

/-- A ring operand is accepted (R383). -/
def ringOk (r : W64) : Bool := decide (r.toNat % 64 = 0) && inSlice r.toNat

/-- An engine request to Sieve (R372, R383): the operands in the order of R383's table, then R346, then R397; accepted, or the
wave stalls on the full queue (R17). -/
def State.sieveOp (s : State) (m : BitVec 2) (kind : EngKind) (g r o : Wave → Option W64) (flag : Bool) (dst : Nat) : State :=
  s.taskOp m fun w q sl ls =>
    let gv := (g w).getD 0
    let rv := (r w).getD 0
    let ov := (o w).getD 0
    let c := s.ctx w.ctx
    if !(w.engRange gv 64) then s.raise w q 0x90 gv
    else if (r w).isSome && !(ringOk rv) then s.raise w q 0x90 rv
    else if !(w.objectOk ov) then s.raise w q 0x90 ov
    else if s.objectModifiable w ov then s.raise w q 0x60 ov
    else if (r w).isSome && c.modifiable rv.toNat 64 then s.raise w q 0x60 rv
    else if !(s.ownsSieve c (dieOf w.core)) then s.raise w q 0xA3 (BitVec.ofNat 64 (dieOf w.core))
    else
      let s := s.sendCombiner w.id
      let req := s.engReq w q sl (ls.headD 0) kind 0 [gv, rv, ov] flag dst
      if s.sieveRoom req then (s.retire w).sieveAccept req
      else s.put { w with wait := .queue req, lastIssue := s.tick }

/-- `svgrid` (R386): its destination is pending until the operation writes it. -/
def execSvgrid (a b : BitVec 6) (m : BitVec 2) (s : State) : Out :=
  .next (s.sieveOp m .svgrid (fun w => some (w.s b.toNat)) (fun _ => none) (fun _ => none) false a.toNat)
/-- `svbin` (R378). -/
def execSvbin (a b : BitVec 6) (m : BitVec 2) (s : State) : Out :=
  .next (s.sieveOp m .svbin (fun w => some (w.s a.toNat)) (fun _ => none) (fun w => some (w.s b.toNat)) false 0)
/-- `svpair` (R380 to R382). -/
def execSvpair (a b c : BitVec 6) (m : BitVec 2) (f : BitVec 1) (s : State) : Out :=
  .next (s.sieveOp m .svpair (fun w => some (w.s a.toNat)) (fun w => some (w.s b.toNat)) (fun w => some (w.s c.toNat))
    (decide (f = 1)) 0)
/-- `svstat` (R386): its destination is pending until the operation writes it. -/
def execSvstat (a b : BitVec 6) (m : BitVec 2) (s : State) : Out :=
  .next (s.sieveOp m .svstat (fun w => some (w.s b.toNat)) (fun _ => none) (fun _ => none) false a.toNat)
/-- `svcheck` (R389). -/
def execSvcheck (a b : BitVec 6) (m : BitVec 2) (s : State) : Out :=
  .next (s.sieveOp m .svcheck (fun w => some (w.s a.toNat)) (fun _ => none) (fun w => some (w.s b.toNat)) false 0)

/-! ## Faults (R391) -/

/-- Replace an operation. -/
def State.setSieve (s : State) (o : SieveOp) : State :=
  { s with sieve := updWhere (fun x => x.id == o.id) (fun _ => o) s.sieve }

/-- The slice address of an operation's descriptor, where it is mapped. -/
def State.gridAt (s : State) (o : SieveOp) : Option Nat :=
  s.engSlice (s.ctx o.req.by_.ctx) o.req.owner (o.req.op 0) 128

/-- The report of a Sieve operation (R391), as R257 lays down; no rule states its value. -/
def State.sieveReport (s : State) (o : SieveOp) (code addr : Nat) : State :=
  let i := o.req.by_
  s.report i.ctx
    { code := code, source := 2,
      flags := (if s.issuerGone i then 1 else 0) + (if (s.objectAt o.req).isSome then 8 else 0)
      queue := i.queueField o.die 0, issuer := i.ident, pc := i.pc, object := o.req.object, address := addr }

/-- Set FAULTED in a descriptor's status, unless it is unmapped or in a modifiable region (R375, R391). -/
def State.gridFaulted (s : State) (o : SieveOp) : State :=
  let c := s.ctx o.req.by_.ctx
  match s.gridAt o with
  | some d =>
    if c.modifiable (d + 96) 4 then s
    else s.perform c.id (.ofOp o.id o.id o.req.by_.wave) (d + 96) (leBytes 4 (s.slice.num (d + 96) 4 ||| 64))
  | none => s

/-- A reported fault (R391): the object is marked, FAULTED is set, and the queue stops at the operation; a page fault waits to
go on, any other abandons it. -/
def State.sieveFail (s : State) (o : SieveOp) (e : EngErr) : State :=
  let free := fun (w : Wave) => if w.wait = .request o.id then { w with wait := .none } else w
  let stop := fun (k code addr : Nat) =>
    (((({ s with waves := s.waves.map free }).setSieve { o with st := .stopped k addr }).gridFaulted o).sieveReport o code addr).markObject
      o.req
  match e with
  | .page addr => stop 0 0xA1 addr
  | .refuse code _ addr => stop 1 (if code = 0x80 then 0x20 else code) addr

/-- An operation leaves its queue, and its group with it when nothing else keeps it. -/
def State.sieveLeave (s : State) (o : SieveOp) : State :=
  let s := { s with
    sieve := s.sieve.filter fun x => x.id != o.id
    transfers := s.transfers.filter fun t => t.op != o.id }
  match o.req.owner with
  | .group g => s.tryLeave g
  | .core _ => s

/-- The host resumes a die's Sieve queue for a context (R255, R391): an operation that met a page fault goes on, its object's
mark cleared; an abandoned one leaves.  None when nothing is stopped. -/
def State.sieveResume (s : State) (cid die : Nat) : Option State :=
  let os := s.sieve.filter fun o => o.req.by_.ctx == cid && o.die == die &&
    match o.st with
    | .stopped .. => true
    | _ => false
  if os.isEmpty then none else
  some (os.foldl (fun (s : State) o =>
    match o.st with
    | .stopped 0 _ =>
      let s := match s.objectAt o.req with
        | some a => { s with slice := s.slice.setNum (a + 28) 4 (objFlagWord false (objElect s.slice a) (objBound s.slice a)) }
        | none => s
      s.setSieve { o with st := .running }
    | _ => s.sieveLeave o) s)

/-! ## The status block (R375) -/

/-- The 32 bytes of a status block (R375). -/
structure GridStatus where
  word : Nat
  ovused : Nat
  maxocc : Nat
  nstale : Nat
  pairs : Nat
  gen : Nat
  last : Nat
  deriving DecidableEq, Repr

/-- The status block of a descriptor. -/
def gridStatus (m : Memory) (d : Nat) : GridStatus where
  word := m.num (d + 96) 4
  ovused := m.num (d + 100) 4
  maxocc := m.num (d + 104) 4
  nstale := m.num (d + 108) 4
  pairs := m.num (d + 112) 8
  gen := m.num (d + 120) 4
  last := m.num (d + 124) 4

/-- Its bytes. -/
def GridStatus.bytes (t : GridStatus) : List Byte :=
  leBytes 4 t.word ++ leBytes 4 t.ovused ++ leBytes 4 t.maxocc ++ leBytes 4 t.nstale ++ leBytes 8 t.pairs ++ leBytes 4 t.gen
    ++ leBytes 4 t.last

/-- The status word with bit `k` set or clear. -/
def putBit (v k : Nat) (b : Bool) : Nat := v - (if v.testBit k then 2 ^ k else 0) + (if b then 2 ^ k else 0)

/-- The status word after an operation was performed: REFUSED and reason are clear (R375). -/
def statusOk (v : Nat) : Nat := putBit (v % 256) 5 false

/-- The status word after a refusal (R375, R384). -/
def statusRefused (v reason : Nat) : Nat := putBit (v % 256) 5 true + 256 * reason

/-! ## Beginning (R374, R384) -/

/-- Whether a ring header at a slice address obeys R379. -/
def State.ringSound (s : State) (c : Context) (r : Nat) : Bool :=
  let base := s.slice.num r 8
  let cap := s.slice.num (r + 8) 4
  decide (base % 64 = 0) && decide (64 ≤ cap) && decide (cap ≤ 2 ^ 20) && decide (cap = 2 ^ Nat.log2 cap)
    && s.sliceMapped c base (32 * cap) && homeCore base == homeCore r && homeCore (base + 32 * cap - 1) == homeCore r
    && decide (s.slice.num (r + 12) 4 = 0)

/-- The reason for which an operation is refused when it begins (R384); 0 for none. -/
def State.sieveReason (s : State) (c : Context) (o : SieveOp) (d : Nat) (b : List Byte) : Nat :=
  let st := s.slice.num (d + 96) 4
  let k := o.req.kind
  let r := if k = .svstat then 0 else s.gridReason c b
  if r ≠ 0 then r
  else if (k = .svpair ∨ k = .svcheck) ∧ st.testBit 1 = false then 9
  else if k ≠ .svpair then 0
  else if st.testBit 2 then 10
  else if st.testBit 3 then 11
  else if st.testBit 4 then 12
  else if !(s.ringSound c (o.req.op 1)) || s.slice.num (o.req.op 1 + 40) 4 == 1 then 13
  else 0

/-- The first of an operation's descriptor, ring and object that is unmapped (R391). -/
def State.sieveUnmapped (s : State) (c : Context) (o : SieveOp) : Option Nat :=
  if (s.gridAt o).isNone then some (o.req.op 0)
  else if o.req.kind = .svpair && !(s.sliceMapped c (o.req.op 1) 64) then some (o.req.op 1)
  else if o.req.object ≠ 0 && (s.objectAt o.req).isNone then some o.req.object
  else none

/-- Write a list of (address, bytes) for an operation, all checked before any is written (R345). -/
def State.sieveWrite (s : State) (c : Context) (o : SieveOp) (ws : List (Nat × List Byte)) : Except EngErr State :=
  let r := ws.foldl (fun (r : Except EngErr (List (List Chunk × List Byte))) w =>
    match r with
    | .error e => .error e
    | .ok l =>
      match s.engDest c o.req.owner w.1 w.2.length 0 false with
      | .error e => .error e
      | .ok xs => .ok (l ++ [(xs, w.2)])) (.ok [])
  match r with
  | .error e => .error e
  | .ok l => .ok (s.putAll c.id (.ofOp o.id o.id o.req.by_.wave) l)

/-! ## The pair stream (R381, R382) -/

/-- A particle's coordinates, and the rest of its 16-byte record (R373, R376). -/
def State.coords (s : State) (c : Context) (o : SieveOp) (base p : Nat) : Except EngErr (List (Option Int) × List Byte) :=
  match s.engRead c o.req.owner (base + 16 * p) 16 0 with
  | .error e => .error e
  | .ok b => .ok ((List.range 3).map fun a => f32Int (field b (4 * a) 4), b)

/-- The overflow chain of a cell from an entry, `n` entries at most (R376). -/
def State.chain (s : State) (c : Context) (o : SieveOp) (ovf : Nat) : Nat → Nat → Except EngErr (List Nat)
  | 0, _ => .ok []
  | n + 1, e =>
    if e = 2 ^ 32 - 1 then .ok [] else
    match s.engRead c o.req.owner (ovf + 8 * e) 8 0 with
    | .error x => .error x
    | .ok b =>
      match s.chain c o ovf n (field b 4 4) with
      | .error x => .error x
      | .ok l => .ok (field b 0 4 :: l)

/-- The members of a cell, in member order (R376). -/
def State.members (s : State) (c : Context) (o : SieveOp) (g : Grid3) (k : Nat) : Except EngErr (List Nat) :=
  match s.engRead c o.req.owner (g.bins + k * g.binSize) g.binSize 0 with
  | .error e => .error e
  | .ok b =>
    match s.chain c o g.ovf (field b 4 4) (field b 8 4) with
    | .error e => .error e
    | .ok l => .ok ((List.range (min g.cap (field b 0 4))).map (fun i => field b (64 + 4 * i) 4) ++ l)

/-- The neighbour cells of cell `k`, in offset order, each once (R381). -/
def Grid3.neighbours (g : Grid3) (k : Nat) : List Nat :=
  let n := fun a => ((g.axes[a]?).map (·.n)).getD 1
  let per := fun a => ((g.axes[a]?).map (·.periodic)).getD false
  let at_ := [k % n 0, k / n 0 % n 1, k / (n 0 * n 1)]
  ((List.range 27).filterMap fun c =>
    let v := (List.range 3).map fun a =>
      let t : Int := (nth at_ a : Int) + ((c / 3 ^ (2 - a) % 3 : Nat) : Int) - 1
      if per a then some (t % (n a : Int)).toNat
      else if 0 ≤ t ∧ t < n a then some t.toNat else none
    match v with
    | [some x, some y, some z] => some (x + n 0 * (y + n 1 * z))
    | _ => none).eraseDups

/-- The candidates of member `a` among members of one cell, from the cursor's: the cursor past the next record, and that record.
The coordinates of both particles are read for every candidate (R390), so that one that is not finite is met (R380). -/
def State.scanB (s : State) (c : Context) (o : SieveOp) (g : Grid3) (a : Nat) :
    List Nat → StreamAt → Except EngErr (StreamAt × Option (List Byte))
  | [], t => .ok (t, none)
  | b :: l, t =>
    match s.coords c o g.parts a, s.coords c o g.parts b with
    | .error e, _ => .error e
    | _, .error e => .error e
    | .ok u, .ok v =>
      let lost := (u.1 ++ v.1).any (·.isNone)
      let t := { t with
        b := t.b + 1
        visited := t.visited + 1
        bad := t.bad || lost
        reads := b :: a :: t.reads }
      let rec? := if lost || (if o.req.flag then decide (a = b) else decide (b ≤ a)) then none
        else g.pairRecord a b (u.1.map (·.getD 0)) (v.1.map (·.getD 0))
      match rec? with
      | some x => .ok (t, some x)
      | none => s.scanB c o g a l t

/-- The candidates of member `a` in its neighbour cells, in offset order (R381). -/
def State.scanE (s : State) (c : Context) (o : SieveOp) (g : Grid3) (a : Nat) :
    List Nat → StreamAt → Except EngErr (StreamAt × Option (List Byte))
  | [], t => .ok (t, none)
  | e :: l, t =>
    match s.members c o g e with
    | .error x => .error x
    | .ok bs =>
      match s.scanB c o g a (bs.drop t.b) t with
      | .ok (t, none) => s.scanE c o g a l { t with
          offset := t.offset + 1
          b := 0 }
      | x => x

/-- The candidates of the members of a cell with the neighbours `near` (R381). -/
def State.scanA (s : State) (c : Context) (o : SieveOp) (g : Grid3) (near : List Nat) :
    List Nat → StreamAt → Except EngErr (StreamAt × Option (List Byte))
  | [], t => .ok (t, none)
  | a :: l, t =>
    match s.scanE c o g a (near.drop t.offset) t with
    | .ok (t, none) => s.scanA c o g near l { t with
        a := t.a + 1
        offset := 0
        b := 0 }
    | x => x

/-- The candidates of `n` cells from the cursor's on (R381). -/
def State.scanCells (s : State) (c : Context) (o : SieveOp) (g : Grid3) :
    Nat → StreamAt → Except EngErr (StreamAt × Option (List Byte))
  | 0, t => .ok (t, none)
  | n + 1, t =>
    match s.members c o g t.cell with
    | .error x => .error x
    | .ok ms =>
      match s.scanA c o g (g.neighbours t.cell) (ms.drop t.a) t with
      | .ok (t, none) => s.scanCells c o g n { t with
          cell := t.cell + 1
          a := 0
          offset := 0
          b := 0 }
      | x => x

/-- The next pair of a stream from its cursor (R381); each cell's bin is read when the stream comes to it. -/
def State.nextPair (s : State) (o : SieveOp) : Except EngErr (StreamAt × Option (List Byte)) :=
  let g := gridFields o.grid
  s.scanCells (s.ctx o.req.by_.ctx) o g (g.cells - o.cursor.cell) { o.cursor with reads := [] }

/-- The 64 bytes of a stream's ring header, as the engine reads them (R391). -/
def State.ringRead (s : State) (c : Context) (o : SieveOp) : Except EngErr (List Byte) :=
  s.engRead c o.req.owner (o.req.op 1) 64 0

/-- Ask the engine's port for round `k` of an operation's transfers (R398, R399), and keep the translations of what they name; none when
that round has been asked for, or needs none. -/
def State.sieveAsk (s : State) (o : SieveOp) (k : Nat) (l : List (Nat × Nat)) : Option State :=
  let c := s.ctx o.req.by_.ctx
  let ts := s.engTransfers c o.req.owner o.req.by_.core (16 * o.die + 12) o.id l
  if k ≤ o.asked || ts.isEmpty then none
  else some (({ s with transfers := s.transfers ++ ts }.setSieve { o with asked := k }).tlbKeep c o.req.owner (l.map Prod.fst))

/-- The ranges of the coordinates of particles (R373). -/
def Grid3.coordRanges (g : Grid3) (ps : List Nat) : List (Nat × Nat) := ps.map fun p => (g.parts + 16 * p, 16)

/-- What a stream moves for its next record: the coordinates of the candidates that it tests, and the record, if there is one. -/
def State.pairRanges (s : State) (o : SieveOp) : List (Nat × Nat) :=
  match s.nextPair o with
  | .ok (t, x) => (gridFields o.grid).coordRanges t.reads ++ (if x.isSome then [(o.req.op 1 + 64, 32)] else [])
  | .error _ => []

/-- Whether an operation goes on: its context does not stand, or the halt lets it complete, or an issued release waits for it or for one
of its context behind it in its queue (R195, R232, R392). -/
def State.sieveGoes (s : State) (o : SieveOp) : Bool :=
  !(s.stands (s.ctx o.req.by_.ctx)) || (o.st != .queued && (o.req.kind.completesFirst || o.stop))
    || ((s.sieveQueue o.die).dropWhile fun x => x.id != o.id).any fun x => x.req.by_.ctx == o.req.by_.ctx && s.releaseOwed x.req.by_

/-- The status block of an `svbin` that has not finished: BINNED and STALE_BIN are clear, and the marks and counts are those of the
particles binned so far (R378). -/
def Binning.status (b : Binning) (t : GridStatus) : GridStatus :=
  { t with
    word := putBit (putBit (putBit (putBit t.word 1 false) 2 b.overfull) 3 false) 4 b.bad
    ovused := b.ovf.length
    maxocc := 0
    nstale := 0 }

/-- What an accepted operation writes as it begins: a stream resets its ring (R382); an `svbin` empties its bins and clears BINNED and
the marks (R378). -/
def SieveOp.opening (o : SieveOp) (t : GridStatus) : List (Nat × List Byte) :=
  let g := gridFields o.grid
  if o.refused ≠ 0 then [] else
  match o.req.kind with
  | .svpair => [(o.req.op 1 + 16, leBytes 8 0 ++ leBytes 8 0 ++ leBytes 8 (2 ^ 64 - 1) ++ leBytes 4 1)]
  | .svbin => (List.range g.cells).map (fun k => (g.bins + k * g.binSize, leBytes 4 0 ++ leBytes 4 0 ++ leBytes 4 (2 ^ 32 - 1)))
    ++ [(o.req.op 0 + 96, (o.binning.status t).bytes)]
  | _ => []

/-- SIEVE_OP_BEGIN (R374, R384, R386, R391). The oldest operation of a die's queue begins once its release is done: it reads its
descriptor, and a stream its ring's header, and is checked; what an accepted operation writes first is written. -/
def execSieveOpBegin (op : Nat) (s : State) : Out :=
  .next (
    match s.sieve.find? fun o => o.id == op with
    | none => s
    | some o =>
      let i := o.req.by_
      let c := s.ctx i.ctx
      if o.st ≠ .queued || !(s.sieveGoes o) || (((s.sieveQueue o.die).head?).any fun x => x.id != op)
          || !(s.released i.wave i.seq (reachScope false (slScope i.slot)) i.core) then s
      else
      let s := s.flushFor i (reachScope false (slScope i.slot))
      match s.sieveUnmapped c o with
      | some a => s.sieveFail o (.refuse 0x20 none a)
      | none =>
        match s.engRead c o.req.owner (o.req.op 0) 128 0, (if o.req.kind = .svpair then s.ringRead c o else .ok []) with
        | .error e, _ => s.sieveFail o e
        | _, .error e => s.sieveFail o e
        | .ok b, .ok _ =>
          let d := (s.gridAt o).getD 0
          let o := { o with st := .running, grid := b.take 72, refused := s.sieveReason c o d b }
          match s.sieveWrite c o (o.opening (gridStatus s.slice d)) with
          | .error e => s.sieveFail o e
          | .ok s => s.setSieve o)

/-- PAIR_RECORD_WRITE (R382). The stream's next record is written at tail once its transfers are granted and the ring has room; then
tail advances.  A stream that has transfers to ask for asks first (R399). -/
def execPairRecordWrite (op : Nat) (s : State) : Out :=
  .next (
    match s.sieve.find? fun o => o.id == op with
    | none => s
    | some o =>
      let c := s.ctx o.req.by_.ctx
      let r := o.req.op 1
      let tail := s.slice.num (r + 24) 8
      let cap := s.slice.num (r + 8) 4
      if o.st ≠ .running || o.req.kind ≠ .svpair || decide (o.refused ≠ 0) || o.stop || !(s.sieveGoes o)
          || s.transfers.any fun t => t.op == op then s
      else
      match s.sieveAsk o 1 (s.pairRanges o) with
      | some t => t
      | none =>
      if cap ≤ tail - s.slice.num (r + 16) 8 then s else
      match s.ringRead c o, s.nextPair o with
      | .error e, _ => s.sieveFail o e
      | _, .error e => s.sieveFail o e
      | _, .ok (_, none) => s
      | _, .ok (t, some rec) =>
        match s.sieveWrite c o [(s.slice.num r 8 + 32 * (tail % max 1 cap), rec), (r + 24, leBytes 8 (tail + 1))] with
        | .error e => s.sieveFail o e
        | .ok s =>
          let o' := { o with cursor := t, written := o.written + 1, asked := 0 }
          (s.count c.id 11 (t.visited - o.cursor.visited)).setSieve o')

/-! ## Binning and checking (R378, R389) -/

/-- One particle of `svbin` (R378). -/
def Binning.add (g : Grid3) (p : Nat) (xs : List (Option Int)) (raw : List Byte) (b : Binning) : Binning :=
  let ref := fun (b : Binning) (k : Nat) => { b with refs := b.refs ++ [raw.take 12 ++ leBytes 4 k] }
  if xs.any (·.isNone) then { ref b (2 ^ 32 - 1) with bad := true } else
  let k := g.cellOf (xs.map (·.getD 0))
  let l := sget [] b.slots k
  if l.length < g.cap then ref { b with slots := sset [] k (l ++ [p]) b.slots } k
  else if b.ovf.length < g.ovcap then ref { b with ovf := b.ovf ++ [(p, k)] } k
  else { ref b (2 ^ 32 - 1) with overfull := true }

/-- Bin the particles from `p` on, `n` of them; a fault leaves those binned before it. -/
def State.binAll (s : State) (c : Context) (o : SieveOp) (g : Grid3) : Nat → Nat → Binning → Binning × Option EngErr
  | 0, _, b => (b, none)
  | n + 1, p, b =>
    match s.coords c o g.parts p with
    | .error e => (b, some e)
    | .ok x => s.binAll c o g n (p + 1) (b.add g p x.1 x.2)

/-- Entries of the overflow area of a cell, ascending. -/
def Binning.entriesOf (b : Binning) (k : Nat) : List Nat := (List.range b.ovf.length).filter fun e => ((b.ovf[e]?).map (·.2)) == some k

/-- The bytes that `svbin` writes, but for the status block (R376, R378): bins, overflow entries, binned positions. -/
def Binning.writes (g : Grid3) (b : Binning) : List (Nat × List Byte) :=
  let none32 := 2 ^ 32 - 1
  ((List.range g.cells).map fun k =>
    let l := sget [] b.slots k
    let es := b.entriesOf k
    (g.bins + k * g.binSize,
      leBytes 4 l.length ++ leBytes 4 es.length ++ leBytes 4 (es.headD none32) ++ List.replicate 52 0 ++ l.flatMap (leBytes 4)))
  ++ (List.range b.ovf.length).map (fun e =>
    let x := (b.ovf[e]?).getD (0, 0)
    (g.ovf + 8 * e, leBytes 4 x.1 ++ leBytes 4 (((b.entriesOf x.2).find? fun f => e < f).getD none32)))
  ++ (List.range b.refs.length).map fun p => (g.ref + 16 * p, (b.refs[p]?).getD [])

/-- Largest cell population (R378). -/
def Binning.maxOcc (b : Binning) : Nat :=
  (b.slots.map fun e => e.2.length + (b.entriesOf e.1).length).foldl max 0

/-- The particles beyond half the skin among `n` from `p` on (R389): particles checked, stale ones, and the fault that stopped it. -/
def State.countStale (s : State) (c : Context) (o : SieveOp) (g : Grid3) : Nat → Nat → Nat → Nat × Nat × Option EngErr
  | 0, p, k => (p, k, none)
  | n + 1, p, k =>
    match s.coords c o g.ref p, s.coords c o g.parts p with
    | .error e, _ => (p, k, some e)
    | _, .error e => (p, k, some e)
    | .ok r, .ok x =>
      s.countStale c o g n (p + 1) (if field r.2 12 4 ≠ 2 ^ 32 - 1 ∧ g.stale x.1 r.1 = true then k + 1 else k)

/-! ## The end of an operation (R375, R384 to R386) -/

/-- Whether an operation is a stream that writes to the ring at a slice address (R382, R388): every context of a partition has the ring's
bytes under that address. -/
def SieveOp.streamsTo (o : SieveOp) (r : Nat) : Bool :=
  o.req.kind == .svpair && o.req.op 1 == r && decide (o.refused = 0) && (match o.st with
    | .running => true
    | .stopped k _ => k == 0
    | .queued => false)

/-- The ring's unpulled records are discarded, and it is done (R388). -/
def State.clearRing (s : State) (w : Wave) (r : Nat) : State :=
  (s.perform w.ctx (.ofWave w.id) (r + 16) (leBytes 8 (s.slice.num (r + 24) 8))).perform w.ctx (.ofWave w.id) (r + 40) (leBytes 4 2)

/-- The waves whose `svclr` stopped a stream go on once it has ended (R388). -/
def State.cleared (s : State) (o : SieveOp) : State :=
  (s.waves.filter fun w => w.wait == .request o.id).foldl (fun (s : State) w =>
    (s.clearRing w (o.req.op 1)).updWave w.id fun w => w.answered w.waiting.1) s

/-- An operation ends (R385): its status block is written and its 32 bytes are on their way to its object. -/
def State.sieveEnd (s : State) (o : SieveOp) : State :=
  let i := o.req.by_
  let s : State := match s.objectAt o.req with
    | none => s
    | some a => { s with landings := s.landings ++ [⟨o.id, i.ctx, a, 32, o.id, 2, i.queueField o.die 0, i.wave, i.ident, i.pc⟩] }
  (s.sieveLeave o).cleared o

/-- Write the bytes of an operation and end it; or stop it on a fault. -/
def State.sieveFinish (s : State) (c : Context) (o : SieveOp) (ws : List (Nat × List Byte)) : State :=
  match s.sieveWrite c o ws with
  | .error e => s.sieveFail o e
  | .ok s => s.sieveEnd o

/-- A refused operation (R384): REFUSED and its reason, and the ring of an `svpair` refused unless it streams. -/
def State.sieveRefused (s : State) (c : Context) (o : SieveOp) (d : Nat) : State :=
  let r := o.req.op 1
  let ring := o.req.kind == .svpair && s.slice.num (r + 40) 4 != 1
  s.sieveFinish c o ((o.req.op 0 + 96, leBytes 4 (statusRefused (s.slice.num (d + 96) 4) o.refused))
    :: (if ring then [(r + 40, leBytes 4 3)] else []))

/-- `svgrid` is performed (R386). -/
def State.finishGrid (s : State) (c : Context) (o : SieveOp) : State :=
  let g := gridFields o.grid
  let zero : GridStatus := ⟨if o.refused = 0 then 1 else statusRefused 0 o.refused, 0, 0, 0, 0, 0, 0⟩
  let ws := (o.req.op 0 + 96, zero.bytes) ::
    (if o.refused = 0 then [(o.req.op 0 + 72, g.axes.flatMap fun x => leBytes 4 (cellWidth x))] else [])
  match s.sieveWrite c o ws with
  | .error e => s.sieveFail o e
  | .ok s => (s.updWave o.req.by_.wave fun w => w.setS o.req.dst (BitVec.ofNat 64 o.refused)).sieveEnd o

/-- `svstat` is performed (R386). -/
def State.finishStat (s : State) (o : SieveOp) (d : Nat) : State :=
  let t := gridStatus s.slice d
  (s.updWave o.req.by_.wave fun w => w.setS o.req.dst (BitVec.ofNat 64 (t.word + 2 ^ 32 * t.nstale))).sieveEnd o

/-- `svbin` is performed from the particles binned before (R378), its reads and then its writes once their transfers are granted (R399);
on a fault, what is binned is written, and BINNED stays clear (R391). -/
def State.finishBin (s : State) (c : Context) (o : SieveOp) (d : Nat) : State :=
  let g := gridFields o.grid
  let t := gridStatus s.slice d
  let done := o.binning.refs.length
  match s.sieveAsk o 1 (g.coordRanges ((List.range (g.np - done)).map fun i => done + i)) with
  | some t => t
  | none =>
  match s.binAll c o g (g.np - done) done o.binning with
  | (b, some e) =>
    let o := { o with binning := b }
    (match s.sieveWrite c o (b.writes g ++ [(o.req.op 0 + 96, (b.status t).bytes)]) with
      | .error _ => s
      | .ok s => s).sieveFail o e
  | (b, none) =>
    let o := { o with binning := b }
    match s.sieveAsk o 2 ((b.writes g).map fun (e : Nat × List Byte) => (e.1, e.2.length)) with
    | some t => t
    | none =>
    let word := putBit (putBit (putBit (putBit (statusOk t.word) 1 true) 2 b.overfull) 3 false) 4 b.bad
    let t' := { t with
      word := word
      ovused := b.ovf.length
      maxocc := b.maxOcc
      nstale := 0
      gen := (t.gen + 1) % 2 ^ 32
      last := 1 }
    s.sieveFinish c o (b.writes g ++ [(o.req.op 0 + 96, t'.bytes)])

/-- `svcheck` is performed (R389). -/
def State.finishCheck (s : State) (c : Context) (o : SieveOp) (d : Nat) : State :=
  let g := gridFields o.grid
  let rest := (List.range (g.np - o.checked)).map fun i => o.checked + i
  match s.sieveAsk o 1 (g.coordRanges rest ++ rest.map fun p => (g.ref + 16 * p, 16)) with
  | some t => t
  | none =>
  match s.countStale c o g (g.np - o.checked) o.checked o.stale with
  | (p, n, some e) => s.sieveFail { o with checked := p, stale := n } e
  | (_, n, none) =>
    let t := gridStatus s.slice d
    let word := statusOk t.word
    let t' := { t with
      word := if 0 < n then putBit word 3 true else word
      nstale := n
      last := 5 }
    s.sieveFinish c { o with checked := g.np, stale := n } [(o.req.op 0 + 96, t'.bytes)]

/-- The stream of an `svpair` ends: no pair is left, or `svclr` stopped it (R382, R388). -/
def State.finishPair (s : State) (c : Context) (o : SieveOp) (d : Nat) : State :=
  let r := o.req.op 1
  let close := fun (bad : Bool) =>
    let t := gridStatus s.slice d
    let word := statusOk t.word
    let t' := { t with
      word := if bad then putBit word 4 true else word
      pairs := o.written
      last := 2 }
    s.sieveFinish c o [(r + 32, leBytes 8 (s.slice.num (r + 24) 8) ++ leBytes 4 2), (o.req.op 0 + 96, t'.bytes)]
  match s.ringRead c o with
  | .error e => s.sieveFail o e
  | .ok _ =>
  if o.stop then close o.cursor.bad else
  match s.sieveAsk o 1 (s.pairRanges o) with
  | some t => t
  | none =>
  match s.nextPair o with
  | .error e => s.sieveFail o e
  | .ok (_, some _) => s
  | .ok (t, none) => (close t.bad).count c.id 11 (t.visited - o.cursor.visited)

/-- SIEVE_OP_COMPLETE (R375, R378, R382, R384 to R386, R389). The running operation of a die is performed to its end, or is
refused: its status block is written and its 32 bytes count; a stream with a pair left goes on. -/
def execSieveOpComplete (op : Nat) (s : State) : Out :=
  .next (
    match s.sieve.find? fun o => o.id == op with
    | none => s
    | some o =>
      let c := s.ctx o.req.by_.ctx
      if !(s.sieveGoes o) || (!o.stop && s.transfers.any fun t => t.op == op) then s else
      match o.st, s.gridAt o with
      | .running, some d =>
        match o.req.kind, s.engRead c o.req.owner (o.req.op 0) 128 0 with
        | .svgrid, _ => s.finishGrid c o
        | _, .error e => s.sieveFail o e
        | .svstat, _ => s.finishStat o d
        | k, _ =>
          if o.refused ≠ 0 then s.sieveRefused c o d
          else if k = .svbin then s.finishBin c o d
          else if k = .svcheck then s.finishCheck c o d
          else s.finishPair c o d
      | _, _ => s)

/-! ## Pulling and clearing (R387, R388) -/

/-- Why a run operand is refused (R383): not a multiple of 8 from 0 to 88, then an extended block not held. -/
def Wave.pullRunFault (w : Wave) (v : W64) : Option (Nat × W64) :=
  if 128 ≤ v.toNat ∨ v.toNat % 8 ≠ 0 ∨ 88 < v.toNat then some (0x90, v)
  else if isExtended v.toNat && !w.ext then some (0x03, v)
  else none

/-- Whether a wave's access to a ring must wait for its own earlier accesses: a write to the header, or an acquire (R61, R72). -/
def State.ringBusy (s : State) (w : Wave) (r : Nat) : Bool :=
  s.ownPending w.id r 64 || s.flight.any fun a => a.wave == w.id && a.acq && !a.finished

/-- The faults of `svpull` and `svclr` on their ring after its operand check (R22, R226, R346). -/
def State.ringFault (s : State) (w : Wave) (r : W64) : Option Nat :=
  let c := s.ctx w.ctx
  if c.modifiable r.toNat 64 then some 0x60
  else if !(s.sliceMapped c r.toNat 64) then some 0x20
  else if s.eccBad.any fun e => overlap r.toNat 64 e 8 then some 0x28
  else none

/-- Words of `n` records that no rule gives: free values. -/
def State.freeWords : Nat → State → List W32 × State
  | 0, s => ([], s)
  | n + 1, s =>
    let f := s.free
    let r := f.2.freeWords n
    (f.1.setWidth 32 :: r.1, r.2)

/-- `svpull` (R387). The ring's home gives the next pairs to the Active lanes, ascending, as one step; the wave is not ready
while the ring is empty and streaming. -/
def execSvpull (a b c : BitVec 6) (m : BitVec 2) (s : State) : Out :=
  .next (s.runOrSkip m (fun w => w.pullRunFault (w.s c.toNat)) fun w q _ ls =>
    let r := w.s b.toNat
    let run := w.s c.toNat
    let cx := s.ctx w.ctx
    if !(ringOk r) then s.raise w q 0x90 r else
    match w.pullRunFault run with
    | some e => s.raise w q e.1 e.2
    | none =>
    match s.ringFault w r with
    | some code => s.raise w q code r
    | none =>
      let head := s.slice.num (r.toNat + 16) 8
      let tail := s.slice.num (r.toNat + 24) 8
      if s.ringBusy w r.toNat || (decide (head = tail) && s.slice.num (r.toNat + 40) 4 == 1) then s.again w q else
      let n := min ls.length (tail - head)
      let sound := s.ringSound cx r.toNat
      let base := s.slice.num r.toNat 8
      let cap := max 1 (s.slice.num (r.toNat + 8) 4)
      let at_ := fun i => base + 32 * ((head + i) % cap)
      match (if sound then (List.range n).find? fun i => s.eccBad.any fun e => overlap (at_ i) 32 e 8 else none) with
      | some i => s.raise w q 0x28 (BitVec.ofNat 64 (at_ i))
      | none =>
        let f := if sound then ([], s) else s.freeWords (8 * n)
        let word := fun (i k : Nat) => if sound then BitVec.ofNat 32 (s.slice.num (at_ i + 4 * k) 4) else f.1.getD (8 * i + k) 0
        let w := ((ls.take n).zip (List.range n)).foldl (fun (w : Wave) x =>
          (List.range 8).foldl (fun (w : Wave) k => w.setV (run.toNat + k) x.1 (word x.2 k)) w) w
        let s := f.2.perform w.ctx (.ofWave w.id) (r.toNat + 16) (leBytes 8 (head + n))
        s.retire (w.setS a.toNat (BitVec.ofNat 64 n)))

/-- `svclr` (R388). A stream that writes to the ring is stopped, and the wave is not ready until it has ended; then the unpulled
pairs are discarded and the ring is done.  A stream that stands on a page fault ends once the host has resumed it, and the wave issues
its `svclr` again. -/
def execSvclr (a : BitVec 6) (m : BitVec 2) (s : State) : Out :=
  .next (s.taskOp m fun w q _ _ =>
    let r := w.s a.toNat
    if !(ringOk r) then s.raise w q 0x90 r else
    match s.ringFault w r with
    | some code => s.raise w q code r
    | none =>
      match s.sieve.find? fun o => o.streamsTo r.toNat with
      | some o =>
        let s := s.setSieve { o with stop := true }
        if o.st = .running then s.put { w with wait := .request o.id, lastIssue := s.tick } else s.again w q
      | none => if s.ringBusy w r.toNat then s.again w q else (s.clearRing w r.toNat).retire w)

/-! ## A full queue that gains room (R17) -/

/-- Whether a request is one of Slip's. -/
def EngKind.isSlip : EngKind → Bool
  | .cpt | .cptt | .cpl | .cpg | .cps | .wsig | .hgrd | .qfence => true
  | _ => false

/-- QUEUE_ACCEPT (R17, R371). The queue on which a wave stalls has room and takes its request; the wave goes on. -/
def execQueueAccept (wave : Nat) (s : State) : Out :=
  .next (
    match s.wave? wave with
    | none => s
    | some w =>
      match w.wait with
      | .queue r =>
        let go := fun (s : State) => s.updWave wave fun w => w.answered w.waiting.1
        if r.kind.isSlip then (if s.slipRoom r then go (s.slipAccept r) else s)
        else if s.sieveRoom r then go (s.sieveAccept r) else s
      | _ => s)

end Sys2Proof.Machine
end

