-- ==== Sys2Proof/Machine/Score.lean ====
section
/-! DEFINITION. Which registers an instruction reads and writes (R119, R120), the writes that the scoreboard holds (R194),
the sub-wave that a wave offers (R106), and whether it is ready (R17, R120 to R122, R142). -/

namespace Sys2Proof.Machine

/-! ## Register use -/

/-- A register that an instruction uses: file 0 vector, 1 scalar, 2 predicate, 3 accumulator, 4 operand buffer; whether it is read,
written; and the field that names it, which tells a neighbour source (R90). -/
structure RegUse where
  file : Nat
  idx : Nat
  rd : Bool
  wr : Bool
  field : Nat
  deriving DecidableEq, Repr

/-- The vector register of a field: a neighbour field names register 0 to 15 (R89, R90). -/
def fieldReg (f : Nat) : Nat := if f < 96 then f else f % 16

/-- A vector field read. -/
def vRead (f : Nat) : RegUse := ⟨0, fieldReg f, true, false, f⟩
/-- A vector field written. -/
def vWrite (f : Nat) : RegUse := ⟨0, fieldReg f, false, true, f⟩
/-- A vector field read and written. -/
def vBoth (f : Nat) : RegUse := ⟨0, fieldReg f, true, true, f⟩
/-- A scalar read. -/
def sRead (k : Nat) : RegUse := ⟨1, k, true, false, k⟩
/-- A scalar written. -/
def sWrite (k : Nat) : RegUse := ⟨1, k, false, true, k⟩
/-- A scalar read and written. -/
def sBoth (k : Nat) : RegUse := ⟨1, k, true, true, k⟩
/-- A predicate. -/
def pUse (k : Nat) (rd wr : Bool) : RegUse := ⟨2, k, rd, wr, k⟩
/-- An accumulator tile read. -/
def tRead (t : Nat) : RegUse := ⟨3, t, true, false, t⟩
/-- A reservation read. -/
def bRead (h : Nat) : RegUse := ⟨4, h, true, false, h⟩

/-- The run of `n` vector registers that a scalar names (R310, R383). -/
def Wave.runUses (w : Wave) (a n : Nat) (rd wr : Bool) : List RegUse :=
  (List.range n).map fun k => ⟨0, (w.s a).toNat % 128 + k, rd, wr, (w.s a).toNat % 128 + k⟩

/-- The registers named by the fields of an instruction, in field order. -/
def fieldUses : Instr → List RegUse
  | .nop | .endq | .trap _ | .eret | .bkpt _ | .xacq | .xrel | .yield | .rejoin | .fence _ _ | .waitc _ _ _ _ | .bra _
  | .accza _ _ | .obrel _ _ | .qfence _ _ | .trdrop _ =>
    []
  | .getk s _ | .tick s => [sWrite s.toNat]
  | .setk s _ | .jmp s | .obwin _ _ s | .jset _ s => [sRead s.toNat]
  | .mode _ a | .lrfl a _ | .lrins a _ | .svclr a _ => [sRead a.toNat]
  | .modea _ a b | .trrec a b _ | .mdecl a b _ | .svbin a b _ | .svcheck a b _ => [sRead a.toNat, sRead b.toNat]
  | .modem _ a b | .glaunch a b _ | .propagate a b _ | .trstat a b _ | .svgrid a b _ | .svstat a b _ =>
    [sWrite a.toNat, sRead b.toNat]
  | .callr s => [sRead s.toNat, sWrite 63]
  | .brz r _ | .brnz r _ => [sRead r.toNat]
  | .brany r _ | .brnone r _ | .brall r _ => [pUse r.toNat true false]
  | .call _ => [sWrite 63]
  | .sadd d a b | .ssub d a b | .smul d a b | .smulh d a b | .smulhn d a b | .sand d a b | .sor d a b | .sxor d a b
  | .sandn d a b | .sshl d a b | .sshr d a b | .ssra d a b | .smin d a b | .smax d a b | .sminn d a b | .smaxn d a b
  | .sseq d a b | .ssne d a b | .sslt d a b | .ssle d a b | .ssltn d a b | .sslen d a b =>
    [sWrite d.toNat, sRead a.toNat, sRead b.toNat]
  | .sclz d a | .spopc d a | .saddi d a _ | .sandi d a _ | .sori d a _ | .sxori d a _ | .sshli d a _ | .sshri d a _
  | .ssrai d a _ | .sseqi d a _ | .sslti d a _ | .ssltni d a _ => [sWrite d.toNat, sRead a.toNat]
  | .pand d a b | .por d a b | .pxor d a b | .pandn d a b =>
    [pUse d.toNat false true, pUse a.toNat true false, pUse b.toNat true false]
  | .pnot d a => [pUse d.toNat false true, pUse a.toNat true false]
  | .pmovs d a => [pUse d.toNat false true, sRead a.toNat]
  | .smovp d a => [sWrite d.toNat, pUse a.toNat true false]
  | .pcnt d a b | .pfirst d a b => [sWrite d.toNat, pUse a.toNat true false, pUse b.toNat true false]
  | .smovi d _ _ | .sealm _ d => [sWrite d.toNat]
  | .sinsi d _ _ => [sBoth d.toNat]
  | .vadd _ d a b | .vsub _ d a b | .vmul _ d a b | .vmulh _ d a b | .vand _ d a b | .vor _ d a b | .vxor _ d a b
  | .vandn _ d a b | .vshl _ d a b | .vshr _ d a b | .vsra _ d a b | .vmin _ d a b | .vmax _ d a b | .vsel _ d a b
  | .vadds _ d a b | .vsubs _ d a b | .vbfe _ d a b | .vfadd _ d a b | .vfsub _ d a b | .vfmul _ d a b
  | .vfmin _ d a b | .vfmax _ d a b | .vfscl _ d a b | .vshfl _ d a b => [vWrite d.toNat, vRead a.toNat, vRead b.toNat]
  | .vaadd _ d a b | .vamin _ d a b | .vamax _ d a b | .vaand _ d a b | .vaor _ d a b | .vaxor _ d a b | .vaxch _ d a b
  | .vafadd _ d a b => [vWrite d.toNat, vRead a.toNat, vRead (a.toNat + 1), vRead b.toNat]
  | .vacas _ d a b => [vBoth d.toNat, vRead a.toNat, vRead (a.toNat + 1), vRead b.toNat]
  | .vmad _ d a b | .vdot4 _ d a b | .vdot8 _ d a b | .vbfi _ d a b | .vfma _ d a b | .vfdot4 _ d a b
  | .vfdot8 _ d a b => [vBoth d.toNat, vRead a.toNat, vRead b.toNat]
  | .vabs _ d a | .vclz _ d a | .vpopc _ d a | .vfneg _ d a | .vfabs _ d a | .vfrcp _ d a | .vfrsq _ d a
  | .vfexp2 _ d a | .vflog2 _ d a | .vfclass _ d a | .vfrnd _ d a | .vmov _ d a | .vqswz _ d a _ | .vqsum _ d a
  | .vprfx _ d a _ | .vcmpct _ d a | .vredadd _ d a | .vredmin _ d a | .vredmax _ d a | .vaddi _ d a _
  | .vandi _ d a _ | .vori _ d a _ | .vxori _ d a _ | .vshli _ d a _ | .vshri _ d a _ | .vsrai _ d a _ =>
    [vWrite d.toNat, vRead a.toNat]
  | .vcmpeq _ d a b | .vcmpne _ d a b | .vcmplt _ d a b | .vcmple _ d a b | .vfcmpeq _ d a b | .vfcmplt _ d a b
  | .vfcmple _ d a b | .vfcmpun _ d a b => [pUse d.toNat false true, vRead a.toNat, vRead b.toNat]
  | .vfcvt _ d a _ => [vBoth d.toNat, vRead a.toNat]
  | .vfpk4 _ d a => [vBoth d.toNat, vRead a.toNat, vRead (a.toNat + 1), vRead (a.toNat + 2), vRead (a.toNat + 3)]
  | .vmovs _ d a => [vWrite d.toNat, sRead a.toNat]
  | .vrdlane _ d a b => [sWrite d.toNat, vRead a.toNat, sRead b.toNat]
  | .vbcst _ d a b => [vWrite d.toNat, vRead a.toNat, sRead b.toNat]
  | .vlaneid _ d | .vmovi _ d _ => [vWrite d.toNat]
  | .vld _ d b x _ | .vld8 _ d b x _ | .vld16 _ d b x _ | .vldm _ d b x _ =>
    [vWrite d.toNat, sRead b.toNat, vRead x.toNat]
  | .vld64 _ d b x _ => [vWrite d.toNat, vWrite (d.toNat + 1), sRead b.toNat, vRead x.toNat]
  | .vld128 _ d b x _ =>
    [vWrite d.toNat, vWrite (d.toNat + 1), vWrite (d.toNat + 2), vWrite (d.toNat + 3), sRead b.toNat, vRead x.toNat]
  | .vst _ d b x _ | .vst8 _ d b x _ | .vst16 _ d b x _ | .vstm _ d b x _ =>
    [vRead d.toNat, sRead b.toNat, vRead x.toNat]
  | .vst64 _ d b x _ => [vRead d.toNat, vRead (d.toNat + 1), sRead b.toNat, vRead x.toNat]
  | .vst128 _ d b x _ =>
    [vRead d.toNat, vRead (d.toNat + 1), vRead (d.toNat + 2), vRead (d.toNat + 3), sRead b.toNat, vRead x.toNat]
  | .sld d b _ _ | .sld32 d b _ _ | .sldm d b _ _ | .barv d b _ _ | .barb d b _ _ | .bphase d b _ _ | .rgacq d b _ _ =>
    [sWrite d.toNat, sRead b.toNat]
  | .sst d b _ _ | .sst32 d b _ _ | .sstm d b _ _ | .waitp d b _ _ => [sRead d.toNat, sRead b.toNat]
  | .scas d b _ _ | .samo d b _ _ => [sBoth d.toNat, sRead (d.toNat + 1), sRead b.toNat]
  | .binit d b _ _ | .bind d b _ _ | .unbind d b _ _ => [sRead d.toNat, sRead (d.toNat + 1), sRead b.toNat]
  | .rgrel b _ _ | .tkwait b _ _ | .tkpass b _ _ => [sRead b.toNat]
  | .vradd _ a b | .vrfadd _ a b | .vrmin _ a b | .vrmax _ a b | .vrx96 _ a b =>
    [vRead a.toNat, vRead (a.toNat + 1), vRead b.toNat]
  | .accz _ _ a r => if r = 1 then [] else [sRead a.toNat]
  | .obres _ _ d => [sRead d.toNat]
  | .obld _ c _ s x => if x = 1 then [sRead c.toNat, sRead (c.toNat + 1), sRead s.toNat] else [sRead s.toNat]
  | .accwr _ a _ _ => [vRead a.toNat]
  | .accst t _ _ h _ s x => tRead t.toNat :: (if x = 1 then [sRead h.toNat, sRead s.toNat] else [sRead s.toNat])
  | .cpt a b c _ _ _ | .cptt a b c _ _ _ | .cpg a b c _ _ | .cps a b c _ _ _ | .hgrd a b c _ _ | .svpair a b c _ _ =>
    [sRead a.toNat, sRead b.toNat, sRead c.toNat]
  | .cpl a b c _ _ => [sRead a.toNat, sRead (a.toNat + 1), sRead b.toNat, sRead c.toNat]
  | .wsig a b c _ _ _ => [sRead a.toNat, sRead (a.toNat + 1), sRead b.toNat, sRead (b.toNat + 1), sRead c.toNat]
  | .sealc a _ | .quiesce a _ | .trstop a _ => [sWrite a.toNat]
  | .spawn a b _ _ => [sRead a.toNat, sRead b.toNat]
  | .spawnd a b _ _ => [sRead a.toNat, sRead b.toNat]
  | .dcinit a _ => [sRead a.toNat]
  | .dcdec a _ => [sRead a.toNat]
  | .wlpush a b _ => [sRead a.toNat, sRead b.toNat]
  | .wlpull a b c _ => [sWrite a.toNat, sRead b.toNat, sRead c.toNat]
  | .svpull a b c _ => [sWrite a.toNat, sRead b.toNat, sRead c.toNat]
  | .mma t a b _ _ _ _ j _ => if j = 1 then [tRead t.toNat, bRead a.toNat] else [tRead t.toNat, bRead a.toNat, bRead b.toNat]
  | .mmac t a b _ _ _ _ _ => [tRead t.toNat, bRead a.toNat, bRead b.toNat]
  | .accrd t d _ _ => [vWrite d.toNat, tRead t.toNat]
  | .accadd t u _ => [tRead t.toNat, tRead u.toNat]
  | _ => []

/-- The registers that a task wave's `waitp` or `barb` copies into frames (R115). -/
def Wave.frameUses (w : Wave) : List RegUse :=
  if w.task then ((List.range 32).filter fun n => w.livemask.getLsbD n).map vRead ++ (List.range 16).map sRead else []

/-- Every register that an instruction of a wave uses, with the runs that its scalars name (R310, R383) and what a frame takes. -/
def Wave.uses (w : Wave) (i : Instr) : List RegUse :=
  fieldUses i ++
    match i with
    | .waitp .. | .barb .. => w.frameUses
    | .spawn _ b _ _ => w.runUses b.toNat 6 true false
    | .spawnd _ b _ _ => w.runUses b.toNat 7 true false
    | .dcinit a _ => w.runUses a.toNat 6 true false
    | .dcdec a _ => w.runUses a.toNat 1 true false
    | .wlpush _ b _ => w.runUses b.toNat 2 true false
    | .wlpull _ _ c _ => w.runUses c.toNat 1 false true
    | .svpull _ _ c _ => w.runUses c.toNat 8 false true
    | _ => []

/-- The mode slot that an instruction names (R92). -/
def slotField : Instr → Option Nat
  | .mode m _ | .modea m _ _ | .modem m _ _ | .vadd m _ _ _ | .vsub m _ _ _ | .vmul m _ _ _ | .vmulh m _ _ _
  | .vmad m _ _ _ | .vand m _ _ _ | .vor m _ _ _ | .vxor m _ _ _ | .vandn m _ _ _ | .vshl m _ _ _ | .vshr m _ _ _
  | .vsra m _ _ _ | .vmin m _ _ _ | .vmax m _ _ _ | .vabs m _ _ | .vclz m _ _ | .vpopc m _ _ | .vsel m _ _ _
  | .vcmpeq m _ _ _ | .vcmpne m _ _ _ | .vcmplt m _ _ _ | .vcmple m _ _ _ | .vadds m _ _ _ | .vsubs m _ _ _
  | .vdot4 m _ _ _ | .vdot8 m _ _ _ | .vbfe m _ _ _ | .vbfi m _ _ _ | .vfadd m _ _ _ | .vfsub m _ _ _ | .vfmul m _ _ _
  | .vfma m _ _ _ | .vfmin m _ _ _ | .vfmax m _ _ _ | .vfneg m _ _ | .vfabs m _ _ | .vfcmpeq m _ _ _
  | .vfcmplt m _ _ _ | .vfcmple m _ _ _ | .vfcmpun m _ _ _ | .vfrcp m _ _ | .vfrsq m _ _ | .vfexp2 m _ _
  | .vflog2 m _ _ | .vfdot4 m _ _ _ | .vfdot8 m _ _ _ | .vfscl m _ _ _ | .vfcvt m _ _ _ | .vfpk4 m _ _
  | .vfclass m _ _ | .vfrnd m _ _ | .vmov m _ _ | .vmovs m _ _ | .vrdlane m _ _ _ | .vbcst m _ _ _ | .vshfl m _ _ _
  | .vqswz m _ _ _ | .vqsum m _ _ | .vprfx m _ _ _ | .vcmpct m _ _ | .vredadd m _ _ | .vredmin m _ _ | .vredmax m _ _
  | .vlaneid m _ | .vaddi m _ _ _ | .vandi m _ _ _ | .vori m _ _ _ | .vxori m _ _ _ | .vshli m _ _ _ | .vshri m _ _ _
  | .vsrai m _ _ _ | .vmovi m _ _ | .vld m _ _ _ _ | .vld8 m _ _ _ _ | .vld16 m _ _ _ _ | .vld64 m _ _ _ _
  | .vld128 m _ _ _ _ | .vst m _ _ _ _ | .vst8 m _ _ _ _ | .vst16 m _ _ _ _ | .vst64 m _ _ _ _ | .vst128 m _ _ _ _
  | .vldm m _ _ _ _ | .vstm m _ _ _ _ | .sld _ _ m _ | .sld32 _ _ m _ | .sst _ _ m _ | .sst32 _ _ m _ | .sldm _ _ m _
  | .sstm _ _ m _ | .scas _ _ m _ | .samo _ _ m _ | .binit _ _ m _ | .barv _ _ m _ | .barb _ _ m _ | .waitp _ _ m _
  | .bphase _ _ m _ | .bind _ _ m _ | .unbind _ _ m _ | .rgacq _ _ m _ | .rgrel _ m _ | .tkwait _ m _ | .tkpass _ m _
  | .vaadd m _ _ _ | .vamin m _ _ _ | .vamax m _ _ _ | .vaand m _ _ _ | .vaor m _ _ _ | .vaxor m _ _ _
  | .vaxch m _ _ _ | .vacas m _ _ _ | .vafadd m _ _ _ | .vradd m _ _ | .vrfadd m _ _ | .vrmin m _ _ | .vrmax m _ _
  | .vrx96 m _ _ | .accz _ m _ _ | .accza _ m | .obres _ m _ | .obrel _ m | .obld _ _ m _ _ | .obwin _ m _
  | .mma _ _ _ m _ _ _ _ _ | .mmac _ _ _ m _ _ _ _ | .jset m _ | .accrd _ _ m _ | .accwr _ _ m _
  | .accst _ _ _ _ m _ _ | .accadd _ _ m | .sealm m _ | .cpt _ _ _ m _ _ | .cptt _ _ _ m _ _ | .cpl _ _ _ m _
  | .cpg _ _ _ m _ | .cps _ _ _ m _ _ | .wsig _ _ _ m _ _ | .lrfl _ m | .lrins _ m | .sealc _ m | .qfence _ m
  | .hgrd _ _ _ m _ | .spawn _ _ m _ | .spawnd _ _ m _ | .dcinit _ m | .dcdec _ m | .wlpush _ _ m | .wlpull _ _ _ m
  | .quiesce _ m | .glaunch _ _ m | .trrec _ _ m | .trstop _ m | .propagate _ _ m | .mdecl _ _ m | .trdrop m
  | .trstat _ _ m | .svgrid _ _ m | .svbin _ _ m | .svpair _ _ _ m _ | .svpull _ _ _ m | .svstat _ _ m
  | .svcheck _ _ m | .svclr _ m => some m.toNat
  | _ => none

/-! ## The scoreboard (R194) -/

/-- A write that the scoreboard holds: file, register, the lanes still to be written, and the instruction that writes it. -/
structure Pending where
  file : Nat
  idx : Nat
  lanes : W32
  pc : W64
  deriving DecidableEq, Repr

/-- One lane as a mask. -/
def laneBit (l : Nat) : W32 := BitVec.twoPow 32 l

/-- Whether a kind of access writes registers of its wave. -/
def AccKind.returns : AccKind → Bool
  | .load .. | .vatomic .. | .drained | .scas | .samo .. | .arrive .. | .bphase | .rgacq | .wlpull => true
  | _ => false

/-- The writes that an access still owes. -/
def Access.owes (a : Access) : List Pending :=
  if !a.kind.returns then [] else
  let scalars := match a.sdst with
    | some d => if a.finished then [] else [(⟨1, d, 0xFFFFFFFF, a.pc⟩ : Pending)]
    | none => []
  let vectors := match a.vdst with
    | none => []
    | some d =>
      if a.kind = .wlpull then a.units.map fun u => (⟨0, d, u.data.setWidth 32, a.pc⟩ : Pending)
      else (a.units.filter fun u => !u.done).flatMap fun u =>
        (⟨0, u.reg, laneBit u.lane, a.pc⟩ : Pending) ::
          (if u.size = 8 then [(⟨0, u.reg + 1, laneBit u.lane, a.pc⟩ : Pending)] else [])
  scalars ++ vectors

/-- The writes that the scoreboard of a wave holds. -/
def State.owed (s : State) (w : Wave) : List Pending :=
  (s.flight.filter fun a => a.wave == w.id).flatMap (·.owes)
  ++ (s.requests.filter fun r => r.req.by_.wave == w.id &&
        (r.req.kind == .propagate || r.req.kind == .trstop || r.req.kind == .trstat)).map
      (fun r => ⟨1, r.req.dst, 0xFFFFFFFF, r.req.by_.pc⟩)
  ++ (s.sieve.filter fun o => o.req.by_.wave == w.id && (o.req.kind == .svgrid || o.req.kind == .svstat)).map
      (fun o => ⟨1, o.req.dst, 0xFFFFFFFF, o.req.by_.pc⟩)
  ++ (s.mats.filter fun m => m.wave == w.id).flatMap fun m =>
      match m.kind with
      | .accrd reg _ _ => [⟨0, reg, m.active, m.by_.pc⟩]
      | _ => []

/-- The first register of an instruction with a pending write, and what the scoreboard holds of it (R120, R430). -/
def firstOwed (ps : List Pending) (us : List RegUse) : Option (RegUse × List Pending) :=
  us.findSome? fun u =>
    match ps.filter fun p => p.file == u.file && p.idx == u.idx with
    | [] => none
    | l => some (u, l)

/-! ## Which sub-wave is offered (R106, R222) -/

/-- Whether a sub-wave may be offered: neither parked nor waiting, and, while the handler runs, the handler's (R106, R131, R222). -/
def State.offerable (s : State) (w : Wave) (q : SubWave) : Bool :=
  (match q.st with
   | .ready => true
   | .ending seq => s.mayEnd w seq
   | _ => false)
  && (match w.handler with
      | none => true
      | some h => q.quads &&& ~~~h == 0)

/-- The sub-wave that a wave offers (R106): the one that waits wave-wide at its instruction, or the lowest program counter, then
the lowest quad. -/
def State.offered (s : State) (w : Wave) : Option SubWave :=
  match w.wait with
  | .again quads => w.subs.find? fun q => q.quads == quads
  | .none | .stall _ =>
    (w.subs.filter (s.offerable w)).foldl (fun (b : Option SubWave) q =>
      match b with
      | none => some q
      | some p =>
        if q.pc.toNat < p.pc.toNat ∨ (q.pc = p.pc ∧ lowQuad q.quads < lowQuad p.quads) then some q else some p) none
  | _ => none

/-! ## Readiness (R120) -/

/-- Which counter of R142 an instruction enters, ld (true) or st. -/
def counterOf : Instr → Option Bool
  | .vld .. | .vld8 .. | .vld16 .. | .vld64 .. | .vld128 .. | .vldm .. | .sld .. | .sld32 .. | .sldm .. | .vaadd .. | .vamin ..
  | .vamax .. | .vaand .. | .vaor .. | .vaxor .. | .vaxch .. | .vacas .. | .vafadd .. | .scas .. | .samo .. | .rgacq .. => some true
  | .vst .. | .vst8 .. | .vst16 .. | .vst64 .. | .vst128 .. | .vstm .. | .sst .. | .sst32 .. | .sstm .. | .vradd .. | .vrfadd ..
  | .vrmin .. | .vrmax .. | .vrx96 .. | .binit .. | .rgrel .. | .tkpass .. => some false
  | _ => none

/-- Whether the counter that an instruction enters has room for it (R142). -/
def State.counterRoom (s : State) (w : Wave) (i : Instr) : Bool :=
  match counterOf i with
  | some true => decide (s.ldCount w.id < 63)
  | some false => decide (s.stCount w.id < 63)
  | none => true

/-- Whether a wave may issue at all in this clk: it runs, its context is not halted, and its `yield` is over (R120, R122, R232). -/
def State.waveRuns (s : State) (w : Wave) : Bool :=
  decide (w.halt = .running) && decide (w.notBefore ≤ s.tick) &&
    !((s.ctx w.ctx).halting)

/-- Whether a wave's instruction is free of the hazards of R120: no pending register, and room in its counter. -/
def State.instrReady (s : State) (w : Wave) (i : Instr) : Bool :=
  (firstOwed (s.owed w) (w.uses i)).isNone && s.counterRoom w i

/-! ## A register with an uncorrectable error (R226) -/

/-- The predicate that guards an instruction (R92). -/
def Wave.guardUse (w : Wave) (i : Instr) : List RegUse :=
  match slotField i with
  | some m => [pUse (slGuard (w.slotOf m) % 8) true false]
  | none => []

/-- The lanes whose register an instruction reads through a vector field, for its Active lanes: a helper's and a guarded-off lane's
reading never faults (R105, R221). -/
def Wave.lanesRead (w : Wave) (q : SubWave) (i : Instr) (u : RegUse) : List Nat :=
  let sl := ((slotField i).map w.slotOf).getD 0
  let act := lanesOf (w.active q sl)
  let plain := act.filterMap (fieldLane sl u.field)
  match i with
  | .vrdlane _ _ _ b => [(w.s b.toNat).toNat % 32]
  | .vbcst _ _ _ b => act.map fun _ => (w.s b.toNat).toNat % 32
  | .vshfl _ _ a b =>
    (if u.field = a.toNat then act.map fun l => (w.opnd sl b.toNat l).toNat % 32 else []) ++ (if u.field = b.toNat then plain else [])
  | .vqswz _ _ _ p => act.filterMap fun l => fieldLane sl u.field (l / 4 * 4 + swizzle p.toNat (l % 4))
  | .vqsum _ _ _ => (lanesOf (w.activeH q sl)).filter fun l => act.any fun k => k / 4 == l / 4
  | _ => plain

/-- The `kTRAPVAL` of the first register that an instruction reads and that has an uncorrectable error: its lane, file and
index (R226).  DESIGN CHOICE (unsafe; log 99): R100 does not place this fault; it comes before the faults of R89 and R93. -/
def Wave.eccRead (w : Wave) (q : SubWave) (i : Instr) : Option W64 :=
  ((w.uses i ++ w.guardUse i).filter (·.rd)).findSome? fun u =>
    (w.eccRegs.find? fun e => e.2.1 == u.file && e.2.2 == u.idx && (e.2.1 != 0 || (w.lanesRead q i u).contains e.1)).map fun e =>
      BitVec.ofNat 64 (e.1 * 2 ^ 32 + e.2.1 * 2 ^ 37 + e.2.2)

end Sys2Proof.Machine
end

