-- ==== Sys2Proof/Machine/Part.lean ====
section
/-! DEFINITION. Partitions (R394 to R397), bandwidth bands at the ports (R398 to R401), host commands and refused host accesses
(R408 to R410), contexts (R411), and the launch of grids and their groups (R123, R124, R331, R412, R413). -/

namespace Sys2Proof.Machine

/-! ## Host accesses and commands (R407 to R410, R418) -/

/-- A refused host access (R408): erraddr, errcount and vector 2. -/
def State.hostRefuse (s : State) (fn addr : Nat) : State :=
  let n := (s.func fn).errcount
  (s.updFunc fn fun f => { f with
    erraddr := BitVec.ofNat 64 addr
    errcount := if n = BitVec.allOnes 64 then n else n + 1 }).interrupt fn 2

/-- Whether the module answers a function at all: it has power, it is not frozen, and in recovery only the PF appears (R407, R419,
R434). -/
def State.answers (s : State) (fn : Nat) : Bool := s.powered && !s.frozen && decide (fn ≤ pfNum) && (!s.recovery || fn == pfNum)

/-- Whether a BAR access is refused for want of an IDE stream: a secure VF without one (R418). -/
def State.barBlocked (s : State) (fn : Nat) : Bool := (s.part? fn).any (fun p => p.secure) && !(s.func fn).ide && fn != pfNum

/-- A host access to a BAR0 register of a function, at offset `off`. -/
def State.barAccess (s : State) (fn off : Nat) (k : State → State) : State :=
  if !(s.answers fn) then s else if s.barBlocked fn then s.hostRefuse fn off else k s

/-- A command ends with a status and a detail: done and vector 0 (R410). -/
def State.cmdDone (s : State) (fn status detail : Nat) : State :=
  (s.updFunc fn fun f => { f with
    status := BitVec.ofNat 8 status
    detail := BitVec.ofNat 8 detail
    done := true
    running := false }).interrupt fn 0

/-- A doorbell written while a command runs (R410): status 3, and the command goes on. -/
def State.cmdBusy (s : State) (fn : Nat) : State :=
  (s.updFunc fn fun f => { f with status := 3, detail := 0, done := true }).interrupt fn 0

/-- What a command comes to: a status and a detail, or none while it runs on. -/
abbrev CmdResult := Option (Nat × Nat) × State

/-- A command that is done. -/
def cmdOk (s : State) : CmdResult := (some (0, 0), s)
/-- A command refused with a status. -/
def cmdBad (s : State) (status : Nat) : CmdResult := (some (status, 0), s)

/-- Whether a function may issue an opcode (R410): VFs 0x01 to 0x0B, the PF 0x0A and 0x20 to 0x24. -/
def cmdAllowed (fn op : Nat) : Bool :=
  if fn = pfNum then op == 0x0A || (decide (0x20 ≤ op) && decide (op ≤ 0x24)) else decide (1 ≤ op) && decide (op ≤ 0x0B)

/-- Run the command in a function's block (R410, R421): until the module is ready only fwstage is accepted; a VF without a partition
has nothing to command (status 4, log 32). -/
def State.runCommand (s : State) (fn op : Nat) (k : State → CmdResult) : State :=
  if (s.func fn).running then s.cmdBusy fn else
  let s := s.updFunc fn fun f => { f with done := false }
  if !s.ready && op != 0x22 then s.cmdDone fn 4 0
  else if !(cmdAllowed fn op) then s.cmdDone fn 1 0
  else if fn != pfNum && (s.part? fn).isNone then s.cmdDone fn 4 0
  else
    match k s with
    | (some r, s) => s.cmdDone fn r.1 r.2
    | (none, s) => s.updFunc fn fun f => { f with running := true }

/-- The host writes a command's block and rings the doorbell (R409, R410). -/
def State.command (s : State) (fn op : Nat) (ops : List W64) (k : State → CmdResult) : State :=
  s.barAccess fn 0x80 fun s =>
    let s := if (s.func fn).running then s else s.updFunc fn fun f => { f with
      cmd := ((BitVec.ofNat 64 op) :: ops).foldl (fun (r : Nat × Regs 64) v => (r.1 + 1, r.2.set r.1 v)) (0, []) |>.2 }
    s.runCommand fn op k

/-- The context in a slot of a function. -/
def State.ctxAt (s : State) (vf slot : Nat) : Option Context := s.ctxs.find? fun c => c.vf == vf && c.slot == slot

/-- A command on the context in a slot: status 2 where there is none. -/
def State.onSlot (s : State) (vf : Nat) (slot : W64) (k : Context → CmdResult) : CmdResult :=
  match s.ctxAt vf slot.toNat with
  | some c => k c
  | none => cmdBad s 2

/-! ## The partition record (R394, R395) -/

/-- The fields of a partition record. -/
def partitionOf (b : List Byte) : Partition where
  quads := BitVec.ofNat 512 (field b 0 64)
  banks := BitVec.ofNat 2048 (field b 64 256)
  slip := BitVec.ofNat 128 (field b 320 16)
  sieve := BitVec.ofNat 8 (field b 336 1)
  vf := field b 337 1
  secure := (byteAt b 338).getLsbD 0
  maxctx := field b 339 1
  floor := field b 340 4
  ceiling := field b 344 4
  weight := field b 348 1
  grace := field b 352 4
  killt := field b 356 4

/-- The 512 bytes of a partition record. -/
def Partition.bytes (p : Partition) : List Byte :=
  leBytes 64 p.quads.toNat ++ leBytes 256 p.banks.toNat ++ leBytes 16 p.slip.toNat ++ leBytes 1 p.sieve.toNat ++ leBytes 1 p.vf
    ++ leBytes 1 (if p.secure then 1 else 0) ++ leBytes 1 p.maxctx ++ leBytes 4 p.floor ++ leBytes 4 p.ceiling
    ++ leBytes 4 p.weight ++ leBytes 4 p.grace ++ leBytes 4 p.killt ++ List.replicate 152 0

/-- Whether every zero field of a partition record is zero and every field in its range (R394). -/
def partRangesOk (b : List Byte) : Bool :=
  let p := partitionOf b
  ((List.range 8).all fun d => decide (field b (320 + 2 * d) 2 < 4096)) && decide (p.vf ≤ 63) && decide (field b 338 1 ≤ 1)
    && decide (1 ≤ p.maxctx) && decide (p.maxctx ≤ 16) && decide (p.floor ≤ p.ceiling) && decide (p.ceiling ≤ 8192)
    && decide (1 ≤ p.ceiling) && decide (field b 348 4 ≤ 255) && decide (100 ≤ p.grace) && decide (p.grace ≤ 100000)
    && decide (1000 ≤ p.killt) && decide (p.killt ≤ 1000000) && (b.drop 360).all fun x => x == 0

/-- Whether a partition is a tenant of a core's port (R398): it owns a quadrant of the core, or an engine that uses the port. -/
def Partition.usesPort (p : Partition) (c : Nat) : Bool :=
  !(p.quadsOf c).isEmpty || (decide (c % 16 < 12) && p.slip.getLsbD c) || (c % 16 == 12 && p.sieve.getLsbD (c / 16))

/-- The tenants of a port. -/
def State.tenants (s : State) (port : Nat) : List Partition := s.parts.filter fun p => p.usesPort port

/-- Whether two partitions own something in common (R395). -/
def Partition.clashes (p q : Partition) : Bool :=
  p.quads &&& q.quads != 0 || p.banks &&& q.banks != 0 || p.slip &&& q.slip != 0 || p.sieve &&& q.sieve != 0 || p.vf == q.vf

/-- The first case of R395 that a partition record meets; 0 for none. -/
def State.partFault (s : State) (b : List Byte) : Nat :=
  let p := partitionOf b
  if !(partRangesOk b) then 1
  else if s.parts.any p.clashes then 2
  else if p.cores.any fun c => p.banks.extractLsb' (16 * c) 16 == 0 then 3
  else if (p.cores.map dieOf).any fun d => p.slip.extractLsb' (16 * d) 12 == 0 then 4
  else if (List.range Config.cores).any fun c => p.usesPort c &&
      decide (8192 < p.floor + ((s.tenants c).map (·.floor)).sum) then 5
  else 0

/-- partcreate (R394, R395): from the PF's bytes 0x200 to 0x3FF. -/
def State.doPartcreate (s : State) : CmdResult :=
  let r := (s.func pfNum).partRec
  let b := (List.range 512).map fun i => r.get i
  match s.partFault b with
  | 0 => cmdOk { s with parts := s.parts ++ [partitionOf b] }
  | n => (some (5, n), s)

/-- partdestroy (R410): status 4 while the partition holds a context. -/
def State.doPartdestroy (s : State) (vf : Nat) : CmdResult :=
  if (s.part? vf).isNone then cmdBad s 2
  else if s.ctxs.any fun c => c.vf == vf then cmdBad s 4
  else cmdOk { s with
    parts := s.parts.filter fun p => p.vf != vf
    buckets := s.buckets.filter fun b => b.vf != vf }

/-- PARTCREATE (R395). -/
def execPartcreate (s : State) : Out := .next (s.command pfNum 0x20 [] fun s => s.doPartcreate)
/-- PARTDESTROY (R410). -/
def execPartdestroy (vf : W64) (s : State) : Out :=
  .next (s.command pfNum 0x21 [vf] fun s => s.doPartdestroy vf.toNat)

/-! ## Bands at the ports (R398 to R401) -/

/-- Split of R400: a pool among tenants given as (function, weight, room to its cap); what a cap frees is split again. -/
def splitPool : Nat → Nat → List (Nat × Nat × Nat) → List (Nat × Nat)
  | 0, _, _ => []
  | n + 1, pool, ts =>
    let ts := ts.filter fun t => decide (0 < t.2.1)
    let sum := (ts.map fun t => t.2.1).sum
    if sum = 0 ∨ pool = 0 then [] else
    let share := fun (t : Nat × Nat × Nat) => pool * t.2.1 / sum
    let freed := (ts.map fun t => share t - min (share t) t.2.2).sum
    (ts.map fun t => (t.1, min (share t) t.2.2)) ++
      (if freed = 0 then [] else
        splitPool n freed ((ts.filter fun t => decide (share t < t.2.2)).map fun t => (t.1, t.2.1, t.2.2 - share t)))

/-- What a function has of a split. -/
def shareOf (l : List (Nat × Nat)) (vf : Nat) : Nat := ((l.filter fun e => e.1 == vf).map (·.2)).sum

/-- The present window (R398). -/
def State.window (s : State) : Nat := s.tick / Config.portWindow

/-- The bucket of a tenant at a port. -/
def State.bucket? (s : State) (port vf : Nat) : Option Bucket := s.buckets.find? fun b => b.port == port && b.vf == vf

/-- The buckets of a port refilled for the present window (R400), from what the last window left. -/
def State.refilled (s : State) (port : Nat) : List Bucket :=
  let ts := s.tenants port
  let n := ts.length + 1
  let old := s.buckets.filter fun b => b.port == port && b.window + 1 == s.window
  let base := splitPool n (8192 - (ts.map (·.floor)).sum) (ts.map fun p => (p.vf, p.weight, p.ceiling - p.floor))
  let baseOf := fun (p : Partition) => p.floor + shareOf base p.vf
  let left := (old.map (·.tokens)).sum
  let hungry := ts.filter fun p => old.any fun b => b.vf == p.vf && b.starved
  let extra := splitPool n left (hungry.map fun p => (p.vf, p.weight, p.ceiling - baseOf p))
  ts.map fun p => ⟨port, p.vf, s.window, baseOf p + shareOf extra p.vf, 0, false⟩

/-- A port refills every tenant's bucket, once in a window; a tenant that comes later in the window waits for the next one. -/
def State.refill (s : State) (core : Nat) : State :=
  if (s.tenants core).isEmpty || s.buckets.any (fun b => b.port == core && b.window == s.window) then s
  else { s with buckets := (s.buckets.filter fun b => b.port != core) ++ s.refilled core }

/-- WINDOW_REFILL (R400). A port refills every tenant's bucket at the start of a window. -/
def execWindowRefill (core : Nat) (s : State) : Out := .next (s.refill core)

/-- Every port refills its tenants' buckets when a window begins (R398, R400). -/
def State.beginWindow (s : State) : State :=
  if s.tick % Config.portWindow = 0 then (List.range Config.cores).foldl State.refill s else s

/-- The oldest transfer of a tenant at a port (R401). -/
def State.oldestTransfer (s : State) (port vf : Nat) : Option Transfer := s.transfers.find? fun t => t.port == port && t.vf == vf

/-- The transfer that a port grants next, and the tenants whose bucket does not hold their oldest one (R401). -/
def State.nextGrant (s : State) (port : Nat) : Option Transfer × List Nat :=
  let heads := (s.tenants port).filterMap fun p =>
    match s.oldestTransfer port p.vf, s.bucket? port p.vf with
    | some t, some b => if b.window = s.window then some (p, t, b) else none
    | _, _ => none
  let fits := heads.filter fun e => decide (e.2.1.charge ≤ e.2.2.tokens)
  let low := fits.filter fun e => decide (e.2.2.granted < e.1.floor)
  let pool := (if low.isEmpty then fits else low).map (·.2.1)
  (s.transfers.find? fun t => pool.contains t,
    (heads.filter fun e => !(decide (e.2.1.charge ≤ e.2.2.tokens))).map (·.1.vf))

/-- The context that a transfer serves. -/
def State.transferCtx (s : State) (t : Transfer) : Option Nat :=
  ((s.flight.find? fun a => a.id == t.op).map (·.ctx)).or (((s.red.find? fun e => e.id == t.op).map (·.ctx)).or
    (((s.slip.find? fun o => o.id == t.op).map fun o => o.req.by_.ctx).or
      (((s.sieve.find? fun o => o.id == t.op).map fun o => o.req.by_.ctx).or
        (((s.mats.find? fun m => m.id == t.op).map fun m => m.by_.ctx).or ((s.group? t.op).map (·.ctx))))))

/-- Count the tokens granted to a transfer (R431). -/
def State.countGrant (s : State) (t : Transfer) : State :=
  match s.transferCtx t with
  | some cid => s.count cid 9 t.charge
  | none => s

/-- Grant transfers at a port for one clk: `left` of its 8 tokens are left. -/
def State.grantAt (port : Nat) : Nat → Nat → State → State
  | 0, _, s => s
  | n + 1, left, s =>
    let g := s.nextGrant port
    let s := { s with buckets := updWhere (fun b => b.port == port && g.2.contains b.vf) (fun b => { b with starved := true }) s.buckets }
    match g.1 with
    | none => s
    | some t =>
      if left < t.charge then s else
      State.grantAt port n (left - t.charge) ({ s with
        transfers := s.transfers.erase t
        buckets := updWhere (fun b => b.port == port && b.vf == t.vf)
          (fun b => { b with tokens := b.tokens - t.charge, granted := b.granted + t.charge }) s.buckets }.countGrant t)

/-- PORT_GRANT (R401). One clk's grants at a port: up to 8 tokens. -/
def execPortGrant (core : Nat) (s : State) : Out :=
  .next (
    if s.tick + 1 ≤ sget 0 s.portClk core then s
    else State.grantAt core 8 8 { s with portClk := sset 0 core (s.tick + 1) s.portClk })

/-! ## Contexts (R306, R411) -/

/-- The fields of a context record (R306, R411). -/
def ctxRecOf (b : List Byte) : CtxRec where
  codebase := field b 0 8
  codelen := field b 8 8
  handler := BitVec.ofNat 64 (field b 16 8)
  gseed := BitVec.ofNat 64 (field b 24 8)
  det := (byteAt b 32).getLsbD 0
  sealOnly := (byteAt b 36).getLsbD 0
  sealEpoch := field b 38 2
  ptroot := field b 48 8
  fq := field b 56 8
  fqlog := field b 64 4
  frames := field b 68 4
  ticket := field b 72 8
  frameoff := field b 80 4
  jobn := field b 84 4
  jobself := field b 88 4
  jobtab := field b 96 8
  save := field b 104 8
  savelen := field b 112 8
  lq := field b 120 8
  lqent := field b 192 4
  gpooloff := field b 196 4
  gpoollen := field b 200 4
  pooloff := field b 128 4
  poolent := field b 132 4
  bintimer := field b 136 2
  ctrcount := field b 140 4
  ctrbase := field b 144 8
  tasktab := field b 152 8
  tasktabn := field b 160 4

/-- Whether a number is a power of two. -/
def isPow2 (n : Nat) : Bool := decide (n = 2 ^ Nat.log2 n)

/-- Whether a Tilth block keeps the limits of R306. -/
def CtxRec.tilthOk (r : CtxRec) : Bool :=
  decide (r.pooloff % 64 = 0) && decide (r.pooloff + 64 * r.poolent ≤ Config.coreSlice) && decide (64 ≤ r.poolent)
    && decide (r.poolent ≤ 65536) && decide (16 ≤ r.bintimer) && decide (r.bintimer ≤ 4096) && decide (r.ctrcount ≤ 2 ^ 20)
    && (r.ctrcount == 0 || (decide (r.ctrbase % 32 = 0) && inSlice r.ctrbase))
    && decide (r.tasktabn ≤ 4096) && (r.tasktabn == 0 || (decide (r.tasktab % 32 = 0) && inSlice r.tasktab))

/-- Whether bytes of a record are zero. -/
def zeroBytes (b : List Byte) (o n : Nat) : Bool := ((b.drop o).take n).all fun x => x == 0

/-- Whether the fields of a context record lie in their ranges (R411, R306). -/
def ctxRangesOk (b : List Byte) : Bool :=
  let r := ctxRecOf b
  decide (r.codebase % 4 = 0) && decide (0 < r.codelen) && decide (r.codelen % 4 = 0) && inExt r.codebase
    && decide (r.codebase + r.codelen ≤ Config.extTop)
    && (r.handler == 0 || (decide (r.handler.toNat % 4 = 0) && r.inCode r.handler))
    && decide (field b 32 4 ≤ 1) && decide (field b 36 2 ≤ 1)
    && decide (r.fq % 64 = 0) && inSlice r.fq && decide (6 ≤ r.fqlog) && decide (r.fqlog ≤ 14) && decide (r.frames ≤ 65536)
    && decide (r.frameoff % 256 = 0) && decide (r.frameoff + 256 * r.frames ≤ Config.coreSlice)
    && decide (r.ticket % 8 = 0) && inSlice r.ticket && decide (1 ≤ r.jobn) && decide (r.jobn ≤ 4096) && decide (r.jobself < r.jobn)
    && (r.jobn != 1 || r.jobtab == 0)
    && decide (r.save % 65536 = 0) && inExt r.save && decide (r.save + r.savelen ≤ Config.extTop)
    && decide (r.lq % 64 = 0) && inSlice r.lq && isPow2 r.lqent && decide (16 ≤ r.lqent) && decide (r.lqent ≤ 4096)
    && decide (r.gpooloff % 65536 = 0) && decide (r.gpoollen % 65536 = 0) && decide (r.gpooloff + r.gpoollen ≤ Config.coreSlice)
    && r.tilthOk && zeroBytes b 44 4 && zeroBytes b 92 4 && zeroBytes b 138 2 && zeroBytes b 164 28 && zeroBytes b 204 52

/-- Whether the walk of every page of a context's code segment succeeds (R99, R230, R411). -/
def State.codeWalks (s : State) (c : Context) : Bool :=
  (List.range ((c.r.codebase + c.r.codelen - 1) / 65536 - c.r.codebase / 65536 + 1)).all fun i =>
    (s.pageWalk c ((c.r.codebase / 65536 + i) * 65536)).isSome

/-- The job table of a context as memory holds it (R415): empty where the range cannot be read. -/
def State.readJobTable (s : State) (c : Context) : List W32 :=
  if c.r.jobn ≤ 1 then [] else
  match s.engRead c (.core 0) c.r.jobtab (4 * c.r.jobn) 0 with
  | .ok b => (List.range c.r.jobn).map fun i => BitVec.ofNat 32 (field b (4 * i) 4)
  | .error _ => []

/-- The record of a context at an address, checked (R411): 256 bytes in the partition's banks.  DESIGN CHOICE (log 112): a record with an
uncorrectable word, for which no context's fault queue stands ready, is refused with the rest. -/
def State.readCtxRec (s : State) (vf slot addr : Nat) : Option CtxRec :=
  let b := s.slice.bytes addr 256
  let c := Context.create 0 vf slot addr (ctxRecOf b)
  if addr % 64 = 0 && inSlice (addr + 255) && inSlice addr && s.owns c addr && s.owns c (addr + 255) && ctxRangesOk b && s.codeWalks c
      && !(s.eccBad.any fun e => overlap addr 256 e 8) then some (ctxRecOf b) else none

/-- ctxcreate (R411): a new context in a free slot. -/
def State.doCtxcreate (s : State) (vf slot addr : Nat) : CmdResult :=
  if 16 ≤ slot then cmdBad s 2
  else if (s.ctxAt vf slot).isSome then cmdBad s 4
  else
    match s.readCtxRec vf slot addr with
    | none => cmdBad s 2
    | some r =>
      let f := s.fresh
      let c := Context.create f.1 vf slot addr r
      cmdOk ({ f.2 with ctxs := f.2.ctxs ++ [{ c with jobTable := s.readJobTable c }] }.updFunc vf fun f => { f with
        ltail := f.ltail.set slot 0
        lhead := f.lhead.set slot 0 })

/-- Whether a wave or an engine operation of a context exists (R410). -/
def State.ctxBusy (s : State) (cid : Nat) : Bool :=
  (s.waves.any fun w => w.ctx == cid) || (s.slip.any fun o => o.req.by_.ctx == cid) || (s.sieve.any fun o => o.req.by_.ctx == cid)
    || (s.requests.any fun r => r.req.by_.ctx == cid) || (s.mats.any fun m => m.by_.ctx == cid)
    || (s.flight.any fun a => a.ctx == cid) || (s.red.any fun e => e.ctx == cid) || (s.limbo.any fun l => l.ctx == cid)

/-- Everything of a context leaves the module. -/
def State.dropCtx (s : State) (cid : Nat) : State :=
  let mine := fun (r : EngReq) => r.by_.ctx == cid
  let ops := (s.slip.filter fun o => mine o.req).map (·.id) ++ (s.sieve.filter fun o => mine o.req).map (·.id)
    ++ (s.flight.filter fun a => a.ctx == cid).map (·.id) ++ (s.red.filter fun e => e.ctx == cid).map (·.id)
    ++ (s.groups.filter fun g => g.ctx == cid).map (·.id) ++ (s.mats.filter fun m => m.by_.ctx == cid).map (·.id)
  let wids := (s.waves.filter fun w => w.ctx == cid).map (·.id)
  let streams := (s.sieve.filter fun o => mine o.req).map (·.id)
  let free := fun (w : Wave) => if streams.any fun i => w.wait == .request i then { w with wait := .none } else w
  { s with
    ctxs := s.ctxs.filter fun c => c.id != cid
    grids := s.grids.filter fun g => g.ctx != cid
    groups := s.groups.filter fun g => g.ctx != cid
    waves := (s.waves.filter fun (w : Wave) => w.ctx != cid).map free
    flight := s.flight.filter fun a => a.ctx != cid
    red := s.red.filter fun e => e.ctx != cid
    slip := s.slip.filter fun o => !(mine o.req)
    sieve := s.sieve.filter fun o => !(mine o.req)
    requests := s.requests.filter fun r => !(mine r.req)
    mats := s.mats.filter fun m => m.by_.ctx != cid
    landings := s.landings.filter fun l => l.ctx != cid
    tasks := s.tasks.filter fun t => t.ctx != cid
    bins := s.bins.filter fun b => b.ctx != cid
    ctrMsgs := s.ctrMsgs.filter fun m => m.ctx != cid
    packets := s.packets.filter fun p => p.ctx != cid
    cache := s.cache.filter fun e => e.ctx != cid
    tlb := s.tlb.filter fun e => e.ctx != cid
    limbo := s.limbo.filter fun l => l.ctx != cid
    moves := s.moves.filter fun m => m.ctx != cid
    waitList := s.waitList.filter fun e => !(wids.contains e.2.2.1)
    transfers := s.transfers.filter fun t => !(ops.contains t.op) }.dropFlits fun f => ops.contains f.op

/-- ctxdestroy (R410). -/
def State.doCtxdestroy (s : State) (vf : Nat) (slot : W64) : CmdResult :=
  s.onSlot vf slot fun c => if s.ctxBusy c.id then cmdBad s 4 else cmdOk (s.dropCtx c.id)

/-- CTXCREATE (R411). -/
def execCtxcreate (vf : Nat) (slot record : W64) (s : State) : Out :=
  .next (s.command vf 0x01 [slot, record] fun s => s.doCtxcreate vf slot.toNat record.toNat)
/-- CTXDESTROY (R410). -/
def execCtxdestroy (vf : Nat) (slot : W64) (s : State) : Out :=
  .next (s.command vf 0x02 [slot] fun s => s.doCtxdestroy vf slot)

/-- invalidate (R231): every translation of the context that overlaps the range is dropped, in every die. -/
def State.doInvalidate (s : State) (vf : Nat) (slot base len : W64) : CmdResult :=
  s.onSlot vf slot fun c =>
    cmdOk { s with tlb := s.tlb.filter fun e => !(e.ctx == c.id && overlap (65536 * e.page) 65536 base.toNat len.toNat) }

/-- INVALIDATE (R231). -/
def execInvalidate (vf : Nat) (slot base len : W64) (s : State) : Out :=
  .next (s.command vf 0x06 [slot, base, len] fun s => s.doInvalidate vf slot base len)

/-- clearmark (R256): the faulted mark of a barrier object clears. -/
def State.doClearmark (s : State) (vf : Nat) (slot obj : W64) : CmdResult :=
  s.onSlot vf slot fun c =>
    let a := obj.toNat
    if a % 32 ≠ 0 || !(s.sliceMapped c a 32) then cmdBad s 2
    else cmdOk { s with slice := s.slice.setNum (a + 28) 4 (objFlagWord false (objElect s.slice a) (objBound s.slice a)) }

/-- CLEARMARK (R256). -/
def execClearmark (vf : Nat) (slot obj : W64) (s : State) : Out :=
  .next (s.command vf 0x08 [slot, obj] fun s => s.doClearmark vf slot obj)

/-- The Strata unit of a context goes on after a page fault (R336): its records are written through again. -/
def State.strataResume (s : State) (cid : Nat) : Option State :=
  let t := (s.ctx cid).trace
  if !t.stalled then none
  else if t.state = 0 then some (s.updCtx cid fun c => { c with trace := { c.trace with stalled := false } })
  else some ((s.updCtx cid fun c => { c with trace := { c.trace with stalled := false } }).setTrace cid { t with stalled := false })

/-- qresume (R255, R336, R391): a stopped queue of Slip (1), Sieve (2) or Strata (3) goes on; status 4 where none is stopped. -/
def State.doQresume (s : State) (vf : Nat) (slot engine die queue : W64) : CmdResult :=
  s.onSlot vf slot fun c =>
    let r := match engine.toNat with
      | 1 => s.slipResume c.id die.toNat queue.toNat
      | 2 => s.sieveResume c.id die.toNat
      | 3 => s.strataResume c.id
      | _ => none
    if engine.toNat < 1 ∨ 3 < engine.toNat ∨ 8 ≤ die.toNat ∨ 4 ≤ queue.toNat then cmdBad s 2 else
    match r with
    | some s => cmdOk s
    | none => cmdBad s 4

/-- QRESUME (R255). -/
def execQresume (vf : Nat) (slot engine die queue : W64) (s : State) : Out :=
  .next (s.command vf 0x07 [slot, engine, die, queue] fun s => s.doQresume vf slot engine die queue)

/-! ## Launch packets (R123, R124, R331, R412, R413) -/

/-- The fields of a launch packet (R413). -/
structure Packet where
  ord : Nat
  cluster : Bool
  migratable : Bool
  wait : Bool
  nlanes : Nat
  ngroups : Nat
  spill : Nat
  wphase : W32
  kernel : Nat
  wobj : Nat
  args : List W64
  zeros : Bool
  deriving DecidableEq, Repr

/-- A launch packet from its 64 bytes. -/
def packetOf (b : List Byte) : Packet where
  ord := bitsOf (field b 0 4) 0 23
  cluster := (field b 0 4).testBit 28
  migratable := (field b 0 4).testBit 29
  wait := (field b 0 4).testBit 30
  nlanes := field b 4 4
  ngroups := bitsOf (field b 8 4) 0 24
  spill := bitsOf (field b 8 4) 24 7
  wphase := BitVec.ofNat 32 (field b 12 4)
  kernel := field b 16 8
  wobj := field b 24 8
  args := (List.range 4).map fun i => BitVec.ofNat 64 (field b (32 + 8 * i) 8)
  zeros := decide (bitsOf (field b 0 4) 23 5 = 0) && !((field b 0 4).testBit 31) && !((field b 8 4).testBit 31)

/-- Window and spill bytes of a group: whole 64 KiB pages (R23, R413). -/
def allocBytes (slice spill : Nat) : Nat × Nat := (roundUp slice 65536, roundUp (16384 * spill) 65536)

/-- The clusters that a partition owns a quadrant of every core of, if it is made of whole clusters (R124): by ascending package
index, their cores ascending. -/
def Partition.clusters (p : Partition) : Option (List (List Nat)) :=
  let byCluster := (List.range 32).map fun k => p.cores.filter fun c => clusterOf c == k
  if byCluster.all fun l => l.isEmpty || l.length == 4 then some (byCluster.filter fun l => !l.isEmpty) else none

/-- Whether the fields of a packet by itself break R413 or R123. -/
def State.packetBad (s : State) (c : Context) (p : Packet) : Bool :=
  !p.zeros || decide (p.nlanes < 1) || decide (512 < p.nlanes) || decide (p.ngroups < 1) || decide (64 < p.spill)
    || decide (p.kernel % 64 ≠ 0) || !(s.sliceMapped c p.kernel 64)
    || (if p.wait then decide (p.wobj % 32 ≠ 0) || !(s.sliceMapped c p.wobj 32) else p.wobj != 0)

/-- Whether a packet's kernel record or geometry is refused (R123, R124, R306, R346, R413): the code of the report. -/
def State.kernelFault (s : State) (c : Context) (p : Packet) : Option Nat :=
  let k := s.slice.bytes p.kernel 64
  let entry := BitVec.ofNat 64 (field k 0 8)
  let sl := field k 24 4
  let a := allocBytes sl p.spill
  let part := s.part? c.vf
  if c.modifiable p.kernel 64 || !(zeroBytes k 28 36) || decide (Config.coreSlice < sl) || (targetFault c.r entry).isSome
      || decide (c.r.gpoollen < a.1 + a.2) || !(c.r.tilthOk)
      || (p.cluster && ((part.bind (·.clusters)).isNone))
      || (part.any fun q => q.cores.any fun core => decide (32 * (q.quadsOf core).length < (p.nlanes + 31) / 32)) then some 0x08
  else if !(modesLegal ((k.drop 8).take 16)) then some 0x02
  else none

/-- The grid that a packet launches. -/
def State.gridOf (s : State) (c : Context) (p : Packet) (device : Bool) (hold : Option (Nat × Nat × Nat)) (id : Nat) : Grid :=
  let k := s.slice.bytes p.kernel 64
  { id := id, ctx := c.id, ord := p.ord, nlanes := p.nlanes, ngroups := p.ngroups, spill := p.spill, cluster := p.cluster,
    migratable := p.migratable, entry := BitVec.ofNat 64 (field k 0 8),
    modes := (List.range 4).map fun i => BitVec.ofNat 32 (field k (8 + 4 * i) 4), slice := field k 24 4, kernel := p.kernel,
    args := p.args, device := device, kcores := ((s.part? c.vf).map fun q => q.cores.length).getD 0,
    waits := if p.wait then some (p.wobj, p.wphase) else none, hold := hold, started := [], ended := [] }

/-- A grid is launched (R270): in determinism mode it takes the drain ticket word when no other grid of its context has still to
end. -/
def State.addGrid (s : State) (g : Grid) : State :=
  let c := s.ctx g.ctx
  let others := s.grids.filter fun x => x.ctx == g.ctx && !(x.allEnded)
  if c.r.det && others.isEmpty then
    { s with grids := (s.grids.filter fun (x : Grid) => x.ctx != g.ctx) ++ [g] }.perform g.ctx .ofUnit c.r.ticket
      (leBytes 8 (g.ord % 2 ^ 23 * 2 ^ 32))
  else { s with grids := s.grids ++ [g] }

/-- The first uncorrectable word of 64 bytes that a launch controller reads (R226). -/
def State.launchBad (s : State) (a : Nat) : Option Nat := (s.eccBad.find? fun e => overlap a 64 e 8).map (max a)

/-- `glaunch` (R331). The packet is read at issue; an accepted grid starts no wave before the release; a refused packet is
reported. -/
def execGlaunch (a b : BitVec 6) (m : BitVec 2) (s : State) : Out :=
  .next (s.taskOp m fun w q sl ls =>
    let p := w.s b.toNat
    let c := s.ctx w.ctx
    let bytes := s.slice.bytes p.toNat 64
    let pk := packetOf bytes
    let i := w.issuer q sl (ls.headD 0) s.nextId
    let refuse := fun (code addr : Nat) =>
      (s.report w.ctx
        { code := code, source := 7, queue := i.queueField (dieOf w.core) 0, issuer := i.ident, pc := q.pc, address := addr }).retire w
    if p.toNat % 64 ≠ 0 || !(s.inContext c p.toNat 64) then s.raise w q 0x71 p
    else if s.eccBad.any fun e => overlap p.toNat 64 e 8 then s.raise w q 0x28 p
    else if s.ownPending w.id p.toNat 64 then s.stall w q
    else if 16 ≤ (s.grids.filter fun g => g.ctx == w.ctx && g.device && g.started.isEmpty).length then s.stall w q
    else if s.packetBad c pk || (s.grids.any fun g => g.ctx == w.ctx && g.ord == pk.ord && !(g.allEnded)) then refuse 0x08 0
    else
      match s.launchBad pk.kernel, s.kernelFault c pk with
      | some e, _ => refuse 0x28 e
      | none, some code => refuse code 0
      | none, none =>
        let s := s.sendCombiner w.id
        let f := s.fresh
        (f.2.addGrid (f.2.gridOf c pk true (some (w.id, f.1, w.core)) f.1)).retire (w.setS a.toNat 0))

/-- Launch-queue head and tail of a context (R409, R412). -/
def State.launchHead (s : State) (c : Context) : Nat := ((s.func c.vf).lhead.get c.slot).toNat
def State.launchTail (s : State) (c : Context) : Nat := ((s.func c.vf).ltail.get c.slot).toNat

/-- The launch queue moves on past its head. -/
def State.launchNext (s : State) (c : Context) : State :=
  s.updFunc c.vf fun f => { f with lhead := f.lhead.set c.slot (f.lhead.get c.slot + 1) }

/-- A refused packet of the launch queue (R412): reported, with the die of the controller, that of logical core 0, in the queue field
(R227), whose other parts are free; vector 3, and the queue moves on.  DESIGN CHOICE (log 112): so is a packet, or its kernel record, of
which a word is uncorrectable (R226), at that word's address. -/
def State.launchRefuse (s : State) (c : Context) (code addr : Nat) : State :=
  let f := s.free
  let v := f.1.toNat
  let field_ := v % 256 + 256 * s.homeDie c + 65536 * (v / 256 % 65536)
  ((f.2.report c.id { code := code, source := 7, address := addr, queue := some field_ }).interrupt c.vf 3).launchNext c

/-- Whether the object that a packet awaits has its phase complete, with no faulted mark (R207, R412). -/
def State.waitOver (s : State) (obj : Nat) (phase : W32) : Bool :=
  !(objFaulted s.slice obj) && phaseDone (objPhase s.slice obj) phase.toNat

/-- LAUNCH_PACKET_START (R412). The controller reads the head packet of a context's launch queue once its doorbell has been rung
and every group of the earlier packets has started; it starts the packet, refuses it, or leaves it to its wait.  The packet's
reading is an acquire of the host's writes, and its wait's completion of the phase, for the waves that it launches. -/
def execLaunchPacketStart (ctx : Nat) (s : State) : Out :=
  .next (
    match s.ctxs.find? fun c => c.id == ctx with
    | none => s
    | some c =>
      let head := s.launchHead c
      let blocked := s.grids.any fun g => g.ctx == ctx && !g.device && decide (g.started.length < g.ngroups)
      if c.pre ≠ .none || head == s.launchTail c || blocked || !(s.ctxHeld c) then s else
      let at_ := c.r.lq + 64 * (head % max 1 c.r.lqent)
      let pk := packetOf (s.slice.bytes at_ 64)
      match s.launchBad at_ with
      | some e => s.launchRefuse c 0x28 e
      | none =>
      if s.packetBad c pk then s.launchRefuse c 0x08 0
      else if pk.wait && !(s.waitOver pk.wobj pk.wphase) then s
      else
        match s.launchBad pk.kernel, s.kernelFault c pk with
        | some e, _ => s.launchRefuse c 0x28 e
        | none, some code => s.launchRefuse c code 0
        | none, none =>
          let f := s.fresh
          let s := f.2.acquireIf ctx f.1 fun v => v.by_ == 0 && v.op == 0
          let s := if pk.wait then s.acquirePhase ctx f.1 pk.wobj pk.wphase.toNat else s
          (s.addGrid (s.gridOf c { pk with wait := false } false none f.1)).launchNext c)

/-! ## Starting groups (R23, R123, R124, R234) -/

/-- Whether `n` bytes from an address lie clear of every allocation: of groups, and of moves under way, whose new window part and
spill part are taken from the halt on (R23, R404). -/
def State.allocFree (s : State) (a n : Nat) : Bool :=
  n == 0 ||
  (!(s.groups.any fun g => overlap a n g.win g.winLen || overlap a n g.spill g.spillLen)
   && !(s.moves.any fun m => overlap a n m.oldWin m.winLen ||
        (m.stage == 1 && (overlap a n m.newWin m.winLen || overlap a n m.newSpill (((s.group? m.gid).map (·.spillLen)).getD 0)))))

/-- The lowest page of a core's group-allocation pool from which `n` bytes are free and `ok` allows them (R23).  DESIGN CHOICE (log 107):
the rule leaves the pages to the K9, which only a slice-space name of the window shows. -/
def State.placeAlloc (s : State) (c : Context) (core n : Nat) (ok : Nat → Bool) : Option Nat :=
  let base := sliceOf core + c.r.gpooloff
  if n = 0 then some base else
  ((List.range ((c.r.gpoollen - n) / 65536 + 1)).map fun i => base + 65536 * i).find? fun a =>
    decide (a + n ≤ base + c.r.gpoollen) && s.allocFree a n && ok a

/-- Places for a group's window part and spill part on a core (R23): no spill part on a byte of a modifiable region (R346). -/
def State.placeGroup (s : State) (c : Context) (core win spill : Nat) : Option (Nat × Nat) :=
  match s.placeAlloc c core win (fun _ => true) with
  | none => none
  | some a =>
    match s.placeAlloc c core spill (fun b => !(overlap b spill a win) && !(s.ctxs.any fun x => x.modifiable b spill)) with
    | none => none
    | some b => some (a, b)

/-- The free wave slots of a partition on a core: (quadrant of the core, slot). -/
def State.coreSlots (s : State) (p : Partition) (core : Nat) : List (Nat × Nat) :=
  (p.quadsOf core).flatMap fun q => (s.freeSlots (4 * core + q)).map fun k => (q, k)

/-- A grid wave at its first instruction (R123). -/
def Grid.wave (g : Grid) (gid index core : Nat) (tick id widx : Nat) (place : Nat × Nat) : Wave :=
  let working := lowLanes (g.nlanes - 32 * widx)
  { Wave.blank with
    id := id
    ctx := g.ctx
    ord := g.ord
    gid := gid
    group := index
    widx := widx
    core := core
    quad := place.1
    slot := place.2
    sregs := (List.range 4).foldl (fun (r : Regs 64) i => r.set i (g.args.getD i 0)) []
    modes := (List.range 4).foldl (fun (r : Regs 32) i => r.set i (g.modes.getD i 0)) []
    kcores := BitVec.ofNat 32 g.kcores
    kngroups := BitVec.ofNat 32 g.ngroups
    knlanes := BitVec.ofNat 32 g.nlanes
    working := working
    live := quadsOfLanes working
    subs := [⟨quadsOfLanes working, g.entry, .ready⟩]
    lastIssue := tick }

/-- What a grid's launch acquired, its new wave must see. -/
def State.inherit (s : State) (cid gid wid : Nat) : State := s.acquireIf cid wid fun v => v.must.contains gid

/-- Start a group of a grid on a core where it has room; none where it has not. -/
def State.startGroup (s : State) (g : Grid) (p : Partition) (index core : Nat) : Option State :=
  let c := s.ctx g.ctx
  let a := allocBytes g.slice g.spill
  let n := (g.nlanes + 31) / 32
  let slots := s.coreSlots p core
  match s.placeGroup c core a.1 a.2 with
  | none => none
  | some at_ =>
    if slots.length < n then none else
    let f := s.fresh
    let s := { f.2 with
      groups := f.2.groups ++ [{ id := f.1, ctx := g.ctx, grid := g.id, ord := g.ord, index := index, core := core, win := at_.1,
                                 winLen := a.1, spill := at_.2, spillLen := a.2, drain := [], latches := [], passed := false }]
      grids := updWhere (fun x => x.id == g.id) (fun x => { x with started := index :: x.started }) f.2.grids }
    some ((List.range n).foldl (fun (s : State) k =>
      let i := s.fresh
      { i.2 with waves := i.2.waves ++ [g.wave f.1 index core s.tick i.1 k (slots.getD k (0, 0))] }.inherit g.ctx g.id i.1) s)

/-- The least group index at or above `from_`, in steps of `step`, that has not started; `n` tries. -/
def Grid.nextIndex (g : Grid) (step : Nat) : Nat → Nat → Option Nat
  | 0, _ => none
  | n + 1, from_ => if g.ngroups ≤ from_ then none else if g.started.contains from_ then g.nextIndex step n (from_ + step) else some from_

/-- Start the next group of a grid that has room on its core (R124), on a core where no saved group of it has still to come. -/
def State.startOnCores (s : State) (g : Grid) (p : Partition) (taken : List Nat) : Option State :=
  let cores := p.cores
  let next := (List.range cores.length).filterMap fun k =>
    if taken.contains (cores.getD k 0) then none
    else (g.nextIndex cores.length (g.started.length + 1) k).map fun i => (i, cores.getD k 0)
  (sortBy (fun (x y : Nat × Nat) => decide (x.1 ≤ y.1)) next).findSome? fun e => s.startGroup g p e.1 e.2

/-- Start the groups `i` to the end of a set, each at its position of a cluster, or none. -/
def State.startSet (g : Grid) (p : Partition) : List Nat → Nat → State → Option State
  | [], _, s => some s
  | c :: t, i, s =>
    if g.ngroups ≤ i then some s else
    match s.startGroup g p i c with
    | none => none
    | some s => s.startSet g p t (i + 1)

/-- Start the next set of a cluster launch whose cluster has room for all of it (R124), and no saved group still to come. -/
def State.startOnClusters (s : State) (g : Grid) (p : Partition) (cs : List (List Nat)) (taken : List Nat) : Option State :=
  let next := (List.range cs.length).filterMap fun k =>
    if taken.any fun c => (cs.getD k []).contains c then none
    else (g.nextIndex (4 * cs.length) (g.started.length + 1) (4 * k)).map fun i => (i, cs.getD k [])
  (sortBy (fun (x y : Nat × List Nat) => decide (x.1 ≤ y.1)) next).findSome? fun e => s.startSet g p e.2 e.1

/-- A wave of a saved group or task wave, placed again (R234): halted no longer for pre-emption. -/
def Wave.placed (w : Wave) (core tick : Nat) (place : Nat × Nat) : Wave :=
  { w with
    core := core
    quad := place.1
    slot := place.2
    lastIssue := tick
    readySince := none
    halt := if w.halt = .preempted then .running else w.halt }

/-- Whether a quadrant has the block and the tiles that a saved wave holds (R118, R285). -/
def State.holdsWave (s : State) (quadrant : Nat) (w : Wave) : Bool :=
  let tiles := ((s.waves.filter fun x => x.quadrant == quadrant).map fun x => x.tiles.length).sum
  decide ((if w.ext then 1 else 0) ≤ s.freeBlocks quadrant) && decide (tiles + w.tiles.length ≤ 8)

/-- Lay the reservations of a saved wave in its quadrant's operand buffer: their places may differ after a resume (R302). -/
def State.placeRsv (s : State) (wid quadrant : Nat) : List Reservation → Option State
  | [] => some s
  | r :: t =>
    match s.findRun quadrant r.grans with
    | none => none
    | some b => State.placeRsv (s.updWave wid fun w => { w with rsv := w.rsv ++ [{ r with base := b }] }) wid quadrant t

/-- Place a saved wave in a slot of a core, where its quadrant has what it holds. -/
def State.placeWave (s : State) (core : Nat) (w : Wave) (place : Nat × Nat) : Option State :=
  if s.holdsWave (4 * core + place.1) w then
    { s with waves := s.waves ++ [{ w.placed core s.tick place with rsv := [] }] }.placeRsv w.id (4 * core + place.1) w.rsv
  else none

/-- Place saved waves on a core of a partition; none where one of them finds no room. -/
def State.placeWaves (p : Partition) (core : Nat) : List Wave → State → Option State
  | [], s => some s
  | w :: t, s =>
    match (s.coreSlots p core).findSome? (s.placeWave core w) with
    | none => none
    | some s => State.placeWaves p core t s

/-! ### Addresses that move with a group's allocation (R233, R404) -/

/-- The addresses that a context keeps, renamed. -/
def Context.rebase (f : Nat → Nat) (c : Context) : Context :=
  { c with
    bindings := c.bindings.map fun b => { b with base := f b.base, obj := f b.obj }
    held := c.held.map fun h => { h with addr := f h.addr }
    versions := c.versions.map fun v => { v with addr := f v.addr, obj := f v.obj }
    objs := c.objs.map fun o => { o with addr := f o.addr }
    trace := { c.trace with walk := c.trace.walk.map fun k => { k with obj := f k.obj } } }

/-- What a sub-wave waits on, renamed. -/
def SubState.rebase (f : Nat → Nat) : SubState → SubState
  | .waiting obj phase cont va => .waiting (f obj) phase cont va
  | x => x

/-- The addresses that a wave keeps, renamed. -/
def Wave.rebase (f : Nat → Nat) (w : Wave) : Wave :=
  { w with
    subs := w.subs.map fun q => { q with st := q.st.rebase f }
    rsv := w.rsv.map fun r => { r with window := r.window.map f } }

/-- The addresses of an access in flight, renamed. -/
def Access.rebase (f : Nat → Nat) (a : Access) : Access :=
  { a with
    kind := (match a.kind with
      | .bind base len lock => .bind (f base) len lock
      | k => k)
    units := a.units.map fun u => { u with addr := f u.addr } }

/-- What a task waits on, renamed. -/
def Task.rebase (f : Nat → Nat) (t : Task) : Task :=
  { t with
    st := (match t.st with
      | .waiting obj phase => .waiting (f obj) phase
      | x => x)
    acq := t.acq.map fun e => (f e.1, e.2) }

/-- The addresses of a group's drain buffer, renamed. -/
def Group.rebase (f : Nat → Nat) (g : Group) : Group := { g with drain := g.drain.map fun e => { e with addr := f e.addr } }

/-- The addresses of a matrix operation, renamed. -/
def MatOp.rebase (f : Nat → Nat) (m : MatOp) : MatOp :=
  { m with
    kind := match m.kind with
      | .accst addr win cls tag hist => .accst (f addr) win cls tag (hist.map f)
      | .obld h addr win obj left data => .obld h (f addr) win (f obj) left data
      | k => k }

/-- The addresses of a combiner entry, renamed. -/
def RedEntry.rebase (f : Nat → Nat) (e : RedEntry) : RedEntry := { e with addr := f e.addr }

/-- The addresses of a saved group, renamed. -/
def Limbo.rebase (f : Nat → Nat) (l : Limbo) : Limbo :=
  { l with
    group := l.group.map fun e => (e.1.rebase f, e.2)
    waves := l.waves.map fun w => w.rebase f
    flight := l.flight.map fun a => a.rebase f
    red := l.red.map fun e => e.rebase f }

/-- Every address of a context that nothing in flight carries, renamed. -/
def State.rebase (s : State) (cid : Nat) (f : Nat → Nat) : State :=
  { s with
    ctxs := updWhere (fun c => c.id == cid) (fun c => c.rebase f) s.ctxs
    waves := updWhere (fun w => w.ctx == cid) (fun w => w.rebase f) s.waves
    groups := updWhere (fun g => g.ctx == cid) (fun g => g.rebase f) s.groups
    tasks := updWhere (fun t => t.ctx == cid) (fun t => t.rebase f) s.tasks
    mats := updWhere (fun m => m.by_.ctx == cid) (fun m => m.rebase f) s.mats
    limbo := updWhere (fun l => l.ctx == cid) (fun l => l.rebase f) s.limbo }

/-- The addresses of a context's accesses and combiner entries, renamed. -/
def State.rebaseFlight (s : State) (cid : Nat) (f : Nat → Nat) : State :=
  { s with
    flight := updWhere (fun a => a.ctx == cid) (fun a => a.rebase f) s.flight
    red := updWhere (fun e => e.ctx == cid) (fun e => e.rebase f) s.red }

/-- The name under which the bytes of a saved window are kept until its group is placed again. -/
def limboBase (id : Nat) : Nat := 2 ^ 70 + id * 2 ^ 32

/-- A request of an owner that has moved to a core. -/
def EngReq.relocate (core : Nat) (r : EngReq) : EngReq :=
  { r with
    owner := (match r.owner with
      | .core _ => .core core
      | x => x)
    by_ := { r.by_ with core := core } }

/-- An access of a wave that has moved to a core, with the die that its reports name (R227). -/
def Access.relocate (core : Nat) (a : Access) : Access :=
  { a with core := core, queue := a.queue % 256 + 256 * dieOf core + a.queue / 65536 * 65536 }

/-- A combiner entry of an owner that has moved to a core. -/
def RedEntry.relocate (core : Nat) (e : RedEntry) : RedEntry :=
  { e with
    core := core
    owner := (match e.owner with
      | .core _ => .core core
      | x => x) }

/-- Slip operations of an owner that is on a core again: a running one asks for its transfers (R258). -/
def State.restoreSlip (s : State) (core : Nat) (os : List SlipOp) : State :=
  os.foldl (fun (s : State) o =>
    let o := { o with req := o.req.relocate core, die := dieOf core, asked := o.low }
    let s := { s with slip := s.slip ++ [o] }
    if o.st = .running then s.askSectors o else s) s

/-- Combiner entries of an owner that is on a core again, each sent as one packet (R265, R431). -/
def State.restoreRed (s : State) (core : Nat) (es : List RedEntry) : State :=
  let ids := es.map (·.id)
  { s with red := s.red ++ es.map fun (e : RedEntry) => { e.relocate core with sent := false } }.sendEntries fun e => ids.contains e.id

/-- A queue of Sieve takes a saved operation again, in the order of acceptance among what has not begun (R392). -/
def insertSieve (o : SieveOp) (l : List SieveOp) : List SieveOp :=
  let later := fun (x : SieveOp) => x.die == o.die && decide (o.id < x.id) && x.st == .queued
  (l.takeWhile fun x => !(later x)) ++ o :: l.dropWhile fun x => !(later x)

/-- Sieve operations and record requests of an owner that is on a core again (R392). -/
def State.restoreRequests (s : State) (core : Nat) (os : List SieveOp) (rs : List Request) : State :=
  { s with
    sieve := os.foldl (fun l (o : SieveOp) => insertSieve { o with req := o.req.relocate core, die := dieOf core } l) s.sieve
    requests := s.requests ++ rs.map fun (r : Request) => { r with req := r.req.relocate core } }

/-- The waits of a wave that has been placed again are checked: a faulted object is taken, and a phase that completed meanwhile is
found complete (R112, R209, R218). -/
def State.recheck (s : State) (w : Wave) : State :=
  w.subs.foldl (fun (s : State) q =>
    match q.st with
    | .waiting a k _ va =>
      if objFaulted s.slice a then
        (match s.wave? w.id with
         | some w => s.faultWaiter w q k va a
         | none => s)
      else s.wakeWaiters a
    | _ => s) s

/-- What a saved group or task wave left is in force again. -/
def State.restoreLimbo (s : State) (core : Nat) (l : Limbo) : State :=
  let s := { s with flight := s.flight ++ l.flight.map (Access.relocate core) }
  let s := ((s.restoreRed core l.red).restoreSlip core l.slip).restoreRequests core l.sieve l.requests
  l.waves.foldl (fun (s : State) w => s.recheck w) s

/-- The core on which a partition places the group of a grid with a logical index (R124, R234): for a cluster launch, its position in
its set's logical cluster.  DESIGN CHOICE (log 101): in a partition that is not made of whole clusters a resumed one goes by cores. -/
def Partition.placeOf (p : Partition) (cluster : Bool) (index : Nat) : Nat :=
  match (if cluster then p.clusters else none) with
  | some cs => (cs.getD (index / 4 % max 1 cs.length) []).getD (index % 4) 0
  | none => p.cores.getD (index % max 1 p.cores.length) 0

/-- Place a saved group again on its logical core, or a saved task wave on its core, with its bytes (R233, R234). -/
def State.placeLimbo (s : State) (p : Partition) (cluster : Bool) (l : Limbo) : Option State :=
  match l.group with
  | none =>
    let core := ((l.waves.head?).map (·.core)).getD 0
    (State.placeWaves p core l.waves { s with limbo := s.limbo.filter fun x => x.id != l.id }).map fun s => s.restoreLimbo core l
  | some (g, win, sp) =>
    let core := p.placeOf cluster g.index
    match s.placeGroup (s.ctx l.ctx) core g.winLen g.spillLen with
    | none => none
    | some at_ =>
      let f := moveAddr (limboBase l.id) g.winLen at_.1
      let l := l.rebase f
      let s := { s with limbo := s.limbo.filter fun x => x.id != l.id }.rebase l.ctx f
      (State.placeWaves p core l.waves { s with
        slice := (s.slice.paste at_.1 g.winLen win).paste at_.2 g.spillLen sp
        groups := s.groups ++ [{ g.rebase f with core := core, win := at_.1, spill := at_.2 }] }).map fun s =>
        (s.rebaseFlight l.ctx f).restoreLimbo core l

/-- Place what is saved under some numbers, all of it or none (R124). -/
def State.placeAll (p : Partition) (cluster : Bool) : List Nat → State → Option State
  | [], s => some s
  | i :: t, s =>
    match s.limbo.find? fun l => l.id == i with
    | none => none
    | some l =>
      match s.placeLimbo p cluster l with
      | none => none
      | some s => State.placeAll p cluster t s

/-- A saved task wave is placed again on its core (R234). -/
def State.placeTaskWave (s : State) (id : Nat) : State :=
  match s.limbo.find? fun l => l.id == id && l.group.isNone with
  | none => s
  | some l =>
    let c := s.ctx l.ctx
    if c.pre ≠ .none || !(s.ctxHeld c) then s else
    match s.part? c.vf with
    | none => s
    | some p => (s.placeLimbo p false l).getD s

/-- The saved groups of a grid that wait for room: (logical index, number), in ascending index. -/
def State.parked (s : State) (grid : Nat) : List (Nat × Nat) :=
  sortBy (fun (x y : Nat × Nat) => decide (x.1 ≤ y.1)) (s.limbo.filterMap fun l =>
    match l.group with
    | some e => if e.1.grid == grid then some (e.1.index, l.id) else none
    | none => none)

/-- The saved groups that are next on their cores (R124): of each core the one of least index; in whole clusters the sets of each
logical cluster, a set as one. -/
def nextParked (p : Partition) (cluster : Bool) (parked : List (Nat × Nat)) : List (List Nat) :=
  let whole := cluster && p.clusters.isSome
  let key := fun (x : Nat × Nat) => if whole then x.1 / 4 else x.1
  let place := fun (x : Nat × Nat) => p.placeOf cluster (if whole then x.1 / 4 * 4 else x.1)
  let first := parked.filter fun x => !(parked.any fun y => place y == place x && decide (key y < key x))
  ((first.map key).eraseDups).map fun k => (first.filter fun x => key x == k).map (·.2)

/-- The next group of a grid starts, or the next of its saved ones is placed again (R124, R234). -/
def State.startNext (s : State) (g : Grid) (p : Partition) : Option State :=
  let parked := s.parked g.id
  let taken := parked.map fun x => p.placeOf g.cluster x.1
  match (nextParked p g.cluster parked).findSome? fun ids => State.placeAll p g.cluster ids s with
  | some s => some s
  | none =>
    match (if g.cluster then p.clusters else none) with
    | some cs => s.startOnClusters g p cs taken
    | none => s.startOnCores g p taken

/-- GROUP_START (R124, R234, R403). The next group of a grid starts, or a saved group of it is placed again, on its logical core when
that has room; a device launch first has its release, and its wait if it has one.  A number of no grid names a saved task wave. -/
def execGroupStart (grid : Nat) (s : State) : Out :=
  .next (
    match s.grids.find? fun g => g.id == grid with
    | none => s.placeTaskWave grid
    | some g =>
      let c := s.ctx g.ctx
      match s.part? c.vf with
      | none => s
      | some p =>
        if c.pre ≠ .none || !(s.ctxHeld c) then s
        else if !(g.hold.all fun h => s.relDone h.1 h.2.1 h.2.2) then s
        else
          match g.waits with
          | some w =>
            if s.waitOver w.1 w.2 then
              { s with grids := updWhere (fun x => x.id == grid) (fun x => { x with waits := none, hold := none }) s.grids }.acquirePhase
                g.ctx grid w.1 w.2.toNat
            else s
          | none => (s.startNext g p).getD s)

end Sys2Proof.Machine
end

