-- ==== Sys2Proof/Machine/Debug.lean ====
section
/-! DEFINITION. The debug block of a function (R425 to R436): breakpoints, stall samples and blame, profiling sessions,
watchpoints, freeze and scan-out. -/

namespace Sys2Proof.Machine

/-! ## Blocks and records (R427, R429) -/

/-- The debug blocks that apply to a context: its function's, and the PF's, where they name its slot.  DEDUCED (log 33): the
PF's block applies to the contexts of that slot of every function. -/
def State.blocksOf (s : State) (c : Context) : List Func :=
  s.funcs.filter fun f => (f.id == c.vf || f.id == pfNum) && bitsOf f.dslot.toNat 0 4 == c.slot

/-- Whether a block applies to a context. -/
def Func.applies (f : Func) (c : Context) : Bool := (f.id == c.vf || f.id == pfNum) && bitsOf f.dslot.toNat 0 4 == c.slot

/-- The contexts to which a block applies. -/
def State.blockCtxs (s : State) (f : Func) : List Context := s.ctxs.filter f.applies

/-- A record of the ring (R429); tick is the K9's. -/
structure RingRec where
  who : W64
  pc : W64
  blame : W64
  reason : Nat
  reg : Nat
  value : Nat
  object : Nat
  deriving DecidableEq, Repr

/-- The 64 bytes of a record. -/
def RingRec.bytes (r : RingRec) (tick : Nat) : List Byte :=
  leBytes 8 tick ++ leBytes 8 r.who.toNat ++ leBytes 8 r.pc.toNat ++ leBytes 8 r.blame.toNat ++ leBytes 2 r.reason
    ++ leBytes 2 r.reg ++ leBytes 4 r.value ++ leBytes 8 r.object ++ List.replicate 16 0

/-- Whether `n` bytes from an address lie in banks that a function may name in its debug block: its partition's, or any bank of the
slice space for the PF (R427). -/
def State.blockOwns (s : State) (fn a n : Nat) : Bool :=
  if fn = pfNum then inSlice a && decide (a + n ≤ Config.sliceBase + Config.sliceSize)
  else (s.part? fn).any fun p => (List.range ((n + 32767) / 32768 + 1)).all fun i => p.ownsAddr (min (a + 32768 * i) (a + n - 1))

/-- Write a record whole, then increment shead (R427); a ring of no entries takes none.  DESIGN CHOICE (log 110): nor is a record written
whose place lies outside the banks that the block may name. -/
def State.ringWrite (s : State) (fn : Nat) (r : RingRec) : State :=
  let f := s.func fn
  let n := f.slen.toNat
  let at_ := f.sring.toNat + 64 * (f.shead.toNat % n)
  if n = 0 || !(s.blockOwns fn at_ 64) then s else
  { s with slice := s.slice.setBytes at_ (r.bytes s.tick) }.updFunc fn fun f => { f with shead := f.shead + 1 }

/-! ## Breakpoints (R133, R428) -/

/-- `bkpt` (R133, R428). Armed, it writes a record of reason 12 and halts its wave before any later instruction; not armed, it
does nothing. -/
def execBkpt (i : BitVec 16) (s : State) : Out :=
  .next (s.onIssuer fun w q =>
    let fs := (s.blocksOf (s.ctx w.ctx)).filter fun f => f.dctl.getLsbD 0
    if fs.isEmpty then s.retire w else
    let r : RingRec :=
      { who := w.reportIdent q.quads, pc := q.pc, blame := i.setWidth 64, reason := 12, reg := 0, value := 0, object := 0 }
    (fs.foldl (fun (s : State) f => s.ringWrite f.id r) s).retire { w with halt := .breakpoint })

/-- Whether a value written to brelease names a wave (R428): all ones, the I of a grid wave with its lane bits zero, or the I of
any lane of a task wave. -/
def Wave.named (w : Wave) (v : W64) : Bool :=
  v == BitVec.allOnes 64 || (if w.task then w.tasks.any fun t => w.ident t.1 == v else w.ident 0 == v)

/-- A wave released from its breakpoint. -/
def Wave.release (w : Wave) (v : W64) : Wave := if w.halt = .breakpoint ∧ w.named v then { w with halt := .running } else w

/-- Release the waves of a block's slot that a value names: those of its contexts, and those that are saved (R428). -/
def State.release (s : State) (fn : Nat) (v : W64) : State :=
  let f := s.func fn
  let ids := (s.blockCtxs f).map (·.id)
  let free := fun (l : Limbo) => { l with waves := l.waves.map fun w => w.release v }
  { s with
    waves := updWhere (fun w => ids.contains w.ctx) (fun w => w.release v) s.waves
    limbo := updWhere (fun l => ids.contains l.ctx) free s.limbo
    saved := updWhere (fun x => f.applies x.ctx) (fun x => { x with limbo := x.limbo.map free }) s.saved }

/-- Waves of a block's slot that are halted at a breakpoint (R427). -/
def State.bkhalt (s : State) (f : Func) : Nat :=
  let ids := (s.blockCtxs f).map (·.id)
  let halted := fun (ws : List Wave) => (ws.filter fun w => w.halt == .breakpoint).length
  halted (s.waves.filter fun w => ids.contains w.ctx)
    + ((s.limbo.filter fun l => ids.contains l.ctx).map fun l => halted l.waves).sum
    + ((s.saved.filter fun x => f.applies x.ctx).map fun x => (x.limbo.map fun l => halted l.waves).sum).sum

/-- BRELEASE (R428). -/
def execBrelease (fn : Nat) (val : W64) (s : State) : Out := .next (s.barAccess fn 0x418 fun s => s.release fn val)

/-! ## Profiling sessions (R406, R431) -/

/-- The count of a session's counter as its record shows it: absent codes are UNAVAILABLE. -/
def Session.countWord (x : Session) (code : Nat) : Nat := if 13 ≤ code then 2 ^ 63 else sget 0 x.counts code % 2 ^ 63

/-- Write a session's counts back to its record (R431).  DESIGN CHOICE (log 110): a record outside the banks that the function's block may
name is neither read nor written. -/
def State.writeCount (s : State) (x : Session) : State :=
  if !(s.blockOwns x.fn x.record 128) then s else
  (List.range 8).foldl (fun (s : State) k =>
    let code := (byteAt x.events k).toNat
    if code = 0 then s else { s with slice := s.slice.setNum (x.record + 64 + 8 * k) 8 (x.countWord code) }) s

/-- Write the counts of a context's sessions back (R431). -/
def State.writeCounts (s : State) (c : Context) : State := c.sessions.foldl State.writeCount s

/-- The sessions of a context but that of one function's block. -/
def Context.without (c : Context) (fn : Nat) : Context := { c with sessions := c.sessions.filter fun x => x.fn != fn }

/-- Open a session on the record at sess for each context of the block's slot (R431). -/
def State.openSession (s : State) (f : Func) : State :=
  let at_ := f.sess.toNat
  let here := s.blockOwns f.id at_ 128
  (s.blockCtxs f).foldl (fun (s : State) c =>
    let ev := if here then s.slice.bytes at_ 8 else []
    (if here then { s with slice := s.slice.setNum (at_ + 8) 8 s.tick } else s).updCtx c.id fun c =>
      { c.without f.id with sessions := (c.without f.id).sessions ++ [⟨f.id, at_, s.tick, ev, []⟩] }) s

/-- Close the sessions that a block opened, their counts written back (R431); those of saved contexts with them. -/
def State.closeSession (s : State) (f : Func) : State :=
  let s := s.ctxs.foldl (fun (s : State) c =>
    ((c.sessions.filter fun x => x.fn == f.id).foldl State.writeCount s).updCtx c.id fun c => c.without f.id) s
  { s with saved := s.saved.map fun x => { x with ctx := x.ctx.without f.id } }

/-- Every 2^20 clk since it opened, a session's counts are written back (R431). -/
def State.writeback (s : State) (fn : Nat) : State :=
  (s.ctxs.flatMap fun c => c.sessions.filter fun x =>
    x.fn == fn && decide (x.opened < s.tick) && decide ((s.tick - x.opened) % 2 ^ 20 = 0)).foldl State.writeCount s

/-- SESSION_WRITEBACK (R431). -/
def execSessionWriteback (fn : Nat) (s : State) : Out := .next (s.writeback fn)

/-! ## The control register (R427, R428, R429, R431, R434) -/

/-- A bit of dctl. -/
def Func.dbit (f : Func) (b : Nat) : Bool := f.dctl.getLsbD b

/-- Bit 1 of dctl as written: sampling counts from the tick at which it is set (R429). -/
def State.putSampling (s : State) (fn : Nat) (on : Bool) : State :=
  if on && !((s.func fn).dbit 1) then s.updFunc fn fun f => { f with sampleFrom := s.tick, sampleNext := [] } else s

/-- Bit 2 of dctl as written: a session opens or closes (R431). -/
def State.putSession (s : State) (fn : Nat) (on : Bool) : State :=
  let f := s.func fn
  if on && !(f.dbit 2) then s.openSession f else if !on && f.dbit 2 then s.closeSession f else s

/-- Bit 3 of the PF's dctl as written, and whether it stays set: arming at or below the current tick is refused (R434). -/
def State.putFreeze (s : State) (fn : Nat) (on : Bool) : Bool × State :=
  if fn ≠ pfNum then (false, s)
  else if !on then (false, s)
  else if (s.func fn).dbit 3 then (true, s)
  else if (s.func fn).freezetick.toNat ≤ s.tick then (false, { s with freezeRefused := true })
  else (true, { s with freezeRefused := false })

/-- Write dctl (R427): each bit that changes acts; bit 3 of a VF's reads 0. -/
def State.putDctl (s : State) (fn : Nat) (v : W64) : State :=
  let s := (s.putSampling fn (v.getLsbD 1)).putSession fn (v.getLsbD 2)
  let z := s.putFreeze fn (v.getLsbD 3)
  z.2.updFunc fn fun f => { f with dctl := (v &&& 7) ||| (if z.1 then 8 else 0) }

/-- The value of dctl with one bit replaced. -/
def Func.withBit (f : Func) (b : Nat) (on : Bool) : W64 :=
  let m := BitVec.ofNat 64 (2 ^ b)
  if on then f.dctl ||| m else f.dctl &&& ~~~m

/-- The host writes one bit of dctl. -/
def State.writeBit (s : State) (fn b : Nat) (on : Bool) : State :=
  s.barAccess fn 0x400 fun s => s.putDctl fn ((s.func fn).withBit b on)

/-- BREAKPOINT_ARM (R428). -/
def execBreakpointArm (fn : Nat) (on : Bool) (s : State) : Out := .next (s.writeBit fn 0 on)
/-- SAMPLING_ENABLE (R429). -/
def execSamplingEnable (fn : Nat) (on : Bool) (s : State) : Out := .next (s.writeBit fn 1 on)
/-- SESSION_OPEN (R431). -/
def execSessionOpen (fn : Nat) (s : State) : Out := .next (s.writeBit fn 2 true)
/-- SESSION_CLOSE (R431). -/
def execSessionClose (fn : Nat) (s : State) : Out := .next (s.writeBit fn 2 false)
/-- FREEZE_ARM (R434). -/
def execFreezeArm (s : State) : Out := .next (s.writeBit pfNum 3 true)

/-- Whether the freeze is armed for this tick (R434). -/
def State.freezeDue (s : State) : Bool := (s.func pfNum).dbit 3 && decide ((s.func pfNum).freezetick.toNat = s.tick)

/-- FREEZE (R434). At the end of the clk whose tick equals freezetick every clock stops. -/
def execFreeze (s : State) : Out := .next (if s.freezeDue then { s with frozen := true } else s)

/-! ## Stall samples and blame (R429, R430) -/

/-- The reason of a sample with what it names (R430). -/
structure Stall where
  reason : Nat
  reg : Nat := 0
  value : Nat := 0
  object : Nat := 0
  blame : W64 := 0
  deriving DecidableEq, Repr

/-- The sub-wave of a wave that a sample reads: the one offered, or the one whose wait holds the wave (R106, R429). -/
def State.sampledSub (s : State) (w : Wave) : Option SubWave := (s.offered w).or w.subs.head?

/-- The instruction at a sub-wave. -/
def State.instrAt (s : State) (w : Wave) (q : SubWave) : Option Instr := (s.fetchWord (dieOf w.core) (s.ctx w.ctx) q.pc).bind decode

/-- Sectors of eight lanes that hold a lane of a mask. -/
def sectorMask (lanes : W32) : Nat :=
  ((List.range 4).map fun k => if lanes.extractLsb' (8 * k) 8 != 0 then 2 ^ k else 0).sum

/-- Reason 1 (R430): the first register with a pending write, its producer and its pending sectors; a scalar register is one (R198). -/
def State.stallOnRegister (s : State) (w : Wave) (i : Instr) : Option Stall :=
  (firstOwed (s.owed w) (w.uses i)).map fun e =>
    { reason := 1, reg := e.1.file * 256 + e.1.idx,
      value := if e.1.file = 0 then sectorMask (e.2.foldl (fun m p => m ||| p.lanes) 0) else 1,
      blame := ((e.2.head?).map (·.pc)).getD 0 }

/-- The address of the oldest of the entries (number, address) of a list. -/
def oldestOf (l : List (Nat × W64)) : W64 := (((sortBy (fun (x y : Nat × W64) => decide (x.1 ≤ y.1)) l).head?).map (·.2)).getD 0

/-- The address of the oldest access of a list. -/
def oldestPc (l : List Access) : W64 := oldestOf (l.map fun a => (a.id, a.pc))

/-- Reason 4 (R430): the first counter of a `waitc` over its limit and its oldest entry. -/
def State.stallOnCounter (s : State) (w : Wave) (l st c m : BitVec 4) : Option Stall :=
  let mine := fun (p : Access → Bool) => s.flight.filter fun a => a.wave == w.id && p a
  let batch := fun (bs : List Batch) => (((s.openBatches bs).head?).map (·.pc)).getD 0
  if !(underLimit (s.ldCount w.id) l) then some { reason := 4, value := 0, blame := oldestPc (mine (·.inLd)) }
  else if !(underLimit (s.stCount w.id) st) then some { reason := 4, value := 1, blame := oldestPc (mine (·.inSt)) }
  else if !(underLimit (s.openBatches w.batchesC).length c) then some { reason := 4, value := 2, blame := batch w.batchesC }
  else if !(underLimit (s.openBatches w.batchesM).length m) then some { reason := 4, value := 3, blame := batch w.batchesM }
  else none

/-- Reason 5 (R430): a `fence` that waits, and the oldest access that it waits for, of the wave or of an engine for it. -/
def State.stallOnFence (s : State) (w : Wave) (mask scope : Nat) : Option Stall :=
  if s.fenceDone w mask scope then none else
  let own := (s.flight.filter fun a => a.wave == w.id && mask.testBit a.kind.fenceBit &&
    a.units.any fun u => !u.done && inDomain scope w.core u.addr).map fun a => (a.id, a.pc)
  let engine := if mask.testBit 3 then s.enginesLeft w.id s.nextId scope w.core true else []
  some { reason := 5, value := mask, blame := oldestOf (own ++ engine) }

/-- The oldest entry of a wave that a queue still holds (R430). -/
def State.oldestQueued (s : State) (r : EngReq) : W64 :=
  if r.kind.isSlip then
    (((s.slipQueue r.by_.ctx r.owner r.queue).find? fun o => o.req.by_.wave == r.by_.wave).map fun o => o.req.by_.pc).getD 0
  else (((s.sieveQueue (dieOf r.by_.core)).find? fun o => o.req.by_.wave == r.by_.wave).map fun o => o.req.by_.pc).getD 0

/-- Whether an instruction that issues again waits for a block, a reservation, a tile, a frame, a pool, a ring, a list or a unit
(reason 7 of R430). -/
def waitsForRoom : Instr → Bool
  | .xacq | .obres .. | .obrel .. | .obwin .. | .accz .. | .accza .. | .spawn .. | .spawnd .. | .waitp .. | .barb .. | .wlpush ..
  | .wlpull .. | .svpull .. | .svclr .. | .glaunch .. | .trrec .. | .trstop .. | .propagate .. | .mdecl .. | .trdrop .. | .trstat .. => true
  | _ => false

/-- Whether an instruction goes through its quadrant's matrix fetch queue (R76, R275). -/
def usesFetchQueue : Instr → Bool
  | .obld .. | .accst .. | .mma .. | .mmac .. => true
  | _ => false

/-- Reason 6 for the matrix fetch queue (R275, R430): full, and the wave's oldest entry in it. -/
def State.stallOnFetch (s : State) (w : Wave) (i : Option Instr) : Option Stall :=
  if i.any usesFetchQueue && decide (16 ≤ s.fetchDepth w.quadrant) then
    some { reason := 6, blame := oldestOf ((s.mats.filter fun m => m.wave == w.id && s.fetching m).map fun m => (m.by_.seq, m.by_.pc)) }
  else none

/-- The reason of a wave-wide wait (R430). -/
def State.stallOnWait (s : State) (w : Wave) (i : Option Instr) : Option Stall :=
  match w.wait with
  | .queue r => some { reason := 6, value := r.queue, blame := s.oldestQueued r }
  | .grant => some { reason := 7 }
  | .request id =>
    some { reason := if s.requests.any fun r => r.id == id && (r.req.kind == .lrfl || r.req.kind == .lrins) then 11 else 7 }
  | .joint members tag => some { reason := 8, value := tag.toNat, object := members.toNat }
  | .again _ | .stall _ => (s.stallOnFetch w i).or (some { reason := if i.any waitsForRoom then 7 else 11 })
  | .home _ | .quiesce _ => some { reason := if i.any waitsForRoom then 7 else 11 }
  | .none => none

/-- Whether a sub-wave still stands before its next instruction, so that a register may hold it back; else it waits in one that has
issued. -/
def SubWave.standsBefore (q : SubWave) (w : Wave) : Bool :=
  q.st == .ready && match w.wait with
    | .none | .again _ | .stall _ => true
    | _ => false

/-- Whether the instruction at which a sub-wave waits at a home waits for free frames (R114). -/
def State.waitsForFrames (s : State) (acc : Nat) : Bool := (s.access? acc).any s.frameStall

/-- The reason of a sample, and what it names: the first that holds (R430). -/
def State.stallOf (s : State) (w : Wave) (q : SubWave) : Stall :=
  let i := s.instrAt w q
  if w.halt ≠ .running || (s.ctx w.ctx).halting || w.handler.any (fun h => q.quads &&& ~~~h != 0) then { reason := 10 }
  else
    match (if q.standsBefore w then i.bind (s.stallOnRegister w) else none) with
    | some x => x
    | none =>
      match q.st with
      | .waiting _ phase _ va => { reason := 3, value := phase.toNat, object := va.toNat }
      | _ =>
        let named := match i with
          | some (.waitc l st c m) => s.stallOnCounter w l st c m
          | some (.fence k c) => s.stallOnFence w k.toNat c.toNat
          | _ => none
        match named with
        | some x => x
        | none =>
          match s.stallOnWait w i with
          | some x => x
          | none =>
            match q.st with
            | .forBlock => { reason := 7 }
            | .parked => { reason := 9 }
            | .atHome acc => { reason := if s.waitsForFrames acc then 7 else 11 }
            | .ending _ => { reason := 11 }
            | _ => { reason := if w.lastIssue = s.tick ∧ s.tick < w.notBefore then 0 else 2 }

/-- The waves of a block's slot in a quadrant of the package, by slot. -/
def State.sampleWaves (s : State) (f : Func) (quad : Nat) : List Wave :=
  let ids := (s.blockCtxs f).map (·.id)
  sortBy (fun (x y : Wave) => decide (x.slot ≤ y.slot)) (s.waves.filter fun w => ids.contains w.ctx && w.quadrant == quad)

/-- Whether a quadrant has a sample to take for a block in this clk (R429). -/
def State.sampleDue (s : State) (f : Func) (quad : Nat) : Bool :=
  f.dbit 1 && f.slen != 0 && decide (f.sampleFrom < s.tick) && decide ((s.tick - f.sampleFrom) % max 1 f.sint.toNat = 0)
    && !(f.sampleNext.any fun e => e.1 == quad && e.2.2 == s.tick) && !(s.sampleWaves f quad).isEmpty

/-- A quadrant samples the next occupied slot of the context in turn and writes a record, where a sample is due (R429, R430). -/
def State.takeSample (s : State) (fn quad : Nat) : State :=
  let f := s.func fn
  if !(s.sampleDue f quad) then s else
  let ws := s.sampleWaves f quad
  let last := ((f.sampleNext.find? fun e => e.1 == quad).map fun e => e.2.1 + 1).getD 0
  match (ws.find? fun w => decide (last ≤ w.slot)).or ws.head? with
  | none => s
  | some w =>
    match s.sampledSub w with
    | none => s
    | some q =>
      let x := s.stallOf w q
      let r : RingRec :=
        { who := w.reportIdent q.quads, pc := q.pc, blame := x.blame, reason := x.reason, reg := x.reg, value := x.value,
          object := x.object }
      let s := (s.ringWrite fn r).updFunc fn fun f =>
        { f with sampleNext := (quad, w.slot, s.tick) :: f.sampleNext.filter fun e => e.1 != quad }
      if x.reason = 1 then s.count w.ctx 2 1 else if x.reason = 3 then s.count w.ctx 3 1 else s

/-- STALL_SAMPLE (R429, R430). -/
def execStallSample (fn quad : Nat) (s : State) : Out := .next (s.takeSample fn quad)

/-- Every sample that is due in this clk and has not been taken (R429). -/
def State.takeSamples (s : State) : State :=
  (s.funcs.filter fun f => f.dbit 1 && f.slen != 0).foldl (fun (s : State) f =>
    (s.waves.map Wave.quadrant).eraseDups.foldl (fun (s : State) k => s.takeSample f.id k) s) s

/-! ## Watchpoints (R432, R433) -/

/-- An access that a watchpoint may match: its type and kind (R433), where it is, who makes it, and what it writes. -/
structure Touch where
  /-- 1 slice, 2 accumulator, 3 operand buffer, 4 register. -/
  type : Nat
  /-- Bit of the kinds mask. -/
  kind : Nat
  /-- Type 1: the address as it is named, and bytes.  Type 2: tile, cells (row, column).  Type 3: handle, byte offset and bytes.
  Type 4: register and lanes. -/
  at_ : Nat
  n : Nat
  cells : List (Nat × Nat)
  /-- What it writes at the first place that matches: place and low 32 bits; nothing for a read. -/
  vals : List (Nat × W32)
  ctx : Nat
  wave : Nat
  who : List W64
  pc : W64
  /-- An engine makes it. -/
  engine : Bool
  deriving DecidableEq, Repr

/-- Fields of a watchpoint's control word (R432). -/
def Watch.type (x : Watch) : Nat := bitsOf x.ctl.toNat 0 4
def Watch.action (x : Watch) : Nat := bitsOf x.ctl.toNat 4 4

/-- Where a watchpoint matches an access (R432, R433): the first place that it names. -/
def Watch.matches_ (x : Watch) (t : Touch) : Option Nat :=
  let v := x.where_.toNat
  if x.type ≠ t.type || !((bitsOf x.ctl.toNat 8 5).testBit t.kind) || !(x.who == BitVec.allOnes 64 || t.who.contains x.who) then none
  else match t.type with
  | 1 => if overlap t.at_ t.n v x.len.toNat then some t.at_ else none
  | 2 =>
    if bitsOf v 0 3 ≠ t.at_ then none else
    (t.cells.find? fun c => (v.testBit 12 || bitsOf v 4 4 == c.1) && (v.testBit 13 || bitsOf v 8 4 == c.2)).map fun c =>
      t.at_ + 16 * c.1 + 256 * c.2
  | 3 => if bitsOf v 0 4 = t.at_ ∧ overlap 0 t.n (bitsOf v 4 18) x.len.toNat then some (t.at_ + 16 * bitsOf v 4 18) else none
  | _ =>
    if bitsOf v 0 7 ≠ t.at_ then none else
    (t.cells.find? fun c => v.testBit 13 || bitsOf v 8 5 == c.1).map fun c => t.at_ + 256 * c.1

/-- One watchpoint slot of a block acts on one access (R433). -/
def State.watchOne (s : State) (fn k : Nat) (x : Watch) (t : Touch) : State :=
  match x.matches_ t with
  | none => s
  | some p =>
    let val := ((t.vals.find? fun e => e.1 == p).map (·.2)).getD 0
    let s := s.ringWrite fn
      { who := t.who.headD 0, pc := t.pc, blame := BitVec.ofNat 64 k, reason := 13, reg := 0, value := val.toNat, object := p }
    if x.action = 1 && !t.engine then s.updWave t.wave fun w => if w.halt = .running then { w with halt := .breakpoint } else w
    else if x.action = 2 && fn == pfNum then { s with frozen := true } else s

/-- The watchpoints of every block that applies to an access's context act on it, in slot order. -/
def State.watch (s : State) (t : Touch) : State :=
  (s.blocksOf (s.ctx t.ctx)).foldl (fun (s : State) f =>
    (List.range 4).foldl (fun (s : State) k => s.watchOne f.id k (f.watch.getD k ⟨0, 0, 0, 0⟩) t) s) s

/-- Whether any watchpoint is on. -/
def State.watching (s : State) : Bool := s.funcs.any fun f => f.watch.any fun x => x.type != 0

/-- Whether a wave took a fault between two states: its instruction performed nothing (R433). -/
def faulted (s t : State) (wid : Nat) : Bool :=
  match s.wave? wid, t.wave? wid with
  | some a, some b => (b.handler.isSome && a.handler.isNone) || (b.halt == .unhandled && a.halt != .unhandled)
  | _, _ => false

/-- The address of a location as a wave names it (R23): of the group window when it came through it. -/
def State.namedAddr (s : State) (wid : Nat) (win : Bool) (a : Nat) : Nat :=
  if win then
    match (s.wave? wid).bind fun w => s.group? w.gid with
    | some g => Config.windowBase + (a - g.win)
    | none => a
  else a

/-- The slice accesses that a step performed: units of accesses in flight (R60, R62). -/
def unitTouches (s t : State) : List Touch :=
  s.flight.flatMap fun a =>
    if faulted s t a.wave then [] else
    (List.range a.units.length).filterMap fun i =>
      match a.units[i]? with
      | none => none
      | some u =>
        let after := (t.access? a.id).bind fun b => b.units[i]?
        let now := !u.done && (match after with
          | some v => v.done
          | none => true)
        if !now || a.kind.fenceBit == 2 && !a.kind.writes then none else
        let at_ := s.namedAddr a.wave u.win u.addr
        let val : W32 := if a.kind == .store then u.data.setWidth 32 else BitVec.ofNat 32 (t.slice.num u.addr (min 4 u.size))
        some { type := 1, kind := a.kind.fenceBit, at_ := at_, n := u.size, cells := [],
               vals := if a.kind.writes then [(at_, val)] else [], ctx := a.ctx, wave := a.wave, who := [a.ident], pc := a.pc,
               engine := false }

/-- The cells of a tile. -/
def allCells : List (Nat × Nat) := (List.range 256).map fun k => (k / 16, k % 16)

/-- The accumulator and operand-buffer accesses of a matrix operation that a step performed (R433). -/
def matTouches (s t : State) (m : MatOp) : List Touch :=
  let tile := fun (n kind : Nat) =>
    let vals := if kind = 1 then
        match (t.wave? m.wave).bind fun w => w.tile? n with
        | some x => allCells.map fun c => (n + 16 * c.1 + 256 * c.2, ((x.cell (16 * c.1 + c.2)).n.setWidth 32 : W32))
        | none => []
      else []
    ({ type := 2, kind := kind, at_ := n, n := 0, cells := allCells, vals := vals, ctx := m.by_.ctx, wave := m.wave,
       who := [m.by_.ident], pc := m.by_.pc, engine := false } : Touch)
  let buf := fun (h kind : Nat) =>
    let r := (t.wave? m.wave).bind fun w => w.rsv? h
    let n := (r.map fun r => rdLength r.desc).getD 0
    let vals := if kind = 1 then
        (r.map fun r => (List.range n).map fun o => (h + 16 * o, (BitVec.ofNat 32 (r.bytes.num o 4) : W32))).getD []
      else []
    ({ type := 3, kind := kind, at_ := h, n := n, cells := [], vals := vals, ctx := m.by_.ctx, wave := m.wave,
       who := [m.by_.ident], pc := m.by_.pc, engine := false } : Touch)
  match m.kind with
  | .mma a b .. | .mmac a b .. => [buf a 0, buf b 0, tile m.tile 0, tile m.tile 1]
  | .joint a .. => [buf a 0, tile m.tile 0, tile m.tile 1]
  | .accrd .. => [tile m.tile 0]
  | .accwr .. => [tile m.tile 1]
  | .accadd src => [tile src 0, tile m.tile 0, tile m.tile 1]
  | .accst addr win .. =>
    [tile m.tile 0,
     { type := 1, kind := 3, at_ := s.namedAddr m.wave win addr, n := 1024, cells := [],
       vals := [(s.namedAddr m.wave win addr, BitVec.ofNat 32 (t.slice.num addr 4))], ctx := m.by_.ctx, wave := m.wave,
       who := [m.by_.ident], pc := m.by_.pc, engine := true }]
  | .obld h addr win _ _ _ =>
    [buf h 1,
     { type := 1, kind := 4, at_ := s.namedAddr m.wave win addr, n := (buf h 0).n, cells := [], vals := [], ctx := m.by_.ctx,
       wave := m.wave, who := [m.by_.ident], pc := m.by_.pc, engine := true }]

/-- The accesses of an engine operation at addresses of its context: address as named, bytes, and whether it writes. -/
def engTouches (t : State) (r : EngReq) (l : List (Nat × Nat × Bool)) : List Touch :=
  let win := match r.owner with
    | .group g => ((t.group? g).map (·.win)).getD 0
    | .core _ => 0
  let alias_ := fun a => if Config.windowBase ≤ a ∧ a < Config.sliceBase then win + (a - Config.windowBase) else a
  l.map fun e =>
    { type := 1, kind := if e.2.2 then 3 else 4, at_ := e.1, n := e.2.1, cells := [],
      vals := if e.2.2 then [(e.1, BitVec.ofNat 32 (t.slice.num (alias_ e.1) 4))] else [], ctx := r.by_.ctx, wave := r.by_.wave,
      who := [r.by_.ident], pc := r.by_.pc, engine := true }

/-- The slice accesses of a Slip sector (R246). -/
def sectorTouches (t : State) (o : SlipOp) (k : Nat) : List Touch :=
  engTouches t o.req ((o.moves k).flatMap fun m =>
    ((m.src.toList.filter fun a => !(inExt a)).map fun a => (a, m.n, false))
      ++ ((m.dst.toList.filter fun a => !(inExt a)).map fun a => (a, m.n, true)))

/-- The vector-register accesses of an instruction that the head wave issued (R433): the registers that it reads, and those that
it has written at once, in its Active lanes. -/
def registerTouches (s t : State) (i : Instr) : List Touch :=
  match s.waves with
  | [] => []
  | w :: _ =>
    match w.subs with
    | [] => []
    | q :: _ =>
      if faulted s t w.id then [] else
      let m := (slotField i).map w.slotOf
      let lanes := lanesOf fun l => (match m with
        | some m => w.active q m l
        | none => hasQuad q.quads l && w.isWorking l)
      let owed := ((t.wave? w.id).map t.owed).getD []
      ((w.uses i).filter fun u => u.file == 0).flatMap fun u =>
        let mk := fun (kind : Nat) =>
          ({ type := 4, kind := kind, at_ := u.idx, n := 0, cells := lanes.map fun l => (l, 0),
             vals := if kind = 1 then lanes.map fun l => (u.idx + 256 * l, ((t.wave? w.id).map fun x => x.v u.idx l).getD 0) else [],
             ctx := w.ctx, wave := w.id, who := w.reportIdent q.quads :: (if w.task then lanes.map w.ident else []), pc := q.pc,
             engine := false } : Touch)
        (if u.rd then [mk 0] else []) ++
          (if u.wr && !(owed.any fun p => p.file == 0 && p.idx == u.idx) then [mk 1] else [])

/-- The vector registers that loads and atomics in flight wrote in a step (R433). -/
def landedTouches (s t : State) : List Touch :=
  s.flight.flatMap fun a =>
    if a.vdst.isNone || !a.kind.returns || faulted s t a.wave then [] else
    (List.range a.units.length).filterMap fun i =>
      match a.units[i]? with
      | none => none
      | some u =>
        let after := (t.access? a.id).bind fun b => b.units[i]?
        if u.done || (match after with
          | some v => !v.done
          | none => false) then none else
        some { type := 4, kind := 1, at_ := u.reg, n := 0, cells := [(u.lane, 0)],
               vals := [(u.reg + 256 * u.lane, ((t.wave? a.wave).map fun w => w.v u.reg u.lane).getD 0)], ctx := a.ctx, wave := a.wave,
               who := [a.ident], pc := a.pc, engine := false }

/-- The reductions that a drain pass performed and that no access in flight stands for (R266). -/
def drainTouches (s t : State) (gid : Nat) : List Touch :=
  match s.group? gid with
  | none => []
  | some g =>
    let left := ((t.group? gid).map (·.drain)).getD []
    (g.drain.filter fun e => e.acc.isNone && !(left.contains e)).flatMap fun e => e.upds.map fun u =>
      { type := 1, kind := 2, at_ := e.addr, n := 4, cells := [], vals := [(e.addr, BitVec.ofNat 32 (t.slice.num e.addr 4))],
        ctx := g.ctx, wave := u.wave, who := [u.ident &&& ~~~31], pc := u.pc, engine := false }

/-- What a step may have performed that a watchpoint matches. -/
inductive Acted where
  /-- An instruction of the head wave issued. -/
  | instr (i : Instr)
  /-- The units of accesses in flight. -/
  | access
  | drain (group : Nat)
  | matrix (op : Nat)
  | fill (op : Nat)
  | sector (op k : Nat)
  | pair (op : Nat)
  | other
  deriving DecidableEq, Repr

/-- What an instruction or event may perform. -/
def acted : Instr → Acted
  | .drainPass g => .drain g
  | .loadDataReturn .. | .writePerformed .. | .atomicAtHome .. | .tracedAccessStep .. | .combinerPacketApply ..
  | .barrierArrivalApply .. | .waitpCheck .. => .access
  | .matrixOpPerform op => .matrix op
  | .operandFillLand op _ => .fill op
  | .copySectorPerform op k => .sector op k
  | .pairRecordWrite op => .pair op
  | i => if i.isWord then .instr i else .other

/-- The accesses that a step from `s` to `t` performed (R433). -/
def touches (s t : State) (x : Acted) : List Touch :=
  match x with
  | .instr i => registerTouches s t i
  | .access => unitTouches s t ++ landedTouches s t
  | .drain g => unitTouches s t ++ landedTouches s t ++ drainTouches s t g
  | .matrix op => if t.mats.any fun m => m.id == op then [] else (s.mats.filter fun m => m.id == op).flatMap (matTouches s t)
  | .fill op => (s.mats.filter fun m => m.id == op).flatMap (matTouches s t)
  | .sector op k =>
    (s.slip.filter fun o => o.id == op && !(o.done.contains k) &&
      (match t.slip.find? fun x => x.id == op with
       | some x => x.done.contains k
       | none => true)).flatMap fun o => sectorTouches t o k
  | .pair op =>
    (s.sieve.filter fun o => o.id == op && t.sieve.any fun x => x.id == op && decide (o.written < x.written)).flatMap fun o =>
      let r := o.req.op 1
      engTouches t o.req [(s.slice.num r 8 + 32 * (s.slice.num (r + 24) 8 % max 1 (s.slice.num (r + 8) 4)), 32, true), (r + 24, 8, true)]
  | .other => []

/-! ## Correctable errors (R226, R424, R431) -/

/-- A correctable error in a slice word is corrected and counted, in the sessions of the contexts whose partition owns the word. -/
def State.correctWord (s : State) (a : Nat) : State :=
  (s.ctxs.filter fun c => s.owns c a).foldl (fun (s : State) c => s.count c.id 5 1)
    { s with eccSoft := s.eccSoft.filter fun b => b != a, eccCount := s.eccCount + 1 }

/-- Correctable errors in the registers of a wave that satisfy a test are corrected and counted, in the sessions of its partition. -/
def State.correctRegs (s : State) (wid : Nat) (hit : Nat × Nat × Nat → Bool) : State :=
  match s.wave? wid with
  | none => s
  | some w =>
    let n := (w.eccSoft.filter hit).length
    if n = 0 then s else
    let vf := (s.ctx w.ctx).vf
    (s.ctxs.filter fun c => c.vf == vf).foldl (fun (s : State) c => s.count c.id 5 n)
      ({ s with eccCount := s.eccCount + n }.updWave wid fun w => { w with eccSoft := w.eccSoft.filter fun e => !(hit e) })

/-- The slice address of an access as it was named. -/
def State.placeOf (s : State) (t : Touch) : Nat :=
  if Config.windowBase ≤ t.at_ ∧ t.at_ < Config.sliceBase then
    match (s.wave? t.wave).bind fun w => s.group? w.gid with
    | some g => g.win + (t.at_ - Config.windowBase)
    | none => t.at_
  else t.at_

/-- The errors that an access meets as it reads: words of a slice, a tile, an operand buffer. -/
def State.correctTouch (s t : State) (y : Touch) : State :=
  match y.type with
  | 1 =>
    if y.kind = 1 ∨ y.kind = 3 then t else
    (t.eccSoft.filter fun a => overlap (s.placeOf y) y.n a 8).foldl State.correctWord t
  | 2 => if y.kind = 0 then t.correctRegs y.wave fun e => e.2.1 == 3 && e.2.2 == y.at_ else t
  | 3 => if y.kind = 0 then t.correctRegs y.wave fun e => e.2.1 == 4 && e.2.2 == y.at_ else t
  | _ => t

/-- Whether any correctable error stands. -/
def State.anySoft (s : State) : Bool := !s.eccSoft.isEmpty || s.waves.any fun w => !w.eccSoft.isEmpty

/-- The state after the correctable errors that a step met have been corrected and counted. -/
def State.corrected (s t : State) (x : Acted) : State :=
  if !t.anySoft then t else
  let t := match x, s.waves with
    | .instr i, w :: _ =>
      (match w.subs with
       | [] => t
       | q :: _ => t.correctRegs w.id fun e => (w.uses i).any fun u =>
           u.rd && u.file == e.2.1 && u.idx == e.2.2 && (u.file != 0 || (w.lanesRead q i u).contains e.1))
    | _, _ => t
  (touches s t x).foldl (fun (t : State) y => s.correctTouch t y) t

/-- The state after what a step performed has had its correctable errors corrected and the watchpoints have acted on it. -/
def State.watched (s t : State) (x : Acted) : State :=
  let t := s.corrected t x
  if t.watching then (touches s t x).foldl (fun (t : State) y => t.watch y) t else t

/-! ## Scan-out (R435) -/

/-- Whether a scanned unit belongs to the secure world (R418, R435). -/
def State.scanSecure (s : State) (a : W64) : Bool :=
  let core := 16 * bitsOf a.toNat 52 4 + bitsOf a.toNat 48 4
  let word := bitsOf a.toNat 0 46
  s.parts.any fun p => p.secure &&
    (if bitsOf a.toNat 56 8 = 0 then p.ownsBank core (bankOf (sliceOf core + 8 * word)) else p.ownsQuad core (bitsOf a.toNat 46 2))

/-- scandata (R435): the word of frozen state that scanaddr selects; zero outside a freeze and for a secure block.  The layouts of
the units but the slice are not in the manual: their words are free values (log 34). -/
def State.scandata (s : State) : W64 :=
  let a := (s.func pfNum).scanaddr
  let core := 16 * bitsOf a.toNat 52 4 + bitsOf a.toNat 48 4
  let at_ := sliceOf core + 8 * bitsOf a.toNat 0 46
  if !s.frozen || s.scanSecure a then 0
  else if bitsOf a.toNat 56 8 = 0 ∧ bitsOf a.toNat 0 46 < 2 ^ 20 ∧ core < Config.cores then
    if s.eccBad.contains at_ then BitVec.allOnes 64 else BitVec.ofNat 64 (s.slice.num at_ 8)
  else Config.scanWord a s.freeCtr

end Sys2Proof.Machine
end

