-- ==== Sys2Proof/Machine/Preempt.lean ====
section
/-! DEFINITION. Pre-emption, saving, killing and resuming a context (R218, R232 to R234, R258, R265, R273, R302, R333, R368,
R392, R402, R403), a virtual-function reset (R274), and the migration of a group (R404, R405). -/

namespace Sys2Proof.Machine

/-! ## Killing (R232, R402, R403) -/

/-- A command of the function that was still moving a group of the context ends: its group cannot move now (R404). -/
def State.dropMoves (s : State) (cid : Nat) : State :=
  let c := s.ctx cid
  if s.moves.any fun m => m.ctx == cid && decide (m.stage < 2) then
    { s with moves := s.moves.filter fun m => m.ctx != cid || m.stage == 2 }.cmdDone c.vf 4 0
  else s

/-- Step 3 (R232): CONTEXT_KILLED is reported and everything of the context is discarded; memory keeps what it holds. -/
def State.killCtx (s : State) (c : Context) (value : Option Nat) : State :=
  ((s.dropMoves c.id).report c.id { code := 0xA0, source := 7, value := value }).dropCtx c.id

/-- A context ends its pre-emption killed: the status names CONTEXT_KILLED (R402). -/
def State.killed (s : State) (c : Context) (value : Option Nat) : State := (s.killCtx c value).cmdDone c.vf 0 0xA0

/-- kill (R402): step 3 at once. -/
def State.doKill (s : State) (vf : Nat) (slot : W64) : CmdResult :=
  s.onSlot vf slot fun c => (some (0, 0xA0), s.killCtx c none)

/-- KILL (R402). -/
def execKill (vf : Nat) (slot : W64) (s : State) : Out := .next (s.command vf 0x04 [slot] fun s => s.doKill vf slot)

/-- KILL_TIMER_EXPIRY (R232). The second timer expires in step 2. -/
def execKillTimerExpiry (ctx : Nat) (s : State) : Out :=
  .next (
    match s.ctxs.find? fun c => c.id == ctx with
    | some c => if c.halting then s.killed c none else s
    | none => s)

/-! ## Steps 1 and 2 (R232, R402) -/

/-- preempt (R402, R403): step 1 begins; a context already in step 1 or 2 is left alone. -/
def State.doPreempt (s : State) (vf : Nat) (slot : W64) : CmdResult :=
  s.onSlot vf slot fun c =>
    if c.pre = .none then cmdOk (s.updCtx c.id fun c => { c with pre := .soft s.elapsed }) else cmdOk s

/-- PREEMPT (R402). -/
def execPreempt (vf : Nat) (slot : W64) (s : State) : Out := .next (s.command vf 0x03 [slot] fun s => s.doPreempt vf slot)

/-- Break every open latch that a wave of a list has entered: each such wave takes JOINT_BROKEN (R232, R302).  The rules name no
breaking wave where the members still to come have ended: `kTRAPVAL` is a free value (log 19). -/
def State.breakEntered (s : State) (ids : List Nat) : State :=
  let hit := fun (l : Latch) => l.entered.any fun e => ids.contains e.wave
  let waves := (s.groups.flatMap (·.latches)).filter hit |>.flatMap fun l => l.entered.map (·.wave)
  let s := { s with groups := s.groups.map fun g => { g with latches := g.latches.filter fun l => !(hit l) } }
  waves.foldl (fun s h =>
    match s.wave? h with
    | none => s
    | some v =>
      let f := s.free
      f.2.faultOne h v.waiting.1 0x50 v.waiting.2 f.1) s

/-- Withdraw the checks of task waves that wait for free frames: their `waitp` issues again (R218, R114). -/
def State.withdrawChecks (s : State) (ids : List Nat) : State :=
  let hit := fun (a : Access) => ids.contains a.wave && a.isWaitp && s.frameStall a
  let back := fun (w : Wave) => { w with
    subs := w.subs.map fun q =>
      match q.st with
      | .atHome acc => if s.flight.any fun a => a.id == acc && hit a then { q with st := .ready } else q
      | _ => q }
  { s with
    flight := s.flight.filter fun a => !(hit a)
    waves := updWhere (fun w => ids.contains w.id) back s.waves }

/-- Withdraw the `tkpass` of waves whose group's drain waits for its turn, its scatters or the host: it issues again, and the order goes on
from there (R271 to R273; DEDUCED, log 102). -/
def State.withdrawPasses (s : State) (ids : List Nat) : State :=
  let hit := fun (a : Access) => ids.contains a.wave && a.kind == .tkpass && (s.wave? a.wave).any fun w =>
    let c := s.ctx w.ctx
    c.r.det && a.units.any fun u => u.addr == c.r.ticket && (s.groupOf w).any fun g =>
      !g.passed && (!(w.holdsTicket (s.slice.num u.addr 8)) || s.scatterHeld g || s.isFrozen g)
  let gone := (s.flight.filter hit).map (·.id)
  let free := fun (w : Wave) => match w.wait with
    | .home acc => if gone.contains acc then { w with wait := .none } else w
    | _ => w
  { s with
    flight := s.flight.filter fun a => !(gone.contains a.id)
    waves := s.waves.map free }

/-- Halt waves at the instruction level: the joint latches that they have entered or have still to enter break, and their waits are
withdrawn (R232, R293). -/
def State.haltWaves (s : State) (ids : List Nat) : State :=
  let s := s.breakLatches (ids.length + s.waves.length + 1) (ids.map fun i => (i, none))
  (((s.breakEntered ids).withdrawChecks ids).withdrawPasses ids).withdraw ids Wave.halted

/-- GRACE_TIMER_EXPIRY (R232). Step 2: the context's waves halt at the instruction level. -/
def execGraceTimerExpiry (ctx : Nat) (s : State) : Out :=
  .next (
    match s.ctxs.find? fun c => c.id == ctx with
    | some c =>
      (match c.pre with
       | .soft _ =>
         (s.haltWaves ((s.waves.filter fun w => w.ctx == ctx).map (·.id))).updCtx ctx fun c => { c with pre := .halting s.elapsed }
       | _ => s)
    | none => s)

/-! ## Saving (R233, R403) -/

/-- Whether an access in flight must be performed before the halt is over (R195): not what a drain buffer holds, nor a reduction whose
packet has still to be sent, nor the check of a `barb` that waits for free frames, which are saved (R265, R273, R218). -/
def State.mustLand (s : State) (a : Access) : Bool :=
  !a.finished && a.kind != .drained && !a.kind.isRed && !(s.frameStall a && !a.isWaitp)

/-- Whether what step 2 lets complete is complete (R195, R218, R258, R302, R333, R392): accesses, matrix work, byte counts, sent
packets, counter messages, record control, the sectors in flight, and streams that `svclr` has stopped. -/
def State.drained (s : State) (cid : Nat) : Bool :=
  let c := s.ctx cid
  !(s.flight.any fun a => a.ctx == cid && s.mustLand a)
    && !(s.mats.any fun m => m.by_.ctx == cid) && !(s.landings.any fun l => l.ctx == cid)
    && !(s.red.any fun e => e.ctx == cid && e.sent) && !(s.ctrMsgs.any fun m => m.ctx == cid)
    && !(s.requests.any fun r => r.req.by_.ctx == cid && r.req.kind.completesFirst)
    && !(s.slip.any fun o => o.req.by_.ctx == cid && o.st == .running &&
          (o.req.kind.completesFirst || (List.range o.asked).any (s.inFlight c o)))
    && !(s.sieve.any fun o => o.req.by_.ctx == cid && o.st == .running && (o.req.kind.completesFirst || o.stop))
    && !(s.moves.any fun m => m.ctx == cid && m.stage == 1)

/-- Whether a context may be saved now: in step 1 once no wave of it runs, in step 2 once it has drained (R232). -/
def State.saveReady (s : State) (c : Context) : Bool :=
  (match c.pre with
   | .none => false
   | .soft _ => !(s.waves.any fun w => w.ctx == c.id && w.halt != .unhandled)
   | .halting _ => true) && s.drained c.id

/-- Whether nothing is left of a context: it ended in step 1 (R403). -/
def State.nothingLeft (s : State) (cid : Nat) : Bool :=
  !(s.ctxBusy cid) && !(s.groups.any fun g => g.ctx == cid) && !(s.tasks.any fun t => t.ctx == cid)
    && !(s.packets.any fun p => p.ctx == cid) && !(s.grids.any fun g => g.ctx == cid && !(g.allEnded))

/-- Every running copy of a context gets its progress record, with fsect all ones (R255, R258). -/
def State.haltSlip (s : State) (cid : Nat) : State :=
  (s.slip.filter fun o => o.req.by_.ctx == cid && o.st == .running).foldl (fun (s : State) o =>
    let p := s.writeProgress o (2 ^ 64 - 1)
    p.1.setSlip { o with progress := p.2 }) s

/-- The reductions that wait in some combiner entries: their `st` counts are over (R195). -/
def State.redAccesses (s : State) (f : Nat → Nat) (es : List RedEntry) : List Access :=
  (s.flight.filter fun a => a.kind.isRed && es.any fun e => e.upds.any fun u => u.acc == a.id).map fun (a : Access) =>
    { Access.relocate (f a.core) a with inSt := false }

/-- A Slip operation as it is saved, without its place (R233); what it names a core by goes through `f`. -/
def SlipOp.away (f : Nat → Nat) (o : SlipOp) : SlipOp := { o with req := o.req.relocate (f o.req.by_.core), die := 0, asked := 0 }
/-- A Sieve operation as it is saved: an `svbin` or `svcheck` that ran starts again from its first particle (R392). -/
def SieveOp.away (f : Nat → Nat) (o : SieveOp) : SieveOp :=
  let o := { o with req := o.req.relocate (f o.req.by_.core), die := 0, asked := 0 }
  if o.st = .running then { o with binning := ⟨[], [], false, false, []⟩, checked := 0, stale := 0 } else o
/-- A record request as it is saved. -/
def Request.away (f : Nat → Nat) (r : Request) : Request := { r with req := r.req.relocate (f r.req.by_.core) }
/-- A wave as it is saved: on no core, quadrant or slot (R233). -/
def Wave.away (f : Nat → Nat) (w : Wave) : Wave := { w with core := f w.core, quad := 0, slot := 0 }

/-- What a group and its queues leave, under a number (R233). -/
def State.limboOf (s : State) (g : Group) (id : Nat) : Limbo :=
  let waves := s.waves.filter fun w => !w.task && w.gid == g.id
  let mine := fun (ow : Owner) => ow == Owner.group g.id
  let none_ := fun (_ : Nat) => 0
  let red := s.red.filter fun e => e.ctx == g.ctx && mine e.owner
  { id := id
    ctx := g.ctx
    group := some ({ g with core := 0, drain := g.drain.map DrainEntry.unasked }, s.slice.cut g.win g.winLen, s.slice.cut g.spill g.spillLen)
    waves := waves.map (Wave.away none_)
    flight := ((s.flight.filter fun a => a.kind == .drained && waves.any fun w => w.id == a.wave).map (Access.relocate 0)) ++ s.redAccesses none_ red
    red := red.map (RedEntry.relocate 0)
    slip := (s.slip.filter fun o => o.req.by_.ctx == g.ctx && mine o.req.owner).map (SlipOp.away none_)
    sieve := (s.sieve.filter fun o => o.req.by_.ctx == g.ctx && mine o.req.owner).map (SieveOp.away none_)
    requests := (s.requests.filter fun r => r.req.by_.ctx == g.ctx && mine r.req.owner).map (Request.away none_) }

/-- A task wave under a number, with the check of a `barb` that waits for free frames (R218). -/
def State.limboTask (s : State) (f : Nat → Nat) (w : Wave) (id : Nat) : Limbo where
  id := id
  ctx := w.ctx
  group := none
  waves := [Wave.away f w]
  flight := (s.flight.filter fun a => a.wave == w.id && s.frameStall a).map (Access.relocate 0)
  red := []
  slip := []
  sieve := []
  requests := []

/-- Numbers for a list of things. -/
def State.number {α : Type} (s : State) (l : List α) : List (α × Nat) × State :=
  (l.zip ((List.range l.length).map fun i => s.nextId + i), { s with nextId := s.nextId + l.length })

/-- The core of an owner of queues, if it is one. -/
def Owner.core? : Owner → Option Nat
  | .core c => some c
  | .group _ => none

/-- The cores on which a context has task waves and what they left, in the order in which they come up; each stands in the saved state as
its place in this list (R233). -/
def State.taskCores (s : State) (cid : Nat) : List Nat :=
  let own := fun (r : EngReq) => if r.by_.ctx == cid then r.owner.core? else none
  (((s.waves.filter fun w => w.ctx == cid && w.task).map (·.core))
    ++ ((s.tasks.filter fun t => t.ctx == cid && t.frame.isSome).map (·.core))
    ++ ((s.red.filter fun e => e.ctx == cid).filterMap fun e => e.owner.core?)
    ++ (s.slip.filterMap fun o => own o.req) ++ (s.sieve.filterMap fun o => own o.req) ++ (s.requests.filterMap fun r => own r.req)).eraseDups

/-- A walk as it is saved or resumed: what it names a core by goes through `f` (R368). -/
def Trace.walkOn (f : Nat → Nat) (t : Trace) : Trace :=
  { t with walk := t.walk.map fun k => { k with by_ := { k.by_ with core := f k.by_.core } } }

/-- The saved form of a context (R233), by logical identity: its groups under the names of their limbo, its task waves under the numbers
of their cores. -/
def State.savedOf (s : State) (c : Context) (len : Nat) : Saved × State :=
  let gs := s.number (s.groups.filter fun g => g.ctx == c.id)
  let ws := gs.2.number (s.waves.filter fun w => w.ctx == c.id && w.task)
  let s := ws.2
  let f := fun (a : Nat) => gs.1.foldl (fun a e => moveAddr e.1.win e.1.winLen (limboBase e.2) a) a
  let t := (s.rebase c.id f).rebaseFlight c.id f
  let cores := s.taskCores c.id
  let name := fun (k : Nat) => cores.idxOf k
  let core := fun (r : EngReq) => r.by_.ctx == c.id && r.owner.core?.isSome
  let held := fun (g : Group) => (t.group? g.id).getD g
  let tasks := t.tasks.filter fun x => x.ctx == c.id
  let red := t.red.filter fun e => e.ctx == c.id && e.owner.core?.isSome
  let cx := t.ctx c.id
  ({ save := c.r.save
     len := len
     ctx := { cx with trace := cx.trace.walkOn name }
     lhead := (s.func c.vf).lhead.get c.slot
     ltail := (s.func c.vf).ltail.get c.slot
     drainWord := if c.r.det then s.slice.bytes c.r.ticket 8 else []
     grids := s.grids.filter fun g => g.ctx == c.id
     limbo := (s.limbo.filter fun l => l.ctx == c.id).map (fun l => l.rebase f)
       ++ (gs.1.map fun e => t.limboOf (held e.1) e.2)
       ++ ws.1.map fun e => t.limboTask name ((t.wave? e.1.id).getD e.1) e.2
     frames := tasks.filterMap fun x => x.frame.map fun a => (x.id, s.slice.cut a 256)
     flight := t.redAccesses name red
     red := red.map fun e => RedEntry.relocate (name e.core) e
     slip := (s.slip.filter fun o => core o.req).map (SlipOp.away name)
     sieve := (s.sieve.filter fun o => core o.req).map (SieveOp.away name)
     requests := (s.requests.filter fun r => core r.req).map (Request.away name)
     tasks := tasks.map fun (x : Task) => { x with core := if x.frame.isSome then name x.core else 0 }
     packets := (s.packets.filter fun p => p.ctx == c.id).map fun (p : WlPacket) => { p with die := 0 } }, s)

/-- CONTEXT_SAVE_COMPLETE (R402, R403, R431). The context is saved and leaves the module, with the save area's length, which is the
K9's (a free value, log 35), or is killed where its save area is too small; the status is written and the interrupt raised. -/
def execContextSaveComplete (ctx : Nat) (s : State) : Out :=
  .next (
    match s.ctxs.find? fun c => c.id == ctx with
    | none => s
    | some c =>
      if !(s.saveReady c) then s else
      let s := (s.dropMoves ctx).writeCounts c
      let f := s.free
      let len := if s.nothingLeft ctx then 0 else f.1.toNat
      if c.r.savelen < len then f.2.killed c (some 1) else
      let x := (f.2.haltSlip ctx).savedOf c len
      ({ x.2 with saved := x.2.saved ++ [x.1] }.dropCtx ctx |>.updFunc c.vf fun f => { f with savedLen := BitVec.ofNat 64 len }).cmdDone
        c.vf 0 0)

/-! ## Resuming (R234, R333, R392) -/

/-- The state of a saved task as it comes back (R333): bins are gone, and what had entered one is ready again. -/
def TaskState.resumed : TaskState → TaskState
  | .held => .held
  | .spilled => .spilled
  | .waiting obj phase => .waiting obj phase
  | _ => .ready

/-- The place of a saved continuation frame in a partition (R232, R333): where it was, when that is a free frame of one of the partition's
cores, and else the lowest free frame of its core `core`, or of the next one that has any. -/
def State.framePlace (s : State) (c : Context) (cores : List Nat) (core a : Nat) : Option (Nat × Nat) :=
  let at_ := homeCore a
  let i := (a - c.frameAddr at_ 0) / 256
  if inSlice a && cores.contains at_ && decide (c.frameAddr at_ i = a) && decide (i < c.r.frames) && s.owns c a
      && !(s.tasks.any fun t => t.ctx == c.id && t.frame == some a) then some (at_, a)
  else
    let n := max 1 cores.length
    (List.range n).findSome? fun k =>
      let core := cores.getD ((cores.idxOf core + k) % n) 0
      ((s.framesFree c.id core 1).head?).map fun a => (core, a)

/-- A saved task comes to a core: a continuation with its frame, and the tasks of the pool spread over the cores (R333). -/
def State.resumeTask (s : State) (x : Saved) (cores : List Nat) (i : Nat) (t : Task) : Option State :=
  let c := s.ctx t.ctx
  let n := max 1 cores.length
  let t := { t with st := t.st.resumed }
  match t.frame with
  | some a =>
    (s.framePlace c cores (cores.getD (t.core % n) 0) a).map fun e =>
      let bytes := ((x.frames.find? fun b => b.1 == t.id).map (·.2)).getD []
      { s with slice := s.slice.paste e.2 256 bytes, tasks := s.tasks ++ [{ t with core := e.1, frame := some e.2 }] }
  | none =>
    ((List.range n).findSome? fun k =>
        let core := cores.getD ((i + k) % n) 0
        ((s.poolFree t.ctx core 1).head?).map fun e => (core, e)).map fun e =>
      { s with tasks := s.tasks ++ [{ t with core := e.1, entryIdx := e.2 }] }

/-- Saved tasks come to the cores of a partition, in order; none when the pools do not hold them. -/
def State.resumeTasks (x : Saved) (cores : List Nat) : Nat → List Task → State → Option State
  | _, [], s => some s
  | i, t :: l, s =>
    match s.resumeTask x cores i t with
    | none => none
    | some s => State.resumeTasks x cores (i + 1) l s

/-- Held tasks are registered again at their records: those of a record now at zero are ready, and it holds none (R333). -/
def State.reregister (s : State) (c : Context) (ts : List Task) : State :=
  ((ts.filterMap fun t => if t.st == .held then t.ref.ctr else none).eraseDups).foldl (fun (s : State) k =>
    if s.slice.num (c.ctrAddr k) 4 = 0 then s.releaseHeld c.id k else s) s

/-- A wave of a resumed context: the host's resume is the resume of one halted by an unhandled fault (R224, R271; DEDUCED, log 98). -/
def Wave.resumed (w : Wave) : Wave := { w with halt := if w.halt = .unhandled then .preempted else w.halt }

/-- The state of a context that comes back, before its tasks and queues (R234): its record, grids and waves, its drain ticket (R273), and
its compaction packets, which are sent (R333). -/
def State.resumeBase (s : State) (x : Saved) (c : Context) (cores : List Nat) (to_ : Nat → Nat) : State :=
  let back := fun (l : Limbo) =>
    let task := l.group.isNone
    { l with
      waves := l.waves.map fun (w : Wave) => { w.resumed with core := if task then to_ w.core else 0 } }
  { s with
    saved := s.saved.filter fun y => !(y.save == x.save && y.len == x.len)
    ctxs := s.ctxs ++ [c]
    grids := s.grids ++ x.grids
    limbo := s.limbo ++ x.limbo.map back
    flight := s.flight ++ x.flight.map fun (a : Access) => a.relocate (to_ a.core)
    slice := if s.owns c c.r.ticket then s.slice.setBytes c.r.ticket x.drainWord else s.slice
    packets := s.packets ++ x.packets.map fun (q : WlPacket) => { q with die := dieOf (cores.getD 0 0), sent := true } }

/-- The queues and combiner entries of task waves are on cores again (R258, R265, R392). -/
def State.resumeQueues (s : State) (x : Saved) (to_ : Nat → Nat) : State :=
  let s := x.slip.foldl (fun (s : State) o => s.restoreSlip (to_ o.req.by_.core) [o]) s
  let s := x.red.foldl (fun (s : State) e => s.restoreRed (to_ e.core) [e]) s
  let s := x.sieve.foldl (fun (s : State) o => s.restoreRequests (to_ o.req.by_.core) [o] []) s
  x.requests.foldl (fun (s : State) q => s.restoreRequests (to_ q.req.by_.core) [] [q]) s

/-- resume (R234): the context found by its save area is placed in a free slot of the function's partition; its record is read
again. -/
def State.doResume (s : State) (vf slot save len : Nat) : CmdResult :=
  if 16 ≤ slot then cmdBad s 2
  else if (s.ctxAt vf slot).isSome then cmdBad s 4
  else
    match s.saved.find? (fun x => x.save == save && x.len == len), s.part? vf with
    | some x, some p =>
      (match s.readCtxRec vf slot x.ctx.recAddr with
       | none => cmdBad s 2
       | some r =>
         let cores := p.cores
         let to_ := fun (k : Nat) => cores.getD (k % max 1 cores.length) 0
         let c := { x.ctx with vf := vf, slot := slot, r := r, pre := .none, trace := x.ctx.trace.walkOn to_ }
         let c := { c with jobTable := s.readJobTable c }
         match State.resumeTasks x cores 0 x.tasks (s.resumeBase x c cores to_) with
         | none => cmdBad s 2
         | some t =>
           let t := (t.resumeQueues x to_).reregister c x.tasks
           let t := ((x.tasks.filterMap fun k => match k.st with
             | .waiting obj _ => some obj
             | _ => none).eraseDups).foldl State.linkFrames t
           let t := cores.foldl (fun (t : State) k => t.syncPool c.id k) t
           cmdOk (t.updFunc vf fun f => { f with
             lhead := f.lhead.set slot x.lhead
             ltail := f.ltail.set slot x.ltail }))
    | _, _ => cmdBad s 2

/-- RESUME (R234). -/
def execResume (vf : Nat) (slot save len : W64) (s : State) : Out :=
  .next (s.command vf 0x05 [slot, save, len] fun s => s.doResume vf slot.toNat save.toNat len.toNat)

/-! ## Virtual-function reset (R274) -/

/-- The report that the reset log gets for an atomic scatter in progress (R227, R274). -/
def SlipOp.resetRep (o : SlipOp) (tick seq : Nat) : List Byte :=
  Rep.bytes { code := 0xA2, source := 1, queue := o.req.by_.queueField o.die o.req.queue, issuer := o.req.by_.ident, pc := o.req.by_.pc,
              address := o.req.op 1, value := o.applied } 0 tick seq

/-- Write one entry of a function's reset log (R409). -/
def State.resetEntry (vf : Nat) (s : State) (o : SlipOp) : State :=
  let f := s.func vf
  let n := f.resetlen.toNat
  if n = 0 then s else
  let mem := s.hostMem.setBytes (f.resetlog.toNat + 64 * (f.resetseq.toNat % n)) (o.resetRep s.tick (f.resetseq.toNat % 2 ^ 32))
  { s with hostMem := mem }.updFunc vf fun f => { f with resetseq := f.resetseq + 1 }

/-- What a saved group of a resumed context holds after its function's reset (R274). -/
def Limbo.stopped (l : Limbo) : Limbo :=
  { l with
    group := l.group.map fun e => ({ e.1 with drain := [] }, e.2)
    flight := l.flight.filter fun a => a.kind != .drained && !a.kind.isRed
    slip := []
    red := [] }

/-- VF_RESET (R274). The partition's Slip queues, combiners and drain buffers stop at once, those of groups that wait for room after a
resume with them; for each atomic scatter in progress one report goes to the reset log. -/
def execVfReset (vf : Nat) (s : State) : Out :=
  .next (
    let mine := fun (cid : Nat) => (s.ctx cid).vf == vf && s.ctxs.any fun c => c.id == cid
    let slips := (s.slip ++ s.limbo.flatMap (·.slip)).filter fun o => mine o.req.by_.ctx
    let reds := s.red.filter fun e => mine e.ctx && !e.sent
    let cut := slips.filter fun o => o.req.kind == .cps && o.req.flag && o.st != .queued
    let s := cut.foldl (State.resetEntry vf) s
    let ids := slips.map (·.id) ++ reds.map (·.id) ++ (s.groups.filter fun g => mine g.ctx).map (·.id)
    { s with
      slip := s.slip.filter fun o => !(slips.any fun x => x.id == o.id)
      red := s.red.filter fun e => !(reds.any fun x => x.id == e.id)
      flight := (s.flight.filter fun (a : Access) => !(a.kind == AccKind.drained && mine a.ctx)).filter fun (a : Access) =>
        !(a.kind.isRed && reds.any fun e => e.upds.any fun u => u.acc == a.id)
      groups := updWhere (fun g => mine g.ctx) (fun g => { g with drain := [] }) s.groups
      limbo := updWhere (fun l => mine l.ctx) Limbo.stopped s.limbo
      transfers := s.transfers.filter fun t => !(ids.contains t.op) }.dropFlits fun f => ids.contains f.op)

/-! ## Migration (R404, R405) -/

/-- The resident group of a context with a logical index whose launch allows migration. -/
def State.movable (s : State) (cid index : Nat) : Option Group :=
  s.groups.find? fun g => g.ctx == cid && g.index == index && s.grids.any fun x => x.id == g.grid && x.migratable

/-- migrate (R404): the command runs until the group's waves go on at the new core. -/
def State.doMigrate (s : State) (vf : Nat) (slot group core : W64) : CmdResult :=
  s.onSlot vf slot fun c =>
    let ok := (s.part? vf).any fun p => p.cores.contains core.toNat
    match s.movable c.id group.toNat with
    | none => cmdBad s 4
    | some g =>
      if !ok || g.core == core.toNat then cmdBad s 2
      else if c.pre ≠ .none || s.moves.any fun m => m.gid == g.id then cmdBad s 4
      else
        let f := s.fresh
        (none, { f.2 with moves := f.2.moves ++ [{ id := f.1, ctx := c.id, gid := g.id, fromCore := g.core, oldWin := g.win,
                                                   winLen := g.winLen, toCore := core.toNat, newWin := 0, newSpill := 0, stage := 0, since := 0 }] })

/-- MIGRATE (R404). -/
def execMigrate (vf : Nat) (slot group core : W64) (s : State) : Out :=
  .next (s.command vf 0x09 [slot, group, core] fun s => s.doMigrate vf slot group core)

/-- Replace a move. -/
def State.setMove (s : State) (m : Move) : State := { s with moves := updWhere (fun x => x.id == m.id) (fun _ => m) s.moves }

/-- The grid waves of a group. -/
def State.groupWaves (s : State) (gid : Nat) : List Wave := s.waves.filter fun w => !w.task && w.gid == gid

/-- The state with a group's waves at a new core, its reservations laid there; none where the core has no room. -/
def State.waveMoved (s : State) (p : Partition) (m : Move) : Option State :=
  let ws := s.groupWaves m.gid
  State.placeWaves p m.toCore ws { s with waves := s.waves.filter fun w => w.task || w.gid != m.gid }

/-- Step 1 (R404): the group halts once the new core has room for it and the old core a free entry of its 16; its Slip queues come to the
new core's die. -/
def State.moveHalt (s : State) (m : Move) (g : Group) (p : Partition) : State :=
  let c := s.ctx m.ctx
  let entries := (s.moves.filter fun x => x.fromCore == m.fromCore && x.stage != 0).length
  match s.placeGroup c m.toCore g.winLen g.spillLen, s.waveMoved p m with
  | some at_, some _ =>
    if 16 ≤ entries || c.pre ≠ .none then s
    else
      let s := (s.haltWaves ((s.groupWaves m.gid).map (·.id))).setMove { m with newWin := at_.1, newSpill := at_.2, stage := 1 }
      { s with slip := updWhere (fun o => o.req.owner == Owner.group g.id) (fun o => { o with die := dieOf m.toCore }) s.slip }
  | _, _ => s

/-- Steps 3 and 4 (R404): once the halted waves have drained, the window part and the spill part move, and the waves go on at the
new core; what is in flight towards the old range is forwarded. -/
def State.moveGroup (s : State) (m : Move) (g : Group) (p : Partition) : State :=
  let ws := s.groupWaves m.gid
  let busy := (s.flight.any fun a => a.kind != .drained && !a.finished && ws.any fun w => w.id == a.wave)
    || s.mats.any fun x => ws.any fun w => w.id == x.wave
  if busy then s else
  match s.waveMoved p m with
  | none => s
  | some t =>
    let f := moveAddr m.oldWin m.winLen m.newWin
    let mem := (s.slice.paste m.newWin g.winLen (s.slice.cut m.oldWin g.winLen)).paste m.newSpill g.spillLen
      (s.slice.cut g.spill g.spillLen)
    let t := { t with
      slice := mem
      transfers := t.transfers.filter fun x => x.op != g.id }.updGroup g.id fun g =>
        { g with core := m.toCore, win := m.newWin, spill := m.newSpill, drain := g.drain.map DrainEntry.unasked }
    ((t.rebase m.ctx f).setMove { m with stage := 2, since := s.nextId }).cmdDone (s.ctx m.ctx).vf 0 0

/-- MIGRATION_MOVE_COMPLETE (R404). A migration goes on from the wait before step 1 to its halt, and from there to its end. -/
def execMigrationMoveComplete (msg : Nat) (s : State) : Out :=
  .next (
    match s.moves.find? fun m => m.id == msg with
    | none => s
    | some m =>
      match s.group? m.gid, s.part? (s.ctx m.ctx).vf with
      | some g, some p => if m.stage = 0 then s.moveHalt m g p else if m.stage = 1 then s.moveGroup m g p else s
      | _, _ => if m.stage < 2 then s.dropMoves m.ctx else s)

/-- Whether an address lies in the old window range of a move. -/
def Move.covers (m : Move) (a : Nat) : Bool := decide (m.oldWin ≤ a) && decide (a < m.oldWin + m.winLen)

/-- Whether a range that an engine operation names lies in the old window range of a move: by its slice addresses or, for the group that
moved, through its window. -/
def Move.named (m : Move) (ow : Owner) (x : Nat × Nat) : Bool :=
  decide (0 < x.2) && (overlap x.1 x.2 m.oldWin m.winLen || (ow == .group m.gid && overlap x.1 x.2 Config.windowBase m.winLen))

/-- The ranges that a Slip operation has still to read, write or count in (R240 to R250). -/
def State.slipNames (s : State) (o : SlipOp) : List (Nat × Nat) :=
  let f := s.foreseen o
  let left := (List.range f.total).filter fun k => !(f.done.contains k)
  (o.req.object, 32) :: f.heads ++ left.flatMap fun k => f.sectorRanges true k ++ f.sectorRanges false k

/-- Whether something in flight that was issued before the move is still addressed to its old window range (R405). -/
def State.refersTo (s : State) (m : Move) : Bool :=
  let before := fun (r : EngReq) => decide (r.by_.seq < m.since)
  (s.flight.any fun a => a.units.any fun u => !u.done && m.covers u.addr)
    || (s.landings.any fun l => m.covers l.obj) || (s.red.any fun e => m.covers e.addr)
    || (s.slip.any fun o => before o.req && (s.slipNames o).any (m.named o.req.owner))
    || (s.sieve.any fun o => before o.req &&
        ((o.req.object, 32) :: s.sieveRanges o true ++ s.sieveRanges o false).any (m.named o.req.owner))

/-- MIGRATION_FORWARD (R405). A write, a byte count or an arrival that has reached the old window range goes on to the new core, at
the same window offset; an entry with nothing left in flight is removed. -/
def execMigrationForward (msg : Nat) (s : State) : Out :=
  .next (
    let f := s.forwarded
    let s := { s with
      flight := updWhere (fun a => a.id == msg) (fun a => a.rebase f) s.flight
      landings := updWhere (fun l => l.id == msg) (fun l => { l with obj := f l.obj }) s.landings
      red := updWhere (fun e => e.id == msg) (fun e => e.rebase f) s.red }
    { s with moves := s.moves.filter fun m => !(m.id == msg && m.stage == 2 && !(s.refersTo m)) })

end Sys2Proof.Machine
end

