-- ==== Sys2Proof/Machine/Fabric.lean ====
section
/-! DEFINITION. The long-reach links and the job table (R414 to R418), firmware and attestation (R419, R420), bring-up, reset, power,
and errors (R421 to R424). -/

namespace Sys2Proof.Machine

/-! ## Links (R414, R416) -/

/-- Change a link. -/
def State.updLink (s : State) (n : Nat) (f : Link → Link) : State := { s with links := updWhere (fun l => l.num == n) f s.links }

/-- A flit sent once more. -/
def Flit.resent (f : Flit) : Flit := { f with sends := f.sends + 1 }

/-- FLIT_CRC_FAILURE (R414). A flit that fails its CRC is resent from the sender's replay buffer; it is neither lost nor delivered. -/
def execFlitCrcFailure (link seq : Nat) (s : State) : Out :=
  .next (s.updLink link fun l =>
    if l.st = .up then { l with replay := updWhere (fun f => f.seq == seq) Flit.resent l.replay } else l)

/-- LINK_ACK_TIMEOUT (R416). A link that acknowledges no flit for 1 ms is down and retrains; its traffic waits. -/
def execLinkAckTimeout (link : Nat) (s : State) : Out :=
  .next (s.updLink link fun l => if l.st = .up then { l with st := .retraining s.elapsed } else l)

/-- Whether a link retrains. -/
def Link.retrains (l : Link) : Bool :=
  match l.st with
  | .retraining _ => true
  | _ => false

/-- LINK_RETRAINED (R416). The link works again: the flits that it did not acknowledge are sent again, none twice delivered. -/
def execLinkRetrained (link : Nat) (s : State) : Out :=
  .next (s.updLink link fun l => if l.retrains then { l with st := .up, replay := l.replay.map Flit.resent } else l)

/-- A job table with every entry whose first hop is the link unreachable (R415, R416). -/
def cutEntries (link : Nat) (t : List W32) : List W32 :=
  t.map fun e => if bitsOf e.toNat 12 4 = link then e &&& ~~~0x10000 else e

/-- Whether an operation that has begun goes over a link: running, or stopped on a page fault. -/
def State.overLink (s : State) (link : Nat) (o : SlipOp) : Bool :=
  (o.req.remote (s.ctx o.req.by_.ctx).r).isSome && o.st != .queued && bitsOf (field o.desc 0 4) 12 4 == link

/-- RETRAIN_FAILURE (R416). The link is down: its entries become unreachable, PF vector 2 is raised, and every operation to those
modules is refused with value 11; bytes already performed stand. -/
def execRetrainFailure (link : Nat) (s : State) : Out :=
  .next (
    if !((s.link? link).any fun l => l.retrains) then s else
    let ops := s.slip.filter (s.overLink link)
    let s := { s with ctxs := s.ctxs.map fun (c : Context) => { c with jobTable := cutEntries link c.jobTable } }.updLink link fun l =>
      { l with st := .down, replay := [] }
    (ops.foldl (fun (s : State) o => s.slipRefuse o 0x80 0 (some 11)) s).interrupt pfNum 2)

/-- fabfence (R416): operations that begin from now on use the job table as it has been rewritten. -/
def State.doFabfence (s : State) (vf : Nat) (slot : W64) : CmdResult :=
  s.onSlot vf slot fun c => cmdOk (s.updCtx c.id fun c => { c with jobTable := s.readJobTable c })

/-- FABFENCE (R416). -/
def execFabfence (vf : Nat) (slot : W64) (s : State) : Out := .next (s.command vf 0x0B [slot] fun s => s.doFabfence vf slot)

/-- linkworld (R418): a link's world, 0 or 1 for secure. -/
def State.doLinkworld (s : State) (link world : W64) : CmdResult :=
  if 16 ≤ link.toNat ∨ 2 ≤ world.toNat then cmdBad s 2
  else cmdOk (s.updLink link.toNat fun l => { l with secure := decide (world = 1) })

/-- LINKWORLD (R418). -/
def execLinkworld (link world : W64) (s : State) : Out :=
  .next (s.command pfNum 0x24 [link, world] fun s => s.doLinkworld link world)

/-! ## Firmware and attestation (R419, R420) -/

/-- Whether an image passes the checks of R419. -/
def State.imageOk (s : State) (image : List Byte) : Bool :=
  Config.firmwareOk image && decide (s.svnFuse ≤ Config.firmwareVersion image)

/-- fwstage (R419): the image is written to the second slot and checked; a failed check returns status 2 and leaves the active
image. -/
def State.doFwstage (s : State) (addr len : Nat) : CmdResult :=
  let image := s.hostMem.bytes addr len
  if s.imageOk image then cmdOk { s with fwStaged := some image } else cmdBad { s with fwStaged := none } 2

/-- FWSTAGE (R419). -/
def execFwstage (addr len : W64) (s : State) : Out :=
  .next (s.command pfNum 0x22 [addr, len] fun s => s.doFwstage addr.toNat len.toNat)

/-- Bytes 0 to 255 of a quote (R420). -/
def State.quote (s : State) (fn : Nat) (nonce : List Byte) : List Byte :=
  let p := s.part? fn
  leBytes 8 1 ++ nonce ++ sha512 s.fwActive ++ leBytes 4 (Config.firmwareVersion s.fwActive)
    ++ leBytes 4 (if p.any fun p => p.secure then 1 else 0)
    ++ (match p with
        | some p => sha512 p.bytes
        | none => List.replicate 64 0)
    ++ leBytes 8 s.tick ++ List.replicate 40 0

/-- attest (R420): the quote of 768 bytes, its last 512 the signature, and the certificate after it, at the output address.  DEDUCED (log
36): both addresses are of the host bus. -/
def State.doAttest (s : State) (fn nonce out : Nat) : CmdResult :=
  let q := s.quote fn (s.hostMem.bytes nonce 64)
  cmdOk { s with hostMem := s.hostMem.setBytes out (q ++ leBytes 512 (Config.quoteSignature (sha512 q)).toNat ++ Config.identityCert) }

/-- ATTEST (R420). -/
def execAttest (fn : Nat) (nonce out : W64) (s : State) : Out :=
  .next (s.command fn 0x0A [nonce, out] fun s => s.doAttest fn nonce.toNat out.toNat)

/-! ## Bring-up and reset (R421, R422) -/

/-- The module after a reset (R422): every field at its Reset value; flash, fuses and the host's memory stand, and a staged image
runs (R419).  The model's own counters go on, so that a free value is never used twice, and its agenda too. -/
def State.resetAll (s : State) : State :=
  { State.reset with
    fwActive := s.fwStaged.getD s.fwActive
    svnFuse := s.svnFuse
    hostMem := s.hostMem
    nextId := s.nextId
    freeCtr := s.freeCtr
    agenda := s.agenda }

/-- MODULE_RESET (R422). -/
def execModuleReset (s : State) : Out := .next s.resetAll

/-- One step of bring-up (R419, R421): at step 2 the firmware is verified, and a first successful boot raises the fused counter; a
failed check leaves the module in recovery; at step 6 the module is ready. -/
def State.bringUp (s : State) : State :=
  if 6 ≤ s.bringup || s.recovery then s
  else if s.bringup = 1 then
    if s.imageOk s.fwActive then { s with bringup := 2, svnFuse := max s.svnFuse (Config.firmwareVersion s.fwActive) }
    else { s with recovery := true }
  else { s with bringup := s.bringup + 1, ready := decide (s.bringup = 5) }

/-- POWER_GOOD (R421). Power comes back after a power-off, and the module's bring-up goes on by one step. -/
def execPowerGood (s : State) : Out :=
  .next (if s.powered then s.bringUp else { s with powered := true }.bringUp)

/-! ## Power and cooling (R423) -/

/-- powercap (R423): 1,200 to 2,400 W. -/
def State.doPowercap (s : State) (watts : Nat) : CmdResult :=
  if 1200 ≤ watts ∧ watts ≤ 2400 then cmdOk { s with powerCap := watts } else cmdBad s 2

/-- POWERCAP (R423). -/
def execPowercap (watts : W64) (s : State) : Out := .next (s.command pfNum 0x23 [watts] fun s => s.doPowercap watts.toNat)

/-- THERMAL_THROTTLE (R423). The arithmetic clock falls in 47 MHz steps, to no less than 470 MHz; results do not change. -/
def execThermalThrottle (mhz : Nat) (s : State) : Out :=
  .next (if s.powered && decide (470 ≤ mhz) && decide (mhz < s.clockMhz) && decide ((940 - mhz) % 47 = 0) then { s with clockMhz := mhz } else s)

/-- THERMAL_TRIP (R423). At 110 °C the K9 raises PF vector 2 and will power off 10 ms later. -/
def execThermalTrip (s : State) : Out :=
  .next (if s.powered && s.tripAt.isNone then { s with tripAt := some s.elapsed }.interrupt pfNum 2 else s)

/-- TRIP_POWER_OFF (R422, R423). The module loses power. -/
def execTripPowerOff (s : State) : Out := .next (if s.tripAt.isSome then { s.resetAll with powered := false } else s)

/-! ## Errors (R424) -/

/-- PATROL_SCRUB (R424). Scrubbing reads a slice word and rewrites it corrected; a correctable error is counted. -/
def execPatrolScrub (addr : Nat) (s : State) : Out :=
  .next (if s.eccSoft.contains addr && !s.frozen then s.correctWord addr else s)

end Sys2Proof.Machine
end

