-- ==== Sys2Proof/Machine/Host.lean ====
section
/-! DEFINITION. The host interface: the registers of BAR0 (R409, R410, R427), and accesses through BAR2 and BAR4 (R408, R418,
R454). -/

namespace Sys2Proof.Machine

/-! ## Reading BAR0 (R409, R427, R434, R435) -/

/-- 8 bytes of the PF's partition record from an offset. -/
def Func.partWord (f : Func) (o : Nat) : W64 := BitVec.ofNat 64 (leNat ((List.range 8).map fun i => f.partRec.get (o + i)))

/-- The word of a watchpoint slot. -/
def Watch.word (x : Watch) (k : Nat) : W64 :=
  match k with
  | 0 => x.ctl
  | 1 => x.who
  | 2 => x.where_
  | _ => x.len

/-- A register of BAR0 at an offset, a multiple of 8 (R409, R427); zero where no register lies. -/
def State.bar0 (s : State) (fn off : Nat) : W64 :=
  let f := s.func fn
  let pf := fn == pfNum
  if off = 0x000 then
    BitVec.ofNat 64 ((if (s.part? fn).isSome then 1 else 0) + (if f.running then 2 else 0) + (if s.ready then 4 else 0))
  else if 0x040 ≤ off ∧ off < 0x080 then f.cmd.get ((off - 0x040) / 8)
  else if off = 0x088 then BitVec.ofNat 64 (f.status.toNat + 256 * f.detail.toNat + (if f.done then 65536 else 0))
  else if off = 0x090 then f.icause
  else if off = 0x098 then f.imask
  else if off = 0x0A0 then f.erraddr
  else if off = 0x0A8 then f.errcount
  else if off = 0x0B0 then f.resetlog
  else if off = 0x0B8 then f.resetlen
  else if off = 0x0C0 then f.resetseq
  else if off = 0x0C8 then f.apslot
  else if off = 0x0D0 then f.apbase
  else if 0x100 ≤ off ∧ off < 0x180 then f.ltail.get ((off - 0x100) / 8)
  else if 0x180 ≤ off ∧ off < 0x200 then f.lhead.get ((off - 0x180) / 8)
  else if pf && decide (0x200 ≤ off) && decide (off < 0x400) then f.partWord (off - 0x200)
  else if off = 0x400 then f.dctl
  else if off = 0x408 then f.dslot
  else if off = 0x410 then BitVec.ofNat 64 (s.bkhalt f)
  else if off = 0x420 then f.sring
  else if off = 0x428 then f.slen
  else if off = 0x430 then f.sint
  else if off = 0x438 then f.shead
  else if off = 0x440 then f.sess
  else if 0x480 ≤ off ∧ off < 0x500 then (f.watch.getD ((off - 0x480) / 32) ⟨0, 0, 0, 0⟩).word (off % 32 / 8)
  else if pf && off == 0x500 then f.freezetick
  else if pf && off == 0x508 then BitVec.ofNat 64 ((if s.frozen then 1 else 0) + (if s.freezeRefused then 2 else 0))
  else if pf && off == 0x600 then f.scanaddr
  else if pf && off == 0x608 then s.scandata
  else 0

/-- The host reads 8 bytes of BAR0: the value, or all ones where the access is refused (R408, R418). -/
def State.bar0Read (s : State) (fn off : Nat) : W64 × State :=
  if s.barBlocked fn then (BitVec.allOnes 64, s.hostRefuse fn off) else (s.bar0 fn off, s)

/-! ## Writing BAR0 (R409, R410, R427) -/

/-- The command that a function's block holds (R410): an opcode in bytes 0 and 1, zeros, and operands. -/
def State.blockCommand (s : State) (fn : Nat) : CmdResult :=
  let f := s.func fn
  let op := fun k => f.cmd.get k
  match (op 0).toNat with
  | 0x01 => s.doCtxcreate fn (op 1).toNat (op 2).toNat
  | 0x02 => s.doCtxdestroy fn (op 1)
  | 0x03 => s.doPreempt fn (op 1)
  | 0x04 => s.doKill fn (op 1)
  | 0x05 => s.doResume fn (op 1).toNat (op 2).toNat (op 3).toNat
  | 0x06 => s.doInvalidate fn (op 1) (op 2) (op 3)
  | 0x07 => s.doQresume fn (op 1) (op 2) (op 3) (op 4)
  | 0x08 => s.doClearmark fn (op 1) (op 2)
  | 0x09 => s.doMigrate fn (op 1) (op 2) (op 3)
  | 0x0A => s.doAttest fn (op 1).toNat (op 2).toNat
  | 0x0B => s.doFabfence fn (op 1)
  | 0x20 => s.doPartcreate
  | 0x21 => s.doPartdestroy (op 1).toNat
  | 0x22 => s.doFwstage (op 1).toNat (op 2).toNat
  | 0x23 => s.doPowercap (op 1).toNat
  | 0x24 => s.doLinkworld (op 1) (op 2)
  | _ => cmdBad s 2

/-- The doorbell (R409, R410). -/
def State.doorbell (s : State) (fn : Nat) : State :=
  s.runCommand fn (((s.func fn).cmd.get 0).toNat % 65536) fun s => s.blockCommand fn

/-- A launch-queue tail is written (R412): the doorbell of its context. -/
def State.putLtail (s : State) (fn slot : Nat) (tail : W64) : State := s.updFunc fn fun f => { f with ltail := f.ltail.set slot tail }

/-- Ones written to icause clear its bits (R409). -/
def State.putIcause (s : State) (fn : Nat) (val : W64) : State := s.updFunc fn fun f => { f with icause := f.icause &&& ~~~val }

/-- LTAIL (R412). -/
def execLtail (vf slot : Nat) (tail : W64) (s : State) : Out :=
  .next (if 16 ≤ slot then s else s.barAccess vf (0x100 + 8 * slot) fun s => s.putLtail vf slot tail)
/-- ICAUSE (R409). -/
def execIcause (fn : Nat) (val : W64) (s : State) : Out := .next (s.barAccess fn 0x090 fun s => s.putIcause fn val)

/-- Whether a record ring may lie at an address (R427): 64-byte aligned in the banks that the block may name.  DESIGN CHOICE (log 110):
zero, its Reset value, may be written again. -/
def State.ringPlaced (s : State) (fn : Nat) (ring : W64) : Bool :=
  decide (ring.toNat % 64 = 0) && (ring == 0 || s.blockOwns fn ring.toNat 64)

/-- Whether a scan address names a unit and a die of the module (R435). -/
def scanAddrOk (v : W64) : Bool := decide (bitsOf v.toNat 56 8 ≤ 6) && decide (bitsOf v.toNat 52 4 < 8)

/-- Whether a watchpoint's words keep their ranges (R432). -/
def Watch.ok (x : Watch) : Bool :=
  let v := x.where_.toNat
  decide (x.type ≤ 4) && decide (x.action ≤ 2) && decide (x.ctl.toNat < 2 ^ 13) && decide (x.len.toNat ≤ 2 ^ 32)
    && (match x.type with
        | 2 => decide (v < 2 ^ 14) && !(v.testBit 3)
        | 3 => decide (v < 2 ^ 22)
        | 4 => decide (v < 2 ^ 14) && !(v.testBit 7)
        | _ => true)

/-- A watchpoint with one word replaced. -/
def Watch.put (x : Watch) (k : Nat) (v : W64) : Watch :=
  match k with
  | 0 => { x with ctl := v }
  | 1 => { x with who := v }
  | 2 => { x with where_ := v }
  | _ => { x with len := v }

/-- Write a register when its value lies in its range; a write that does not is refused (R427). -/
def State.putIf (s : State) (fn off : Nat) (ok : Bool) (f : Func → Func) : State := if ok then s.updFunc fn f else s.hostRefuse fn off

/-- The host writes 8 bytes of BAR0 at an offset, a multiple of 8 (R409, R427): each register's own behaviour and range; a write to a
register that is read-only, or to no register, changes nothing.  DESIGN CHOICE (log 111): a write that puts apslot, apbase, resetlog or
resetlen out of its range, whose fate R409 does not state, is refused as R427 refuses one of the debug block: dropped, with erraddr and
errcount. -/
def State.putReg (s : State) (fn off : Nat) (v : W64) : State :=
  let n := v.toNat
  let f := s.func fn
  let pf := fn == pfNum
  if 0x040 ≤ off ∧ off < 0x080 then s.updFunc fn fun f => { f with cmd := f.cmd.set ((off - 0x040) / 8) v }
  else if off = 0x080 then s.doorbell fn
  else if off = 0x090 then s.putIcause fn v
  else if off = 0x098 then s.updFunc fn fun f => { f with imask := v }
  else if off = 0x0B0 then s.putIf fn off (decide (n % 64 = 0)) fun f => { f with resetlog := v }
  else if off = 0x0B8 then
    s.putIf fn off (n == 0 || (isPow2 n && decide (16 ≤ n) && decide (n ≤ 4096))) fun f => { f with resetlen := v }
  else if off = 0x0C8 then s.putIf fn off (decide (n < 16)) fun f => { f with apslot := v }
  else if off = 0x0D0 then s.putIf fn off (decide (n % 2 ^ 30 = 0) && inExt n) fun f => { f with apbase := v }
  else if 0x100 ≤ off ∧ off < 0x180 then s.putLtail fn ((off - 0x100) / 8) v
  else if pf && decide (0x200 ≤ off) && decide (off < 0x400) then
    s.updFunc fn fun f => { f with
      partRec := (List.range 8).foldl (fun (r : Regs 8) i => r.set (off - 0x200 + i) ((leBytes 8 n).getD i 0)) f.partRec }
  else if off = 0x400 then (if n < 16 then s.putDctl fn v else s.hostRefuse fn off)
  else if off = 0x408 then s.putIf fn off (decide (n < 16)) fun f => { f with dslot := v }
  else if off = 0x418 then s.release fn v
  else if off = 0x420 then s.putIf fn off (s.ringPlaced fn v) fun f => { f with sring := v }
  else if off = 0x428 then
    s.putIf fn off (n == 0 || (isPow2 n && decide (64 ≤ n) && decide (n ≤ 65536))) fun f => { f with slen := v }
  else if off = 0x430 then s.putIf fn off (decide (256 ≤ n) && decide (n ≤ 2 ^ 20)) fun f => { f with sint := v }
  else if off = 0x440 then s.putIf fn off (decide (n % 64 = 0) && (n == 0 || (inSlice n && inSlice (n + 127)))) fun f => { f with sess := v }
  else if 0x480 ≤ off ∧ off < 0x500 then
    let k := (off - 0x480) / 32
    let x := (f.watch.getD k ⟨0, 0, 0, 0⟩).put (off % 32 / 8) v
    s.putIf fn off x.ok fun f => { f with watch := f.watch.mapIdx fun j y => if j = k then x else y }
  else if pf && off == 0x500 then s.updFunc fn fun f => { f with freezetick := v }
  else if pf && off == 0x600 then s.putIf fn off (scanAddrOk v) fun f => { f with scanaddr := v }
  else s

/-- REGISTER_WRITE (R409, R427, R435). A frozen module takes the PF's scan address. -/
def execRegisterWrite (fn off : Nat) (val : W64) (s : State) : Out :=
  .next (
    if off % 8 ≠ 0 then s
    else if s.frozen && s.powered && fn == pfNum && off == 0x600 then s.putReg fn off val
    else s.barAccess fn off fun s => s.putReg fn off val)

/-! ## BAR2 and BAR4 (R408, R418, R454) -/

/-- The host's write to slice memory, performed at its home by a party at system scope (R65, R70). -/
def State.hostWrite (s : State) (fn a : Nat) (bs : List Byte) : State :=
  let c := s.ctxs.find? fun c => c.vf == fn && (List.range bs.length).any fun i => (c.bindingOf (a + i)).isSome
  match c with
  | some c => s.perform c.id .ofHost a bs
  | none => { s with slice := s.slice.setBytes a bs }

/-- Whether an access of 1 to 8 bytes through BAR2 is to banks that the function's partition owns, by a function that may (R408,
R418). -/
def State.bar2Owned (s : State) (fn a len : Nat) : Bool :=
  fn != pfNum && !(s.barBlocked fn) && (s.part? fn).any fun p => p.ownsAddr a && p.ownsAddr (a + len - 1)

/-- Whether a write touches a modifiable region of a live trace of the function's contexts (R345, R408). -/
def State.bar2Modifiable (s : State) (fn a len : Nat) : Bool := s.ctxs.any fun c => c.vf == fn && c.modifiable a len

/-- The value that a host read returns: the data, or all ones where it is refused (R408). -/
def State.hostData (s : State) (fn : Nat) (v : W64) : State := s.updFunc fn fun f => { f with rdata := v }

/-- Whether an access has a size that the link carries here: 1 to 8 bytes inside the 1 GiB window (R407). -/
def barSize (off len : Nat) : Bool := decide (1 ≤ len) && decide (len ≤ 8) && decide (off + len ≤ 2 ^ 30)

/-- HOST_BAR2_WRITE (R408). -/
def execHostBar2Write (fn off len : Nat) (val : W64) (s : State) : Out :=
  .next (
    let a := Config.sliceBase + off
    if !(s.answers fn) || !(barSize off len) then s
    else if s.bar2Owned fn a len && !(s.bar2Modifiable fn a len) then s.hostWrite fn a (leBytes len val.toNat)
    else s.hostRefuse fn a)

/-- The report of an uncorrectable word that the host reads (R226): to the fault queue of a context of the function.  DESIGN CHOICE (log
112): its first one; the data are those that the word holds, since none is marked. -/
def State.hostEcc (s : State) (fn a len : Nat) : State :=
  match s.eccBad.find? (fun e => overlap a len e 8), s.ctxs.find? fun c => c.vf == fn with
  | some e, some c => s.report c.id { code := 0x28, source := 6, address := max a e }
  | _, _ => s

/-- HOST_BAR2_READ (R408). -/
def execHostBar2Read (fn off len : Nat) (s : State) : Out :=
  .next (
    let a := Config.sliceBase + off
    if !(s.answers fn) || !(barSize off len) then s
    else if s.bar2Owned fn a len then (s.hostEcc fn a len).hostData fn (BitVec.ofNat 64 (s.slice.num a len))
    else (s.hostRefuse fn a).hostData fn (BitVec.allOnes 64))

/-- Where the bytes of an aperture access lie in external memory (R454); none where it is refused. -/
def State.aperture (s : State) (fn off len : Nat) (write : Bool) : Option (List Nat) :=
  let f := s.func fn
  if fn = pfNum || s.barBlocked fn then none else
  match s.ctxAt fn f.apslot.toNat with
  | none => none
  | some c =>
    (List.range len).mapM fun i =>
      match s.walk (s.homeDie c) c (f.apbase.toNat + off + i) with
      | some r => if write && !r.2.write then none else some r.1
      | none => none

/-- The translation unit that serves the aperture keeps the pages of an access (R9, R454). -/
def State.apertureKeep (s : State) (fn off len : Nat) : State :=
  let f := s.func fn
  match s.ctxAt fn f.apslot.toNat with
  | none => s
  | some c => [0, len - 1].foldl (fun (s : State) i => s.tlbFill (s.homeDie c) c (f.apbase.toNat + off + i)) s

/-- HOST_APERTURE_WRITE (R454). -/
def execHostApertureWrite (fn off len : Nat) (val : W64) (s : State) : Out :=
  .next (
    if !(s.answers fn) || !(barSize off len) then s else
    match s.aperture fn off len true with
    | some pas =>
      { s with ext := (pas.zip (leBytes len val.toNat)).foldl (fun (m : Memory) (x : Nat × Byte) => m.setByte x.1 x.2) s.ext }.apertureKeep fn off len
    | none => s.hostRefuse fn ((s.func fn).apbase.toNat + off))

/-- HOST_APERTURE_READ (R454). -/
def execHostApertureRead (fn off len : Nat) (s : State) : Out :=
  .next (
    if !(s.answers fn) || !(barSize off len) then s else
    match s.aperture fn off len false with
    | some pas => (s.hostData fn (BitVec.ofNat 64 (leNat (pas.map s.ext.byte)))).apertureKeep fn off len
    | none => (s.hostRefuse fn ((s.func fn).apbase.toNat + off)).hostData fn (BitVec.allOnes 64))

end Sys2Proof.Machine
end

