-- ==== Sys2Proof/Machine/Dispatch.lean ====
section
/-! DEFINITION. One arm for each instruction word and each event: the meaning of every row of the opcode table. -/

namespace Sys2Proof.Machine

/-- The effect of one instruction word of the head wave, or of one event. -/
def exec (i : Instr) (s : State) : Host.Outcome State Fault Refusal :=
  match i with
  | .nop => Sys2Proof.Machine.execNop s
  | .endq => Sys2Proof.Machine.execEndq s
  | .trap im => Sys2Proof.Machine.execTrap im s
  | .eret => Sys2Proof.Machine.execEret s
  | .bkpt im => Sys2Proof.Machine.execBkpt im s
  | .getk s1 k => Sys2Proof.Machine.execGetk s1 k s
  | .setk s1 k => Sys2Proof.Machine.execSetk s1 k s
  | .mode m a => Sys2Proof.Machine.execMode m a s
  | .modea m a b => Sys2Proof.Machine.execModea m a b s
  | .modem m a b => Sys2Proof.Machine.execModem m a b s
  | .xacq => Sys2Proof.Machine.execXacq s
  | .xrel => Sys2Proof.Machine.execXrel s
  | .yield => Sys2Proof.Machine.execYield s
  | .rejoin => Sys2Proof.Machine.execRejoin s
  | .fence k c => Sys2Proof.Machine.execFence k c s
  | .waitc l s1 c m => Sys2Proof.Machine.execWaitc l s1 c m s
  | .tick s1 => Sys2Proof.Machine.execTick s1 s
  | .jmp s1 => Sys2Proof.Machine.execJmp s1 s
  | .callr s1 => Sys2Proof.Machine.execCallr s1 s
  | .bra o => Sys2Proof.Machine.execBra o s
  | .brz r o => Sys2Proof.Machine.execBrz r o s
  | .brnz r o => Sys2Proof.Machine.execBrnz r o s
  | .brany r o => Sys2Proof.Machine.execBrany r o s
  | .brnone r o => Sys2Proof.Machine.execBrnone r o s
  | .brall r o => Sys2Proof.Machine.execBrall r o s
  | .call o => Sys2Proof.Machine.execCall o s
  | .sadd d a b => Sys2Proof.Machine.execSadd d a b s
  | .ssub d a b => Sys2Proof.Machine.execSsub d a b s
  | .smul d a b => Sys2Proof.Machine.execSmul d a b s
  | .smulh d a b => Sys2Proof.Machine.execSmulh d a b s
  | .smulhn d a b => Sys2Proof.Machine.execSmulhn d a b s
  | .sand d a b => Sys2Proof.Machine.execSand d a b s
  | .sor d a b => Sys2Proof.Machine.execSor d a b s
  | .sxor d a b => Sys2Proof.Machine.execSxor d a b s
  | .sandn d a b => Sys2Proof.Machine.execSandn d a b s
  | .sshl d a b => Sys2Proof.Machine.execSshl d a b s
  | .sshr d a b => Sys2Proof.Machine.execSshr d a b s
  | .ssra d a b => Sys2Proof.Machine.execSsra d a b s
  | .smin d a b => Sys2Proof.Machine.execSmin d a b s
  | .smax d a b => Sys2Proof.Machine.execSmax d a b s
  | .sminn d a b => Sys2Proof.Machine.execSminn d a b s
  | .smaxn d a b => Sys2Proof.Machine.execSmaxn d a b s
  | .sseq d a b => Sys2Proof.Machine.execSseq d a b s
  | .ssne d a b => Sys2Proof.Machine.execSsne d a b s
  | .sslt d a b => Sys2Proof.Machine.execSslt d a b s
  | .ssle d a b => Sys2Proof.Machine.execSsle d a b s
  | .ssltn d a b => Sys2Proof.Machine.execSsltn d a b s
  | .sslen d a b => Sys2Proof.Machine.execSslen d a b s
  | .sclz d a => Sys2Proof.Machine.execSclz d a s
  | .spopc d a => Sys2Proof.Machine.execSpopc d a s
  | .pand d a b => Sys2Proof.Machine.execPand d a b s
  | .por d a b => Sys2Proof.Machine.execPor d a b s
  | .pxor d a b => Sys2Proof.Machine.execPxor d a b s
  | .pandn d a b => Sys2Proof.Machine.execPandn d a b s
  | .pnot d a => Sys2Proof.Machine.execPnot d a s
  | .pmovs d a => Sys2Proof.Machine.execPmovs d a s
  | .smovp d a => Sys2Proof.Machine.execSmovp d a s
  | .pcnt d a b => Sys2Proof.Machine.execPcnt d a b s
  | .pfirst d a b => Sys2Proof.Machine.execPfirst d a b s
  | .saddi d a im => Sys2Proof.Machine.execSaddi d a im s
  | .sandi d a im => Sys2Proof.Machine.execSandi d a im s
  | .sori d a im => Sys2Proof.Machine.execSori d a im s
  | .sxori d a im => Sys2Proof.Machine.execSxori d a im s
  | .sshli d a n => Sys2Proof.Machine.execSshli d a n s
  | .sshri d a n => Sys2Proof.Machine.execSshri d a n s
  | .ssrai d a n => Sys2Proof.Machine.execSsrai d a n s
  | .smovi d p im => Sys2Proof.Machine.execSmovi d p im s
  | .sinsi d p im => Sys2Proof.Machine.execSinsi d p im s
  | .sseqi d a im => Sys2Proof.Machine.execSseqi d a im s
  | .sslti d a im => Sys2Proof.Machine.execSslti d a im s
  | .ssltni d a im => Sys2Proof.Machine.execSsltni d a im s
  | .vadd m d a b => Sys2Proof.Machine.execVadd m d a b s
  | .vsub m d a b => Sys2Proof.Machine.execVsub m d a b s
  | .vmul m d a b => Sys2Proof.Machine.execVmul m d a b s
  | .vmulh m d a b => Sys2Proof.Machine.execVmulh m d a b s
  | .vmad m d a b => Sys2Proof.Machine.execVmad m d a b s
  | .vand m d a b => Sys2Proof.Machine.execVand m d a b s
  | .vor m d a b => Sys2Proof.Machine.execVor m d a b s
  | .vxor m d a b => Sys2Proof.Machine.execVxor m d a b s
  | .vandn m d a b => Sys2Proof.Machine.execVandn m d a b s
  | .vshl m d a b => Sys2Proof.Machine.execVshl m d a b s
  | .vshr m d a b => Sys2Proof.Machine.execVshr m d a b s
  | .vsra m d a b => Sys2Proof.Machine.execVsra m d a b s
  | .vmin m d a b => Sys2Proof.Machine.execVmin m d a b s
  | .vmax m d a b => Sys2Proof.Machine.execVmax m d a b s
  | .vabs m d a => Sys2Proof.Machine.execVabs m d a s
  | .vclz m d a => Sys2Proof.Machine.execVclz m d a s
  | .vpopc m d a => Sys2Proof.Machine.execVpopc m d a s
  | .vsel m d a b => Sys2Proof.Machine.execVsel m d a b s
  | .vcmpeq m d a b => Sys2Proof.Machine.execVcmpeq m d a b s
  | .vcmpne m d a b => Sys2Proof.Machine.execVcmpne m d a b s
  | .vcmplt m d a b => Sys2Proof.Machine.execVcmplt m d a b s
  | .vcmple m d a b => Sys2Proof.Machine.execVcmple m d a b s
  | .vadds m d a b => Sys2Proof.Machine.execVadds m d a b s
  | .vsubs m d a b => Sys2Proof.Machine.execVsubs m d a b s
  | .vdot4 m d a b => Sys2Proof.Machine.execVdot4 m d a b s
  | .vdot8 m d a b => Sys2Proof.Machine.execVdot8 m d a b s
  | .vbfe m d a b => Sys2Proof.Machine.execVbfe m d a b s
  | .vbfi m d a b => Sys2Proof.Machine.execVbfi m d a b s
  | .vfadd m d a b => Sys2Proof.Machine.execVfadd m d a b s
  | .vfsub m d a b => Sys2Proof.Machine.execVfsub m d a b s
  | .vfmul m d a b => Sys2Proof.Machine.execVfmul m d a b s
  | .vfma m d a b => Sys2Proof.Machine.execVfma m d a b s
  | .vfmin m d a b => Sys2Proof.Machine.execVfmin m d a b s
  | .vfmax m d a b => Sys2Proof.Machine.execVfmax m d a b s
  | .vfneg m d a => Sys2Proof.Machine.execVfneg m d a s
  | .vfabs m d a => Sys2Proof.Machine.execVfabs m d a s
  | .vfcmpeq m d a b => Sys2Proof.Machine.execVfcmpeq m d a b s
  | .vfcmplt m d a b => Sys2Proof.Machine.execVfcmplt m d a b s
  | .vfcmple m d a b => Sys2Proof.Machine.execVfcmple m d a b s
  | .vfcmpun m d a b => Sys2Proof.Machine.execVfcmpun m d a b s
  | .vfrcp m d a => Sys2Proof.Machine.execVfrcp m d a s
  | .vfrsq m d a => Sys2Proof.Machine.execVfrsq m d a s
  | .vfexp2 m d a => Sys2Proof.Machine.execVfexp2 m d a s
  | .vflog2 m d a => Sys2Proof.Machine.execVflog2 m d a s
  | .vfdot4 m d a b => Sys2Proof.Machine.execVfdot4 m d a b s
  | .vfdot8 m d a b => Sys2Proof.Machine.execVfdot8 m d a b s
  | .vfscl m d a b => Sys2Proof.Machine.execVfscl m d a b s
  | .vfcvt m d a t => Sys2Proof.Machine.execVfcvt m d a t s
  | .vfpk4 m d a => Sys2Proof.Machine.execVfpk4 m d a s
  | .vfclass m d a => Sys2Proof.Machine.execVfclass m d a s
  | .vfrnd m d a => Sys2Proof.Machine.execVfrnd m d a s
  | .vmov m d a => Sys2Proof.Machine.execVmov m d a s
  | .vmovs m d a => Sys2Proof.Machine.execVmovs m d a s
  | .vrdlane m d a b => Sys2Proof.Machine.execVrdlane m d a b s
  | .vbcst m d a b => Sys2Proof.Machine.execVbcst m d a b s
  | .vshfl m d a b => Sys2Proof.Machine.execVshfl m d a b s
  | .vqswz m d a p => Sys2Proof.Machine.execVqswz m d a p s
  | .vqsum m d a => Sys2Proof.Machine.execVqsum m d a s
  | .vprfx m d a e => Sys2Proof.Machine.execVprfx m d a e s
  | .vcmpct m d a => Sys2Proof.Machine.execVcmpct m d a s
  | .vredadd m d a => Sys2Proof.Machine.execVredadd m d a s
  | .vredmin m d a => Sys2Proof.Machine.execVredmin m d a s
  | .vredmax m d a => Sys2Proof.Machine.execVredmax m d a s
  | .vlaneid m d => Sys2Proof.Machine.execVlaneid m d s
  | .vaddi m d a im => Sys2Proof.Machine.execVaddi m d a im s
  | .vandi m d a im => Sys2Proof.Machine.execVandi m d a im s
  | .vori m d a im => Sys2Proof.Machine.execVori m d a im s
  | .vxori m d a im => Sys2Proof.Machine.execVxori m d a im s
  | .vshli m d a n => Sys2Proof.Machine.execVshli m d a n s
  | .vshri m d a n => Sys2Proof.Machine.execVshri m d a n s
  | .vsrai m d a n => Sys2Proof.Machine.execVsrai m d a n s
  | .vmovi m d im => Sys2Proof.Machine.execVmovi m d im s
  | .vld m d b x c => Sys2Proof.Machine.execVld m d b x c s
  | .vld8 m d b x c => Sys2Proof.Machine.execVld8 m d b x c s
  | .vld16 m d b x c => Sys2Proof.Machine.execVld16 m d b x c s
  | .vld64 m d b x c => Sys2Proof.Machine.execVld64 m d b x c s
  | .vld128 m d b x c => Sys2Proof.Machine.execVld128 m d b x c s
  | .vst m d b x c => Sys2Proof.Machine.execVst m d b x c s
  | .vst8 m d b x c => Sys2Proof.Machine.execVst8 m d b x c s
  | .vst16 m d b x c => Sys2Proof.Machine.execVst16 m d b x c s
  | .vst64 m d b x c => Sys2Proof.Machine.execVst64 m d b x c s
  | .vst128 m d b x c => Sys2Proof.Machine.execVst128 m d b x c s
  | .vldm m d b x c => Sys2Proof.Machine.execVldm m d b x c s
  | .vstm m d b x c => Sys2Proof.Machine.execVstm m d b x c s
  | .sld d b m o => Sys2Proof.Machine.execSld d b m o s
  | .sld32 d b m o => Sys2Proof.Machine.execSld32 d b m o s
  | .sst d b m o => Sys2Proof.Machine.execSst d b m o s
  | .sst32 d b m o => Sys2Proof.Machine.execSst32 d b m o s
  | .sldm d b m o => Sys2Proof.Machine.execSldm d b m o s
  | .sstm d b m o => Sys2Proof.Machine.execSstm d b m o s
  | .scas d b m o => Sys2Proof.Machine.execScas d b m o s
  | .samo d b m o => Sys2Proof.Machine.execSamo d b m o s
  | .binit d b m o => Sys2Proof.Machine.execBinit d b m o s
  | .barv d b m o => Sys2Proof.Machine.execBarv d b m o s
  | .barb d b m o => Sys2Proof.Machine.execBarb d b m o s
  | .waitp d b m o => Sys2Proof.Machine.execWaitp d b m o s
  | .bphase d b m o => Sys2Proof.Machine.execBphase d b m o s
  | .bind d b m o => Sys2Proof.Machine.execBind d b m o s
  | .unbind d b m o => Sys2Proof.Machine.execUnbind d b m o s
  | .rgacq d b m o => Sys2Proof.Machine.execRgacq d b m o s
  | .rgrel b m o => Sys2Proof.Machine.execRgrel b m o s
  | .tkwait b m o => Sys2Proof.Machine.execTkwait b m o s
  | .tkpass b m o => Sys2Proof.Machine.execTkpass b m o s
  | .vaadd m d a b => Sys2Proof.Machine.execVaadd m d a b s
  | .vamin m d a b => Sys2Proof.Machine.execVamin m d a b s
  | .vamax m d a b => Sys2Proof.Machine.execVamax m d a b s
  | .vaand m d a b => Sys2Proof.Machine.execVaand m d a b s
  | .vaor m d a b => Sys2Proof.Machine.execVaor m d a b s
  | .vaxor m d a b => Sys2Proof.Machine.execVaxor m d a b s
  | .vaxch m d a b => Sys2Proof.Machine.execVaxch m d a b s
  | .vacas m d a b => Sys2Proof.Machine.execVacas m d a b s
  | .vafadd m d a b => Sys2Proof.Machine.execVafadd m d a b s
  | .vradd m a b => Sys2Proof.Machine.execVradd m a b s
  | .vrfadd m a b => Sys2Proof.Machine.execVrfadd m a b s
  | .vrmin m a b => Sys2Proof.Machine.execVrmin m a b s
  | .vrmax m a b => Sys2Proof.Machine.execVrmax m a b s
  | .vrx96 m a b => Sys2Proof.Machine.execVrx96 m a b s
  | .accz t m a r => Sys2Proof.Machine.execAccz t m a r s
  | .accza t m => Sys2Proof.Machine.execAccza t m s
  | .obres h m d => Sys2Proof.Machine.execObres h m d s
  | .obrel h m => Sys2Proof.Machine.execObrel h m s
  | .obld h c m s1 x => Sys2Proof.Machine.execObld h c m s1 x s
  | .obwin h m s1 => Sys2Proof.Machine.execObwin h m s1 s
  | .mma t a b m j g o v u => Sys2Proof.Machine.execMma t a b m j g o v u s
  | .mmac t a b m j h v u => Sys2Proof.Machine.execMmac t a b m j h v u s
  | .jset m s1 => Sys2Proof.Machine.execJset m s1 s
  | .accrd t d m p => Sys2Proof.Machine.execAccrd t d m p s
  | .accwr t a m p => Sys2Proof.Machine.execAccwr t a m p s
  | .accst t c g h m s1 x => Sys2Proof.Machine.execAccst t c g h m s1 x s
  | .accadd t u m => Sys2Proof.Machine.execAccadd t u m s
  | .sealm m d => Sys2Proof.Machine.execSealm m d s
  | .cpt a b c m x q => Sys2Proof.Machine.execCpt a b c m x q s
  | .cptt a b c m x q => Sys2Proof.Machine.execCptt a b c m x q s
  | .cpl a b c m q => Sys2Proof.Machine.execCpl a b c m q s
  | .cpg a b c m q => Sys2Proof.Machine.execCpg a b c m q s
  | .cps a b c m x q => Sys2Proof.Machine.execCps a b c m x q s
  | .wsig a b c m x q => Sys2Proof.Machine.execWsig a b c m x q s
  | .lrfl a m => Sys2Proof.Machine.execLrfl a m s
  | .lrins a m => Sys2Proof.Machine.execLrins a m s
  | .sealc a m => Sys2Proof.Machine.execSealc a m s
  | .qfence k m => Sys2Proof.Machine.execQfence k m s
  | .hgrd a b c m q => Sys2Proof.Machine.execHgrd a b c m q s
  | .spawn a b m p => Sys2Proof.Machine.execSpawn a b m p s
  | .spawnd a b m p => Sys2Proof.Machine.execSpawnd a b m p s
  | .dcinit a m => Sys2Proof.Machine.execDcinit a m s
  | .dcdec a m => Sys2Proof.Machine.execDcdec a m s
  | .wlpush a b m => Sys2Proof.Machine.execWlpush a b m s
  | .wlpull a b c m => Sys2Proof.Machine.execWlpull a b c m s
  | .quiesce a m => Sys2Proof.Machine.execQuiesce a m s
  | .glaunch a b m => Sys2Proof.Machine.execGlaunch a b m s
  | .trrec a b m => Sys2Proof.Machine.execTrrec a b m s
  | .trstop a m => Sys2Proof.Machine.execTrstop a m s
  | .propagate a b m => Sys2Proof.Machine.execPropagate a b m s
  | .mdecl a b m => Sys2Proof.Machine.execMdecl a b m s
  | .trdrop m => Sys2Proof.Machine.execTrdrop m s
  | .trstat a b m => Sys2Proof.Machine.execTrstat a b m s
  | .svgrid a b m => Sys2Proof.Machine.execSvgrid a b m s
  | .svbin a b m => Sys2Proof.Machine.execSvbin a b m s
  | .svpair a b c m f => Sys2Proof.Machine.execSvpair a b c m f s
  | .svpull a b c m => Sys2Proof.Machine.execSvpull a b c m s
  | .svstat a b m => Sys2Proof.Machine.execSvstat a b m s
  | .svcheck a b m => Sys2Proof.Machine.execSvcheck a b m s
  | .svclr a m => Sys2Proof.Machine.execSvclr a m s
  | .queueAccept wave => Sys2Proof.Machine.execQueueAccept wave s
  | .loadDataReturn acc unit back => Sys2Proof.Machine.execLoadDataReturn acc unit back s
  | .writePerformed acc unit => Sys2Proof.Machine.execWritePerformed acc unit s
  | .atomicAtHome acc unit => Sys2Proof.Machine.execAtomicAtHome acc unit s
  | .combinerHoldTimeout entry => Sys2Proof.Machine.execCombinerHoldTimeout entry s
  | .combinerPacketApply packet => Sys2Proof.Machine.execCombinerPacketApply packet s
  | .barrierArrivalApply acc => Sys2Proof.Machine.execBarrierArrivalApply acc s
  | .landedBytesApply landing => Sys2Proof.Machine.execLandedBytesApply landing s
  | .waitpCheck acc => Sys2Proof.Machine.execWaitpCheck acc s
  | .continuationEnqueue frame => Sys2Proof.Machine.execContinuationEnqueue frame s
  | .extendedBlockGrant quad => Sys2Proof.Machine.execExtendedBlockGrant quad s
  | .operandBufferGrant quad => Sys2Proof.Machine.execOperandBufferGrant quad s
  | .accumulatorTileGrant quad => Sys2Proof.Machine.execAccumulatorTileGrant quad s
  | .drainPass group => Sys2Proof.Machine.execDrainPass group s
  | .groupExitPass group => Sys2Proof.Machine.execGroupExitPass group s
  | .ticketHandover ctx => Sys2Proof.Machine.execTicketHandover ctx s
  | .vfReset vf => Sys2Proof.Machine.execVfReset vf s
  | .copyBegin op => Sys2Proof.Machine.execCopyBegin op s
  | .copySectorPerform op sector => Sys2Proof.Machine.execCopySectorPerform op sector s
  | .matrixOpPerform op => Sys2Proof.Machine.execMatrixOpPerform op s
  | .operandFillLand op target => Sys2Proof.Machine.execOperandFillLand op target s
  | .taskRegistration msg => Sys2Proof.Machine.execTaskRegistration msg s
  | .counterDecrement msg => Sys2Proof.Machine.execCounterDecrement msg s
  | .taskDispatch ctx core => Sys2Proof.Machine.execTaskDispatch ctx core s
  | .binTimerExpiry bin => Sys2Proof.Machine.execBinTimerExpiry bin s
  | .taskWaveLaunch bin quad => Sys2Proof.Machine.execTaskWaveLaunch bin quad s
  | .compactionTimeout packet => Sys2Proof.Machine.execCompactionTimeout packet s
  | .workListPacketWrite packet => Sys2Proof.Machine.execWorkListPacketWrite packet s
  | .terminationReport ctx => Sys2Proof.Machine.execTerminationReport ctx s
  | .groupStart grid => Sys2Proof.Machine.execGroupStart grid s
  | .launchPacketStart ctx => Sys2Proof.Machine.execLaunchPacketStart ctx s
  | .tracedAccessStep acc unit => Sys2Proof.Machine.execTracedAccessStep acc unit s
  | .rerunLaunch ctx => Sys2Proof.Machine.execRerunLaunch ctx s
  | .rerunEnd ctx => Sys2Proof.Machine.execRerunEnd ctx s
  | .sieveOpBegin op => Sys2Proof.Machine.execSieveOpBegin op s
  | .pairRecordWrite op => Sys2Proof.Machine.execPairRecordWrite op s
  | .sieveOpComplete op => Sys2Proof.Machine.execSieveOpComplete op s
  | .graceTimerExpiry ctx => Sys2Proof.Machine.execGraceTimerExpiry ctx s
  | .killTimerExpiry ctx => Sys2Proof.Machine.execKillTimerExpiry ctx s
  | .windowRefill core => Sys2Proof.Machine.execWindowRefill core s
  | .portGrant core => Sys2Proof.Machine.execPortGrant core s
  | .migrationForward msg => Sys2Proof.Machine.execMigrationForward msg s
  | .ctxcreate vf slot record => Sys2Proof.Machine.execCtxcreate vf slot record s
  | .ctxdestroy vf slot => Sys2Proof.Machine.execCtxdestroy vf slot s
  | .preempt vf slot => Sys2Proof.Machine.execPreempt vf slot s
  | .kill vf slot => Sys2Proof.Machine.execKill vf slot s
  | .resume vf slot save len => Sys2Proof.Machine.execResume vf slot save len s
  | .invalidate vf slot base len => Sys2Proof.Machine.execInvalidate vf slot base len s
  | .qresume vf slot engine die queue => Sys2Proof.Machine.execQresume vf slot engine die queue s
  | .clearmark vf slot obj => Sys2Proof.Machine.execClearmark vf slot obj s
  | .migrate vf slot group core => Sys2Proof.Machine.execMigrate vf slot group core s
  | .attest fn nonce out => Sys2Proof.Machine.execAttest fn nonce out s
  | .fabfence vf slot => Sys2Proof.Machine.execFabfence vf slot s
  | .partcreate => Sys2Proof.Machine.execPartcreate s
  | .partdestroy vf => Sys2Proof.Machine.execPartdestroy vf s
  | .fwstage addr len => Sys2Proof.Machine.execFwstage addr len s
  | .powercap watts => Sys2Proof.Machine.execPowercap watts s
  | .linkworld link world => Sys2Proof.Machine.execLinkworld link world s
  | .ltail vf slot tail => Sys2Proof.Machine.execLtail vf slot tail s
  | .icause fn val => Sys2Proof.Machine.execIcause fn val s
  | .brelease fn val => Sys2Proof.Machine.execBrelease fn val s
  | .breakpointArm fn on => Sys2Proof.Machine.execBreakpointArm fn on s
  | .samplingEnable fn on => Sys2Proof.Machine.execSamplingEnable fn on s
  | .sessionOpen fn => Sys2Proof.Machine.execSessionOpen fn s
  | .sessionClose fn => Sys2Proof.Machine.execSessionClose fn s
  | .freezeArm => Sys2Proof.Machine.execFreezeArm s
  | .registerWrite fn off val => Sys2Proof.Machine.execRegisterWrite fn off val s
  | .hostBar2Write fn off len val => Sys2Proof.Machine.execHostBar2Write fn off len val s
  | .hostBar2Read fn off len => Sys2Proof.Machine.execHostBar2Read fn off len s
  | .hostApertureWrite fn off len val => Sys2Proof.Machine.execHostApertureWrite fn off len val s
  | .hostApertureRead fn off len => Sys2Proof.Machine.execHostApertureRead fn off len s
  | .stallSample fn quad => Sys2Proof.Machine.execStallSample fn quad s
  | .sessionWriteback fn => Sys2Proof.Machine.execSessionWriteback fn s
  | .freeze => Sys2Proof.Machine.execFreeze s
  | .powerGood => Sys2Proof.Machine.execPowerGood s
  | .moduleReset => Sys2Proof.Machine.execModuleReset s
  | .thermalThrottle mhz => Sys2Proof.Machine.execThermalThrottle mhz s
  | .thermalTrip => Sys2Proof.Machine.execThermalTrip s
  | .tripPowerOff => Sys2Proof.Machine.execTripPowerOff s
  | .flitCrcFailure link seq => Sys2Proof.Machine.execFlitCrcFailure link seq s
  | .linkAckTimeout link => Sys2Proof.Machine.execLinkAckTimeout link s
  | .retrainFailure link => Sys2Proof.Machine.execRetrainFailure link s
  | .patrolScrub addr => Sys2Proof.Machine.execPatrolScrub addr s
  | .illegalInstruction word => Sys2Proof.Machine.execIllegalInstruction word s
  | .codeFetchFault addr => Sys2Proof.Machine.execCodeFetchFault addr s
  | .strataRequestPerform req => Sys2Proof.Machine.execStrataRequestPerform req s
  | .recordCacheComplete req => Sys2Proof.Machine.execRecordCacheComplete req s
  | .bindingInstalled acc => Sys2Proof.Machine.execBindingInstalled acc s
  | .linkRetrained link => Sys2Proof.Machine.execLinkRetrained link s
  | .contextSaveComplete ctx => Sys2Proof.Machine.execContextSaveComplete ctx s
  | .migrationMoveComplete msg => Sys2Proof.Machine.execMigrationMoveComplete msg s

end Sys2Proof.Machine
end

