-- ==== Sys2Proof/Machine/Issue.lean ====
section
/-! DEFINITION. Issue, time and events: how a wave issues its next instruction (R98, R106, R120, R121), how the tick passes (R425,
R434), what an event may do, and the turn that the machine takes when its agenda gives none. -/

namespace Sys2Proof.Machine

/-- Go on from a next state. -/
def onNext (o : Out) (f : State → State) : Out :=
  match o with
  | .next s => .next (f s)
  | .fault e => .fault e
  | .refused r => .refused r

/-! ## Issue (R120, R121) -/

/-- Whether a quadrant has a port left in this clk: it issues on two (R121). -/
def State.portFree (s : State) (w : Wave) : Bool :=
  decide ((s.waves.filter fun x => x.quadrant == w.quadrant && x.lastIssue == s.tick && decide (s.tick < x.notBefore)).length < 2)

/-- The state with a wave, and its sub-wave of these quads, at the heads of their lists. -/
def State.bring (s : State) (wid : Nat) (quads : BitVec 8) : State :=
  match bringFirst (fun w => w.id == wid) s.waves with
  | w :: l => { s with waves := { w with subs := bringFirst (fun q => q.quads == quads) w.subs } :: l }
  | [] => s

/-- Whether a wave stands at its instruction to issue it again. -/
def Wave.reissues (w : Wave) : Bool :=
  match w.wait with
  | .again _ | .stall _ => true
  | _ => false

/-- After an instruction of a wave: unless it stands to issue again, it has issued, does not issue twice in one clk, and its issue is
counted (R121, R431). -/
def State.issued (s : State) (wid cid : Nat) : State :=
  if (s.wave? wid).any Wave.reissues then s
  else (s.updWave wid fun w => { w with notBefore := max w.notBefore (s.tick + 1), readySince := none }).count cid 1 1

/-- Run an instruction of the head wave. -/
def State.runInstr (s : State) (w : Wave) (i : Instr) : Out := onNext (exec i s) fun t => (s.watched t (.instr i)).issued w.id w.ctx

/-- The head wave's issuing sub-wave fetches its word and issues it: a failing fetch and a word that names no instruction fault
(R97, R98); a register with a write pending, or a full counter, holds it back (R120, R142); a register that cannot be read faults
(R226). -/
def State.issueHead (s : State) : Out :=
  match s.waves with
  | [] => .next s
  | w :: _ =>
    match w.subs with
    | [] => .next s
    | q :: _ =>
      let s := s.fetchFill (dieOf w.core) (s.ctx w.ctx) q.pc
      match s.fetchWord (dieOf w.core) (s.ctx w.ctx) q.pc with
      | none => execCodeFetchFault q.pc s
      | some x =>
        match decode x with
        | none => execIllegalInstruction x s
        | some i =>
          if !(s.instrReady w i) then .next s
          else
            match w.eccRead q i with
            | some v => .next (s.raise w q (0x28 + 65536) v)
            | none => s.runInstr w i

/-- Whether the head wave's issuing sub-wave is free of the hazards of R120; a word that faults at its fetch or decoding is. -/
def State.headFree (s : State) : Bool :=
  match s.waves with
  | [] => false
  | w :: _ =>
    match w.subs with
    | [] => false
    | q :: _ =>
      match (s.fetchWord (dieOf w.core) (s.ctx w.ctx) q.pc).bind decode with
      | none => true
      | some i => s.instrReady w i

/-- Whether a wave that has taken its turn still waits for what its instruction needs to accept it: it was not ready (R17, R120). -/
def Wave.unaccepted (w : Wave) : Bool :=
  match w.wait with
  | .again _ | .stall _ | .queue _ => true
  | _ => false

/-- Whether a wave is ready (R120): its offered sub-wave can issue its next instruction. -/
def State.waveReady (s : State) (w : Wave) : Bool :=
  s.waveRuns w &&
    match s.offered w with
    | none => false
    | some q =>
      let t := s.bring w.id q.quads
      t.headFree && match t.issueHead with
        | .next u => !((u.wave? w.id).any Wave.unaccepted)
        | _ => false

/-- The order of the waves that ask for a port (R121): one that has been ready for 256 clk comes first, then the greater age, then the
lower slot. -/
def State.claim (s : State) (w : Wave) : List Nat :=
  [if w.readySince.any (fun t => decide (t + 256 ≤ s.tick)) then 0 else 1, w.lastIssue, w.slot]

/-- Whether a ready wave of the same quadrant takes the next port before a wave (R121). -/
def State.outclaimed (s : State) (w : Wave) : Bool :=
  s.waves.any fun x => x.quadrant == w.quadrant && x.id != w.id && s.claim x != s.claim w && lexLe (s.claim x) (s.claim w) &&
    s.waveReady x

/-- A wave's turn to issue.  A ready wave issues where its quadrant has a port for it, and one that may issue but is not ready comes to
stand at its instruction. -/
def State.turnIssue (s : State) (wid : Nat) : Out :=
  match s.wave? wid with
  | none => .next s
  | some w =>
    if !s.powered || s.frozen || !(s.waveRuns w) then .next s
    else
      match s.offered w with
      | none => .next s
      | some q => if s.waveReady w && (!(s.portFree w) || s.outclaimed w) then .next s else (s.bring wid q.quads).issueHead

/-! ## Time (R121, R425, R434) -/

/-- How long each wave has been ready, at the end of a clk (R121). -/
def State.noteReady (s : State) : State :=
  { s with waves := s.waves.map fun w =>
      { w with readySince := if s.waveReady w then some (w.readySince.getD s.tick) else none } }

/-- The units of time that a clk lasts at the present clock (R423). -/
def State.clkTime (s : State) : Nat := Config.timePerUs / max 1 s.clockMhz

/-- One clk passes: the samples that are due in it are taken (R429); an armed freezetick stops every clock at its end; else the tick
advances, time passes, and what the new clk brings comes about: a window's buckets (R400) and the counts of sessions (R431). -/
def State.clk (s : State) : State :=
  if !s.powered || s.frozen then s
  else
    let s := s.takeSamples
    if s.freezeDue then { s with frozen := true }
    else
      let s := s.noteReady
      let s := { s with tick := s.tick + 1, elapsed := s.elapsed + s.clkTime }.beginWindow
      s.funcs.foldl (fun (s : State) f => s.writeback f.id) s

/-- `n` clk pass. -/
def State.pass (s : State) : Nat → State
  | 0 => s
  | n + 1 => s.clk.pass n

/-! ## Events -/

/-- Whether an event may happen of itself: not an instruction word, nor a fault of the fetch or decode of one. -/
def spontaneous (i : Instr) : Bool :=
  match i with
  | .illegalInstruction _ | .codeFetchFault _ => false
  | i => !i.isWord

/-- What a module without power, and a frozen one, still do (R422, R423, R434). -/
def State.mayAct (s : State) (i : Instr) : Bool :=
  if !s.powered then
    match i with
    | .powerGood | .moduleReset => true
    | _ => false
  else if s.frozen then
    match i with
    | .registerWrite .. | .moduleReset => true
    | _ => false
  else true

/-- An event happens. -/
def State.turnEvent (s : State) (i : Instr) : Out :=
  if spontaneous i && s.mayAct i then onNext (exec i s) fun t => s.watched t (acted i) else .next s

/-! ## The turn of an empty agenda -/

/-- An event that may happen now: what it may perform, and its meaning. -/
abbrev Chance := Acted × (State → Out)

/-- An event that performs no access of its own. -/
def plainly (l : List (State → Out)) : List Chance := l.map fun f => (.other, f)
/-- An event that performs units of accesses. -/
def accessing (l : List (State → Out)) : List Chance := l.map fun f => (.access, f)

/-- The events that an access in flight may bring about. -/
def Access.chances (a : Access) : List Chance :=
  accessing [execBarrierArrivalApply a.id, execWaitpCheck a.id] ++ plainly [execBindingInstalled a.id, execMigrationForward a.id]
    ++ (List.range a.units.length).flatMap fun i =>
      accessing [execLoadDataReturn a.id i 0, execWritePerformed a.id i, execAtomicAtHome a.id i, execTracedAccessStep a.id i]

/-- The events that the operations of the engines may bring about. -/
def State.engineChances (s : State) : List Chance :=
  (s.red.flatMap fun e => accessing [execCombinerPacketApply e.id] ++ plainly [execCombinerHoldTimeout e.id, execMigrationForward e.id])
    ++ (s.landings.flatMap fun l => plainly [execLandedBytesApply l.id, execMigrationForward l.id])
    ++ (s.slip.flatMap fun o => plainly [execCopyBegin o.id] ++
          (List.range 64).map fun k => (.sector o.id (o.low + k), execCopySectorPerform o.id (o.low + k)))
    ++ (s.requests.flatMap fun r => plainly [execStrataRequestPerform r.id, execRecordCacheComplete r.id])
    ++ (s.mats.flatMap fun m => (.matrix m.id, execMatrixOpPerform m.id) ::
          (List.range 65).map fun k => (.fill m.id, execOperandFillLand m.id k))
    ++ (s.sieve.flatMap fun o => plainly [execSieveOpBegin o.id, execSieveOpComplete o.id] ++ [(.pair o.id, execPairRecordWrite o.id)])

/-- The events that tasks, counters and lists may bring about. -/
def State.taskChances (s : State) : List Chance :=
  plainly ((s.ctrMsgs.flatMap fun m => [execTaskRegistration m.id, execCounterDecrement m.id])
    ++ (s.packets.flatMap fun p => [execCompactionTimeout p.id, execWorkListPacketWrite p.id])
    ++ (s.tasks.map fun t => execContinuationEnqueue t.id)
    ++ ((s.tasks.map fun t => (t.ctx, t.core)).eraseDups.map fun p => execTaskDispatch p.1 p.2)
    ++ (s.bins.flatMap fun b => execBinTimerExpiry b.id :: (List.range 4).map fun q => execTaskWaveLaunch b.id (4 * b.core + q)))

/-- The events that waits, groups, grids, contexts and the debug blocks may bring about. -/
def State.otherChances (s : State) : List Chance :=
  plainly ((s.waitList.flatMap fun e => [execExtendedBlockGrant e.1, execOperandBufferGrant e.1, execAccumulatorTileGrant e.1])
    ++ s.waves.map fun w => execQueueAccept w.id)
    ++ (s.groups.flatMap fun g => [(.drain g.id, execDrainPass g.id), (.other, execGroupExitPass g.id)])
    ++ plainly ((s.ctxs.flatMap fun c => [execTicketHandover c.id, execTerminationReport c.id, execRerunEnd c.id, execRerunLaunch c.id,
          execContextSaveComplete c.id, execLaunchPacketStart c.id])
    ++ (s.grids.map fun g => execGroupStart g.id) ++ (s.limbo.map fun l => execGroupStart l.id)
    ++ (s.moves.flatMap fun m => [execMigrationMoveComplete m.id, execMigrationForward m.id])
    ++ (s.funcs.flatMap fun f => execSessionWriteback f.id :: s.waves.map fun w => execStallSample f.id w.quadrant)
    ++ [execFreeze])

/-- Timers of the module that have run out (R232, R402, R416, R423, R425): the grace and second timers of a pre-emption, the 100 ms of a
retraining link, and the 10 ms after a trip. -/
def State.timerChances (s : State) : List Chance :=
  let isPast := fun (since us : Nat) => decide (since + Config.timePerUs * us ≤ s.elapsed)
  let timer := fun (c : Context) (f : Partition → Nat) => ((s.part? c.vf).map f).getD 0
  plainly ((s.ctxs.flatMap fun c =>
      match c.pre with
      | .soft t => if isPast t (timer c (·.grace)) then [execGraceTimerExpiry c.id] else []
      | .halting t => if isPast t (timer c (·.killt)) then [execKillTimerExpiry c.id] else []
      | .none => [])
    ++ (s.links.flatMap fun l =>
      match l.st with
      | .retraining t => if isPast t 100000 then [execRetrainFailure l.num] else []
      | _ => [])
    ++ (match s.tripAt with
      | some t => if isPast t 10000 then [execTripPowerOff] else []
      | none => []))

/-- Every event that may happen of itself inside the module now, in the order in which the model takes them (log 37): bring-up, the
ports, the homes, the engines, the tasks, and the rest. -/
def State.chances (s : State) : List Chance :=
  let ports := (s.transfers.map (·.port)).eraseDups
  plainly ((if !s.ready && !s.recovery then [execPowerGood] else []) ++ (ports.flatMap fun p => [execWindowRefill p, execPortGrant p]))
    ++ s.timerChances ++ s.flight.flatMap (·.chances) ++ s.engineChances ++ s.taskChances ++ s.otherChances

/-- The state after the first event of a list that changes it. -/
def State.firstEvent (s : State) : List Chance → Option State
  | [] => none
  | x :: l =>
    match x.2 s with
    | .next t => if t = s then s.firstEvent l else some (s.watched t x.1)
    | _ => s.firstEvent l

/-- The turns of some waves to issue, one after the other. -/
def State.issueAll : List Wave → State → State
  | [], s => s
  | w :: l, s =>
    match s.turnIssue w.id with
    | .next t => State.issueAll l t
    | _ => State.issueAll l s

/-- The turn of an empty agenda (R121, log 37): an event that changes something; else a clk passes, in which every quadrant issues from
its ready waves in the order of their claims. -/
def State.turnAlone (s : State) : State :=
  if !s.powered || s.frozen then s else
  match s.firstEvent s.chances with
  | some t => t
  | none =>
    let s := s.pass 1
    State.issueAll (sortBy (fun (x y : Wave) => lexLe (s.claim x) (s.claim y)) s.waves) s

/-! ## The environment of a single instruction -/

/-- Physical address of the code page that `bootCtx` maps. -/
def bootCode : Nat := 0x40000000

/-- Page tables that map 1 GiB from the first external address (R230). -/
def bootTables : List (Nat × Nat) :=
  [(0x10000, 0x20001), (0x20000 + 8 * 32, 0x30001), (0x30000, bootCode + 7)]

/-- A partition of core 0 (R394). -/
def bootPart : Partition where
  quads := 0xF
  banks := 0xFFFF
  slip := 0xFFF
  sieve := 1
  vf := 0
  secure := false
  maxctx := 16
  floor := 0
  ceiling := 8192
  weight := 1
  grace := 2000
  killt := 20000

/-- A context record in that partition (R306, R411). -/
def bootRec : CtxRec :=
  { CtxRec.zero with
    codebase := Config.extBase
    codelen := 65536
    ptroot := 0x10000
    fq := Config.sliceBase + 0x700000
    fqlog := 6
    frames := 64
    ticket := Config.sliceBase + 0x6F0000
    frameoff := 0x600000
    save := Config.extBase + 0x20000000
    savelen := 0x1000000
    lq := Config.sliceBase + 0x6E0000
    lqent := 16
    gpooloff := 0x400000
    gpoollen := 0x100000
    pooloff := 0x500000
    poolent := 64
    bintimer := 128 }

/-- A grid of one group of one wave (R123). -/
def bootGrid (id ctx : Nat) : Grid where
  id := id
  ctx := ctx
  ord := 0
  nlanes := 32
  ngroups := 1
  spill := 0
  cluster := false
  migratable := true
  entry := BitVec.ofNat 64 Config.extBase
  modes := []
  slice := 65536
  kernel := 0
  args := []
  device := false
  kcores := 1
  waits := none
  hold := none
  started := [0]
  ended := []

/-- A group of that grid, its window in the pool of core 0 (R23). -/
def bootGroup (id ctx grid : Nat) : Group where
  id := id
  ctx := ctx
  grid := grid
  ord := 0
  index := 0
  core := 0
  win := Config.sliceBase + 0x400000
  winLen := 65536
  spill := Config.sliceBase + 0x410000
  spillLen := 0
  drain := []
  latches := []
  passed := false

/-- A module that is ready, with a partition, a context in slot 0 and one grid wave at its first instruction, added to a state. -/
def State.boot (s : State) : State :=
  let n := s.nextId
  let c := Context.create n 0 0 (Config.sliceBase + 0x6D0000) bootRec
  let g := bootGrid (n + 1) n
  { s with
    powered := true
    ready := true
    recovery := false
    bringup := 6
    frozen := false
    ext := bootTables.foldl (fun (m : Memory) e => m.setNum e.1 8 e.2) s.ext
    parts := bootPart :: s.parts.filter fun p => p.vf != 0
    ctxs := c :: s.ctxs.filter fun x => !(x.vf == 0 && x.slot == 0)
    grids := g :: s.grids
    groups := bootGroup (n + 2) n (n + 1) :: s.groups
    waves := { g.wave (n + 2) 0 0 0 (n + 3) 0 (0, 0) with readySince := some 0 } :: s.waves
    nextId := n + 4 }

/-- The wave that a fetch can take from: the first one, where it may issue and its page is mapped; with the physical address of its
word. -/
def State.fetchPlace (s : State) : Option (Nat × Nat) :=
  if !s.powered || s.frozen then none else
  match s.waves with
  | [] => none
  | w :: _ =>
    if !(s.waveRuns w) || !(s.portFree w) || s.outclaimed w then none else
    match s.offered w with
    | none => none
    | some q =>
      let c := s.ctx w.ctx
      if c.r.inCode q.pc then (s.walk (dieOf w.core) c q.pc.toNat).map fun r => (w.id, r.1) else none

/-- The state with a word where its next issue fetches it, and that issue next on its agenda. -/
def State.withWord (s : State) (w : Nat) : State :=
  let t := if s.fetchPlace.isSome then s else s.boot
  match t.fetchPlace with
  | some p => { t with ext := t.ext.setNum p.2 4 w, agenda := [.issue 0 p.1] }
  | none => t

end Sys2Proof.Machine
end

