-- ==== Sys2Proof/Machine/Step.lean ====
section
/-! DEFINITION. One step of the module: the turn that its agenda gives, or its own (log 37). -/

namespace Sys2Proof.Machine

/-- One step.  The agenda holds what is not the module's to decide: how many clk pass, which wave issues, which event comes next. -/
def step (s : State) : Host.Outcome State Fault Refusal :=
  match s.agenda with
  | .issue n w :: l => ({ s with agenda := l }.pass n).turnIssue w
  | .event n i :: l => ({ s with agenda := l }.pass n).turnEvent i
  | [] => .next s.turnAlone

/-- The state with the instruction whose bits are `w` where `step` fetches its next one (log 38): every row with a word has 32 bits. -/
def State.withFetchWord (s : State) (_nbits w : Nat) : State := s.withWord w

end Sys2Proof.Machine
end

