-- ==== Sys2Proof/Safety.lean ====
section
/-! DEFINITION. The terms in which the claims speak of the machine: the issuing wave, what an instruction leaves of it, and what a
safe state is. -/

namespace Sys2Proof.Machine

/-- The byte memories of a state are in their canonical form. -/
def State.memoriesOk (s : State) : Prop := s.slice.wf ∧ s.ext.wf ∧ s.hostMem.wf

/-- Wave `w` issues, from its sub-wave `q`: they stand at the heads of their lists. -/
def State.issuer (s : State) (w : Wave) (q : SubWave) : Prop := s.waves.head? = some w ∧ w.subs.head? = some q

/-- A wave without where it stands: its sub-waves, its wait and the tick of its last issue. -/
def Wave.still (w : Wave) : Wave := { w with subs := [], wait := .none, lastIssue := 0 }

/-- A wave whose issuing sub-wave went on to an address, the other sub-waves where they stood (R107). -/
def Wave.wentTo (w w' : Wave) (q : SubWave) (pc : W64) : Prop := w'.subs = { q with pc := pc, st := .ready } :: w.subs.tail ∧ w'.wait = .none

/-- The state with another issuing wave: every other wave, and every other part of the module, is as it was. -/
def State.withIssuer (s : State) (w : Wave) : State := { s with waves := w :: s.waves.tail }

end Sys2Proof.Machine
end

