-- ==== Sys2Proof/Certificates/Slice0/Obligations.lean ====
section
/-! DEFINITION. The statements about the Kwakor K9 that the provers are to prove, family by family, with the tables in which
they say what the manual says.  Each table is written from the manual's rules, not from the meanings. -/

/-! ## Scalars and predicates (R126, R150 to R154) -/

namespace Sys2Proof.Claims

open Sys2Proof.Machine

/-- Signed and unsigned reading of a scalar register. -/
def sg (w : Wave) (r : BitVec 6) : Int := (w.s r.toNat).toInt
def un (w : Wave) (r : BitVec 6) : Nat := (w.s r.toNat).toNat

/-- A truth value as a compare writes it: 1 or 0 in 64 bits (R151). -/
def truth (p : Prop) [Decidable p] : W64 := if p then 1#64 else 0#64

/-- Leading zeros of a 64-bit value, counted from bit 63 down (R151). -/
def leadingZeros (x : W64) : Nat := ((List.range 64).takeWhile fun i => !(x.getLsbD (63 - i))).length

/-- The set bits among the low `n` of a value. -/
def setBits {w : Nat} (n : Nat) (x : BitVec w) : List Nat := (List.range n).filter fun i => x.getLsbD i

/-- The scalar that an instruction of R151 to R154 writes, and what it writes there. -/
def scalarResult : Instr → Option (BitVec 6 × (Wave → W64))
  | .sadd d a b => some (d, fun w => BitVec.ofNat 64 (un w a + un w b))
  | .ssub d a b => some (d, fun w => BitVec.ofInt 64 (un w a - un w b))
  | .smul d a b => some (d, fun w => BitVec.ofNat 64 (un w a * un w b))
  | .smulh d a b => some (d, fun w => BitVec.ofInt 64 (sg w a * sg w b / 2 ^ 64))
  | .smulhn d a b => some (d, fun w => BitVec.ofNat 64 (un w a * un w b / 2 ^ 64))
  | .sand d a b => some (d, fun w => w.s a.toNat &&& w.s b.toNat)
  | .sor d a b => some (d, fun w => w.s a.toNat ||| w.s b.toNat)
  | .sxor d a b => some (d, fun w => w.s a.toNat ^^^ w.s b.toNat)
  | .sandn d a b => some (d, fun w => w.s a.toNat &&& ~~~(w.s b.toNat))
  | .sshl d a b => some (d, fun w => BitVec.ofNat 64 (un w a * 2 ^ (un w b % 64)))
  | .sshr d a b => some (d, fun w => BitVec.ofNat 64 (un w a / 2 ^ (un w b % 64)))
  | .ssra d a b => some (d, fun w => BitVec.ofInt 64 (sg w a / 2 ^ (un w b % 64)))
  | .smin d a b => some (d, fun w => BitVec.ofInt 64 (min (sg w a) (sg w b)))
  | .smax d a b => some (d, fun w => BitVec.ofInt 64 (max (sg w a) (sg w b)))
  | .sminn d a b => some (d, fun w => BitVec.ofNat 64 (min (un w a) (un w b)))
  | .smaxn d a b => some (d, fun w => BitVec.ofNat 64 (max (un w a) (un w b)))
  | .sseq d a b => some (d, fun w => truth (un w a = un w b))
  | .ssne d a b => some (d, fun w => truth (un w a ≠ un w b))
  | .sslt d a b => some (d, fun w => truth (sg w a < sg w b))
  | .ssle d a b => some (d, fun w => truth (sg w a ≤ sg w b))
  | .ssltn d a b => some (d, fun w => truth (un w a < un w b))
  | .sslen d a b => some (d, fun w => truth (un w a ≤ un w b))
  | .sclz d a => some (d, fun w => BitVec.ofNat 64 (leadingZeros (w.s a.toNat)))
  | .spopc d a => some (d, fun w => BitVec.ofNat 64 (setBits 64 (w.s a.toNat)).length)
  | .smovp d a => some (d, fun w => BitVec.ofNat 64 (w.p a.toNat).toNat)
  | .pcnt d a b => some (d, fun w => BitVec.ofNat 64 (setBits 32 (w.p a.toNat &&& w.p b.toNat)).length)
  | .pfirst d a b => some (d, fun w => BitVec.ofNat 64 ((setBits 32 (w.p a.toNat &&& w.p b.toNat)).headD 32))
  | _ => none

/-- The same for the scalar immediates (R154). -/
def immediateResult : Instr → Option (BitVec 6 × (Wave → W64))
  | .saddi d a i => some (d, fun w => BitVec.ofInt 64 (un w a + i.toInt))
  | .sandi d a i => some (d, fun w => w.s a.toNat &&& BitVec.ofInt 64 i.toInt)
  | .sori d a i => some (d, fun w => w.s a.toNat ||| BitVec.ofInt 64 i.toInt)
  | .sxori d a i => some (d, fun w => w.s a.toNat ^^^ BitVec.ofInt 64 i.toInt)
  | .sshli d a n => some (d, fun w => BitVec.ofNat 64 (un w a * 2 ^ n.toNat))
  | .sshri d a n => some (d, fun w => BitVec.ofNat 64 (un w a / 2 ^ n.toNat))
  | .ssrai d a n => some (d, fun w => BitVec.ofInt 64 (sg w a / 2 ^ n.toNat))
  | .smovi d p i => some (d, fun _ => BitVec.ofInt 64 (i.toInt * 2 ^ (16 * p.toNat)))
  | .sseqi d a i => some (d, fun w => truth (sg w a = i.toInt))
  | .sslti d a i => some (d, fun w => truth (sg w a < i.toInt))
  | .ssltni d a i => some (d, fun w => truth (un w a < i.toNat))
  | _ => none

/-- The predicate that an instruction of R152 writes, and what it writes there. -/
def predicateResult : Instr → Option (BitVec 6 × (Wave → W32))
  | .pand d a b => some (d, fun w => w.p a.toNat &&& w.p b.toNat)
  | .por d a b => some (d, fun w => w.p a.toNat ||| w.p b.toNat)
  | .pxor d a b => some (d, fun w => w.p a.toNat ^^^ w.p b.toNat)
  | .pandn d a b => some (d, fun w => w.p a.toNat &&& ~~~(w.p b.toNat))
  | .pnot d a => some (d, fun w => ~~~(w.p a.toNat))
  | .pmovs d a => some (d, fun w => BitVec.ofNat 32 (un w a))
  | _ => none

/-- Only the scalar `d` of the issuing wave was written, with `v`, and its sub-wave stands at `pc`. -/
def wroteScalar (s t : State) (w : Wave) (q : SubWave) (d : BitVec 6) (v : W64) (pc : W64) : Prop :=
  ∃ w', t = s.withIssuer w' ∧ w'.s d.toNat = v ∧ (∀ r, r ≠ d.toNat → w'.s r = w.s r) ∧
    { w'.still with sregs := w.sregs } = w.still ∧ w.wentTo w' q pc

end Sys2Proof.Claims

open Sys2Proof Sys2Proof.Machine Sys2Proof.Claims in
/-- The scalar ALU (R151, and `smovp`, `pcnt` and `pfirst` of R152) and the scalar immediates (R154): each instruction, on every state
with an issuer, writes its result to its one destination, read from its sources as they were, and goes on; no other register and nothing
else changes.  `sinsi` replaces the 16 bits at its position and keeps every other bit.  The predicate instructions (R152): all 32 bits of
the destination are written; a write to p0 is discarded, and p0 goes on reading as all ones (R91). -/
def Obligations.ScalarInstructionWritesItsResult : Prop :=
  ((∀ (i : Instr) (d : BitVec 6) (v : Wave → W64) (s : State) (w : Wave) (q : SubWave),
    scalarResult i = some (d, v) → s.issuer w q → ∃ t, exec i s = .next t ∧ wroteScalar s t w q d (v w) (q.pc + 4)) ∧
  ((∀ (i : Instr) (d : BitVec 6) (v : Wave → W64) (s : State) (w : Wave) (q : SubWave),
    immediateResult i = some (d, v) → s.issuer w q →
      ∃ t, exec i s = .next t ∧ wroteScalar s t w q d (v w) (q.pc + 4)) ∧
  ∀ (d : BitVec 6) (p : BitVec 2) (i : BitVec 16) (s : State) (w : Wave) (q : SubWave), s.issuer w q →
    ∃ t v, exec (.sinsi d p i) s = .next t ∧ wroteScalar s t w q d v (q.pc + 4) ∧
      ∀ k, k < 64 → v.getLsbD k = if k / 16 = p.toNat then i.getLsbD (k % 16) else (w.s d.toNat).getLsbD k)) ∧
  (∀ (i : Instr) (d : BitVec 6) (v : Wave → W32) (s : State) (w : Wave) (q : SubWave),
    predicateResult i = some (d, v) → s.issuer w q →
      ∃ w', exec i s = .next (s.withIssuer w') ∧ w'.p 0 = BitVec.allOnes 32 ∧
        (∀ r, r ≠ 0 → w'.p r = if r = d.toNat then v w else w.p r) ∧
        { w'.still with preds := w.preds } = w.still ∧ w.wentTo w' q (q.pc + 4))

/-! ## Control words (R97, R98, R107 to R149) and precise faults (R221 to R227) -/

namespace Sys2Proof.Claims

open Sys2Proof.Machine

/-- No fault of the wave does more than send it to its handler: it is not in the handler, its context has one, and no open joint
latch of its group still waits for it (R222, R293). -/
def calm (s : State) (w : Wave) : Prop :=
  w.handler = none ∧ (s.ctx w.ctx).r.handler ≠ 0 ∧
    (w.task = true ∨ ∀ g, s.group? w.gid = some g → g.breaking w.id w.widx none = [])

/-- The issuing wave took a precise fault (R221, R222): the trap registers hold it, and its sub-wave alone goes on, in the
handler.  The other registers of the wave, its other sub-waves, every other wave and the rest of the module are as they were. -/
def tookFault (s t : State) (w : Wave) (q : SubWave) (code : BitVec 16) (pc val : W64) : Prop :=
  ∃ w', t.wave? w.id = some w' ∧ w'.trapCause = code ∧ w'.trapPc = pc ∧ w'.trapVal = val ∧ w'.handler = some q.quads ∧
    w'.subs.head? = some { q with pc := (s.ctx w.ctx).r.handler, st := .ready } ∧
    w'.subs.map (·.quads) = w.subs.map (·.quads) ∧ (∀ p ∈ w.subs, p.quads ≠ q.quads → p ∈ w'.subs) ∧
    { w'.still with
      trapCause := w.trapCause
      trapPc := w.trapPc
      trapVal := w.trapVal
      handler := w.handler } = w.still ∧
    (∀ j, j ≠ w.id → t.wave? j = s.wave? j) ∧ { t with waves := s.waves } = s

/-- Sub-waves with a waiting `xacq` withdrawn: it issues again once the wave runs (R139). -/
def withdrawn (l : List SubWave) : List SubWave := l.map fun x => if x.st = .forBlock then { x with st := .ready } else x

/-- A report of R227 with these fields was written to the fault queue of a context with room for it (R228): the entry at `head`,
then `head` one higher; no other byte of the slices changed, and the function is interrupted. -/
def reported (s t : State) (cid code source flags : Nat) (issuer pc address value : Nat) : Prop :=
  let c := s.ctx cid
  let q := c.r.fq
  let head := s.slice.num q 4
  let e := q + 64 + 64 * (head % 2 ^ c.r.fqlog)
  t.slice.num e 2 = code ∧ t.slice.num (e + 2) 1 = source ∧ t.slice.num (e + 3) 1 = flags ∧
    t.slice.num (e + 8) 8 = issuer ∧ t.slice.num (e + 16) 8 = pc ∧ t.slice.num (e + 32) 8 = address ∧
    t.slice.num (e + 48) 8 = s.tick % 2 ^ 64 ∧ t.slice.num (e + 56) 4 = value ∧ t.slice.num (e + 60) 4 = c.seq % 2 ^ 32 ∧
    t.slice.num q 4 = (head + 1) % 2 ^ 32 ∧
    (∀ a, ¬(e ≤ a ∧ a < e + 64) → ¬(q ≤ a ∧ a < q + 4) → t.slice.byte a = s.slice.byte a) ∧
    (t.func c.vf).icause.getLsbD 1 = true

/-- A record of R429 with these fields was written to the ring of a debug block, and then shead is one higher (R427); no other byte
of the slices changed. -/
def recorded (s t : State) (fn : Nat) (who pc blame reason reg value object : Nat) : Prop :=
  let f := s.func fn
  let e := f.sring.toNat + 64 * (f.shead.toNat % f.slen.toNat)
  t.slice.num e 8 = s.tick % 2 ^ 64 ∧ t.slice.num (e + 8) 8 = who ∧ t.slice.num (e + 16) 8 = pc ∧
    t.slice.num (e + 24) 8 = blame ∧ t.slice.num (e + 32) 2 = reason ∧ t.slice.num (e + 34) 2 = reg ∧
    t.slice.num (e + 36) 4 = value ∧ t.slice.num (e + 40) 8 = object ∧
    (∀ a, ¬(e ≤ a ∧ a < e + 64) → t.slice.byte a = s.slice.byte a) ∧ (t.func fn).shead = f.shead + 1

/-- The fault queue of a context has room (R228). -/
def queueHasRoom (s : State) (cid : Nat) : Prop :=
  let c := s.ctx cid
  (s.slice.num c.r.fq 4 + 2 ^ 32 - s.slice.num (c.r.fq + 4) 4) % 2 ^ 32 < 2 ^ c.r.fqlog

/-- The fault that a word raises whatever the state: code, faulting address and trap value (R97, R98, R132). -/
def ownFault (s : State) (w : Wave) (q : SubWave) : Instr → Option (BitVec 16 × W64 × W64)
  | .trap i => some (0x09, q.pc, BitVec.ofNat 64 i.toNat)
  | .illegalInstruction x => some (0x01, q.pc, BitVec.ofNat 64 x.toNat)
  | .codeFetchFault a => some (0x05, if (s.ctx w.ctx).r.inCode a then a else a - 4, a)
  | _ => none

/-- The wave went on past its instruction with nothing written. -/
def passed (s t : State) (w : Wave) (q : SubWave) : Prop :=
  ∃ w', t = s.withIssuer w' ∧ w'.still = w.still ∧ w.wentTo w' q (q.pc + 4)

/-- The special registers as `getk` reads them (R123, R128). -/
def specialRegister (s : State) (w : Wave) (q : SubWave) : Nat → Option W64
  | 0 => some (BitVec.ofNat 64 w.flags.toNat)
  | 1 => some (BitVec.ofNat 64 w.livemask.toNat)
  | 2 => some (s.ctx w.ctx).r.gseed
  | 3 => some (BitVec.ofNat 64 (s.ctx w.ctx).r.det.toNat)
  | 4 => some (BitVec.ofNat 64 w.kcores.toNat)
  | 5 => some (if w.task then BitVec.allOnes 64 else BitVec.ofNat 64 w.ord)
  | 6 => some (if w.task then BitVec.allOnes 64 else BitVec.ofNat 64 w.kngroups.toNat)
  | 7 => some (if w.task then BitVec.allOnes 64 else BitVec.ofNat 64 w.knlanes.toNat)
  | 8 => some (if w.task then BitVec.allOnes 64 else BitVec.ofNat 64 w.group)
  | 9 => some (if w.task then BitVec.allOnes 64 else BitVec.ofNat 64 w.widx)
  | 11 => some (BitVec.ofNat 64 w.working.toNat)
  | 12 => some (BitVec.ofNat 64 q.quads.toNat)
  | 13 => some (BitVec.ofNat 64 (w.handler.isSome.toNat + 2 * w.ext.toNat + 4 * w.task.toNat))
  | 14 => some (BitVec.ofNat 64 w.trapCause.toNat)
  | 15 => some w.trapPc
  | 16 => some w.trapVal
  | 17 => some (BitVec.ofNat 64 w.joint.toNat)
  | 18 => some (BitVec.ofNat 64 (s.ctx w.ctx).r.sealOnly.toNat)
  | _ => none

/-- The value that a mode instruction would write to its slot (R137), and the slot. -/
def newSlot (w : Wave) : Instr → Option (BitVec 2 × W32)
  | .mode m a => some (m, BitVec.ofNat 32 (un w a))
  | .modea m a b =>
    some (m, (w.slotOf m.toNat &&& ~~~(BitVec.ofNat 32 (un w b))) ||| (BitVec.ofNat 32 (un w a) &&& BitVec.ofNat 32 (un w b)))
  | .modem m _ b => some (m, BitVec.ofNat 32 (un w b))
  | _ => none

/-- A slot value with no reserved field value and with bits [31:21] zero (R92, R93). -/
def reservedFree (v : W32) : Prop :=
  v.toNat / 2 ^ 4 % 16 ≤ 13 ∧ v.toNat / 2 ^ 8 % 8 ≤ 4 ∧ v.toNat / 2 ^ 13 % 4 ≤ 2 ∧ v.toNat / 2 ^ 17 % 16 ≤ 8 ∧
    v.toNat / 2 ^ 21 = 0

/-- Whether a control transfer to an address passes the check of R98. -/
def goodTarget (s : State) (w : Wave) (a : W64) : Prop :=
  let r := (s.ctx w.ctx).r
  a.toNat % 4 = 0 ∧ r.codebase ≤ a.toNat ∧ a.toNat + 4 ≤ r.codebase + r.codelen

/-- The target of a branch: PC + 4 times the signed offset (R147). -/
def target (q : SubWave) (o : BitVec 19) : W64 := BitVec.ofInt 64 (q.pc.toNat + 4 * o.toInt)

/-- Where a transfer of a whole sub-wave goes when it is taken, and whether it links through s63 (R145, R148). -/
def transfer (w : Wave) (q : SubWave) : Instr → Option (W64 × Bool)
  | .jmp a => some (w.s a.toNat, false)
  | .callr a => some (w.s a.toNat, true)
  | .bra o => some (target q o, false)
  | .call o => some (target q o, true)
  | .brz a o => if un w a = 0 then some (target q o, false) else none
  | .brnz a o => if un w a = 0 then none else some (target q o, false)
  | _ => none

/-- The condition and the offset of a predicate branch in a quad, over its working lanes (R148). -/
def quadTest (w : Wave) (k : Nat) : Instr → Option (BitVec 19 × Prop)
  | .brany r o => some (o, ∃ l, l / 4 = k ∧ w.working.getLsbD l ∧ (w.p r.toNat).getLsbD l)
  | .brnone r o => some (o, ∀ l, l / 4 = k → w.working.getLsbD l → ¬(w.p r.toNat).getLsbD l)
  | .brall r o => some (o, ∀ l, l / 4 = k → w.working.getLsbD l → (w.p r.toNat).getLsbD l)
  | _ => none

/-- No access of the wave, reduction, engine operation or drain entry of it is still under way. -/
def quiet (s : State) (w : Wave) : Prop :=
  (∀ a ∈ s.flight, a.wave ≠ w.id) ∧ (∀ e ∈ s.red, ∀ u ∈ e.upds, u.wave ≠ w.id) ∧
    (∀ o ∈ s.slip, o.req.by_.wave ≠ w.id) ∧ (∀ o ∈ s.sieve, o.req.by_.wave ≠ w.id) ∧
    (∀ o ∈ s.requests, o.req.by_.wave ≠ w.id) ∧ (∀ m ∈ s.mats, m.wave ≠ w.id) ∧
    (∀ c ∈ s.ctxs, ∀ k, c.trace.walk = some k → k.by_.wave ≠ w.id) ∧
    (∀ g ∈ s.groups, ∀ e ∈ g.drain, ∀ u ∈ e.upds, u.wave ≠ w.id)

end Sys2Proof.Claims

open Sys2Proof Sys2Proof.Machine Sys2Proof.Claims in
/-- `nop` (R130): the all-zero word, and no effect: the wave only goes on to the next word. -/
def Obligations.NopHasNoEffect : Prop :=
  decodeTableWord 32 0 = some .nop ∧
    ∀ (s : State) (w : Wave) (q : SubWave), s.issuer w q → ∃ t, exec .nop s = .next t ∧ passed s t w q

open Sys2Proof Sys2Proof.Machine Sys2Proof.Claims in
/-- A `trap` (R132), a word that is no instruction (R97) and a failing fetch (R98) enter the handler, with the trap registers
written and nothing else changed (R221, R222).  Where no handler takes them the wave is halted: with no handler address its own code is
reported (R222); inside the handler the trap registers keep the first fault, and DOUBLE_FAULT is reported with the second fault's code
and address (R224).  A halt withdraws the `xacq` that other sub-waves of the wave wait in (R139, R222).  Both reports carry the unhandled
flag (R227). -/
def Obligations.FaultsEnterTheHandlerOrHalt : Prop :=
  (∀ (i : Instr) (s : State) (w : Wave) (q : SubWave) (code : BitVec 16) (pc val : W64),
    ownFault s w q i = some (code, pc, val) → s.issuer w q → calm s w →
      ∃ t, exec i s = .next t ∧ tookFault s t w q code pc val) ∧
  (∀ (i : Instr) (s : State) (w : Wave) (q : SubWave) (code : BitVec 16) (pc val : W64),
    ownFault s w q i = some (code, pc, val) → s.issuer w q → w.task = false → queueHasRoom s w.ctx →
    (∀ g, s.group? w.gid = some g → g.breaking w.id w.widx none = []) →
    (w.handler = none → (s.ctx w.ctx).r.handler = 0 →
      ∃ t w', exec i s = .next t ∧ t.wave? w.id = some w' ∧ w'.halt = .unhandled ∧
        w'.trapCause = code ∧ w'.trapPc = pc ∧ w'.trapVal = val ∧ w'.subs = withdrawn w.subs ∧ w'.sregs = w.sregs ∧
        (∀ e ∈ t.waitList, e.2.2.1 ≠ w.id) ∧
        reported s t w.ctx code.toNat 0 4 (w.ident 0).toNat pc.toNat (if code = 0x05 then val.toNat else 0) (val.toNat % 2 ^ 32)) ∧
    (w.handler ≠ none →
      ∃ t w', exec i s = .next t ∧ t.wave? w.id = some w' ∧ w'.halt = .unhandled ∧
        w'.trapCause = w.trapCause ∧ w'.trapPc = w.trapPc ∧ w'.trapVal = w.trapVal ∧ w'.subs = withdrawn w.subs ∧
        (∀ e ∈ t.waitList, e.2.2.1 ≠ w.id) ∧
        reported s t w.ctx 0x0C 0 4 (w.ident 0).toNat w.trapPc.toNat pc.toNat code.toNat))

open Sys2Proof Sys2Proof.Machine Sys2Proof.Claims in
/-- `eret` (R134, R223): in the handler, with a target that passes R98, it clears bit [0] of kWSTATE and goes to kTRAPPC;
outside the handler it raises ERET_OUTSIDE with kTRAPVAL := kTRAPPC.  `bkpt` (R133, R428): with breakpoints armed in a debug block of
its context the wave halts, to go on at PC + 4, and enters no handler; the block's ring takes a record of reason 12 with the immediate
as its blame, where the ring's place lies in banks that the block may name (R427).  With none armed it is a `nop`. -/
def Obligations.ReturnsAndBreakpoints : Prop :=
  (∀ (s : State) (w : Wave) (q : SubWave), s.issuer w q →
    (w.handler ≠ none → goodTarget s w w.trapPc →
      ∃ w', exec .eret s = .next (s.withIssuer w') ∧ w'.handler = none ∧
        { w'.still with handler := w.handler } = w.still ∧ w.wentTo w' q w.trapPc) ∧
    (calm s w → ∃ t, exec .eret s = .next t ∧ tookFault s t w q 0x0B q.pc w.trapPc)) ∧
  (∀ (i : BitVec 16) (s : State) (w : Wave) (q : SubWave), s.issuer w q →
    ((∀ f ∈ s.blocksOf (s.ctx w.ctx), f.dctl.getLsbD 0 = false) → ∃ t, exec (.bkpt i) s = .next t ∧ passed s t w q) ∧
    ((∃ f ∈ s.blocksOf (s.ctx w.ctx), f.dctl.getLsbD 0 = true) →
      ∃ t w', exec (.bkpt i) s = .next t ∧ t.waves = w' :: s.waves.tail ∧ w'.halt = .breakpoint ∧
        { w'.still with halt := w.halt } = w.still ∧ w.wentTo w' q (q.pc + 4) ∧ t.ext = s.ext ∧ t.ctxs = s.ctxs ∧
        t.flight = s.flight ∧
        ((∀ f ∈ s.blocksOf (s.ctx w.ctx), f.dctl.getLsbD 0 = true → f.slen = 0) → t.slice = s.slice) ∧
        ∀ f, (s.blocksOf (s.ctx w.ctx)).filter (fun f => f.dctl.getLsbD 0) = [f] → s.func f.id = f → f.slen ≠ 0 →
          s.blockOwns f.id (f.sring.toNat + 64 * (f.shead.toNat % f.slen.toNat)) 64 = true →
          recorded s t f.id (w.reportIdent q.quads).toNat q.pc.toNat i.toNat 12 0 0 0))

open Sys2Proof Sys2Proof.Machine Sys2Proof.Claims in
/-- `getk` writes the special register that R128 gives, and `tick` the global tick sampled at issue, to one scalar (R135, R144).
`setk` (R136): an RW register takes the source's low bits, each one bit of the source clears a bit of kFLAGS, but for the flags that an
operation in flight sets in that clk (R43), and a write to a read-only register changes nothing.  More than 16 bits for kLIVEMASK raise LIVEMASK_LIMIT and leave it unchanged (R116). -/
def Obligations.SpecialRegistersAreReadAndWritten : Prop :=
  (∀ (s : State) (w : Wave) (q : SubWave) (d k : BitVec 6), s.issuer w q →
    (∀ v, specialRegister s w q k.toNat = some v → ∃ t, exec (.getk d k) s = .next t ∧ wroteScalar s t w q d v (q.pc + 4)) ∧
    (k = 10 → ∃ t v, exec (.getk d k) s = .next t ∧ wroteScalar s t w q d v (q.pc + 4) ∧
      (w.task = false → v = BitVec.allOnes 64) ∧
      ∀ l, w.task = true → l < 32 → q.quads.getLsbD (l / 4) → w.working.getLsbD l →
        (∀ j, j < l → q.quads.getLsbD (j / 4) → ¬w.working.getLsbD j) → v = w.keyOf l) ∧
    ∃ t, exec (.tick d) s = .next t ∧ wroteScalar s t w q d (BitVec.ofNat 64 s.tick) (q.pc + 4)) ∧
  (∀ (s : State) (w : Wave) (q : SubWave) (a k : BitVec 6), s.issuer w q →
    (¬(k = 1 ∧ 16 < (setBits 32 (w.s a.toNat)).length) →
      ∃ w', exec (.setk a k) s = .next (s.withIssuer w') ∧
        w'.flags = (if k = 0 then
            w.flags &&& ~~~(BitVec.ofNat 8 (un w a)) ||| (if w.lateTick = s.tick then w.lateFlags else 0)
          else w.flags) ∧
        w'.livemask = (if k = 1 then BitVec.ofNat 32 (un w a) else w.livemask) ∧
        w'.trapCause = (if k = 14 then BitVec.ofNat 16 (un w a) else w.trapCause) ∧
        w'.trapPc = (if k = 15 then w.s a.toNat else w.trapPc) ∧
        w'.trapVal = (if k = 16 then w.s a.toNat else w.trapVal) ∧
        { w'.still with
          flags := w.flags
          livemask := w.livemask
          trapCause := w.trapCause
          trapPc := w.trapPc
          trapVal := w.trapVal } = w.still ∧ w.wentTo w' q (q.pc + 4)) ∧
    (k = 1 → 16 < (setBits 32 (w.s a.toNat)).length → calm s w →
      ∃ t, exec (.setk a k) s = .next t ∧ tookFault s t w q 0x07 q.pc (BitVec.ofNat 64 (un w a % 2 ^ 32))))

open Sys2Proof Sys2Proof.Machine Sys2Proof.Claims in
/-- The mode-slot instructions (R137): a new value with no reserved field value goes to the slot, and for `modem` the old one,
zero-extended, to sa; any other raises ILLEGAL_MODE with that value, and slot and sa keep theirs (R93). -/
def Obligations.ModeWritesOneSlot : Prop :=
  ∀ (i : Instr) (s : State) (w : Wave) (q : SubWave) (m : BitVec 2) (v : W32), newSlot w i = some (m, v) → s.issuer w q →
    (reservedFree v →
      ∃ w', exec i s = .next (s.withIssuer w') ∧
        (∀ n, w'.slotOf n = if n = m.toNat then v else w.slotOf n) ∧
        (∀ r, w'.s r = match i with
          | .modem _ a _ => if r = a.toNat then BitVec.ofNat 64 (w.slotOf m.toNat).toNat else w.s r
          | _ => w.s r) ∧
        { w'.still with modes := w.modes, sregs := w.sregs } = w.still ∧ w.wentTo w' q (q.pc + 4)) ∧
    (¬reservedFree v → calm s w →
      ∃ t, exec i s = .next t ∧ tookFault s t w q 0x02 q.pc (BitVec.ofNat 64 v.toNat))

open Sys2Proof Sys2Proof.Machine Sys2Proof.Claims in
/-- The extended block (R118, R139).  `xacq` is granted one when the quadrant has one free and nobody waits; the block reads as
zero; held already, it changes nothing; else its sub-wave alone waits, at the end of the queue.  `xrel` returns it.  A freed block
goes to the wave that has waited longest. -/
def Obligations.ExtendedBlockIsGrantedInOrder : Prop :=
  (∀ (s : State) (w : Wave) (q : SubWave), s.issuer w q →
    (w.ext = true → ∃ t, exec .xacq s = .next t ∧ passed s t w q) ∧
    (w.ext = false → (s.waves.filter fun x => x.quadrant == w.quadrant && x.ext).length < 8 →
      (∀ e ∈ s.waitList, ¬(e.1 = w.quadrant ∧ e.2.1 = 0)) →
      ∃ w', exec .xacq s = .next (s.withIssuer w') ∧ w'.ext = true ∧
        (∀ r l, l < 32 → w'.v r l = if r < 32 then w.v r l else 0) ∧
        { w'.still with ext := w.ext, vregs := w.vregs } = w.still ∧ w.wentTo w' q (q.pc + 4)) ∧
    (w.ext = false → 8 ≤ (s.waves.filter fun x => x.quadrant == w.quadrant && x.ext).length ∨
        (∃ e ∈ s.waitList, e.1 = w.quadrant ∧ e.2.1 = 0) →
      ∃ t w', exec .xacq s = .next t ∧ t.waves = w' :: s.waves.tail ∧
        w' = { w with subs := { q with st := .forBlock } :: w.subs.tail } ∧
        t.waitList = s.waitList ++ [(w.quadrant, 0, w.id, .xacq)] ∧ { t with waves := s.waves, waitList := s.waitList } = s) ∧
    ∃ w', exec .xrel s = .next (s.withIssuer w') ∧ w'.ext = false ∧ { w'.still with ext := w.ext } = w.still ∧
      w.wentTo w' q (q.pc + 4)) ∧
  ∀ (s : State) (quad : Nat) (before after : List (Nat × Nat × Nat × Instr)) (wid : Nat) (i : Instr) (w : Wave),
    s.waitList = before ++ (quad, 0, wid, i) :: after → (∀ e ∈ before, ¬(e.1 = quad ∧ e.2.1 = 0)) → s.wave? wid = some w →
    (s.waves.filter fun x => x.quadrant == quad && x.ext).length < 8 →
      ∃ t w', exec (.extendedBlockGrant quad) s = .next t ∧ t.wave? wid = some w' ∧ w'.ext = true ∧
        (∀ r l, l < 32 → w'.v r l = if r < 32 then w.v r l else 0) ∧
        w'.subs = w.subs.map (fun q => if q.st = .forBlock then { q with st := .ready, pc := q.pc + 4 } else q) ∧
        { w' with ext := w.ext, vregs := w.vregs, subs := w.subs } = w ∧ (∀ j, j ≠ wid → t.wave? j = s.wave? j) ∧
        { t with waves := s.waves, waitList := s.waitList } = s ∧ ∀ e ∈ t.waitList, ¬(e.2.1 = 0 ∧ e.2.2.1 = wid)

open Sys2Proof Sys2Proof.Machine Sys2Proof.Claims in
/-- `yield` holds its wave back for one clk more than an issue does and zeroes its age (R122, R140).  A `rejoin` passes in a wave of
one sub-wave; else its sub-wave parks, and when it was the last, the sub-waves join at the word after a common address (R109), or
REJOIN_MISMATCH is raised (R110).  That a joining which the handler's sub-wave completes makes the joined sub-wave the handler's is the
model's choice (log 96). -/
def Obligations.RejoinJoinsTheSubWaves : Prop :=
  ∀ (s : State) (w : Wave) (q : SubWave), s.issuer w q →
    (∃ w', exec .yield s = .next (s.withIssuer w') ∧ w'.notBefore = s.tick + 2 ∧ w'.lastIssue = s.tick ∧
      { w'.still with notBefore := w.notBefore } = w.still ∧ w.wentTo w' q (q.pc + 4)) ∧
    (w.subs = [q] → ∃ t, exec .rejoin s = .next t ∧ passed s t w q) ∧
    ((∃ p ∈ w.subs.tail, p.st ≠ .parked) →
      exec .rejoin s = .next (s.withIssuer { w with subs := { q with st := .parked } :: w.subs.tail, lastIssue := s.tick })) ∧
    (w.subs.tail ≠ [] → (∀ p ∈ w.subs.tail, p.st = .parked ∧ p.pc = q.pc) →
      ∃ t w' p, exec .rejoin s = .next t ∧ t.wave? w.id = some w' ∧ w'.subs = [p] ∧ p.pc = q.pc + 4 ∧ p.st = .ready ∧
        (∀ k, p.quads.getLsbD k = true ↔ ∃ x ∈ w.subs, x.quads.getLsbD k = true) ∧
        w'.handler = w.handler.map (fun _ => p.quads) ∧ { w'.still with handler := w.handler } = w.still ∧
        (∀ j, j ≠ w.id → t.wave? j = s.wave? j) ∧ { t with waves := s.waves } = s) ∧
    ((∀ p ∈ w.subs.tail, p.st = .parked) → (∃ p ∈ w.subs.tail, p.pc ≠ q.pc) → calm s w →
      ∃ t w', exec .rejoin s = .next t ∧ t.wave? w.id = some w' ∧ w'.trapCause = 0x06 ∧
        (∀ p ∈ w.subs, w'.trapPc.toNat ≤ p.pc.toNat) ∧ (∃ p ∈ w.subs, p.pc = w'.trapPc) ∧ (∃ p ∈ w.subs, p.pc = w'.trapVal) ∧
        ∀ p ∈ w.subs, p.pc.toNat ≤ w'.trapVal.toNat)

open Sys2Proof Sys2Proof.Machine Sys2Proof.Claims in
/-- `fence` and `waitc` (R75, R141, R143).  With nothing of the wave under way both pass at once.  A `fence` whose mask names stores
waits, with the whole wave, for a store still to be performed in its domain, and a `waitc` for a counter above its limit;
a scope above 8 raises ILLEGAL_MODE with the word. -/
def Obligations.FenceAndWaitcWait : Prop :=
  ∀ (s : State) (w : Wave) (q : SubWave) (k c l st cb mb : BitVec 4), s.issuer w q →
    (quiet s w → c.toNat ≤ 8 → ∃ t, exec (.fence k c) s = .next t ∧ passed s t w q) ∧
    (8 < c.toNat → calm s w → ∃ t, exec (.fence k c) s = .next t ∧
      tookFault s t w q 0x02 q.pc (BitVec.ofNat 64 (0x00E00000 + k.toNat * 2 ^ 16 + c.toNat * 2 ^ 12))) ∧
    (c.toNat ≤ 8 → k = 2 → (∃ a ∈ s.flight, a.wave = w.id ∧ a.kind = .store ∧ ∃ u ∈ a.units, u.done = false ∧
        inDomain c.toNat w.core u.addr = true) →
      exec (.fence k c) s = .next (s.withIssuer { w with wait := .again q.quads })) ∧
    (quiet s w → w.batchesC = [] → w.batchesM = [] → ∃ t, exec (.waitc l st cb mb) s = .next t ∧ passed s t w q) ∧
    ((l ≠ 15 ∧ l.toNat < (s.flight.filter fun a => a.wave == w.id && a.inLd).length) ∨
        (st ≠ 15 ∧ st.toNat < (s.flight.filter fun a => a.wave == w.id && a.inSt).length) →
      exec (.waitc l st cb mb) s = .next (s.withIssuer { w with wait := .again q.quads }))

open Sys2Proof Sys2Proof.Machine Sys2Proof.Claims in
/-- The transfers of a whole sub-wave (R145, R147, R148): a target that passes R98 is reached, with PC + 4 in s63 for `call` and
`callr`; a target that fails it transfers nothing and leaves s63; a branch on a scalar that is not taken goes on.  The predicate branches
(R107, R148): the quads of the issuing sub-wave whose test holds over their working lanes go to the target, the others on; where both
sets have a quad the sub-wave divides in two; a failing target transfers no quad. -/
def Obligations.TransfersAndBranchesReachTheirTargets : Prop :=
  (∀ (i : Instr) (s : State) (w : Wave) (q : SubWave), s.issuer w q →
    (∀ a link, transfer w q i = some (a, link) →
      (goodTarget s w a →
        ∃ w', exec i s = .next (s.withIssuer w') ∧ (∀ r, w'.s r = if link ∧ r = 63 then q.pc + 4 else w.s r) ∧
          { w'.still with sregs := w.sregs } = w.still ∧ w.wentTo w' q a) ∧
      (¬goodTarget s w a → calm s w →
        ∃ t, exec i s = .next t ∧ tookFault s t w q (if a.toNat % 4 = 0 then 0x05 else 0x04) q.pc a)) ∧
    ∀ r o, (i = .brz r o ∨ i = .brnz r o) → transfer w q i = none → ∃ t, exec i s = .next t ∧ passed s t w q) ∧
  (∀ (i : Instr) (s : State) (w : Wave) (q : SubWave) (o : BitVec 19) (test : Nat → Prop) (yes : BitVec 8),
    (∀ k, quadTest w k i = some (o, test k)) → s.issuer w q →
    (∀ k, k < 8 → (yes.getLsbD k = true ↔ q.quads.getLsbD k = true ∧ test k)) →
    (yes = 0 → ∃ t, exec i s = .next t ∧ passed s t w q) ∧
    (yes ≠ 0 → goodTarget s w (target q o) →
      ∃ w', exec i s = .next (s.withIssuer w') ∧ w'.still = w.still ∧
        (yes = q.quads → w.wentTo w' q (target q o)) ∧
        (yes ≠ q.quads → w'.subs = ⟨yes, target q o, .ready⟩ :: ⟨q.quads &&& ~~~yes, q.pc + 4, .ready⟩ :: w.subs.tail)) ∧
    (yes ≠ 0 → ¬goodTarget s w (target q o) → calm s w →
      ∃ t, exec i s = .next t ∧ tookFault s t w q (if (target q o).toNat % 4 = 0 then 0x05 else 0x04) q.pc (target q o)))

/-! ## The end of a sub-wave (R131), and the vector instructions (R86 to R94, R155 to R189) -/

namespace Sys2Proof.Claims

open Sys2Proof.Machine

/-! ### What the manual says of slots, lanes and operands -/

/-- The type, rounding and edge fields of a slot value, and its saturate and flush bits (R92). -/
def typ (m : W32) : Nat := m.toNat / 2 ^ 4 % 16
def rnd (m : W32) : Nat := m.toNat / 2 ^ 8 % 8
def edge (m : W32) : Nat := m.toNat / 2 ^ 13 % 4
def sat (m : W32) : Bool := m.getLsbD 11
def flush (m : W32) : Bool := m.getLsbD 12

/-- Elements in a register, the width of one, and its signedness as an integer (R28, R157). -/
def cnt (t : Nat) : Nat := if t ≤ 2 then 1 else if t ≤ 6 then 2 else if t ≤ 10 then 4 else 8
def wid (t : Nat) : Nat := 32 / cnt t
def signed (t : Nat) : Bool := !([1, 4, 8, 12].contains t)

/-- The guard bit of a lane: predicate [2:0] of the slot, complemented by [3] (R92). -/
def guarded (w : Wave) (m : W32) (l : Nat) : Prop := (w.p (m.toNat % 8)).getLsbD l = true ↔ m.toNat / 8 % 2 = 0

/-- A lane of the issuing quads that works, or that helps in a quad with a working lane (R104). -/
def works (w : Wave) (q : SubWave) (l : Nat) : Prop := q.quads.getLsbD (l / 4) = true ∧ w.working.getLsbD l = true
def helps (w : Wave) (q : SubWave) (l : Nat) : Prop :=
  q.quads.getLsbD (l / 4) = true ∧ w.working.getLsbD l = false ∧ ∃ k, k / 4 = l / 4 ∧ w.working.getLsbD k = true

/-- Active and ActiveH (R94, R105). -/
def act (w : Wave) (q : SubWave) (m : W32) (l : Nat) : Prop := works w q l ∧ guarded w m l
def actH (w : Wave) (q : SubWave) (m : W32) (l : Nat) : Prop := (works w q l ∨ helps w q l) ∧ guarded w m l

/-- Opnd of R90. -/
def operand (w : Wave) (m : W32) (f l : Nat) : W32 :=
  if f < 96 then w.v f l
  else
    let n : Int := if f < 112 then (l : Int) - 1 else l + 1
    if 0 ≤ n ∧ n ≤ 31 then w.v (f % 16) n.toNat
    else if edge m = 0 then 0
    else if edge m = 1 then w.v (f % 16) l
    else w.v (f % 16) (n % 32).toNat

/-- Element k of a register under a type, and as an integer of its signedness (R28, R157). -/
def elt (t : Nat) (x : W32) (k : Nat) : Nat := x.toNat / 2 ^ (wid t * k) % 2 ^ wid t
def asInt (s : Bool) (w n : Nat) : Int := if s ∧ 2 ^ (w - 1) ≤ n then (n : Int) - 2 ^ w else n

/-- A result wrapped to w bits, and clamped to the range of its signedness first where it saturates (R29, R101, R161). -/
def clamp (s : Bool) (w : Nat) (i : Int) : Int :=
  if s then max (-2 ^ (w - 1)) (min (2 ^ (w - 1) - 1) i) else max 0 (min (2 ^ w - 1) i)
def wrap (w : Nat) (i : Int) : Nat := (i % 2 ^ w).toNat

/-! ### The forms of the vector instructions -/

/-- What a vector instruction is made of: its slot, the fields that may name the extended block in the order of R89, the types that it
accepts (R157, R167, R169, R185), the flags that it may set, and whether it rounds. -/
structure Form where
  slot : BitVec 2
  fields : List (BitVec 7)
  types : List Nat
  flags : BitVec 8
  rounds : Bool

/-- Every type code of R28. -/
def anyType : List Nat := List.range 16

/-- The integer forms write lanes of d; only those that saturate may set a flag, and that one (R161 to R168, R181). -/
def integerForm : Instr → Option (BitVec 7 × Form)
  | .vadd m d a b | .vsub m d a b | .vmul m d a b | .vmad m d a b | .vadds m d a b | .vsubs m d a b =>
    some (d, ⟨m, [d, a, b], anyType, 0x20, false⟩)
  | .vmulh m d a b | .vand m d a b | .vor m d a b | .vxor m d a b | .vandn m d a b | .vshl m d a b | .vshr m d a b
  | .vsra m d a b | .vmin m d a b | .vmax m d a b | .vbfe m d a b | .vbfi m d a b =>
    some (d, ⟨m, [d, a, b], anyType, 0, false⟩)
  | .vabs m d a => some (d, ⟨m, [d, a], anyType, 0x20, false⟩)
  | .vclz m d a | .vpopc m d a => some (d, ⟨m, [d, a], anyType, 0, false⟩)
  | .vdot4 m d a b => some (d, ⟨m, [d, a, b], [7, 8], 0x20, false⟩)
  | .vdot8 m d a b => some (d, ⟨m, [d, a, b], [11, 12], 0x20, false⟩)
  | .vaddi m d a _ => some (d, ⟨m, [d, a], anyType, 0x20, false⟩)
  | .vandi m d a _ | .vori m d a _ | .vxori m d a _ => some (d, ⟨m, [d, a], anyType, 0, false⟩)
  | .vshli m d a _ | .vshri m d a _ | .vsrai m d a _ => some (d, ⟨m, [d, a], anyType, 0, false⟩)
  | .vmovi m d _ => some (d, ⟨m, [d], anyType, 0, false⟩)
  | _ => none

/-- The floating-point forms (R169 to R180), and the exchange forms that write lanes where the guard is set (R183 to R188). -/
def floatForm : Instr → Option (BitVec 7 × Form)
  | .vfadd m d a b | .vfsub m d a b | .vfmul m d a b | .vfma m d a b | .vfscl m d a b =>
    some (d, ⟨m, [d, a, b], [2, 5, 6], 0x3F, true⟩)
  | .vfmin m d a b | .vfmax m d a b => some (d, ⟨m, [d, a, b], [2, 5, 6], 0x01, false⟩)
  | .vfneg m d a | .vfabs m d a => some (d, ⟨m, [d, a], [2, 5, 6], 0, false⟩)
  | .vfrcp m d a | .vfrsq m d a | .vfexp2 m d a | .vflog2 m d a => some (d, ⟨m, [d, a], [2, 5, 6], 0x3F, false⟩)
  | .vfdot4 m d a b => some (d, ⟨m, [d, a, b], [9, 10], 0x3F, true⟩)
  | .vfdot8 m d a b => some (d, ⟨m, [d, a, b], [13], 0x3F, true⟩)
  | .vfcvt m d a _ => some (d, ⟨m, [d, a], anyType, 0x3F, true⟩)
  | .vfpk4 m d a => some (d, ⟨m, [d, a], [9, 10], 0x3F, true⟩)
  | .vfclass m d a => some (d, ⟨m, [d, a], [2, 5, 6, 9, 10, 13], 0, false⟩)
  | .vfrnd m d a => some (d, ⟨m, [d, a], [2, 5, 6], 0x11, true⟩)
  | .vmov m d a | .vbcst m d a _ | .vqswz m d a _ => some (d, ⟨m, [d, a], anyType, 0, false⟩)
  | .vmovs m d _ | .vlaneid m d => some (d, ⟨m, [d], anyType, 0, false⟩)
  | .vshfl m d a b => some (d, ⟨m, [d, a, b], anyType, 0, false⟩)
  | .vqsum m d a | .vprfx m d a _ | .vredadd m d a =>
    some (d, ⟨m, [d, a], [0, 1, 2, 3, 4, 5, 6, 7, 8, 11, 12, 14, 15], 0x3F, true⟩)
  | .vredmin m d a | .vredmax m d a => some (d, ⟨m, [d, a], [0, 1, 2, 3, 4, 5, 6, 7, 8, 11, 12, 14, 15], 0x01, false⟩)
  | _ => none

/-- The compares write bits of a predicate (R166, R173). -/
def compareForm : Instr → Option (BitVec 7 × Form)
  | .vcmpeq m d a b | .vcmpne m d a b | .vcmplt m d a b | .vcmple m d a b => some (d, ⟨m, [a, b], anyType, 0, false⟩)
  | .vfcmpeq m d a b | .vfcmplt m d a b | .vfcmple m d a b | .vfcmpun m d a b =>
    some (d, ⟨m, [a, b], [2, 5, 6], 0x01, false⟩)
  | _ => none

/-- The form of the three that write lanes whatever their guard, or a scalar (R165, R183, R189). -/
def otherForm : Instr → Option (BitVec 7 × Form)
  | .vsel m d a b => some (d, ⟨m, [d, a, b], anyType, 0, false⟩)
  | .vcmpct m d a => some (d, ⟨m, [d, a], anyType, 0, false⟩)
  | .vrdlane m d a _ => some (d, ⟨m, [a], anyType, 0, false⟩)
  | _ => none

/-- A field names the extended block (R89). -/
def names (x : BitVec 7) : Prop := 32 ≤ x.toNat ∧ x.toNat < 96

/-- The form may be issued: it names no extended register without a block, and the type is one that it accepts. -/
def Form.issues (f : Form) (w : Wave) : Prop :=
  (w.ext = true ∨ ∀ x ∈ f.fields, ¬names x) ∧ typ (w.slotOf f.slot.toNat) ∈ f.types

/-- What every vector form keeps of the wave: its other registers, the flags that it may not set, every flag that is set, the
flags and the grain when no lane is Active, and the grain of every other lane, or of all unless it rounds under rsr (R36, R41, R94). -/
def Form.keeps (f : Form) (w w' : Wave) (q : SubWave) : Prop :=
  let m := w.slotOf f.slot.toNat
  w'.flags &&& ~~~f.flags = w.flags &&& ~~~f.flags ∧ w'.flags ||| w.flags = w'.flags ∧
    ((∀ l, ¬act w q m l) → w'.flags = w.flags) ∧
    (∀ l, l < 32 → (f.rounds = false ∨ rnd m ≠ 4 ∨ ¬act w q m l) → w'.grain.get l = w.grain.get l) ∧
    { w'.still with
      vregs := w.vregs
      preds := w.preds
      sregs := w.sregs
      flags := w.flags
      grain := w.grain } = w.still ∧ w.wentTo w' q (q.pc + 4)

/-- The register file of a wave is as another's but for register d in some lanes. -/
def lanesOnly (w w' : Wave) (d : BitVec 7) (on : Nat → Prop) : Prop :=
  w'.preds = w.preds ∧ w'.sregs = w.sregs ∧ ∀ r l, l < 32 → (r ≠ d.toNat ∨ ¬on l) → w'.v r l = w.v r l

end Sys2Proof.Claims

open Sys2Proof Sys2Proof.Machine Sys2Proof.Claims in
/-- `end` in a grid wave (R131).  Its sub-wave waits while a load of the wave is under way.  With nothing of the wave under way its
quads exit: where other sub-waves stay, one of them not parked, they are left as they are; where none stays, the wave leaves,
its flags are ORed into the context's summary flags, and no other wave changes (R40). -/
def Obligations.EndEndsTheSubWave : Prop :=
  ∀ (s : State) (w : Wave) (q : SubWave), s.issuer w q → w.task = false →
    ((∀ k, q.st ≠ .ending k) →
      (∃ a ∈ s.flight, a.wave = w.id ∧ a.id < s.nextId ∧ a.inLd = true ∧ ∃ u ∈ a.units, u.done = false) →
      exec .endq s =
        .next (s.withIssuer { w with subs := { q with st := .ending s.nextId } :: w.subs.tail, wait := .none })) ∧
    (quiet s w → w.handler = none → (∀ h ∈ (s.ctx w.ctx).held, h.wave ≠ w.id) →
      (∀ g, s.group? w.gid = some g → g.breaking w.id w.widx none = []) →
      (∀ p ∈ w.subs.tail, p.quads &&& q.quads = 0 ∧ p.quads ≠ 0) → q.quads ≠ 0 →
      ((∃ p ∈ w.subs.tail, p.st ≠ .parked) →
        ∃ t w', exec .endq s = .next t ∧ t.wave? w.id = some w' ∧ w'.subs = w.subs.tail ∧ w'.live = w.live &&& ~~~q.quads ∧
          { w'.still with live := w.live } = w.still ∧ (∀ j, j ≠ w.id → t.wave? j = s.wave? j) ∧
          t.slice = s.slice ∧ t.flight = s.flight ∧ t.groups = s.groups) ∧
      (w.subs.tail = [] → (∃ c ∈ s.ctxs, c.id = w.ctx) →
        ∃ t, exec .endq s = .next t ∧ t.wave? w.id = none ∧ (∀ j, j ≠ w.id → t.wave? j = s.wave? j) ∧
          (t.ctx w.ctx).sumflags = (s.ctx w.ctx).sumflags ||| w.flags ∧
          (∀ a, ¬((s.ctx w.ctx).recAddr + 40 ≤ a ∧ a < (s.ctx w.ctx).recAddr + 44) → t.slice.byte a = s.slice.byte a)))

open Sys2Proof Sys2Proof.Machine Sys2Proof.Claims in
/-- The integer vector forms (R156 to R168, R181): whatever the lanes hold, the instruction executes, writes register d in no lane
outside ActiveH, sets at most the saturated flag and only where a lane is Active, draws no grain, and changes nothing else. -/
def Obligations.IntegerVectorWritesActiveLanesOnly : Prop :=
  ∀ (i : Instr) (d : BitVec 7) (f : Form) (s : State) (w : Wave) (q : SubWave), integerForm i = some (d, f) → s.issuer w q →
    f.issues w →
      ∃ w', exec i s = .next (s.withIssuer w') ∧ lanesOnly w w' d (actH w q (w.slotOf f.slot.toNat)) ∧ f.keeps w w' q

open Sys2Proof Sys2Proof.Machine Sys2Proof.Claims in
/-- The same of the floating-point forms and the exchange forms (R169 to R188), with the flags of R40 that each may set, and grain
drawn only by Active lanes and only where the form rounds under rsr (R36). -/
def Obligations.FloatAndExchangeWriteActiveLanesOnly : Prop :=
  ∀ (i : Instr) (d : BitVec 7) (f : Form) (s : State) (w : Wave) (q : SubWave), floatForm i = some (d, f) → s.issuer w q →
    f.issues w →
      ∃ w', exec i s = .next (s.withIssuer w') ∧ lanesOnly w w' d (actH w q (w.slotOf f.slot.toNat)) ∧ f.keeps w w' q

open Sys2Proof Sys2Proof.Machine Sys2Proof.Claims in
/-- The compares (R166, R173) change bits of one predicate in ActiveH lanes alone, p0 never; an integer compare sets no flag, and a
float compare at most invalid. -/
def Obligations.CompareWritesPredicateBitsOnly : Prop :=
  ∀ (i : Instr) (d : BitVec 7) (f : Form) (s : State) (w : Wave) (q : SubWave), compareForm i = some (d, f) → s.issuer w q →
    f.issues w →
      ∃ w', exec i s = .next (s.withIssuer w') ∧ w'.vregs = w.vregs ∧ w'.sregs = w.sregs ∧ w'.p 0 = BitVec.allOnes 32 ∧
        (∀ r l, l < 32 → (r ≠ d.toNat ∨ ¬actH w q (w.slotOf f.slot.toNat) l) → (w'.p r).getLsbD l = (w.p r).getLsbD l) ∧
        f.keeps w w' q

open Sys2Proof Sys2Proof.Machine Sys2Proof.Claims in
/-- The faults of the vector forms, whatever the guard (R94): the first field that names v32 to v95 without a block is the value of
EXTENDED_NOT_HELD (R89); a type that the form does not accept raises TYPE_UNSUPPORTED with the slot's value (R157).  Neither writes
a register. -/
def Obligations.VectorFaultsComeBeforeAnyWrite : Prop :=
  ∀ (i : Instr) (d : BitVec 7) (f : Form) (s : State) (w : Wave) (q : SubWave),
    (integerForm i = some (d, f) ∨ floatForm i = some (d, f) ∨ compareForm i = some (d, f) ∨ otherForm i = some (d, f)) →
    s.issuer w q → calm s w →
    (∀ before x after, w.ext = false → f.fields = before ++ x :: after → (∀ y ∈ before, ¬names y) → names x →
      ∃ t, exec i s = .next t ∧ tookFault s t w q 0x03 q.pc (BitVec.ofNat 64 x.toNat)) ∧
    ((w.ext = true ∨ ∀ x ∈ f.fields, ¬names x) → typ (w.slotOf f.slot.toNat) ∉ f.types →
      ∃ t, exec i s = .next t ∧ tookFault s t w q 0x0A q.pc (BitVec.ofNat 64 (w.slotOf f.slot.toNat).toNat))

/-! ## The results of the vector instructions (R156 to R189) -/

namespace Sys2Proof.Claims

open Sys2Proof.Machine

/-! ### Integers -/

/-- The exact result of an element of the forms that fit theirs, and whether the form saturates whatever the slot says (R162, R164,
R181): the elements of a, b and d as integers. -/
def exactInt : Instr → Option (BitVec 2 × BitVec 7 × BitVec 7 × BitVec 7 × (Int → Int → Int → Int) × Bool)
  | .vadd m d a b => some (m, d, a, b, fun x y _ => x + y, false)
  | .vsub m d a b => some (m, d, a, b, fun x y _ => x - y, false)
  | .vmul m d a b => some (m, d, a, b, fun x y _ => x * y, false)
  | .vmad m d a b => some (m, d, a, b, fun x y z => x * y + z, false)
  | .vadds m d a b => some (m, d, a, b, fun x y _ => x + y, true)
  | .vsubs m d a b => some (m, d, a, b, fun x y _ => x - y, true)
  | .vabs m d a => some (m, d, a, 0, fun x _ _ => x.natAbs, false)
  | .vaddi m d a i => some (m, d, a, 0, fun x _ _ => x + i.toInt, false)
  | _ => none

/-- The forms that act on all 32 bits of a lane (R163, R168, R181): from the lane's a, b and d, and the signedness of the type. -/
def laneBits : Instr → Option (BitVec 2 × BitVec 7 × BitVec 7 × BitVec 7 × (Bool → W32 → W32 → W32 → W32))
  | .vand m d a b => some (m, d, a, b, fun _ x y _ => x &&& y)
  | .vor m d a b => some (m, d, a, b, fun _ x y _ => x ||| y)
  | .vxor m d a b => some (m, d, a, b, fun _ x y _ => x ^^^ y)
  | .vandn m d a b => some (m, d, a, b, fun _ x y _ => x &&& ~~~y)
  | .vandi m d a i => some (m, d, a, 0, fun _ x _ _ => x &&& BitVec.ofInt 32 i.toInt)
  | .vori m d a i => some (m, d, a, 0, fun _ x _ _ => x ||| BitVec.ofInt 32 i.toInt)
  | .vxori m d a i => some (m, d, a, 0, fun _ x _ _ => x ^^^ BitVec.ofInt 32 i.toInt)
  | .vbfe m d a b => some (m, d, a, b, fun s x y _ =>
    let n := min (y.toNat / 2 ^ 8 % 2 ^ 6) 32
    let f := x.toNat / 2 ^ (y.toNat % 32) % 2 ^ n
    if n = 0 then 0 else BitVec.ofInt 32 (asInt s n f))
  | .vbfi m d a b => some (m, d, a, b, fun _ x y z =>
    let n := min (y.toNat / 2 ^ 8 % 2 ^ 6) 32
    let mask := BitVec.ofNat 32 ((2 ^ n - 1) * 2 ^ (y.toNat % 32))
    (z &&& ~~~mask) ||| ((x <<< (y.toNat % 32)) &&& mask))
  | _ => none

/-- The forms that act on the bits of an element of width w (R162 to R164, R181): from the elements of a and b, unsigned, and the
signedness of the type. -/
def elementBits : Instr → Option (BitVec 2 × BitVec 7 × BitVec 7 × BitVec 7 × (Nat → Bool → Nat → Nat → Nat))
  | .vmulh m d a b => some (m, d, a, b, fun w s x y => wrap w (asInt s w x * asInt s w y / 2 ^ w))
  | .vshl m d a b => some (m, d, a, b, fun w _ x y => x * 2 ^ (y % w) % 2 ^ w)
  | .vshr m d a b => some (m, d, a, b, fun w _ x y => x / 2 ^ (y % w))
  | .vsra m d a b => some (m, d, a, b, fun w _ x y => wrap w (asInt true w x / 2 ^ (y % w)))
  | .vmin m d a b => some (m, d, a, b, fun w s x y => wrap w (min (asInt s w x) (asInt s w y)))
  | .vmax m d a b => some (m, d, a, b, fun w s x y => wrap w (max (asInt s w x) (asInt s w y)))
  | .vclz m d a => some (m, d, a, 0, fun w _ x _ => ((List.range w).takeWhile fun i => !(x.testBit (w - 1 - i))).length)
  | .vpopc m d a => some (m, d, a, 0, fun w _ x _ => ((List.range w).filter fun i => x.testBit i).length)
  | .vshli m d a n => some (m, d, a, 0, fun w _ x _ => x * 2 ^ (n.toNat % w) % 2 ^ w)
  | .vshri m d a n => some (m, d, a, 0, fun w _ x _ => x / 2 ^ (n.toNat % w))
  | .vsrai m d a n => some (m, d, a, 0, fun w _ x _ => wrap w (asInt true w x / 2 ^ (n.toNat % w)))
  | .vmovi m d i => some (m, d, 0, 0, fun w _ _ _ => wrap w i.toInt)
  | _ => none

/-- The integer dot products (R167). -/
def dotProduct : Instr → Option (BitVec 2 × BitVec 7 × BitVec 7 × BitVec 7)
  | .vdot4 m d a b | .vdot8 m d a b => some (m, d, a, b)
  | _ => none

/-! ### Floating point, by the encodings of R25 -/

/-- Exponent and mantissa bits of the register formats f32, f16 and bf16, by type code (R25, R28). -/
def expBits (t : Nat) : Nat := if t = 5 then 5 else 8
def manBits (t : Nat) : Nat := if t = 2 then 23 else if t = 5 then 10 else 7

/-- Magnitude bits, sign, and the tests of an encoding; the flush bit reads a subnormal as zero (R25, R30). -/
def mag (t x : Nat) : Nat := x % 2 ^ (wid t - 1)
def neg (t x : Nat) : Bool := decide (2 ^ (wid t - 1) ≤ x)
def infMag (t : Nat) : Nat := (2 ^ expBits t - 1) * 2 ^ manBits t
def isNan (t x : Nat) : Prop := infMag t < mag t x
def isSignalling (t x : Nat) : Prop := isNan t x ∧ mag t x < infMag t + 2 ^ (manBits t - 1)
def canonicalNan (t : Nat) : Nat := infMag t + 2 ^ (manBits t - 1)
def flushed (fl : Bool) (t x : Nat) : Nat := if fl ∧ mag t x < 2 ^ manBits t then x - mag t x else x

/-- The order of the encodings that are no NaN, with the two zeros equal. -/
def rank (t x : Nat) : Int := if neg t x then -(mag t x : Int) else mag t x

/-- The value of a finite encoding, in units of its format's least subnormal. -/
def units (t x : Nat) : Int :=
  let e := mag t x / 2 ^ manBits t
  let m := mag t x % 2 ^ manBits t
  let v : Int := if e = 0 then m else (2 ^ manBits t + m) * 2 ^ (e - 1)
  if neg t x then -v else v

/-- The exponent of a format's least subnormal, negated. -/
def least (t : Nat) : Nat := 2 ^ (expBits t - 1) - 2 + manBits t

/-- The float compares (R173): what an element pair must satisfy, whether one pair suffices, and the inputs that set invalid. -/
def floatTest : Instr → Option (BitVec 2 × BitVec 7 × BitVec 7 × BitVec 7 × (Nat → Nat → Nat → Prop) × Bool)
  | .vfcmpeq m d a b => some (m, d, a, b, fun t x y => ¬isNan t x ∧ ¬isNan t y ∧ rank t x = rank t y, false)
  | .vfcmplt m d a b => some (m, d, a, b, fun t x y => ¬isNan t x ∧ ¬isNan t y ∧ rank t x < rank t y, false)
  | .vfcmple m d a b => some (m, d, a, b, fun t x y => ¬isNan t x ∧ ¬isNan t y ∧ rank t x ≤ rank t y, false)
  | .vfcmpun m d a b => some (m, d, a, b, fun t x y => isNan t x ∨ isNan t y, true)
  | _ => none

/-- The integer compares (R166). -/
def integerTest : Instr → Option (BitVec 2 × BitVec 7 × BitVec 7 × BitVec 7 × (Int → Int → Prop) × Bool)
  | .vcmpeq m d a b => some (m, d, a, b, fun x y => x = y, false)
  | .vcmpne m d a b => some (m, d, a, b, fun x y => x ≠ y, true)
  | .vcmplt m d a b => some (m, d, a, b, fun x y => x < y, false)
  | .vcmple m d a b => some (m, d, a, b, fun x y => x ≤ y, false)
  | _ => none

/-- The exact sum, difference or product of R170, as an equation on values in units. -/
def exactFloat (i : Instr) (t : Nat) (x y z r : Nat) : Prop :=
  match i with
  | .vfadd .. => units t x + units t y = units t r
  | .vfsub .. => units t x - units t y = units t r
  | .vfmul .. => units t x * units t y = units t r * 2 ^ least t
  | .vfma .. => units t x * units t y + units t z * 2 ^ least t = units t r * 2 ^ least t
  | _ => False

/-- The operands of the forms of `exactFloat`. -/
def arithmetic : Instr → Option (BitVec 2 × BitVec 7 × BitVec 7 × BitVec 7)
  | .vfadd m d a b | .vfsub m d a b | .vfmul m d a b | .vfma m d a b => some (m, d, a, b)
  | _ => none

/-! ### Lane exchange -/

/-- Lane(f, N): an absent lane reads as zero (R104, R183). -/
def laneOf (w : Wave) (f n : Nat) (v : W32) : Prop :=
  ((∃ k, k / 4 = n / 4 ∧ w.working.getLsbD k = true) → v = w.v f n) ∧
    ((∀ k, k / 4 = n / 4 → w.working.getLsbD k = false) → v = 0)

/-- What a move writes in a lane (R183, R184). -/
def moved (w : Wave) (m : W32) (l : Nat) (v : W32) : Instr → Prop
  | .vmov _ _ a => v = operand w m a.toNat l
  | .vmovs _ _ a => v = BitVec.ofNat 32 (w.s a.toNat).toNat
  | .vlaneid _ _ => v = BitVec.ofNat 32 l
  | .vbcst _ _ a b => laneOf w a.toNat ((w.s b.toNat).toNat % 32) v
  | .vshfl _ _ a b => laneOf w a.toNat ((operand w m b.toNat l).toNat % 32) v
  | .vqswz _ _ a p =>
    (p.toNat < 4 → v = operand w m a.toNat (l / 4 * 4 + p.toNat)) ∧
      (p = 4 → v = operand w m a.toNat (l / 4 * 4 + (if l % 2 = 0 then l % 4 + 1 else l % 4 - 1))) ∧
      (p = 5 → v = operand w m a.toNat (l / 4 * 4 + (l % 4 + 2) % 4)) ∧
      (p = 6 → v = operand w m a.toNat (l / 4 * 4 + (3 - l % 4)))
  | _ => False

/-- The move's destination. -/
def moveDest : Instr → Option (BitVec 2 × BitVec 7)
  | .vmov m d _ | .vmovs m d _ | .vlaneid m d | .vbcst m d _ _ | .vshfl m d _ _ | .vqswz m d _ _ => some (m, d)
  | _ => none

/-- The sum, minimum or maximum of integers that a combining form computes, from the type's signedness and width (R185); the empty
sum is 0, the empty minimum the greatest value, and the empty maximum the least. -/
def combined (s : Bool) (w : Nat) : Instr → List Int → Int
  | .vredmin .., l => l.foldl min (if s then 2 ^ (w - 1) - 1 else 2 ^ w - 1)
  | .vredmax .., l => l.foldl max (if s then -2 ^ (w - 1) else 0)
  | _, l => l.foldl (· + ·) 0

/-- The forms that combine lanes: slot, d, a, and the lanes that lane L combines, given which lanes are Active and ActiveH
(R186 to R188). -/
def combining (on onH : Nat → Prop) (l : Nat) : Instr → Option (BitVec 2 × BitVec 7 × BitVec 7 × (Nat → Prop))
  | .vqsum m d a => some (m, d, a, fun n => onH n ∧ n / 4 = l / 4)
  | .vprfx m d a e => some (m, d, a, fun n => on n ∧ (n < l ∨ n = l ∧ e = 0))
  | .vredadd m d a | .vredmin m d a | .vredmax m d a => some (m, d, a, fun n => on n)
  | _ => none

/-- A list of lanes in ascending order, of those below 32 that satisfy a test. -/
def lanesThat (p : Nat → Prop) (l : List Nat) : Prop := l.Pairwise (· < ·) ∧ ∀ n, n ∈ l ↔ n < 32 ∧ p n

/-- The integer types of R28. -/
def integerType (t : Nat) : Prop := t = 0 ∨ t = 1 ∨ t = 3 ∨ t = 4 ∨ t = 7 ∨ t = 8 ∨ t = 11 ∨ t = 12

end Sys2Proof.Claims

open Sys2Proof Sys2Proof.Machine Sys2Proof.Claims in
/-- The fitted integer forms (R162, R164, R181): in every ActiveH lane each element of d is the exact result, clamped where the slot or
the form saturates and wrapped to the element otherwise.  The saturated flag is set when an Active lane's element was clamped,
and no other way. -/
def Obligations.VectorArithmeticFitsItsResult : Prop :=
  ∀ (i : Instr) (m : BitVec 2) (d a b : BitVec 7) (f : Int → Int → Int → Int) (always : Bool) (s : State) (w : Wave)
    (q : SubWave), exactInt i = some (m, d, a, b, f, always) → s.issuer w q →
    (w.ext = true ∨ ¬names d ∧ ¬names a ∧ ¬names b) →
    let sl := w.slotOf m.toNat
    let t := typ sl
    let int := fun x k => asInt (signed t) (wid t) (elt t x k)
    let exact := fun l k => f (int (operand w sl a.toNat l) k) (int (operand w sl b.toNat l) k) (int (w.v d.toNat l) k)
    let clamps := fun l k => (sat sl = true ∨ always = true) ∧ clamp (signed t) (wid t) (exact l k) ≠ exact l k
    ∃ w', exec i s = .next (s.withIssuer w') ∧
      (∀ l k, l < 32 → actH w q sl l → k < cnt t →
        elt t (w'.v d.toNat l) k =
          wrap (wid t) (if sat sl = true ∨ always = true then clamp (signed t) (wid t) (exact l k) else exact l k)) ∧
      ((∃ l k, l < 32 ∧ act w q sl l ∧ k < cnt t ∧ clamps l k) → w'.flags = w.flags ||| 0x20) ∧
      ((∀ l k, l < 32 → act w q sl l → k < cnt t → ¬clamps l k) → w'.flags = w.flags)

open Sys2Proof Sys2Proof.Machine Sys2Proof.Claims in
/-- The bitwise forms and bit fields, which act on all 32 bits, and the shifts, the order forms and the counts, which act on each
element (R162 to R164, R168, R181), in every ActiveH lane. -/
def Obligations.VectorBitFormsWriteTheirResult : Prop :=
  (∀ (i : Instr) (m : BitVec 2) (d a b : BitVec 7) (f : Bool → W32 → W32 → W32 → W32) (s : State) (w : Wave) (q : SubWave),
    laneBits i = some (m, d, a, b, f) → s.issuer w q → (w.ext = true ∨ ¬names d ∧ ¬names a ∧ ¬names b) →
    let sl := w.slotOf m.toNat
    ∃ w', exec i s = .next (s.withIssuer w') ∧ ∀ l, l < 32 → actH w q sl l →
      w'.v d.toNat l = f (signed (typ sl)) (operand w sl a.toNat l) (operand w sl b.toNat l) (w.v d.toNat l)) ∧
  ∀ (i : Instr) (m : BitVec 2) (d a b : BitVec 7) (f : Nat → Bool → Nat → Nat → Nat) (s : State) (w : Wave) (q : SubWave),
    elementBits i = some (m, d, a, b, f) → s.issuer w q → (w.ext = true ∨ ¬names d ∧ ¬names a ∧ ¬names b) →
    let sl := w.slotOf m.toNat
    let t := typ sl
    ∃ w', exec i s = .next (s.withIssuer w') ∧ ∀ l k, l < 32 → actH w q sl l → k < cnt t →
      elt t (w'.v d.toNat l) k = f (wid t) (signed t) (elt t (operand w sl a.toNat l) k) (elt t (operand w sl b.toNat l) k)

open Sys2Proof Sys2Proof.Machine Sys2Proof.Claims in
/-- The integer dot products (R167): in every ActiveH lane d is the exact sum of the products of the elements and of d itself, wrapped
to 32 bits or, with the saturate bit, clamped; and `vsel` (R165) gives a where the guard bit is set and b where it is clear, in
every lane of the issuing quads that works or helps, and in no other. -/
def Obligations.DotProductAndSelectResults : Prop :=
  (∀ (i : Instr) (m : BitVec 2) (d a b : BitVec 7) (f : BitVec 7 × Form) (s : State) (w : Wave) (q : SubWave),
    dotProduct i = some (m, d, a, b) → integerForm i = some f → s.issuer w q → f.2.issues w →
    let sl := w.slotOf m.toNat
    let t := typ sl
    let int := fun x k => asInt (signed t) (wid t) (elt t x k)
    ∃ w', exec i s = .next (s.withIssuer w') ∧ ∀ l, l < 32 → actH w q sl l →
      let sum := asInt (signed t) 32 (w.v d.toNat l).toNat +
        ((List.range (cnt t)).map fun k => int (operand w sl a.toNat l) k * int (operand w sl b.toNat l) k).sum
      w'.v d.toNat l = BitVec.ofInt 32 (if sat sl = true then clamp (signed t) 32 sum else sum)) ∧
  ∀ (m : BitVec 2) (d a b : BitVec 7) (s : State) (w : Wave) (q : SubWave), s.issuer w q →
    (w.ext = true ∨ ¬names d ∧ ¬names a ∧ ¬names b) →
    let sl := w.slotOf m.toNat
    ∃ w', exec (.vsel m d a b) s = .next (s.withIssuer w') ∧ lanesOnly w w' d (fun l => works w q l ∨ helps w q l) ∧
      w'.flags = w.flags ∧ { w'.still with vregs := w.vregs } = w.still ∧ w.wentTo w' q (q.pc + 4) ∧
      ∀ l, l < 32 → (works w q l ∨ helps w q l) →
        (guarded w sl l → w'.v d.toNat l = operand w sl a.toNat l) ∧ (¬guarded w sl l → w'.v d.toNat l = operand w sl b.toNat l)

open Sys2Proof Sys2Proof.Machine Sys2Proof.Claims in
/-- The compares (R166, R173): bit L of the predicate, in every ActiveH lane, says whether the test holds of every element, or of some
element for `vcmpne` and `vfcmpun`.  The float order is by value, the zeros equal and a NaN unordered, after the flush of R30. -/
def Obligations.CompareBitSaysTheOrder : Prop :=
  (∀ (i : Instr) (m : BitVec 2) (d a b : BitVec 7) (test : Int → Int → Prop) (some_ : Bool) (s : State) (w : Wave) (q : SubWave),
    integerTest i = some (m, d, a, b, test, some_) → s.issuer w q → (w.ext = true ∨ ¬names a ∧ ¬names b) → d ≠ 0 →
    let sl := w.slotOf m.toNat
    let t := typ sl
    let holds := fun l k => test (asInt (signed t) (wid t) (elt t (operand w sl a.toNat l) k))
      (asInt (signed t) (wid t) (elt t (operand w sl b.toNat l) k))
    ∃ w', exec i s = .next (s.withIssuer w') ∧ ∀ l, l < 32 → actH w q sl l →
      ((w'.p d.toNat).getLsbD l = true ↔
        if some_ then ∃ k, k < cnt t ∧ holds l k else ∀ k, k < cnt t → holds l k)) ∧
  ∀ (i : Instr) (m : BitVec 2) (d a b : BitVec 7) (test : Nat → Nat → Nat → Prop) (some_ : Bool) (s : State) (w : Wave)
    (q : SubWave), floatTest i = some (m, d, a, b, test, some_) → s.issuer w q → (w.ext = true ∨ ¬names a ∧ ¬names b) →
    d ≠ 0 →
    let sl := w.slotOf m.toNat
    let t := typ sl
    (t = 2 ∨ t = 5 ∨ t = 6) →
    let x := fun l k => flushed (flush sl) t (elt t (operand w sl a.toNat l) k)
    let y := fun l k => flushed (flush sl) t (elt t (operand w sl b.toNat l) k)
    let invalid := fun l k => if some_ ∨ (∃ m d a b, i = .vfcmpeq m d a b)
      then isSignalling t (x l k) ∨ isSignalling t (y l k) else isNan t (x l k) ∨ isNan t (y l k)
    ∃ w', exec i s = .next (s.withIssuer w') ∧
      (∀ l, l < 32 → actH w q sl l →
        ((w'.p d.toNat).getLsbD l = true ↔
          if some_ then ∃ k, k < cnt t ∧ test t (x l k) (y l k) else ∀ k, k < cnt t → test t (x l k) (y l k))) ∧
      ((∃ l k, l < 32 ∧ act w q sl l ∧ k < cnt t ∧ invalid l k) → w'.flags = w.flags ||| 0x01) ∧
      ((∀ l k, l < 32 → act w q sl l → k < cnt t → ¬invalid l k) → w'.flags = w.flags)

open Sys2Proof Sys2Proof.Machine Sys2Proof.Claims in
/-- The float forms that round nothing (R171, R172): `vfneg` inverts and `vfabs` clears the sign, a NaN giving the canonical NaN;
`vfmin` and `vfmax` give the one operand that is no NaN, or the operand that comes first in the order, -0 before +0. -/
def Obligations.SignAndOrderFormsOfFloats : Prop :=
  ∀ (m : BitVec 2) (d a b : BitVec 7) (s : State) (w : Wave) (q : SubWave), s.issuer w q →
    (w.ext = true ∨ ¬names d ∧ ¬names a ∧ ¬names b) →
    let sl := w.slotOf m.toNat
    let t := typ sl
    (t = 2 ∨ t = 5 ∨ t = 6) →
    let x := fun l k => flushed (flush sl) t (elt t (operand w sl a.toNat l) k)
    let y := fun l k => flushed (flush sl) t (elt t (operand w sl b.toNat l) k)
    (∃ w', exec (.vfneg m d a) s = .next (s.withIssuer w') ∧ ∀ l k, l < 32 → actH w q sl l → k < cnt t →
      elt t (w'.v d.toNat l) k = if infMag t < mag t (x l k) then canonicalNan t
        else mag t (x l k) + if neg t (x l k) then 0 else 2 ^ (wid t - 1)) ∧
    (∃ w', exec (.vfabs m d a) s = .next (s.withIssuer w') ∧ ∀ l k, l < 32 → actH w q sl l → k < cnt t →
      elt t (w'.v d.toNat l) k = if infMag t < mag t (x l k) then canonicalNan t else mag t (x l k)) ∧
    ∀ larger : Bool, ∃ w', exec (if larger then .vfmax m d a b else .vfmin m d a b) s = .next (s.withIssuer w') ∧
      ∀ l k, l < 32 → actH w q sl l → k < cnt t →
        let r := elt t (w'.v d.toNat l) k
        (isNan t (x l k) → isNan t (y l k) → r = canonicalNan t) ∧
        (isNan t (x l k) → ¬isNan t (y l k) → r = y l k) ∧ (¬isNan t (x l k) → isNan t (y l k) → r = x l k) ∧
        (¬isNan t (x l k) → ¬isNan t (y l k) →
          (r = x l k ∨ r = y l k) ∧
          (if larger then max (rank t (x l k)) (rank t (y l k)) else min (rank t (x l k)) (rank t (y l k))) = rank t r ∧
          (rank t (x l k) = 0 → rank t (y l k) = 0 → neg t r =
            if larger then neg t (x l k) && neg t (y l k) else neg t (x l k) || neg t (y l k)))

open Sys2Proof Sys2Proof.Machine Sys2Proof.Claims in
/-- `vfadd`, `vfsub`, `vfmul` and `vfma` (R170) on finite operands whose exact result is a nonzero value of the format: every ActiveH
lane's element is that value, under every rounding; where that holds of every Active lane, no flag is set (R30, R40). -/
def Obligations.ExactFloatResultIsNotRounded : Prop :=
  ∀ (i : Instr) (m : BitVec 2) (d a b : BitVec 7) (s : State) (w : Wave) (q : SubWave),
    arithmetic i = some (m, d, a, b) → s.issuer w q → (w.ext = true ∨ ¬names d ∧ ¬names a ∧ ¬names b) →
    let sl := w.slotOf m.toNat
    let t := typ sl
    (t = 2 ∨ t = 5 ∨ t = 6) → flush sl = false → rnd sl ≤ 4 →
    let exact := fun l k r =>
      mag t (elt t (operand w sl a.toNat l) k) < infMag t ∧ mag t (elt t (operand w sl b.toNat l) k) < infMag t ∧
        mag t (elt t (w.v d.toNat l) k) < infMag t ∧ r < 2 ^ wid t ∧ 0 < mag t r ∧ mag t r < infMag t ∧
        exactFloat i t (elt t (operand w sl a.toNat l) k) (elt t (operand w sl b.toNat l) k) (elt t (w.v d.toNat l) k) r
    ∃ w', exec i s = .next (s.withIssuer w') ∧
      (∀ l k r, l < 32 → actH w q sl l → k < cnt t → exact l k r → elt t (w'.v d.toNat l) k = r) ∧
      ((∀ l k, l < 32 → act w q sl l → k < cnt t → ∃ r, exact l k r) → w'.flags = w.flags)

open Sys2Proof Sys2Proof.Machine Sys2Proof.Claims in
/-- The moves between lanes (R183, R184) and `vcmpct` (R189): `vrdlane` writes one scalar whatever the guard; `vcmpct` packs the values
of the Active lanes, in ascending order, into the lowest lanes of the issuing quads that work or help. -/
def Obligations.MovesBetweenLanes : Prop :=
  (∀ (i : Instr) (m : BitVec 2) (d : BitVec 7) (f : BitVec 7 × Form) (s : State) (w : Wave) (q : SubWave),
    moveDest i = some (m, d) → floatForm i = some f → s.issuer w q → f.2.issues w →
    ∃ w', exec i s = .next (s.withIssuer w') ∧
      ∀ l, l < 32 → actH w q (w.slotOf m.toNat) l → moved w (w.slotOf m.toNat) l (w'.v d.toNat l) i) ∧
  (∀ (m : BitVec 2) (d a b : BitVec 7) (s : State) (w : Wave) (q : SubWave), s.issuer w q → (w.ext = true ∨ ¬names a) →
    ∃ w' v, exec (.vrdlane m d a b) s = .next (s.withIssuer w') ∧ laneOf w a.toNat ((w.s b.toNat).toNat % 32) v ∧
      (∀ r, w'.s r = if r = d.toNat then BitVec.ofNat 64 v.toNat else w.s r) ∧
      { w'.still with sregs := w.sregs } = w.still ∧ w.wentTo w' q (q.pc + 4)) ∧
  ∀ (m : BitVec 2) (d a : BitVec 7) (s : State) (w : Wave) (q : SubWave) (src dst : List Nat), s.issuer w q →
    (w.ext = true ∨ ¬names d ∧ ¬names a) → lanesThat (act w q (w.slotOf m.toNat)) src →
    lanesThat (fun l => works w q l ∨ helps w q l) dst →
    ∃ w', exec (.vcmpct m d a) s = .next (s.withIssuer w') ∧
      (∀ k n l : Nat, src[k]? = some n → dst[k]? = some l → w'.v d.toNat l = w.v a.toNat n) ∧
      lanesOnly w w' d (fun l => l ∈ dst.take src.length) ∧ w'.flags = w.flags ∧
      { w'.still with vregs := w.vregs } = w.still ∧ w.wentTo w' q (q.pc + 4)

open Sys2Proof Sys2Proof.Machine Sys2Proof.Claims in
/-- The combining forms on integer types (R185 to R188): every ActiveH lane's element is the sum, minimum or maximum over the lanes
that the form names, fitted once. -/
def Obligations.CombiningFormsOnIntegers : Prop :=
  ∀ (i : Instr) (m : BitVec 2) (d a : BitVec 7) (from_ : Nat → Nat → Prop) (s : State) (w : Wave) (q : SubWave)
    (lanes : Nat → List Nat), s.issuer w q → (w.ext = true ∨ ¬names d ∧ ¬names a) →
    let sl := w.slotOf m.toNat
    let t := typ sl
    integerType t → (∀ l, combining (act w q sl) (actH w q sl) l i = some (m, d, a, from_ l)) →
    (∀ l, l < 32 → lanesThat (from_ l) (lanes l)) →
    ∃ w', exec i s = .next (s.withIssuer w') ∧ ∀ l k, l < 32 → actH w q sl l → k < cnt t →
      let r := combined (signed t) (wid t) i
        ((lanes l).map fun n => asInt (signed t) (wid t) (elt t (operand w sl a.toNat n) k))
      elt t (w'.v d.toNat l) k = wrap (wid t) (if sat sl = true then clamp (signed t) (wid t) r else r)

/-! ## Memory, atomics and barriers (R20 to R24, R60 to R80, R190 to R217) -/

namespace Sys2Proof.Claims

open Sys2Proof.Machine

/-! ### Addresses -/

/-- A byte address of slice space whose bank the context's partition owns and that lies in no spill area of a group (R20 to R23). -/
def ownByte (s : State) (w : Wave) (b : Nat) : Prop :=
  0x010000000000 ≤ b ∧ b < 0x010040000000 ∧
    (∃ p, s.part? (s.ctx w.ctx).vf = some p ∧ p.banks.getLsbD ((b - 0x010000000000) / 2 ^ 19) = true) ∧
    ∀ g ∈ s.groups, ¬(g.spill ≤ b ∧ b < g.spill + g.spillLen)

/-- What a byte address of a wave names (R23): a byte of slice space, by its own address or through the window of the wave's group. -/
def namesByte (s : State) (w : Wave) (b a : Nat) (win : Bool) : Prop :=
  (win = false ∧ ownByte s w b ∧ a = b) ∨
    (win = true ∧ 0x000100000000 ≤ b ∧ b < 0x010000000000 ∧ w.task = false ∧
      ∃ g, s.group? w.gid = some g ∧ b - 0x000100000000 < g.winLen ∧ a = g.win + (b - 0x000100000000))

/-- An aligned access of `n` bytes at an address names the `n` bytes from slice address `a` on. -/
def located (s : State) (w : Wave) (va : W64) (n a : Nat) (win : Bool) : Prop :=
  va.toNat % n = 0 ∧ ∀ k, k < n → namesByte s w (va.toNat + k) (a + k) win

/-- No byte of the range lies in a modifiable region of a live trace of the wave's context (R191 item 4). -/
def unmodified (s : State) (w : Wave) (a n : Nat) : Prop :=
  (s.ctx w.ctx).trace.state = 0 ∨ ∀ r ∈ (s.ctx w.ctx).trace.regions, a + n ≤ r.base ∨ r.base + r.len ≤ a

/-- No word with an uncorrectable error meets the range (R226). -/
def sound (s : State) (a n : Nat) : Prop := ∀ e ∈ s.eccBad, a + n ≤ e ∨ e + 8 ≤ a

/-- The fault of an address (R191): nothing there, external memory, a misaligned element, or a plain write to a modifiable region. -/
def addressFault (s : State) (w : Wave) (va : W64) (n : Nat) (plain : Bool) (code : BitVec 16) : Prop :=
  let ext := 0x100000000000 ≤ va.toNat ∧ va.toNat < 0x1C0000000000
  (code = 0x20 ∧ ¬ext ∧ ∀ a win, ¬namesByte s w va.toNat a win) ∨ (code = 0x21 ∧ ext) ∨
    (code = 0x22 ∧ va.toNat % n ≠ 0 ∧ ∃ a win, namesByte s w va.toNat a win) ∨
    (code = 0x60 ∧ plain = true ∧ ∃ a win, located s w va n a win ∧ ¬unmodified s w a n)

/-! ### An access in flight -/

/-- What every access in flight says of the instruction that issued it (R142, R65). -/
def issuedBy (a : Access) (s : State) (w : Wave) (q : SubWave) (m : W32) : Prop :=
  a.id = s.nextId ∧ a.wave = w.id ∧ a.ctx = w.ctx ∧ a.core = w.core ∧ a.pc = q.pc ∧ a.slot = m ∧ a.quads = q.quads ∧
    a.scope = m.toNat / 2 ^ 17 % 16

/-- The ordering field of a slot (R92). -/
def ordering (m : W32) : Nat := m.toNat / 2 ^ 15 % 4

/-- A context without its mode mismatches and the counts of its sessions. -/
def uncounted (c : Context) : Context :=
  { c with modeMismatch := 0, sessions := c.sessions.map fun x => { x with counts := [] } }

/-- What an instruction that puts accesses in flight changes beside its wave: a mode mismatch may be counted (R73), and a release
sends the combiner entries that hold an update of its wave (R259); nothing else. -/
def launched (s t : State) (w w' : Wave) (rel mismatch : Bool) (l : List Access) : Prop :=
  t.waves = w' :: s.waves.tail ∧ t.flight = s.flight ++ l ∧
    (∀ c, uncounted (t.ctx c) = uncounted (s.ctx c)) ∧
    ((∃ c ∈ s.ctxs, c.id = w.ctx) → (t.ctx w.ctx).modeMismatch = (s.ctx w.ctx).modeMismatch + mismatch.toNat) ∧
    (rel = false → t.red = s.red) ∧
    (rel = true → l ≠ [] → ∀ e ∈ t.red, (∃ u ∈ e.upds, u.wave = w.id) → e.sent = true) ∧
    t.red.map (fun e => { e with sent := true }) = s.red.map (fun e => { e with sent := true }) ∧
    { t with
      waves := s.waves
      flight := s.flight
      nextId := s.nextId
      transfers := s.transfers
      ctxs := s.ctxs
      red := s.red } = s

/-! ### The accesses of the lanes (R190, R192) -/

/-- A MEMV instruction: whether it loads, whether it is traced, its element size, and its fields. -/
structure VForm where
  load : Bool
  traced : Bool
  size : Nat
  slot : BitVec 2
  d : BitVec 7
  base : BitVec 6
  index : BitVec 7
  scale : BitVec 2

def vectorAccess : Instr → Option VForm
  | .vld m d b x c => some ⟨true, false, 4, m, d, b, x, c⟩
  | .vld8 m d b x c => some ⟨true, false, 1, m, d, b, x, c⟩
  | .vld16 m d b x c => some ⟨true, false, 2, m, d, b, x, c⟩
  | .vld64 m d b x c => some ⟨true, false, 8, m, d, b, x, c⟩
  | .vld128 m d b x c => some ⟨true, false, 16, m, d, b, x, c⟩
  | .vldm m d b x c => some ⟨true, true, 4, m, d, b, x, c⟩
  | .vst m d b x c => some ⟨false, false, 4, m, d, b, x, c⟩
  | .vst8 m d b x c => some ⟨false, false, 1, m, d, b, x, c⟩
  | .vst16 m d b x c => some ⟨false, false, 2, m, d, b, x, c⟩
  | .vst64 m d b x c => some ⟨false, false, 8, m, d, b, x, c⟩
  | .vst128 m d b x c => some ⟨false, false, 16, m, d, b, x, c⟩
  | .vstm m d b x c => some ⟨false, true, 4, m, d, b, x, c⟩
  | _ => none

/-- Addr(L) of R190. -/
def VForm.addr (f : VForm) (w : Wave) (l : Nat) : W64 :=
  BitVec.ofNat 64 (un w f.base + (operand w (w.slotOf f.slot.toNat) f.index.toNat l).toNat * 2 ^ f.scale.toNat)

/-- The single-copy-atomic pieces of an element: offset and size (R62). -/
def pieces (n : Nat) : List (Nat × Nat) := if n = 16 then [(0, 8), (8, 8)] else [(0, n)]

/-- The piece of a lane's access at slice address `a`, with the registers that take or give it. -/
def VForm.piece (f : VForm) (w : Wave) (l : Nat) (a : Nat) (win : Bool) (p : Nat × Nat) : AccUnit where
  lane := l
  addr := a + p.1
  size := p.2
  win := win
  data := if f.load then 0 else w.v (f.d.toNat + p.1 / 4 + 1) l ++ w.v (f.d.toNat + p.1 / 4) l
  data2 := f.addr w l
  reg := f.d.toNat + p.1 / 4
  helper := !w.working.getLsbD l
  draw := 0
  done := false
  taken := false
  value := 0

/-! ### Scalar memory (R196 to R199) -/

/-- A MEMS instruction that names memory by s[base] + offset: slot, base, offset, scale, size (which is its alignment too), whether
item 4 of R191 or R346 applies, and whether it acts per Active lane in a task wave (R197). -/
structure MForm where
  slot : BitVec 2
  base : BitVec 6
  off : BitVec 9
  scale : Nat
  size : Nat
  plain : Bool
  perLane : Bool

def scalarAccess : Instr → Option MForm
  | .sld _ b m o => some ⟨m, b, o, 8, 8, false, false⟩
  | .sld32 _ b m o => some ⟨m, b, o, 4, 4, false, false⟩
  | .sst _ b m o => some ⟨m, b, o, 8, 8, true, false⟩
  | .sst32 _ b m o => some ⟨m, b, o, 4, 4, true, false⟩
  | .sldm _ b m o => some ⟨m, b, o, 8, 8, false, false⟩
  | .sstm _ b m o => some ⟨m, b, o, 8, 8, false, false⟩
  | .scas _ b m o => some ⟨m, b, o, 8, 8, true, false⟩
  | .samo _ b m o => some ⟨m, b, o, 8, 8, true, false⟩
  | .binit _ b m o => some ⟨m, b, o, 32, 32, true, false⟩
  | .barv _ b m o => some ⟨m, b, o, 32, 32, true, true⟩
  | .barb _ b m o => some ⟨m, b, o, 32, 32, true, true⟩
  | .bphase _ b m o => some ⟨m, b, o, 32, 32, false, true⟩
  | .rgacq _ b m o => some ⟨m, b, o, 8, 8, true, true⟩
  | .rgrel b m o => some ⟨m, b, o, 8, 8, true, true⟩
  | .tkwait b m o => some ⟨m, b, o, 8, 8, false, false⟩
  | .tkpass b m o => some ⟨m, b, o, 8, 8, true, false⟩
  | _ => none

/-- A of R196. -/
def MForm.addr (f : MForm) (w : Wave) : W64 := BitVec.ofInt 64 (un w f.base + f.off.toInt * f.scale)

/-- The slot value of a MEMS instruction. -/
def MForm.m (f : MForm) (w : Wave) : W32 := w.slotOf f.slot.toNat

/-- The lowest Active lane. -/
def lowest (w : Wave) (q : SubWave) (m : W32) (l : Nat) : Prop := l < 32 ∧ act w q m l ∧ ∀ k, k < l → ¬act w q m k

/-- A mask whose bits are those of the Active lanes. -/
def activeBits (w : Wave) (q : SubWave) (m : W32) (v : W64) : Prop := ∀ l, (v.getLsbD l = true ↔ l < 32 ∧ act w q m l)

/-- The arrivers of `barv`, and the parties of a lock: the wave, or the Active lanes' tasks in ascending order (R205, R212). -/
def partyList (w : Wave) (q : SubWave) (m : W32) (l : List (Nat × W64)) : Prop :=
  (w.task = false → ∃ k, lowest w q m k ∧ l = [(k, w.ident 0)]) ∧
    (w.task = true → (∀ x, x ∈ l ↔ x.1 < 32 ∧ act w q m x.1 ∧ x.2 = w.ident x.1) ∧ l.Pairwise fun x y => x.1 < y.1)

/-- The kind, counters and registers of a plain scalar access or scalar atomic, and the two values that it carries (R142, R198,
R199). -/
def scalarKind (w : Wave) : Instr → Option (AccKind × Bool × Bool × Option Nat × W64 × Option W64)
  | .sld d _ _ _ | .sld32 d _ _ _ | .sldm d _ _ _ => some (.load false true, true, false, some d.toNat, 0, none)
  | .sst d _ _ _ | .sst32 d _ _ _ | .sstm d _ _ _ => some (.store, false, true, none, w.s d.toNat, none)
  | .scas d _ _ _ => some (.scas, true, false, some d.toNat, w.s d.toNat, some (w.s (d.toNat + 1)))
  | .samo d _ _ _ => some (.samo ((w.s (d.toNat + 1)).toNat % 8), true, false, some d.toNat, w.s d.toNat, some (w.s (d.toNat + 1)))
  | _ => none

/-- How the ordering field of a slot reads for an access of this kind: acquire, release, mismatch (R73). -/
def readOrder (k : AccKind) (o : Nat) : Bool × Bool × Bool :=
  match k with
  | .load .. => (o == 1 || o == 3, false, o == 2 || o == 3)
  | .store | .red _ => (false, o == 2 || o == 3, o == 1 || o == 3)
  | _ => (o == 1 || o == 3, o == 2 || o == 3, false)

/-! ### Vector atomics and reductions (R200, R260) -/

/-- An ATOM instruction: minor code, cell size, types, slot, destination, address pair and data source. -/
structure AForm where
  minor : Nat
  size : Nat
  types : List Nat
  slot : BitVec 2
  d : Option (BitVec 7)
  a : BitVec 7
  b : BitVec 7

def atomForm : Instr → Option AForm
  | .vaadd m d a b => some ⟨0, 4, [0, 1], m, some d, a, b⟩
  | .vamin m d a b => some ⟨1, 4, [0, 1], m, some d, a, b⟩
  | .vamax m d a b => some ⟨2, 4, [0, 1], m, some d, a, b⟩
  | .vaand m d a b => some ⟨3, 4, anyType, m, some d, a, b⟩
  | .vaor m d a b => some ⟨4, 4, anyType, m, some d, a, b⟩
  | .vaxor m d a b => some ⟨5, 4, anyType, m, some d, a, b⟩
  | .vaxch m d a b => some ⟨6, 4, anyType, m, some d, a, b⟩
  | .vacas m d a b => some ⟨7, 4, anyType, m, some d, a, b⟩
  | .vafadd m d a b => some ⟨8, 4, [2, 5, 6], m, some d, a, b⟩
  | .vradd m a b => some ⟨9, 4, [0, 1], m, none, a, b⟩
  | .vrfadd m a b => some ⟨10, 4, [2, 5, 6], m, none, a, b⟩
  | .vrmin m a b => some ⟨11, 4, [0, 1], m, none, a, b⟩
  | .vrmax m a b => some ⟨12, 4, [0, 1], m, none, a, b⟩
  | .vrx96 m a b => some ⟨13, 16, [2], m, none, a, b⟩
  | _ => none

/-- The address of a lane: v[a+1] above v[a] (R200). -/
def AForm.addr (f : AForm) (w : Wave) (l : Nat) : W64 :=
  BitVec.ofNat 64 ((w.v (f.a.toNat + 1) l).toNat * 2 ^ 32 + (w.v f.a.toNat l).toNat)

/-- The instruction may be issued: no extended register without a block, a type that it accepts, and for `vrx96` no rsr (R261). -/
def AForm.issues (f : AForm) (w : Wave) : Prop :=
  let m := w.slotOf f.slot.toNat
  (w.ext = true ∨ ∀ x ∈ f.d.toList ++ [f.a, f.b], ¬names x) ∧ typ m ∈ f.types ∧ (f.minor = 13 → rnd m ≠ 4)

/-- The word that a returning integer atomic leaves (R200). -/
def newInteger (minor : Nat) (m : W32) (old x cmp : W32) : Option W32 :=
  let s := signed (typ m)
  let o := asInt s 32 old.toNat
  let i := asInt s 32 x.toNat
  match minor with
  | 0 => some (BitVec.ofInt 32 (if sat m then clamp s 32 (o + i) else o + i))
  | 1 => some (if i < o then x else old)
  | 2 => some (if o < i then x else old)
  | 3 => some (old &&& x)
  | 4 => some (old ||| x)
  | 5 => some (old ^^^ x)
  | 6 => some x
  | 7 => some (if old = cmp then x else old)
  | _ => none

/-- The word that `samo` leaves (R199). -/
def newScalar (op : Nat) (old x : W64) : W64 :=
  match op with
  | 0 => BitVec.ofNat 64 (old.toNat + x.toNat)
  | 1 => BitVec.ofInt 64 (min old.toInt x.toInt)
  | 2 => BitVec.ofInt 64 (max old.toInt x.toInt)
  | 3 => BitVec.ofNat 64 (min old.toNat x.toNat)
  | 4 => BitVec.ofNat 64 (max old.toNat x.toNat)
  | 5 => old &&& x
  | 6 => old ||| x
  | _ => old ^^^ x

/-! ### At the home -/

/-- Unit `k` of an access may be performed: nothing that it must follow is still to be performed, which for a load is no other lane of
it (R61, R63, R72), no transfer of it waits at a port (R399), and its home does not forward it (R405). -/
def ripe (s : State) (a : Access) (k : Nat) (u : AccUnit) : Prop :=
  s.access? a.id = some a ∧ (∀ b ∈ s.flight, b.id = a.id → b = a) ∧ a.units[k]? = some u ∧ u.done = false ∧ s.moves = [] ∧
    ((∃ sg sc, a.kind = .load sg sc) ∨
      ∀ v ∈ a.units.take k, v.done = false → u.addr + u.size ≤ v.addr ∨ v.addr + v.size ≤ u.addr) ∧
    (∀ b ∈ s.flight, b.wave = a.wave → b.id < a.id → ∀ v ∈ b.units, v.done = true) ∧
    (a.rel = true → s.slip = [] ∧ s.sieve = [] ∧ s.requests = [] ∧ s.mats = [] ∧ ∀ c ∈ s.ctxs, c.trace.walk = none) ∧
    ∀ x ∈ s.transfers, x.op ≠ a.id

/-- Unit `k` of the access is done in flight, every other access not finished is as it was, and none is new. -/
def unitDone (s t : State) (a : Access) (k : Nat) : Prop :=
  (∀ b ∈ t.flight, b.id = a.id → ∀ v, b.units[k]? = some v → v.done = true) ∧
    (∀ b, b.id ≠ a.id → (b ∈ t.flight ↔ b ∈ s.flight ∧ b.finished = false)) ∧
    ∀ b ∈ t.flight, b.id = a.id → ∃ c ∈ s.flight, c.id = a.id ∧ b.units.length = c.units.length ∧
      ∀ j, j ≠ k → b.units[j]? = c.units[j]?

/-- No region that the context has bound meets the range, and no version of its bytes is kept (R67, R69). -/
def unbound (s : State) (c a n : Nat) : Prop :=
  (∀ b ∈ (s.ctx c).bindings, a + n ≤ b.base ∨ b.base + b.len ≤ a) ∧
    (∀ v ∈ (s.ctx c).versions, v.addr < a ∨ a + n ≤ v.addr) ∧
    ∀ h ∈ (s.ctx c).held, a + n ≤ h.addr ∨ h.addr + h.bytes.length ≤ a

/-- Slice memory took the `n` bytes of a number at an address, and no other byte changed. -/
def storedAt (s t : State) (a n v : Nat) : Prop :=
  t.slice.num a n = v % 2 ^ (8 * n) ∧ ∀ x, (x < a ∨ a + n ≤ x) → t.slice.byte x = s.slice.byte x

/-- Register `r` of a lane takes what a load returns, unless it lies in an extended block that the wave has given back (R89). -/
abbrev takes (w : Wave) (r : Nat) : Prop := w.ext = true ∨ ¬(32 ≤ r ∧ r < 96)

/-- Unit `i` of a load belongs to the sector of unit `u` (R194): the lanes 8k to 8k + 7 of one register, or a scalar. -/
def inSector (a : Access) (u : AccUnit) (i : Nat) (v : AccUnit) : Prop :=
  a.units[i]? = some v ∧ v.done = false ∧ (a.vdst = none ∨ (v.reg = u.reg ∧ v.lane / 8 = u.lane / 8))

/-- Two units of a load that are still to return name one location (R61). -/
def sameLocation (x y : AccUnit) : Prop := x.addr = y.addr ∧ x.size = y.size ∧ x.done = false ∧ y.done = false

/-- The bytes that a unit of a load returns: those at its location, or those taken there before for a lane that names it too (R61). -/
def returned (s : State) (v : AccUnit) : Nat := if v.taken then v.value.toNat else s.slice.num v.addr v.size

/-- A load's sector may return: each unit of it has its value or may take it, from a sound word of an unbound region. -/
def sectorRipe (s : State) (a : Access) (u : AccUnit) : Prop :=
  (∀ i v, inSector a u i v → (v.taken = true ∨ ripe s a i v) ∧ unbound s a.ctx v.addr v.size ∧ v.lane < 32 ∧
    v.size ∈ [1, 2, 4, 8] ∧ (v.helper = false ∨ sound s v.addr v.size)) ∧
  (∀ i j v x, inSector a u i v → inSector a u j x → v.lane = x.lane → i = j) ∧
  (∀ x ∈ a.units, ∀ y ∈ a.units, sameLocation x y → x.taken = y.taken ∧ x.value = y.value)

/-- What a load's register takes: the bytes, extended as the type reads when the element is narrow (R190). -/
def loaded (sg : Bool) (n v : Nat) : Nat := ((asInt (sg && decide (n < 4)) (8 * n) v) % 2 ^ 64).toNat

end Sys2Proof.Claims

open Sys2Proof Sys2Proof.Machine Sys2Proof.Claims in
/-- The vector loads and stores (R190 to R193).  With every address located, the instruction issues and its wave goes on with no register
changed; one access joins those in flight, with one piece for each lane of ActiveH of a load, or each Active lane of a store (two of
8 bytes for a 16-byte element, R62), at the address of R190, with the lane's registers; with no such lane nothing joins.  A load enters
ld if a lane is Active, a store enters st (R142).  No memory changes before an access is performed. -/
def Obligations.VectorAccessesIssue : Prop :=
  ∀ (i : Instr) (f : VForm) (s : State) (w : Wave) (q : SubWave) (a : Nat → Nat) (win : Nat → Bool),
    vectorAccess i = some f → s.issuer w q → (w.ext = true ∨ (¬names f.d ∧ ¬names f.index)) →
    (∀ l, l < 32 → actH w q (w.slotOf f.slot.toNat) l → located s w (f.addr w l) f.size (a l) (win l) ∧ sound s (a l) f.size ∧
      (f.load = false ∨ f.traced = true → unmodified s w (a l) f.size)) →
      let m := w.slotOf f.slot.toNat
      let moves := fun l => l < 32 ∧ if f.load then actH w q m l else act w q m l
      let kind := if f.load then AccKind.load (signed (typ m)) false else .store
      let o := readOrder kind (ordering m)
      ∃ t w' l, exec i s = .next t ∧ launched s t w w' o.2.1 o.2.2 l ∧ w'.still = w.still ∧ w.wentTo w' q (q.pc + 4) ∧
        ((∀ k, ¬moves k) → l = []) ∧
        ((∃ k, moves k) → ∃ x, l = [x] ∧ issuedBy x s w q m ∧ x.kind = kind ∧ x.acq = o.1 ∧ x.rel = o.2.1 ∧ x.sdst = none ∧
          (x.inLd = true ↔ f.load = true ∧ ∃ k, k < 32 ∧ act w q m k) ∧ x.inSt = !f.load ∧
          (x.units.map (·.lane)).Pairwise (· ≤ ·) ∧
          ∀ u, u ∈ x.units ↔ ∃ k p, moves k ∧ p ∈ pieces f.size ∧ u = f.piece w k (a k) (win k) p)

open Sys2Proof Sys2Proof.Machine Sys2Proof.Claims in
/-- The plain scalar accesses and the scalar atomics (R196 to R199): in a sub-wave with an Active lane they put one unit in flight at
A, with the registers that it carries and writes back; with none, in a grid wave, they only pass. -/
def Obligations.ScalarAccessesIssue : Prop :=
  ∀ (i : Instr) (f : MForm) (s : State) (w : Wave) (q : SubWave) (kind : AccKind) (ld st : Bool) (sd : Option Nat) (x : W64)
    (y : Option W64), scalarAccess i = some f → scalarKind w i = some (kind, ld, st, sd, x, y) → s.issuer w q →
    (w.task = false → (∀ l, l < 32 → ¬act w q (f.m w) l) → ∃ t, exec i s = .next t ∧ passed s t w q) ∧
    ∀ a win k, lowest w q (f.m w) k → located s w (f.addr w) f.size a win → unmodified s w a f.size → sound s a f.size →
      let o := readOrder kind (ordering (f.m w))
      ∃ t w' acc, exec i s = .next t ∧ launched s t w w' o.2.1 o.2.2 [acc] ∧ w'.still = w.still ∧ w.wentTo w' q (q.pc + 4) ∧
        issuedBy acc s w q (f.m w) ∧ acc.kind = kind ∧ acc.acq = o.1 ∧ acc.rel = o.2.1 ∧ acc.inLd = ld ∧ acc.inSt = st ∧
        acc.sdst = sd ∧ acc.units = [⟨k, a, f.size, win, x, y.getD (f.addr w), 0, false, 0, false, false, 0⟩]

open Sys2Proof Sys2Proof.Machine Sys2Proof.Claims in
/-- The address faults (R191, R196, R201, R261): of the lanes in ascending order, the first Active one whose address meets a condition
raises it with its address, whatever a helper's is; a MEMS instruction raises that of A.  No lane is performed. -/
def Obligations.AddressFaultsArePrecise : Prop :=
  (∀ (i : Instr) (f : VForm) (s : State) (w : Wave) (q : SubWave) (l : Nat) (code : BitVec 16), vectorAccess i = some f →
    s.issuer w q → calm s w → (w.ext = true ∨ (¬names f.d ∧ ¬names f.index)) → l < 32 → act w q (w.slotOf f.slot.toNat) l →
    (∀ k, k < l → act w q (w.slotOf f.slot.toNat) k →
      ∃ a win, located s w (f.addr w k) f.size a win ∧ (f.load = false → f.traced = false → unmodified s w a f.size)) →
    addressFault s w (f.addr w l) f.size (!f.load && !f.traced) code →
      ∃ t, exec i s = .next t ∧ tookFault s t w q code q.pc (f.addr w l)) ∧
  (∀ (i : Instr) (f : AForm) (s : State) (w : Wave) (q : SubWave) (l : Nat) (code : BitVec 16), atomForm i = some f →
    s.issuer w q → calm s w → f.issues w → l < 32 → act w q (w.slotOf f.slot.toNat) l →
    (∀ k, k < l → act w q (w.slotOf f.slot.toNat) k →
      ∃ a win, located s w (f.addr w k) f.size a win ∧ unmodified s w a f.size) →
    addressFault s w (f.addr w l) f.size true code →
      ∃ t, exec i s = .next t ∧ tookFault s t w q code q.pc (f.addr w l)) ∧
  ∀ (i : Instr) (f : MForm) (s : State) (w : Wave) (q : SubWave) (k : Nat) (code : BitVec 16), scalarAccess i = some f →
    s.issuer w q → calm s w → lowest w q (f.m w) k → addressFault s w (f.addr w) f.size f.plain code →
      ∃ t, exec i s = .next t ∧ tookFault s t w q code q.pc (f.addr w)

open Sys2Proof Sys2Proof.Machine Sys2Proof.Claims in
/-- The values of a load's sector are taken at the home and reach its register together (R190, R194, R198), every lane that names one
location with one value (R61), and a store's is written there (R192): in an unbound region the register takes the bytes at each unit's
address, or those bytes take the unit's, and nothing else in registers or memory changes.  A store to a bound region is held at its
core, and memory stays as it was (R69, R70). -/
def Obligations.LoadsAndStoresArePerformedAtTheHome : Prop :=
  (∀ (s : State) (a : Access) (k back : Nat) (u : AccUnit) (w : Wave) (sg sc : Bool), ripe s a k u → sectorRipe s a u →
    s.wave? a.wave = some w → a.kind = .load sg sc → a.traced = false →
    (a.vdst = none ↔ ∃ d, a.sdst = some d) → (a.vdst = none → a.units = [u]) →
      ∃ t w', exec (.loadDataReturn a.id k back) s = .next t ∧ t.wave? w.id = some w' ∧
        (∀ b ∈ t.flight, b.id = a.id → b.units.length = a.units.length ∧ ∀ i x y, a.units[i]? = some x → b.units[i]? = some y →
          (inSector a u i x → y.done = true) ∧
          (¬inSector a u i x → (∀ j v, inSector a u j v → ¬sameLocation x v) → y = x) ∧
          (¬inSector a u i x → (∃ j v, inSector a u j v ∧ sameLocation x v) →
            y = { x with taken := true, value := BitVec.ofNat 64 (returned s x) })) ∧
        (∀ b, b.id ≠ a.id → (b ∈ t.flight ↔ b ∈ s.flight ∧ b.finished = false)) ∧
        (∀ d, a.sdst = some d → w'.vregs = w.vregs ∧ ∀ r, w'.s r = if r = d then BitVec.ofNat 64 (returned s u) else w.s r) ∧
        (a.sdst = none → w'.sregs = w.sregs ∧
          (∀ i v, inSector a u i v →
            (takes w v.reg → w'.v v.reg v.lane = BitVec.ofNat 32 (loaded sg v.size (returned s v))) ∧
            (v.size = 8 → takes w (v.reg + 1) → w'.v (v.reg + 1) v.lane = BitVec.ofNat 32 (returned s v / 2 ^ 32))) ∧
          ∀ r l, l < 32 → (∀ i v, inSector a u i v → v.lane = l → takes w r → r ≠ v.reg ∧ (v.size = 8 → r ≠ v.reg + 1)) →
            w'.v r l = w.v r l) ∧
        { w' with vregs := w.vregs, sregs := w.sregs } = w ∧ (∀ j, j ≠ w.id → t.wave? j = s.wave? j) ∧
        { t with waves := s.waves, flight := s.flight, ctxs := s.ctxs } = s) ∧
  ∀ (s : State) (a : Access) (k : Nat) (u : AccUnit), ripe s a k u → a.kind = .store → a.traced = false → 0 < u.size →
    (∀ w ∈ s.waves, w.wait ≠ .home a.id) →
    (unbound s a.ctx u.addr u.size →
      ∃ t, exec (.writePerformed a.id k) s = .next t ∧ unitDone s t a k ∧ storedAt s t u.addr u.size u.data.toNat ∧
        { t with slice := s.slice, flight := s.flight } = s) ∧
    ((∃ b ∈ (s.ctx a.ctx).bindings, b.base ≤ u.addr ∧ u.addr < b.base + b.len) → (∃ c ∈ s.ctxs, c.id = a.ctx) →
      ∃ t, exec (.writePerformed a.id k) s = .next t ∧ unitDone s t a k ∧
        (t.ctx a.ctx).held = (s.ctx a.ctx).held ++ [⟨a.wave, u.addr, leBytes u.size u.data.toNat⟩] ∧
        { t with ctxs := s.ctxs, flight := s.flight } = s)

/-! ## Atomics, barriers, bindings, locks and reductions (R199 to R217, R259 to R271) -/

namespace Sys2Proof.Claims

open Sys2Proof.Machine

/-! ### What a home does -/

/-- An access is done: it has left, and every other access that is not finished is as it was. -/
def gone (s t : State) (a : Access) : Prop := ∀ b, b ∈ t.flight ↔ b ∈ s.flight ∧ b.id ≠ a.id ∧ b.finished = false

/-- The wave `w` alone may have changed, to `w'`. -/
def onlyWave (s t : State) (w w' : Wave) : Prop := t.wave? w.id = some w' ∧ ∀ j, j ≠ w.id → t.wave? j = s.wave? j

/-- The wave that waited for a home goes on after its instruction, in the sub-wave that issued it (R453). -/
def wentOn (w : Wave) (quads : BitVec 8) : Wave :=
  { w with
    wait := .none
    subs := w.subs.map fun q => if q.quads = quads then { q with pc := q.pc + 4, st := .ready } else q }

/-- The wave of an access that its home refuses enters its handler with these trap registers (R221, R453). -/
def refusedThere (s t : State) (w : Wave) (a : Access) (code : BitVec 16) (val : W64) : Prop :=
  ∃ w', onlyWave s t w w' ∧ w'.trapCause = code ∧ w'.trapPc = a.pc ∧ w'.trapVal = val ∧ w'.handler = some a.quads ∧
    w'.sregs = w.sregs ∧ w'.vregs = w.vregs ∧ (w.wait = .none ∨ (w.subs.map (·.quads)).head? = some a.quads → w'.wait = .none) ∧
    gone s t a ∧ { t with waves := s.waves, flight := s.flight } = s

/-! ### Barrier objects (R202 to R209) -/

/-- The fields of the object at a slice address (R202). -/
def expected (s : State) (o : Nat) : Nat := s.slice.num o 4
def arrived (s : State) (o : Nat) : Nat := s.slice.num (o + 4) 4
def expbytes (s : State) (o : Nat) : Nat := s.slice.num (o + 8) 8
def landed (s : State) (o : Nat) : Nat := s.slice.num (o + 16) 8
def phase (s : State) (o : Nat) : Nat := s.slice.num (o + 24) 4
def flagsWord (s : State) (o : Nat) : Nat := s.slice.num (o + 28) 4

/-- Phase `k` is complete when the current phase is `p` (R207). -/
def complete (p k : Nat) : Prop := 1 ≤ (p + 2 ^ 32 - k % 2 ^ 32) % 2 ^ 32 ∧ (p + 2 ^ 32 - k % 2 ^ 32) % 2 ^ 32 ≤ 2 ^ 31

/-- The object after `n` arrivals and `b` bytes (R19, R203, R205): counted, or the phase completed by them, and no other byte of
slice memory changed. -/
def counted (s t : State) (o n b : Nat) : Prop :=
  let full := arrived s o + n = expected s o ∧ landed s o + b = expbytes s o
  expected t o = expected s o ∧ expbytes t o = expbytes s o ∧ flagsWord t o = flagsWord s o ∧
    (full → arrived t o = 0 ∧ landed t o = 0 ∧ phase t o = (phase s o + 1) % 2 ^ 32) ∧
    (¬full → arrived t o = arrived s o + n ∧ landed t o = landed s o + b ∧ phase t o = phase s o) ∧
    ∀ x, (x < o ∨ o + 32 ≤ x) → t.slice.byte x = s.slice.byte x

/-- Where a phase of the object completed, a sub-wave parked on it goes on at its continuation when its own phase is complete; any other
sub-wave stays as it is (R113). -/
def woken (s t : State) (o : Nat) (q q' : SubWave) : Prop :=
  (∀ k cont va, q.st = .waiting o k cont va → phase t o ≠ phase s o → complete (phase t o) k.toNat →
      q' = { q with pc := cont, st := .ready }) ∧
    ((phase t o = phase s o ∨ ∀ k cont va, q.st = .waiting o k cont va → ¬complete (phase t o) k.toNat) → q' = q)

/-- An instruction that a home answers: what flies, the counters that it enters, its scalar destination, whether it is a release, and
who waits for the home: 0 nobody, 1 its sub-wave, 2 its wave (R142, R197, R204 to R217). -/
def homeKind (w : Wave) (ps : List (Nat × W64)) : Instr → Option (AccKind × Bool × Bool × Option Nat × Bool × Nat)
  | .binit d _ _ _ => some (.binit (BitVec.ofNat 32 (un w d)) (w.s (d.toNat + 1)), false, true, none, false, 2)
  | .barv d _ _ _ => some (.arrive (ps.map (·.2)) false, false, false, some d.toNat, true, 0)
  | .barb d _ _ _ => some (.arrive (ps.map (·.2)) true, false, false, some d.toNat, true, 1)
  | .bphase d _ _ _ => some (.bphase, false, false, some d.toNat, false, 0)
  | .rgacq d _ _ _ => some (.rgacq, true, false, some d.toNat, false, 2)
  | .rgrel _ _ _ => some (.rgrel, false, true, none, true, 2)
  | .tkpass _ _ _ => some (.tkpass, false, true, none, true, 2)
  | _ => none

/-- The wave after its instruction left for a home. -/
def waitsFor (s : State) (w w' : Wave) (q : SubWave) (who : Nat) : Prop :=
  w'.still = w.still ∧ w'.wait = (if who = 2 then .home s.nextId else .none) ∧
    w'.subs = (if who = 0 then { q with pc := q.pc + 4, st := .ready }
      else if who = 1 then { q with st := .atHome s.nextId }
      else q) :: w.subs.tail

/-- The units that a home-tested instruction sends: one for each party of a lock, with its token I + 1 (R212), or one. -/
def homeUnits (i : Instr) (ps : List (Nat × W64)) (k a size : Nat) (win : Bool) (va mask : W64) : List AccUnit :=
  match i with
  | .rgacq .. | .rgrel .. => ps.map fun x => ⟨x.1, a, size, win, x.2 + 1, va, 0, false, 0, false, false, 0⟩
  | .barb .. | .bphase .. => [⟨k, a, size, win, mask, va, 0, false, 0, false, false, 0⟩]
  | _ => [⟨k, a, size, win, 0, va, 0, false, 0, false, false, 0⟩]

/-- A ticket word's value is the ticket of a group of a grid (R215). -/
def ticketIs (v group ord : Nat) : Prop := v % 2 ^ 32 = group % 2 ^ 32 ∧ v / 2 ^ 32 % 2 ^ 23 = ord % 2 ^ 23

/-- The region named by a base and a length lies in own slice memory or in the window, from slice address `r` on (R67). -/
def regionNamed (s : State) (w : Wave) (base len r : Nat) : Prop :=
  0 < len ∧ ∃ win, ∀ k, k < len → namesByte s w (base + k) (r + k) win

/-! ### Reductions (R259 to R264) -/

/-- The word that a packet of an integer reduction leaves (R260, R262), and whether it saturates. -/
def mergedWord (minor : Nat) (m old : W32) (vals : List W32) : Option (W32 × Bool) :=
  let s := signed (typ m)
  let o := asInt s 32 old.toNat
  let xs := vals.map fun v => asInt s 32 v.toNat
  match minor with
  | 9 =>
    let r := o + xs.sum
    some (BitVec.ofInt 32 (if sat m then clamp s 32 r else r), sat m && decide (clamp s 32 r ≠ r))
  | 11 => some (BitVec.ofInt 32 (xs.foldl min o), false)
  | 12 => some (BitVec.ofInt 32 (xs.foldl max o), false)
  | _ => none

/-- No engine has an operation or a walk under way. -/
def noEngine (s : State) : Prop :=
  s.slip = [] ∧ s.sieve = [] ∧ s.requests = [] ∧ s.mats = [] ∧ ∀ c ∈ s.ctxs, c.trace.walk = none

/-- A packet may be applied: it was sent and waits at no port, and of each update's wave nothing earlier is still to be performed. -/
def packetRipe (s : State) (e : RedEntry) : Prop :=
  (s.red.find? fun x => x.id == e.id) = some e ∧ e.sent = true ∧ s.moves = [] ∧ (∀ x ∈ s.transfers, x.op ≠ e.id) ∧
    ∀ u ∈ e.upds, ∀ a, s.access? u.acc = some a →
      (∀ b ∈ s.flight, b.wave = a.wave → b.id < a.id → ∀ v ∈ b.units, v.done = true) ∧
      (a.rel = true → noEngine s)

end Sys2Proof.Claims

open Sys2Proof Sys2Proof.Machine Sys2Proof.Claims in
/-- The returning vector atomics and the reductions (R200, R201, R260, R261), outside determinism mode for the floating-point adds.
With every Active lane's address located, the wave goes on and writes no register; a returning atomic puts one unit for each Active
lane in flight, with its operand and its d; a reduction enters st, and each Active lane's update is in an entry of the combiner or in
a packet, where every earlier update stays too (R259).  No memory changes. -/
def Obligations.AtomicsAndReductionsIssue : Prop :=
  ∀ (i : Instr) (f : AForm) (s : State) (w : Wave) (q : SubWave) (a : Nat → Nat) (win : Nat → Bool), atomForm i = some f →
    s.issuer w q → f.issues w → (f.minor = 8 ∨ f.minor = 10 → (s.ctx w.ctx).r.det = false) →
    (∀ l, l < 32 → act w q (w.slotOf f.slot.toNat) l →
      located s w (f.addr w l) f.size (a l) (win l) ∧ unmodified s w (a l) f.size ∧ sound s (a l) f.size) →
      let m := w.slotOf f.slot.toNat
      ∃ t w', exec i s = .next t ∧ t.waves = w' :: s.waves.tail ∧
        { w'.still with flags := w.flags, grain := w.grain } = w.still ∧ w.wentTo w' q (q.pc + 4) ∧
        (f.minor ≠ 10 → w'.flags = w.flags) ∧ (rnd m ≠ 4 ∨ (f.minor ≠ 8 ∧ f.minor ≠ 10) → w'.grain = w.grain) ∧
        t.slice = s.slice ∧
        ((∀ l, l < 32 → ¬act w q m l) → t.flight = s.flight ∧ t.red = s.red ∧ w'.flags = w.flags) ∧
        ((∃ l, l < 32 ∧ act w q m l) → ∃ x, t.flight = s.flight ++ [x] ∧ issuedBy x s w q m ∧
          (∀ d, f.d = some d → launched s t w w' x.rel false [x] ∧ x.kind = .vatomic f.minor ∧ x.inLd = true ∧ x.inSt = false ∧
            x.acq = (ordering m == 1 || ordering m == 3) ∧ x.rel = (ordering m == 2 || ordering m == 3) ∧
            (∀ u ∈ x.units, rnd m ≠ 4 ∨ f.minor ≠ 8 → u.draw = 0) ∧ (x.units.map (·.lane)).Pairwise (· < ·) ∧
            ∀ u, (u ∈ x.units.map fun u => { u with draw := 0 }) ↔ ∃ l, l < 32 ∧ act w q m l ∧
              u = ⟨l, a l, 4, win l, (operand w m f.b.toNat l).setWidth 64, (w.v d.toNat l).setWidth 64, d.toNat, false, 0, false, false, 0⟩) ∧
          (f.d = none → x.kind = .red f.minor ∧ x.inLd = false ∧ x.inSt = true ∧ x.acq = false ∧
            x.rel = (ordering m == 2 || ordering m == 3) ∧
            (∀ l, l < 32 → act w q m l → ∃ e ∈ t.red, e.ctx = w.ctx ∧ e.addr = a l ∧ e.minor = f.minor ∧
              typ e.slot = typ m ∧ sat e.slot = sat m ∧ rnd e.slot = rnd m ∧
              ∃ u ∈ e.upds, u.wave = w.id ∧ u.ident = w.ident l ∧ u.value = operand w m f.b.toNat l ∧ u.acc = s.nextId) ∧
            (∀ e ∈ s.red, ∃ e' ∈ t.red, e'.id = e.id ∧ e'.addr = e.addr ∧ ∃ us, e'.upds = e.upds ++ us) ∧
            { t with
              waves := s.waves
              flight := s.flight
              nextId := s.nextId
              transfers := s.transfers
              ctxs := s.ctxs
              red := s.red } = s))

open Sys2Proof Sys2Proof.Machine Sys2Proof.Claims in
/-- A returning atomic at its home (R71, R199 to R201): the old value goes to the lane's d or to sd, the new one to memory, as one step,
and no other byte or register changes.  A compare that fails stores nothing.  Only a `vaadd` that clamps sets a flag, saturated. -/
def Obligations.AtomicsReadModifyWrite : Prop :=
  ∀ (s : State) (a : Access) (k : Nat) (u : AccUnit) (w : Wave), ripe s a k u → s.wave? a.wave = some w →
    (∀ minor new, unbound s w.ctx u.addr 4 → a.kind = .vatomic minor → u.lane < 32 →
      newInteger minor a.slot (BitVec.ofNat 32 (s.slice.num u.addr 4)) (u.data.setWidth 32) (u.data2.setWidth 32) = some new →
        ∃ t w', exec (.atomicAtHome a.id k) s = .next t ∧ onlyWave s t w w' ∧ unitDone s t a k ∧ storedAt s t u.addr 4 new.toNat ∧
          (∀ r l, l < 32 → w'.v r l =
            if r = u.reg ∧ l = u.lane ∧ takes w r then BitVec.ofNat 32 (s.slice.num u.addr 4) else w.v r l) ∧
          (∃ fl, w'.flags = w.flags ||| fl ∧ w'.lateFlags &&& fl = fl ∧ w'.lateTick = s.tick ∧
            (fl = 0 ∨ (minor = 0 ∧ sat a.slot = true ∧ fl = 0x20))) ∧
          { w' with vregs := w.vregs, flags := w.flags, lateFlags := w.lateFlags, lateTick := w.lateTick } = w ∧
          { t with waves := s.waves, flight := s.flight, slice := s.slice } = s) ∧
    (∀ d new, unbound s w.ctx u.addr 8 → a.units = [u] → a.sdst = some d →
      ((a.kind = .scas ∧ new = if s.slice.num u.addr 8 = u.data.toNat then u.data2 else BitVec.ofNat 64 (s.slice.num u.addr 8)) ∨
        ∃ op, op < 8 ∧ a.kind = .samo op ∧ new = newScalar op (BitVec.ofNat 64 (s.slice.num u.addr 8)) u.data) →
        ∃ t w', exec (.atomicAtHome a.id k) s = .next t ∧ onlyWave s t w w' ∧ gone s t a ∧ storedAt s t u.addr 8 new.toNat ∧
          (∀ r, w'.s r = if r = d then BitVec.ofNat 64 (s.slice.num u.addr 8) else w.s r) ∧
          { w' with sregs := w.sregs } = w ∧ { t with waves := s.waves, flight := s.flight, slice := s.slice } = s)

open Sys2Proof Sys2Proof.Machine Sys2Proof.Claims in
/-- The instructions on barrier objects, lock words and ticket words go to the home (R196, R197, R204 to R217, R453): `binit`, the locks
and `tkpass` hold their wave until the home has answered, `barb` and `waitp` their sub-wave alone (R112), and `barv` and `bphase` go on.
A grid wave arrives once, a task wave once for each Active lane, with their identities.  `tkwait` passes when the word holds the
group's ticket, waits when it does not, and is no instruction of a task wave. -/
def Obligations.HomeTestedInstructionsIssue : Prop :=
  (∀ (i : Instr) (f : MForm) (s : State) (w : Wave) (q : SubWave) (ps : List (Nat × W64)) (kind : AccKind) (ld st rel : Bool)
    (sd : Option Nat) (who a k : Nat) (win : Bool) (mask : W64), scalarAccess i = some f → s.issuer w q →
    lowest w q (f.m w) k → partyList w q (f.m w) ps → activeBits w q (f.m w) mask →
    homeKind w ps i = some (kind, ld, st, sd, rel, who) → located s w (f.addr w) f.size a win → unmodified s w a f.size →
    sound s a f.size →
      ∃ t w' x, exec i s = .next t ∧ launched s t w w' rel false [x] ∧ waitsFor s w w' q who ∧ issuedBy x s w q (f.m w) ∧
        x.kind = kind ∧ x.acq = false ∧ x.rel = rel ∧ x.inLd = ld ∧ x.inSt = st ∧ x.sdst = sd ∧
        x.units = homeUnits i ps k a f.size win (f.addr w) mask) ∧
  (∀ (s : State) (w : Wave) (q : SubWave) (d b : BitVec 6) (m : BitVec 2) (o : BitVec 9) (a : Nat) (win : Bool), s.issuer w q →
    let f : MForm := ⟨m, b, o, 32, 32, false, true⟩
    located s w (f.addr w) 32 a win → sound s a 32 →
    (w.task = false ∨ ∃ k, lowest w q (f.m w) k) →
      ∃ t w' x lane mask, exec (.waitp d b m o) s = .next t ∧ launched s t w w' false false [x] ∧ waitsFor s w w' q 1 ∧
        issuedBy x s w q (f.m w) ∧ x.kind = .check (BitVec.ofNat 32 (un w d)) ∧ activeBits w q (f.m w) mask ∧
        x.units = [⟨lane, a, 32, win, mask, f.addr w, 0, false, 0, false, false, 0⟩]) ∧
  ∀ (s : State) (w : Wave) (q : SubWave) (b : BitVec 6) (m : BitVec 2) (o : BitVec 9) (a k : Nat) (win : Bool), s.issuer w q →
    let f : MForm := ⟨m, b, o, 8, 8, false, false⟩
    lowest w q (f.m w) k → located s w (f.addr w) 8 a win → sound s a 8 →
    (w.task = true → calm s w → ∃ t, exec (.tkwait b m o) s = .next t ∧ tookFault s t w q 0x27 q.pc (f.addr w)) ∧
    (w.task = false → quiet s w → ticketIs (s.slice.num a 8) w.group w.ord →
      ∃ t, exec (.tkwait b m o) s = .next t ∧ passed s t w q) ∧
    (w.task = false → ¬ticketIs (s.slice.num a 8) w.group w.ord →
      exec (.tkwait b m o) s = .next (s.withIssuer { w with wait := .again q.quads }))

open Sys2Proof Sys2Proof.Machine Sys2Proof.Claims in
/-- What the home does for a wave that waits for it (R204, R213, R214, R217, R453).  `binit` writes its 32 bytes, or, where both counts
are zero or the object has bound regions, raises BARRIER_SETUP.  `rgacq` takes a free lock for its first party and tells so in sd; a
party that holds it already raises LOCK_STATE.  `rgrel` frees the lock of its party, else LOCK_STATE.  `tkpass` passes the ticket that
its group holds, else TICKET_STATE with the word.  A refusal changes nothing at the home. -/
def Obligations.HomeAnswersTheWaitingWave : Prop :=
  ∀ (s : State) (a : Access) (u : AccUnit) (w : Wave), ripe s a 0 u → s.wave? a.wave = some w →
    unbound s w.ctx u.addr 32 → (s.ctx w.ctx).held = [] →
    let done := fun (t : State) (w' : Wave) =>
      exec (.atomicAtHome a.id 0) s = .next t ∧ onlyWave s t w w' ∧ gone s t a ∧
        { t with waves := s.waves, flight := s.flight, slice := s.slice, ctxs := s.ctxs } = s
    let old := s.slice.num u.addr 8
    (∀ e b, a.kind = .binit e b → a.units = [u] →
      ((e ≠ 0 ∨ b ≠ 0) → flagsWord s u.addr / 4 % 128 = 0 → (∀ x ∈ s.waves, ∀ q ∈ x.subs, ∀ n c v, q.st ≠ .waiting u.addr n c v) →
        (∀ x ∈ s.tasks, ∀ n, x.st ≠ .waiting u.addr n) →
          ∃ t, done t (wentOn w a.quads) ∧ expected t u.addr = e.toNat ∧ arrived t u.addr = 0 ∧ expbytes t u.addr = b.toNat ∧
            landed t u.addr = 0 ∧ phase t u.addr = 0 ∧ flagsWord t u.addr = (if (s.ctx w.ctx).r.det then 2 else 0) ∧
            ∀ x, (x < u.addr ∨ u.addr + 32 ≤ x) → t.slice.byte x = s.slice.byte x) ∧
      ((e = 0 ∧ b = 0) ∨ flagsWord s u.addr / 4 % 128 ≠ 0 → calm s w →
        ∃ t, exec (.atomicAtHome a.id 0) s = .next t ∧ refusedThere s t w a 0x32 u.data2)) ∧
    (a.kind = .rgacq → ((∃ v ∈ a.units, v.data.toNat = old) → calm s w →
        ∃ t, exec (.atomicAtHome a.id 0) s = .next t ∧ refusedThere s t w a 0x26 u.data2) ∧
      ∀ d, (∀ v ∈ a.units, v.data.toNat ≠ old) → (∀ v ∈ a.units, v.lane < 64) → a.sdst = some d →
        ∃ t w', done t w' ∧ storedAt s t u.addr 8 (if old = 0 then u.data.toNat else old) ∧
          (∀ r, w'.s r = if r = d then (if old = 0 then BitVec.ofNat 64 (if w.task then 2 ^ u.lane else 1) else 0) else w.s r) ∧
          { w' with sregs := w.sregs } = wentOn w a.quads) ∧
    (a.kind = .rgrel → ((∃ v ∈ a.units, v.data.toNat ≠ old) → calm s w →
        ∃ t, exec (.atomicAtHome a.id 0) s = .next t ∧ refusedThere s t w a 0x26 u.data2) ∧
      ((∀ v ∈ a.units, v.data.toNat = old) → ∃ t, done t (wentOn w a.quads) ∧ storedAt s t u.addr 8 0)) ∧
    (a.kind = .tkpass → w.task = false → (∃ g, s.group? w.gid = some g) → ((s.ctx w.ctx).r.det = false ∨ u.addr ≠ (s.ctx w.ctx).r.ticket) →
      (ticketIs old w.group w.ord → ∃ t, done t (wentOn w a.quads) ∧ storedAt s t u.addr 4 (w.group + 1)) ∧
      (¬ticketIs old w.group w.ord → calm s w →
        ∃ t, exec (.atomicAtHome a.id 0) s = .next t ∧ refusedThere s t w a 0x27 (BitVec.ofNat 64 old)))

open Sys2Proof Sys2Proof.Machine Sys2Proof.Claims in
/-- Arrivals, landed bytes and waits at a barrier object (R19, R78, R113, R203 to R209).  Counts that fit are added and complete the phase
when both are met, which sends every sub-wave parked on it on at its continuation; `barv` takes the phase, and a `barb` goes on to its
check.  A check of a complete phase lets its sub-wave go on, else parks it in a grid wave; one of a faulted object raises
BARRIER_FAULTED.  `bphase` reads the phase, and in a grid
wave whether it was elected. -/
def Obligations.BarrierPhasesCompleteOnce : Prop :=
  (∀ (s : State) (a : Access) (u : AccUnit) (ids : List W64) (wait : Bool) (w : Wave) (d : Nat), ripe s a 0 u → a.units = [u] →
    a.kind = .arrive ids wait → s.wave? a.wave = some w → a.sdst = some d → (s.ctx a.ctx).held = [] → a.id < s.nextId →
    arrived s u.addr + ids.length ≤ expected s u.addr → (∀ c ∈ s.ctxs, (c.objRec u.addr).landTick ≠ some s.tick) →
      ∃ t w', exec (.barrierArrivalApply a.id) s = .next t ∧ counted s t u.addr ids.length 0 ∧ t.wave? w.id = some w' ∧
        (∀ r, w'.s r = if r = d then BitVec.ofNat 64 (phase s u.addr) else w.s r) ∧ w'.vregs = w.vregs ∧ w'.preds = w.preds ∧
        (wait = false → gone s t a ∧ w'.subs.length = w.subs.length ∧
          (∀ (n : Nat) (q q' : SubWave), w.subs[n]? = some q → w'.subs[n]? = some q' → woken s t u.addr q q') ∧
          ∀ j v, j ≠ w.id → s.wave? j = some v → ∃ v', t.wave? j = some v' ∧ { v' with subs := v.subs } = v ∧
            v'.subs.length = v.subs.length ∧ ∀ (n : Nat) (q q' : SubWave), v.subs[n]? = some q → v'.subs[n]? = some q' → woken s t u.addr q q') ∧
        (wait = true → ∃ x ∈ t.flight, x.id = s.nextId ∧ x.wave = w.id ∧ x.kind = .check (BitVec.ofNat 32 (phase s u.addr)) ∧
          x.units = [{ u with done := false, reg := 1 }]) ∧
        { t with
          waves := s.waves
          flight := s.flight
          slice := s.slice
          ctxs := s.ctxs
          nextId := s.nextId } = s) ∧
  (∀ (s : State) (l : Landing), (s.landings.find? fun x => x.id == l.id) = some l → s.moves = [] →
    landed s l.obj + l.bytes ≤ expbytes s l.obj →
      ∃ t, exec (.landedBytesApply l.id) s = .next t ∧ counted s t l.obj 0 l.bytes ∧
        t.landings = s.landings.filter (fun x => x.id ≠ l.id) ∧
        { t with landings := s.landings, waves := s.waves, slice := s.slice, ctxs := s.ctxs } = s) ∧
  (∀ (s : State) (a : Access) (u : AccUnit) (p : W32) (w : Wave) (before after : List SubWave) (q : SubWave), ripe s a 0 u →
    a.units = [u] → a.kind = .check p → s.wave? a.wave = some w → w.handler = none → w.subs = before ++ q :: after →
    q.st = .atHome a.id → (∀ x ∈ before ++ after, x.st ≠ .atHome a.id) →
    (flagsWord s u.addr % 2 = 1 → calm s w → a.quads = q.quads → a.pc = q.pc →
      ∃ t, exec (.waitpCheck a.id) s = .next t ∧ refusedThere s t w a 0x31 u.data2) ∧
    (flagsWord s u.addr % 2 = 0 → complete (phase s u.addr) p.toNat →
      ∃ t, exec (.waitpCheck a.id) s = .next t ∧ gone s t a ∧
        onlyWave s t w { w with subs := before ++ { q with pc := q.pc + 4, st := .ready } :: after } ∧
        { t with waves := s.waves, flight := s.flight, ctxs := s.ctxs } = s) ∧
    (flagsWord s u.addr % 2 = 0 → ¬complete (phase s u.addr) p.toNat → w.task = false →
      ∃ t, exec (.waitpCheck a.id) s = .next t ∧ gone s t a ∧
        onlyWave s t w { w with subs := before ++ { q with st := .waiting u.addr p (q.pc + 4) u.data2 } :: after } ∧
        { t with waves := s.waves, flight := s.flight } = s)) ∧
  ∀ (s : State) (a : Access) (u : AccUnit) (back : Nat) (w : Wave) (d : Nat), ripe s a 0 u → a.units = [u] → a.kind = .bphase →
    s.wave? a.wave = some w → a.sdst = some d →
      ∃ t w', exec (.loadDataReturn a.id 0 back) s = .next t ∧ gone s t a ∧ onlyWave s t w w' ∧
        { w' with sregs := w.sregs } = w ∧ (w'.s d).toNat % 2 ^ 32 = phase s u.addr ∧
        (w.task = false → (w'.s d).toNat / 2 ^ 32 =
          if ((s.ctx w.ctx).objRec u.addr).elected = some (w.ident 0) then 2 ^ 32 - 1 else 0) ∧ (∀ r, r ≠ d → w'.s r = w.s r) ∧
        { t with waves := s.waves, flight := s.flight } = s

open Sys2Proof Sys2Proof.Machine Sys2Proof.Claims in
/-- A combiner's entry is sent after 16 clk (R259); its packet is applied as one update of its cell (R260 to R263): an integer sum with one
fit, a minimum or a maximum of the word and every merged value, and nothing else in memory changes; its updates leave st, and the
saturated flag of a packet that clamps reaches every wave with an update in it. -/
def Obligations.PacketsUpdateTheirCell : Prop :=
  (∀ (s : State) (e : RedEntry), e ∈ s.red → (∀ x ∈ s.red, x.id = e.id → x = e) → e.sent = false →
    (e.since + 16 ≤ s.tick → ∃ t, exec (.combinerHoldTimeout e.id) s = .next t ∧
      t.red = s.red.map (fun x => if x.id = e.id then { x with sent := true } else x) ∧
      { t with red := s.red, transfers := s.transfers, ctxs := s.ctxs } = s) ∧
    (s.tick < e.since + 16 → exec (.combinerHoldTimeout e.id) s = .next s)) ∧
  ∀ (s : State) (e : RedEntry), packetRipe s e → e.upds ≠ [] →
    let n := if e.minor = 13 then 16 else 4
    unbound s e.ctx e.addr n → e.minor ∈ [9, 10, 11, 12, 13] →
      ∃ t, exec (.combinerPacketApply e.id) s = .next t ∧
        (∀ x, (x < e.addr ∨ e.addr + n ≤ x) → t.slice.byte x = s.slice.byte x) ∧ t.red = s.red.filter (fun x => x.id ≠ e.id) ∧
        (∀ u ∈ e.upds, ∀ b ∈ t.flight, b.id = u.acc → ∀ v, b.units[u.unit]? = some v → v.done = true) ∧
        (∀ new fl, mergedWord e.minor e.slot (BitVec.ofNat 32 (s.slice.num e.addr 4)) (e.upds.map (·.value)) = some (new, fl) →
          t.slice.num e.addr 4 = new.toNat ∧
          ∀ j v, s.wave? j = some v → ∃ v', t.wave? j = some v' ∧
            { v' with flags := v.flags, lateFlags := v.lateFlags, lateTick := v.lateTick } = v ∧
            ((∃ u ∈ e.upds, u.wave = j) → v'.flags = if fl then v.flags ||| 0x20 else v.flags) ∧
            ((∀ u ∈ e.upds, u.wave ≠ j) → v'.flags = v.flags)) ∧
        { t with waves := s.waves, flight := s.flight, slice := s.slice, red := s.red, ctxs := s.ctxs } = s

open Sys2Proof Sys2Proof.Machine Sys2Proof.Claims in
/-- Bound regions (R67, R70, R210, R211).  A `bind` whose operands, object and region pass the checks holds its wave until every core has
the binding; then the binding is in the table, the object's bound field counts it, and the wave goes on.  A bad operand raises
BIND_OPERAND with it, and binds nothing.  `unbind` of a binding with no write in flight or pending removes it and its count, and raises
UNBIND_MISSING where there is none.  The drain of determinism mode (R266 to R270).  A floating-point reduction with room in its group's
buffer goes there and to no home.  A group that holds the ticket and whose wave waits to pass it drains its whole buffer, to its entries'
words alone.  The K9 passes the ticket of a group whose waves have all ended, and the group leaves; and from a grid that has ended to the
next one. -/
def Obligations.BindingsAndTicketsComeAndGo : Prop :=
  ((∀ (s : State) (w : Wave) (q : SubWave) (d b : BitVec 6) (m : BitVec 2) (o : BitVec 9) (k a : Nat) (win : Bool) (r : Nat),
    s.issuer w q →
    let f : MForm := ⟨m, b, o, 8, 8, true, false⟩
    let base := un w d
    let word := (w.s (d.toNat + 1)).toNat
    let lock := decide (word % 2 = 1)
    lowest w q (f.m w) k →
    (base % 64 = 0 → 0 < word / 64 → word % 64 < 2 →
      located s w (f.addr w) (if lock then 8 else 32) a win → unmodified s w a (if lock then 8 else 32) →
      sound s a (if lock then 8 else 32) → regionNamed s w base (word / 64 * 64) r → (∀ x ∈ s.flight, ∀ n l c, x.kind ≠ .bind n l c) →
      (s.ctx w.ctx).bindings.length < 64 →
      (∀ x ∈ (s.ctx w.ctx).bindings, r + word / 64 * 64 ≤ x.base ∨ x.base + x.len ≤ r) →
        ∃ t w' x, exec (.bind d b m o) s = .next t ∧ launched s t w w' false false [x] ∧ waitsFor s w w' q 2 ∧
          issuedBy x s w q (f.m w) ∧ x.kind = .bind r (word / 64 * 64) lock ∧ x.inLd = false ∧ x.inSt = false ∧
          x.units = [⟨k, a, if lock then 8 else 32, win, 0, f.addr w, 0, false, 0, false, false, 0⟩]) ∧
    (calm s w → (2 ≤ word % 64 ∨ base % 64 ≠ 0 ∨ word / 64 = 0) →
      ∃ t, exec (.bind d b m o) s = .next t ∧ tookFault s t w q 0x2A q.pc
        (if word % 64 < 2 ∧ base % 64 ≠ 0 then w.s d.toNat else w.s (d.toNat + 1)))) ∧
  (∀ (s : State) (x : Access) (u : AccUnit) (w : Wave) (base len : Nat) (lock : Bool), ripe s x 0 u → x.units = [u] →
    x.kind = .bind base len lock → s.wave? x.wave = some w → (∃ c ∈ s.ctxs, c.id = w.ctx) →
      ∃ t, exec (.bindingInstalled x.id) s = .next t ∧ onlyWave s t w (wentOn w x.quads) ∧ gone s t x ∧
        (t.ctx w.ctx).bindings = (s.ctx w.ctx).bindings ++ [⟨base, len, u.addr, lock⟩] ∧
        (lock = true → t.slice = s.slice) ∧
        (lock = false → storedAt s t (u.addr + 28) 4
          (flagsWord s u.addr % 4 + (flagsWord s u.addr / 4 % 128 + 1) % 128 * 4)) ∧
        { t with waves := s.waves, flight := s.flight, slice := s.slice, ctxs := s.ctxs } = s) ∧
  ∀ (s : State) (w : Wave) (q : SubWave) (d b : BitVec 6) (m : BitVec 2) (o : BitVec 9) (k a r : Nat) (win win' : Bool), s.issuer w q →
    let f : MForm := ⟨m, b, o, 8, 8, true, false⟩
    lowest w q (f.m w) k → namesByte s w (un w d) r win' →
    (∀ before x after, (s.ctx w.ctx).bindings = before ++ x :: after → x.base = r → (∀ y ∈ before ++ after, y.base ≠ r) →
      located s w (f.addr w) (if x.lock then 8 else 32) a win → unmodified s w a (if x.lock then 8 else 32) →
      sound s a (if x.lock then 8 else 32) → x.obj = a → s.flight = [] → (s.ctx w.ctx).held = [] → (∃ c ∈ s.ctxs, c.id = w.ctx) →
        ∃ t w', exec (.unbind d b m o) s = .next t ∧ t.waves = w' :: s.waves.tail ∧ w'.still = w.still ∧ w.wentTo w' q (q.pc + 4) ∧
          (t.ctx w.ctx).bindings = before ++ after ∧ (x.lock = true → t.slice = s.slice) ∧
          (x.lock = false → storedAt s t (a + 28) 4 (flagsWord s a % 4 + (flagsWord s a / 4 % 128 - 1) % 128 * 4)) ∧
          { t with waves := s.waves, slice := s.slice, ctxs := s.ctxs } = s) ∧
    ((∀ x ∈ (s.ctx w.ctx).bindings, x.base ≠ r) → located s w (f.addr w) 8 a win → unmodified s w a 8 → sound s a 8 → calm s w →
      ∃ t, exec (.unbind d b m o) s = .next t ∧ tookFault s t w q 0x25 q.pc (w.s d.toNat))) ∧
  ((∀ (i : Instr) (f : AForm) (s : State) (w : Wave) (q : SubWave) (a : Nat → Nat) (win : Nat → Bool) (g : Group) (x : Grid),
    atomForm i = some f → f.minor = 8 ∨ f.minor = 10 → s.issuer w q → f.issues w → (s.ctx w.ctx).r.det = true → w.task = false →
    s.group? w.gid = some g → g.passed = false → (s.grids.find? fun y => y.id == g.grid) = some x →
    g.drain.length + 32 ≤ 1024 + 256 * x.spill → (∃ l, l < 32 ∧ act w q (w.slotOf f.slot.toNat) l) →
    (∀ l, l < 32 → act w q (w.slotOf f.slot.toNat) l →
      located s w (f.addr w l) 4 (a l) (win l) ∧ unmodified s w (a l) 4 ∧ sound s (a l) 4) →
      ∃ t w' g', exec i s = .next t ∧ t.waves = w' :: s.waves.tail ∧ w.wentTo w' q (q.pc + 4) ∧
        { w'.still with flags := w.flags, grain := w.grain } = w.still ∧ t.slice = s.slice ∧ t.red.map (·.upds) = s.red.map (·.upds) ∧
        t.group? w.gid = some g' ∧ { g' with drain := g.drain } = g ∧
        ∀ l, l < 32 → act w q (w.slotOf f.slot.toNat) l → ∃ e ∈ g'.drain, e.addr = a l ∧
          ∃ u ∈ e.upds, u.wave = w.id ∧ u.ident = w.ident l ∧ u.value = operand w (w.slotOf f.slot.toNat) f.b.toNat l) ∧
  (∀ (s : State) (g : Group), s.group? g.id = some g → (s.ctx g.ctx).r.det = true → g.passed = false →
    ticketIs (s.slice.num (s.ctx g.ctx).r.ticket 8) g.index g.ord → (∀ w ∈ s.waves, w.halt ≠ .unhandled) →
    (∀ e ∈ g.drain, (e.asked = true ∨ homeCore e.addr = g.core) ∧ ∀ u ∈ e.upds,
      (∀ b ∈ s.flight, b.wave = u.wave → b.id < u.acc → ∀ v ∈ b.units, v.done = true) ∧ (u.rel ≠ none → noEngine s)) →
    (∀ x ∈ s.transfers, x.op ≠ g.id) →
    ((∃ a ∈ s.flight, a.kind = .tkpass ∧ (∃ u ∈ a.units, u.addr = (s.ctx g.ctx).r.ticket) ∧
        ∃ w, s.wave? a.wave = some w ∧ w.task = false ∧ w.gid = g.id) →
      ∃ t, exec (.drainPass g.id) s = .next t ∧ (∃ g', t.group? g.id = some g' ∧ g'.drain = []) ∧
        ∀ b, (∀ e ∈ g.drain, b < e.addr ∨ e.addr + 4 ≤ b) → t.slice.byte b = s.slice.byte b) ∧
    ((∀ w ∈ s.waves, w.task = true ∨ w.gid ≠ g.id) → g.drain = [] → s.slip = [] → s.sieve = [] →
      unbound s g.ctx (s.ctx g.ctx).r.ticket 4 →
      ∃ t, exec (.groupExitPass g.id) s = .next t ∧ t.group? g.id = none ∧ storedAt s t (s.ctx g.ctx).r.ticket 4 (g.index + 1) ∧
        (∀ x ∈ t.grids, x.id = g.grid → g.index ∈ x.ended) ∧
        { t with slice := s.slice, groups := s.groups, grids := s.grids } = s)) ∧
  ∀ (s : State) (c : Nat) (x y : Grid), (s.ctx c).r.det = true → x ∈ s.grids → y ∈ s.grids → x.ctx = c → y.ctx = c →
    x.ended.length = x.ngroups → y.ended.length ≠ y.ngroups → ticketIs (s.slice.num (s.ctx c).r.ticket 8) x.ngroups x.ord →
    x.ngroups < 2 ^ 32 → x.ord % 2 ^ 23 ≠ y.ord % 2 ^ 23 →
    (∀ z ∈ s.grids, z.ctx = c → z.ord % 2 ^ 23 = x.ord % 2 ^ 23 → z = x) →
    (∀ z ∈ s.grids, z.ctx = c → z ≠ x → z ≠ y → y.ord < z.ord) → unbound s c (s.ctx c).r.ticket 8 →
      ∃ t, exec (.ticketHandover c) s = .next t ∧ storedAt s t (s.ctx c).r.ticket 8 (y.ord % 2 ^ 23 * 2 ^ 32) ∧
        { t with slice := s.slice, grids := s.grids } = s)

/-! ## The matrix engine (R275 to R301) -/

namespace Sys2Proof.Claims

open Sys2Proof.Machine

/-! ### Reservations and tiles (R279 to R286) -/

/-- Fields of a reservation descriptor: length, class with f16, steps, and offset of the panel (R279). -/
def dLength (d : W64) : Nat := d.toNat % 2 ^ 18
def dFormat (d : W64) : Nat := d.toNat / 2 ^ 18 % 8
def dSteps (d : W64) : Nat := d.toNat / 2 ^ 21 % 8 + 1
def dPanel (d : W64) : Nat := d.toNat / 2 ^ 24 % 2 ^ 18

/-- Tiles of a step, and bytes of a tile, of a class (R279, R45, R46). -/
def stepTiles (d : W64) : Nat := 2 * 2 ^ (dFormat d % 4)
def tileSize (d : W64) : Nat := if dFormat d % 4 = 0 then 512 else if dFormat d % 4 = 2 then 144 else 272

/-- A descriptor that `obres` accepts (R279). -/
def descriptorOk (d : W64) : Prop :=
  d.toNat / 2 ^ 42 = 0 ∧ 0 < dLength d ∧ dFormat d % 4 ≠ 3 ∧ (dFormat d < 4 ∨ dFormat d = 4) ∧ dPanel d % 16 = 0 ∧
    dPanel d + dSteps d * stepTiles d * tileSize d ≤ dLength d

/-- Granule `b` starts a run of `n` that no wave of the quadrant holds, and no lower one does (R281). -/
def firstRun (s : State) (quadrant n b : Nat) : Prop :=
  let free := fun x => x + n ≤ 256 ∧ ∀ w ∈ s.waves, w.quadrant = quadrant → ∀ r ∈ w.rsv, x + n ≤ r.base ∨ r.base + r.grans ≤ x
  free b ∧ ∀ x, x < b → ¬free x

/-- The tile that `accz` or `accza` gives: every cell finite and zero, the slot's rounding, and its anchor (R286). -/
def freshTile (t : BitVec 3) (m : W32) (anchor : Option (BitVec 12)) : Tile := ⟨t.toNat, [], anchor.getD 0, anchor.isSome, rnd m, 0⟩

/-- An instruction that acts once when some lane is Active (R277). -/
def onceGuarded : Instr → Option (BitVec 2)
  | .accz _ m _ _ | .accza _ m | .obres _ m _ | .obrel _ m | .obld _ _ m _ _ | .obwin _ m _ | .mma _ _ _ m _ _ _ _ _
  | .mmac _ _ _ m _ _ _ _ | .accst _ _ _ _ m _ _ | .accadd _ _ m => some m
  | _ => none

/-- The tile that an `accz` or `accza` asks for, with its anchor. -/
def asksTile (w : Wave) : Instr → Option (BitVec 3 × BitVec 2 × Option (BitVec 12))
  | .accz t m a r => if r = 0 then some (t, m, some (BitVec.ofNat 12 (un w a))) else none
  | .accza t m => some (t, m, none)
  | _ => none

/-! ### Operations in flight -/

/-- What an operation is, for those whose tile and kind follow from the instruction (R288, R290, R299), and whether it is a product. -/
def opKind : Instr → Option (BitVec 2 × BitVec 3 × MatKind × Option (BitVec 4 × BitVec 4 × BitVec 3))
  | .mma t a b m j _ o v u =>
    if o = 0 then some (m, t, .mma a.toNat b.toNat j.toNat (decide (u = 1)) (decide (v = 1)), some (a, b, j)) else none
  | .mmac t a b m j h v u =>
    some (m, t, .mmac a.toNat b.toNat j.toNat (decide (u = 1)) (decide (v = 1)) (decide (h = 1)), some (a, b, j))
  | .accadd t u m => some (m, t, .accadd u.toNat, none)
  | _ => none

/-- The other instructions that put an operation in flight: part, tile and register of `accrd` and `accwr`. -/
def partKind : Instr → Option (Bool × BitVec 3 × BitVec 7 × BitVec 2 × BitVec 3)
  | .accrd t d m p => some (true, t, d, m, p)
  | .accwr t a m p => some (false, t, a, m, p)
  | _ => none

/-- The quadrant has room for one more operation of the wave (R275, R294). -/
def matrixRoom (s : State) (w : Wave) : Prop :=
  w.unsealedM.length < 64 ∧ s.productsOn w.quadrant < 8 ∧ s.fetchDepth w.quadrant ≤ 14

/-- One operation joined those in flight, to be sealed where `sealed`, and the wave went on with its registers as they were, but for the
grain; nothing else changed, but that an engine request sends combiner entries (R259). -/
def opJoined (s t : State) (w : Wave) (q : SubWave) (m : W32) (tile : Nat) (kind : MatKind) (sealed : Bool) : Prop :=
  ∃ w' x, t.waves = w' :: s.waves.tail ∧ t.mats = s.mats ++ [x] ∧ x.id = s.nextId ∧ x.wave = w.id ∧ x.tile = tile ∧ x.kind = kind ∧
    x.by_.pc = q.pc ∧ x.by_.slot = m ∧ w.wentTo w' q (q.pc + 4) ∧ w'.unsealedM = w.unsealedM ++ (if sealed then [s.nextId] else []) ∧
    { w'.still with unsealedM := w.unsealedM, grain := w.grain } = w.still ∧ t.red.map (·.upds) = s.red.map (·.upds) ∧
    { t with
      waves := s.waves
      mats := s.mats
      nextId := s.nextId
      red := s.red
      transfers := s.transfers
      ctxs := s.ctxs } = s

/-- The wave went on with its instruction done at once, to `w'` but for where it stands. -/
def becomes (s t : State) (w w' : Wave) (q : SubWave) : Prop :=
  ∃ v, t = s.withIssuer v ∧ v.still = w'.still ∧ w.wentTo v q (q.pc + 4)

/-! ### The product (R53 to R57, R287 to R290) -/

/-- OpA(i, k) and OpB(k, c) of a step (R287). -/
def opA (s : State) (r : Reservation) (j : Nat) (ta : Bool) (i k : Nat) : Machine.Num :=
  let b := s.panelTile r (j * stepTiles r.desc + k / 16)
  if ta then tileElem r.desc b (k % 16) i else tileElem r.desc b i (k % 16)
def opB (s : State) (r : Reservation) (j : Nat) (tb : Bool) (k c : Nat) : Machine.Num :=
  let b := s.panelTile r (j * stepTiles r.desc + k / 16)
  if tb then tileElem r.desc b c (k % 16) else tileElem r.desc b (k % 16) c

/-- What a product of two finite values adds at anchor A where it is a multiple of 2^A: z × 2^A is the product (R54). -/
def adds (A : Int) (x y : Machine.Num) (z : Int) : Prop :=
  ∃ s m e s' m' e', x = .fin s m e ∧ y = .fin s' m' e' ∧ A ≤ e + e' ∧
    z = (if s = s' then 1 else -1) * ((m * m' : Nat) : Int) * 2 ^ (e + e' - A).toNat ∧ z.natAbs < 2 ^ 95

/-- The anchor of a tile, signed (R285). -/
def baseOf (t : Tile) : Int := t.anchor.toInt

/-- No word of a reservation's step has an error or a reserved tag (R289). -/
def stepSound (s : State) (w : Wave) (r : Reservation) (j : Nat) : Prop :=
  s.eccBad = [] ∧ w.eccRegs = [] ∧
    (dFormat r.desc % 4 ≠ 0 → ∀ u, u < stepTiles r.desc → blockTag (s.panelTile r (j * stepTiles r.desc + u)) ≠ 3)

/-- Only operation `m` is in flight on the module, nothing of its wave that it would have to follow, its wave holds no write to a bound
region, and its transfers are granted (R74, R278, R399). -/
def onlyOp (s : State) (m : MatOp) : Prop :=
  s.mats = [m] ∧ (∀ a ∈ s.flight, a.wave ≠ m.wave) ∧ (∀ h ∈ (s.ctx m.by_.ctx).held, h.wave ≠ m.by_.wave) ∧
    ∀ x ∈ s.transfers, x.op ≠ m.id

/-- A wave's flags as they were when an operation that ends late set its own (R43). -/
def unflagged (w' w : Wave) : Wave := { w' with flags := w.flags, lateFlags := w.lateFlags, lateTick := w.lateTick }

/-- A cell of a wave's tile. -/
def cellOf (w : Wave) (t c : Nat) : Option Cell := (w.tile? t).map fun x => x.cell c

end Sys2Proof.Claims

open Sys2Proof Sys2Proof.Machine Sys2Proof.Claims in
/-- The matrix instructions that end at issue (R277, R279 to R286, R291, R294).  With no Active lane an MTX instruction only passes.
`accz` and `accza` clear a held tile that no operation names, or take a free one, or wait; `rel` gives it back.  `obres` takes the lowest
run of granules for an accepted descriptor, `obrel` returns it.  `obwin` makes a handle a window, `jset` takes a legal member mask, else
JOINT_SET, and `sealm` closes the unsealed operations into a batch. -/
def Obligations.MatrixStateInstructionsTakeEffect : Prop :=
  ∀ (s : State) (w : Wave) (q : SubWave), s.issuer w q →
    (∀ i m, onceGuarded i = some m → (∀ l, l < 32 → ¬act w q (w.slotOf m.toNat) l) → ∃ t, exec i s = .next t ∧ passed s t w q) ∧
    (∀ i t m anchor, asksTile w i = some (t, m, anchor) → (∃ l, l < 32 ∧ act w q (w.slotOf m.toNat) l) → rnd (w.slotOf m.toNat) ≠ 4 →
      ((∃ x ∈ w.tiles, x.name = t.toNat) → (∀ x ∈ s.mats, x.wave ≠ w.id) →
        ∃ u, exec i s = .next u ∧
          becomes s u w { w with tiles := w.tiles.map fun x => if x.name = t.toNat then freshTile t (w.slotOf m.toNat) anchor else x } q) ∧
      ((∀ x ∈ w.tiles, x.name ≠ t.toNat) → (∀ e ∈ s.waitList, ¬(e.1 = w.quadrant ∧ e.2.1 = 2)) →
        ((s.waves.filter fun x => x.quadrant == w.quadrant).map fun x => x.tiles.length).sum < 8 →
        ∃ u, exec i s = .next u ∧ becomes s u w { w with tiles := w.tiles ++ [freshTile t (w.slotOf m.toNat) anchor] } q) ∧
      ((∀ x ∈ w.tiles, x.name ≠ t.toNat) →
        8 ≤ ((s.waves.filter fun x => x.quadrant == w.quadrant).map fun x => x.tiles.length).sum →
        ∃ u w', exec i s = .next u ∧ u.waves = w' :: s.waves.tail ∧ w'.still = w.still ∧ w'.subs = w.subs ∧ w'.wait = .grant ∧
          u.waitList = s.waitList ++ [(w.quadrant, 2, w.id, i)] ∧ { u with waves := s.waves, waitList := s.waitList } = s)) ∧
    (∀ t m a, (∃ l, l < 32 ∧ act w q (w.slotOf m.toNat) l) → (∀ x ∈ s.mats, x.wave ≠ w.id) →
      ∃ u, exec (.accz t m a 1) s = .next u ∧ becomes s u w { w with tiles := w.tiles.filter fun x => x.name ≠ t.toNat } q) ∧
    (∀ h m d, (∃ l, l < 32 ∧ act w q (w.slotOf m.toNat) l) → (∀ r ∈ w.rsv, r.handle ≠ h.toNat) →
      (descriptorOk (w.s d.toNat) → (∀ e ∈ s.waitList, ¬(e.1 = w.quadrant ∧ e.2.1 = 1)) →
        ∀ b, firstRun s w.quadrant ((dLength (w.s d.toNat) + 1023) / 1024) b →
          ∃ u, exec (.obres h m d) s = .next u ∧ becomes s u w { w with
            rsv := w.rsv ++ [⟨h.toNat, w.s d.toNat, b, (dLength (w.s d.toNat) + 1023) / 1024, none, []⟩] } q) ∧
      (¬descriptorOk (w.s d.toNat) → calm s w → ∃ u, exec (.obres h m d) s = .next u ∧ tookFault s u w q 0x53 q.pc (w.s d.toNat))) ∧
    (∀ h m, (∃ l, l < 32 ∧ act w q (w.slotOf m.toNat) l) → (∀ x ∈ s.mats, x.wave ≠ w.id ∧ ∀ y ∈ x.handles, y.1 ≠ w.id) →
      ∃ u, exec (.obrel h m) s = .next u ∧ becomes s u w { w with rsv := w.rsv.filter fun r => r.handle ≠ h.toNat } q) ∧
    (∀ h m a r before after, (∃ l, l < 32 ∧ act w q (w.slotOf m.toNat) l) → s.mats = [] → w.rsv = before ++ r :: after →
      (∀ x ∈ before ++ after, x.handle ≠ h.toNat) → r.handle = h.toNat → un w a % 16 = 0 → dPanel r.desc < dLength r.desc →
      (∀ k, dPanel r.desc ≤ k → k < dLength r.desc → ownByte s w (un w a + k) ∧ homeCore (un w a + k) = homeCore (un w a + dPanel r.desc)) →
      clusterOf (homeCore (un w a + dPanel r.desc)) = clusterOf w.core →
        ∃ u, exec (.obwin h m a) s = .next u ∧
          becomes s u w { w with rsv := before ++ { r with window := some (un w a) } :: after } q) ∧
    (∀ m a, let v := w.s a.toNat
      let ok := v.toNat < 2 ^ 16 ∧ 2 ≤ (setBits 16 v).length ∧ (setBits 16 v).length ≤ 6 ∧ v.getLsbD w.widx = true ∧
        v.toNat < 2 ^ ((w.knlanes.toNat + 31) / 32) ∧ w.task = false
      (ok → ∃ u, exec (.jset m a) s = .next u ∧ becomes s u w { w with joint := BitVec.ofNat 16 v.toNat } q) ∧
      (¬ok → calm s w → ∃ u, exec (.jset m a) s = .next u ∧ tookFault s u w q 0x55 q.pc v)) ∧
    ∀ m d, (w.unsealedM = [] → ∃ u, exec (.sealm m d) s = .next u ∧ becomes s u w (w.setS d.toNat (BitVec.allOnes 64)) q) ∧
      (w.unsealedM ≠ [] → w.batchesM.length < 14 → ∃ u, exec (.sealm m d) s = .next u ∧
        becomes s u w { w.setS d.toNat (BitVec.ofNat 64 w.nextM.toNat) with
          unsealedM := []
          batchesM := w.batchesM ++ [⟨w.nextM, w.unsealedM, q.pc⟩]
          nextM := w.nextM + 1 } q)

open Sys2Proof Sys2Proof.Machine Sys2Proof.Claims in
/-- The matrix instructions that put an operation in flight (R282, R288, R290, R294, R296 to R300), when their tile and handles are held,
their formats and step agree, and the quadrant has room.  A tile or handle not held raises ACC_STATE or OPERAND_STATE with its
number.  A joint `mma` enters the latch of its group and waits (R292); with no joint set it raises JOINT_SET. -/
def Obligations.MatrixOperationsIssue : Prop :=
  ∀ (s : State) (w : Wave) (q : SubWave), s.issuer w q → matrixRoom s w →
    (∀ i m t kind ab, opKind i = some (m, t, kind, ab) → (∃ l, l < 32 ∧ act w q (w.slotOf m.toNat) l) →
      ((∃ x ∈ w.tiles, x.name = t.toNat) → (∀ u, kind = .accadd u → ∃ x ∈ w.tiles, x.name = u) →
        (∀ a b j, ab = some (a, b, j) → ∃ x y, w.rsv? a.toNat = some x ∧ w.rsv? b.toNat = some y ∧
          dFormat x.desc = dFormat y.desc ∧ j.toNat < dSteps x.desc ∧ j.toNat < dSteps y.desc) →
          ∃ u, exec i s = .next u ∧ opJoined s u w q (w.slotOf m.toNat) t.toNat kind true) ∧
      ((∀ x ∈ w.tiles, x.name ≠ t.toNat) → calm s w →
        ∃ u, exec i s = .next u ∧ tookFault s u w q 0x51 q.pc (BitVec.ofNat 64 t.toNat)) ∧
      ∀ a b j, ab = some (a, b, j) → (∃ x ∈ w.tiles, x.name = t.toNat) → (∀ r ∈ w.rsv, r.handle ≠ a.toNat) → calm s w →
        ∃ u, exec i s = .next u ∧ tookFault s u w q 0x52 q.pc (BitVec.ofNat 64 a.toNat)) ∧
    (∀ t a b m j g v u, (∃ l, l < 32 ∧ act w q (w.slotOf m.toNat) l) → (∃ x ∈ w.tiles, x.name = t.toNat) →
      (∃ x y, w.rsv? a.toNat = some x ∧ w.rsv? b.toNat = some y ∧ dFormat x.desc = dFormat y.desc ∧ j.toNat < dSteps x.desc ∧
        j.toNat < dSteps y.desc) →
      (w.joint = 0 → calm s w → ∃ y, exec (.mma t a b m j g 1 v u) s = .next y ∧ tookFault s y w q 0x55 q.pc 0) ∧
      ∀ gr, s.group? w.gid = some gr → gr.latches = [] → gr.id = w.gid → (∃ k, k < 16 ∧ k ≠ w.widx ∧ w.joint.getLsbD k = true) →
        ∃ y w' gr', exec (.mma t a b m j g 1 v u) s = .next y ∧ y.waves = w' :: s.waves.tail ∧ w'.still = w.still ∧ w'.subs = w.subs ∧
          w'.wait = .joint w.joint g ∧ y.mats = s.mats ∧ y.group? w.gid = some gr' ∧
          gr' = { gr with latches := [⟨w.joint, g,
            [⟨w.id, t.toNat, a.toNat, b.toNat, j.toNat, decide (u = 1), decide (v = 1), w.slotOf m.toNat⟩]⟩] }) ∧
    (∀ i rd t d m p, partKind i = some (rd, t, d, m, p) → (w.ext = true ∨ ¬names d) →
      ((∃ x ∈ w.tiles, x.name = t.toNat) → p.toNat < 8 / cnt (typ (w.slotOf m.toNat)) →
        ∃ u kind, exec i s = .next u ∧ opJoined s u w q (w.slotOf m.toNat) t.toNat kind (!rd) ∧
          ∃ l : List (Nat × W32), kind = (if rd then .accrd d.toNat p.toNat l else .accwr p.toNat l) ∧
            l.Pairwise (fun x y => x.1 < y.1) ∧ ∀ x, x ∈ l ↔ x.1 < 32 ∧ act w q (w.slotOf m.toNat) x.1 ∧
              x.2 = if rd then w.grain.get x.1 else operand w (w.slotOf m.toNat) d.toNat x.1) ∧
      ((∃ x ∈ w.tiles, x.name = t.toNat) → 8 / cnt (typ (w.slotOf m.toNat)) ≤ p.toNat → calm s w →
        ∃ u, exec i s = .next u ∧ tookFault s u w q 0x51 q.pc (BitVec.ofNat 64 p.toNat))) ∧
    (∀ h c m a r addr win, (∃ l, l < 32 ∧ act w q (w.slotOf m.toNat) l) → w.rsv? h.toNat = some r → un w a % 16 = 0 →
      0 < dLength r.desc → (∀ k, k < dLength r.desc → namesByte s w (un w a + k) (addr + k) win ∧ ownByte s w (addr + k)) →
      (∀ n, n < dSteps r.desc * stepTiles r.desc → homeCore (addr + dPanel r.desc + n * tileSize r.desc) =
        homeCore (addr + dPanel r.desc + n * tileSize r.desc + tileSize r.desc - 1)) →
        ∃ u, exec (.obld h c m a 0) s = .next u ∧ opJoined s u w q (w.slotOf m.toNat) 0
          (.obld h.toNat addr win 0 (maskTargets w 0) []) true) ∧
    ∀ t c g h m a addr win, (∃ l, l < 32 ∧ act w q (w.slotOf m.toNat) l) → (∃ x ∈ w.tiles, x.name = t.toNat) → g ≠ 3 →
      un w a % 16 = 0 →
      let n := if c = 1 then 144 else 272
      (∀ k, k < n → namesByte s w (un w a + k) (addr + k) win) → unmodified s w addr n → homeCore addr = homeCore (addr + n - 1) →
        ∃ u, exec (.accst t c g h m a 0) s = .next u ∧ opJoined s u w q (w.slotOf m.toNat) t.toNat
          (.accst addr win (decide (c = 1)) g.toNat none) true

open Sys2Proof Sys2Proof.Machine Sys2Proof.Claims in
/-- What a performed operation does (R53 to R57, R282, R287 to R290, R297 to R300).  A product adds to each cell of its own tile, over an
anchor that is set, the exact sum of its terms where they are multiples of 2^A and nothing saturates: over K for `mma`, and for `mmac`
the real and imaginary parts.  `accadd` adds cell to cell at one anchor.  `accrd` changes its one register in its lanes, and flags.
`accwr` changes cells of its part alone; `accst` the bytes of its block alone; `obld` fills the range byte for byte and ends a window. -/
def Obligations.MatrixOperationsArePerformed : Prop :=
  (∀ (s : State) (m : MatOp) (w : Wave) (t : Tile), onlyOp s m → s.wave? m.wave = some w → w.tile? m.tile = some t →
    let run := fun (u : State) (w' : Wave) => exec (.matrixOpPerform m.id) s = .next u ∧ onlyWave s u w w' ∧ u.mats = []
    (∀ a b j ta tb ra rb, m.kind = .mma a b j ta tb → w.rsv? a = some ra → w.rsv? b = some rb → stepSound s w ra j → stepSound s w rb j →
      dFormat ra.desc = dFormat rb.desc →
        ∃ u w', run u w' ∧ { w' with tiles := w.tiles } = w ∧ { u with waves := s.waves, mats := s.mats, ctxs := s.ctxs } = s ∧
          (∀ n, n ≠ m.tile → w'.tile? n = w.tile? n) ∧
          ∀ x y (z : Nat → Int), x < 16 → y < 16 → t.aset = true → (t.cell (16 * x + y)).st = .finite →
            (∀ k, k < 16 * stepTiles ra.desc → adds (baseOf t) (opA s ra j ta x k) (opB s rb j tb k y) (z k)) →
            let sum := (t.cell (16 * x + y)).n.toInt + ((List.range (16 * stepTiles ra.desc)).map z).sum
            sum < 2 ^ 95 → -2 ^ 95 ≤ sum → cellOf w' m.tile (16 * x + y) = some ⟨BitVec.ofInt 96 sum, .finite⟩) ∧
    (∀ a b j ta tb hi ra rb, m.kind = .mmac a b j ta tb hi → w.rsv? a = some ra → w.rsv? b = some rb → stepSound s w ra j →
      stepSound s w rb j → dFormat ra.desc = dFormat rb.desc →
        ∃ u w', run u w' ∧ { w' with tiles := w.tiles } = w ∧ { u with waves := s.waves, mats := s.mats, ctxs := s.ctxs } = s ∧
          (∀ n, n ≠ m.tile → w'.tile? n = w.tile? n) ∧
          ∀ x c (z z' : Nat → Int) (im : Bool), x < 16 → c < 8 → t.aset = true →
            let cell := t.cell (16 * x + 2 * c + im.toNat)
            let col := if hi then 8 + c else c
            cell.st = .finite →
            (∀ k, k < 8 * stepTiles ra.desc →
              adds (baseOf t) (opA s ra j ta x (2 * k)) (opB s rb j tb (2 * k + im.toNat) col) (z k) ∧
              adds (baseOf t) (opA s ra j ta x (2 * k + 1)) (opB s rb j tb (2 * k + 1 - im.toNat) col) (z' k)) →
            let sum := cell.n.toInt + ((List.range (8 * stepTiles ra.desc)).map fun k => if im then z k + z' k else z k - z' k).sum
            sum < 2 ^ 95 → -2 ^ 95 ≤ sum →
              cellOf w' m.tile (16 * x + 2 * c + im.toNat) = some ⟨BitVec.ofInt 96 sum, .finite⟩) ∧
    (∀ src v, m.kind = .accadd src → w.tile? src = some v → t.aset = true → v.aset = true → v.anchor = t.anchor →
        ∃ u w', run u w' ∧ unflagged { w' with tiles := w.tiles } w = w ∧ w'.flags &&& w.flags = w.flags ∧
          { u with waves := s.waves, mats := s.mats } = s ∧ (∀ n, n ≠ m.tile → w'.tile? n = w.tile? n) ∧
          ∀ c, c < 256 → (t.cell c).st = .finite → (v.cell c).st = .finite →
            let sum := (t.cell c).n.toInt + (v.cell c).n.toInt
            sum < 2 ^ 95 → -2 ^ 95 ≤ sum → (v.cell c).n.toInt ≠ -2 ^ 95 → cellOf w' m.tile c = some ⟨BitVec.ofInt 96 sum, .finite⟩) ∧
    (∀ d p draws, m.kind = .accrd d p draws →
        ∃ u w', run u w' ∧ (∀ r l, l < 32 → (r ≠ d ∨ m.active.getLsbD l = false) → w'.v r l = w.v r l) ∧
          unflagged { w' with vregs := w.vregs } w = w ∧ w'.flags &&& w.flags = w.flags ∧
          { u with waves := s.waves, mats := s.mats } = s ∧
          ∀ l, l < 32 → m.active.getLsbD l = true → takes w d → typ m.by_.slot = 0 → t.anchor = 0 →
            (t.cell (32 * p + l)).st = .finite → (t.cell (32 * p + l)).n.toInt.natAbs < 2 ^ 31 →
            (w'.v d l).toInt = (t.cell (32 * p + l)).n.toInt) ∧
    (∀ p vals, m.kind = .accwr p vals → (∀ x ∈ vals, x.1 < 32) →
        ∃ u w', run u w' ∧ { w' with tiles := w.tiles } = w ∧ { u with waves := s.waves, mats := s.mats } = s ∧
          (∀ n, n ≠ m.tile → w'.tile? n = w.tile? n) ∧
          (∀ c, (∀ x ∈ vals, c % 32 ≠ x.1) → cellOf w' m.tile c = some (t.cell c)) ∧
          ∀ x ∈ vals, (∀ y ∈ vals, y.1 = x.1 → y = x) → typ m.by_.slot = 0 → t.aset = true → t.anchor = 0 →
            cellOf w' m.tile (32 * p + x.1) = some ⟨BitVec.ofInt 96 x.2.toInt, .finite⟩) ∧
    (∀ addr win four tag, m.kind = .accst addr win four tag none → tag < 3 → s.moves = [] → unbound s w.ctx addr (if four then 144 else 272) →
        ∃ u w', run u w' ∧ unflagged w' w = w ∧
          (∀ b, (b < addr ∨ addr + (if four then 144 else 272) ≤ b) → u.slice.byte b = s.slice.byte b) ∧
          u.slice.num (addr + 1) 1 = tag ∧ { u with waves := s.waves, mats := s.mats, slice := s.slice } = s)) ∧
  ∀ (s : State) (m : MatOp) (w : Wave), onlyOp s m → s.wave? m.wave = some w →
    ∀ h addr win r, m.kind = .obld h addr win 0 [64] [] → w.rsv? h = some r → 0 < dLength r.desc →
      sound s addr (dLength r.desc) →
      ∃ u w' r', exec (.operandFillLand m.id 64) s = .next u ∧ onlyWave s u w w' ∧ u.mats = [] ∧ w'.rsv? h = some r' ∧
        r'.window = none ∧ r'.desc = r.desc ∧ (∀ k, k < dLength r.desc → r'.bytes.byte k = s.slice.byte (addr + k)) ∧
        { w' with rsv := w.rsv } = w ∧ { u with waves := s.waves, mats := s.mats } = s

open Sys2Proof Sys2Proof.Machine Sys2Proof.Claims in
/-- The grants of a quadrant (R118, R281, R286): a free tile, or the lowest run that fits, goes to the wave that has waited longest for one;
it goes on after its instruction, and leaves the queue. -/
def Obligations.MatrixGrantsGoToTheOldest : Prop :=
  ∀ (s : State) (quad : Nat) (before after : List (Nat × Nat × Nat × Instr)) (w : Wave) (q : SubWave) (i : Instr) (kind : Nat),
    s.waitList = before ++ (quad, kind, w.id, i) :: after → (∀ e ∈ before, ¬(e.1 = quad ∧ e.2.1 = kind)) → s.wave? w.id = some w →
    w.subs.head? = some q → w.quadrant = quad →
    (∀ t m anchor, kind = 2 → asksTile w i = some (t, m, anchor) →
      ((s.waves.filter fun x => x.quadrant == quad).map fun x => x.tiles.length).sum < 8 →
        ∃ u, exec (.accumulatorTileGrant quad) s = .next u ∧
          onlyWave s u w (wentOn { w with tiles := w.tiles ++ [freshTile t (w.slotOf m.toNat) anchor] } q.quads) ∧
          (∀ e ∈ u.waitList, ¬(e.2.1 = 2 ∧ e.2.2.1 = w.id)) ∧ { u with waves := s.waves, waitList := s.waitList } = s) ∧
    ∀ h m d b, kind = 1 → i = .obres h m d → firstRun s quad ((dLength (w.s d.toNat) + 1023) / 1024) b →
      ∃ u, exec (.operandBufferGrant quad) s = .next u ∧
        onlyWave s u w (wentOn { w with
          rsv := w.rsv ++ [⟨h.toNat, w.s d.toNat, b, (dLength (w.s d.toNat) + 1023) / 1024, none, []⟩] } q.quads) ∧
        (∀ e ∈ u.waitList, ¬(e.2.1 = 1 ∧ e.2.2.1 = w.id)) ∧ { u with waves := s.waves, waitList := s.waitList } = s

/-! ## The Slip copy engines (R235 to R257) -/

namespace Sys2Proof.Claims

open Sys2Proof.Machine

/-- An address that an engine operand may hold: slice space or, for a grid wave, the window's range, at its alignment (R245). -/
def engineAddress (w : Wave) (a : W64) (align : Nat) : Prop :=
  a.toNat % align = 0 ∧ ((0x010000000000 ≤ a.toNat ∧ a.toNat < 0x010040000000) ∨
    (w.task = false ∧ 0x000100000000 ≤ a.toNat ∧ a.toNat < 0x010000000000))

/-- An address of slice space at an alignment. -/
def sliceAddress (a : W64) (align : Nat) : Prop :=
  a.toNat % align = 0 ∧ 0x010000000000 ≤ a.toNat ∧ a.toNat < 0x010040000000

/-- An object operand: zero for none, or a barrier object's address (R245). -/
def objectFine (w : Wave) (o : W64) : Prop := o = 0 ∨ engineAddress w o 32

/-- A module field: this module, or a module of a job (R245). -/
def moduleFine (m : Nat) : Prop := m = 0xFFFF ∨ m < 4096

/-- A Slip request: slot, kind, queue, operands, flag, the checks of R245 in their order with the operand that each names, and its
object. -/
def slipRequest (s : State) (w : Wave) :
    Instr → Option (BitVec 2 × EngKind × Nat × List W64 × Bool × List (Prop × W64) × W64)
  | .cpt a b c m x q => record .cpt a b c m (decide (x = 1)) q
  | .cptt a b c m x q => record .cptt a b c m (decide (x = 1)) q
  | .cpg a b c m q => record .cpg a b c m false q
  | .cps a b c m x q => record .cps a b c m (decide (x = 1)) q
  | .cpl a b c m q =>
    let lm := w.s (a.toNat + 1)
    let o := w.s c.toNat
    let src := lm.toNat / 2 ^ 32 % 2 ^ 16
    let dst := lm.toNat / 2 ^ 48
    let here := fun m => m = 0xFFFF ∨ m = (s.ctx w.ctx).r.jobself
    some (m, .cpl, q.toNat, [w.s a.toNat, lm, w.s b.toNat, o], false,
      [(moduleFine src ∧ moduleFine dst ∧ (here src ∨ here dst), lm), (objectFine w o, o)], o)
  | .wsig a b c m x q =>
    let sig := w.s (a.toNat + 1)
    let lm := w.s (b.toNat + 1)
    some (m, .wsig, q.toNat, [w.s a.toNat, sig, w.s b.toNat, lm, w.s c.toNat], decide (x = 1),
      [(sliceAddress sig 8, sig), (lm.toNat / 2 ^ 48 = 0 ∧ moduleFine (lm.toNat / 2 ^ 32), lm)], 0)
  | .hgrd a b c m q =>
    let d := w.s a.toNat
    let h := w.s b.toNat
    let o := w.s c.toNat
    some (m, .hgrd, q.toNat, [d, h, o], false, [(sliceAddress d 64, d), (sliceAddress h 64, h), (objectFine w o, o)], o)
  | _ => none
where
  record (kind : EngKind) (a b c : BitVec 6) (m : BitVec 2) (flag : Bool) (q : BitVec 2) :
      Option (BitVec 2 × EngKind × Nat × List W64 × Bool × List (Prop × W64) × W64) :=
    let h := w.s a.toNat
    let d := w.s b.toNat
    let o := w.s c.toNat
    some (m, kind, q.toNat, [h, d, o], flag, [(h ≠ 0 ∧ h.toNat % 64 = 0, h), (engineAddress w d 8, d), (objectFine w o, o)], o)

/-- The queue set of a wave (R235). -/
def ownerOf (w : Wave) : Owner := if w.task then .core w.core else .group w.gid

/-- The operations of a queue. -/
def inQueue (s : State) (c : Nat) (ow : Owner) (q : Nat) : List SlipOp :=
  s.slip.filter fun o => o.req.by_.ctx == c && o.req.owner == ow && o.req.queue == q

/-- What an engine request changes beside its queue and its wave: a release sends combiner entries (R74, R259). -/
def restSame (s t : State) : Prop :=
  t.red.map (·.upds) = s.red.map (·.upds) ∧
    { t with
      waves := s.waves
      slip := s.slip
      sieve := s.sieve
      requests := s.requests
      nextId := s.nextId
      red := s.red
      transfers := s.transfers
      ctxs := s.ctxs } = s

/-- Where an engine finds `n` bytes of an address: mapped slice memory or the group's window (false), or one page of external memory, by
physical address (true) (R20, R229, R396). -/
def engineFinds (s : State) (c : Context) (ow : Owner) (a n : Nat) (write : Bool) (place : Bool × Nat) : Prop :=
  (place.1 = false ∧ s.engSlice c ow a n = some place.2 ∧ ∀ e ∈ s.eccBad, e + 8 ≤ place.2 ∨ place.2 + n ≤ e) ∨
    (place.1 = true ∧ 0x100000000000 ≤ a ∧ a + n ≤ 0x1C0000000000 ∧ a % 65536 + n ≤ 65536 ∧ s.eccBad = [] ∧
      ∃ p, s.walk (s.ownerDie ow) c a = some (place.2, p) ∧ (write = true → p.write = true))

/-- The byte at an offset of a place. -/
def placeByte (s : State) (p : Bool × Nat) (k : Nat) : Byte := if p.1 then s.ext.byte (p.2 + k) else s.slice.byte (p.2 + k)

/-- A place took `n` bytes, and no other byte of the module's memories changed. -/
def placeTook (s t : State) (p : Bool × Nat) (n : Nat) (bytes : Nat → Byte) : Prop :=
  (∀ k, k < n → placeByte t p k = bytes k) ∧ t.hostMem = s.hostMem ∧
    (if p.1 then t.slice = s.slice ∧ ∀ x, (x < p.2 ∨ p.2 + n ≤ x) → t.ext.byte x = s.ext.byte x
      else t.ext = s.ext ∧ ∀ x, (x < p.2 ∨ p.2 + n ≤ x) → t.slice.byte x = s.slice.byte x)

/-- The operation is the oldest of its queue and may begin: its context goes on, and nothing of its wave is left that it would have to
follow (R74, R76). -/
def mayBegin (s : State) (o : SlipOp) : Prop :=
  (s.slip.find? fun x => x.id == o.id) = some o ∧ (∀ x ∈ s.slip, x.id = o.id → x = o) ∧ o.st = .queued ∧
    (inQueue s o.req.by_.ctx o.req.owner o.req.queue).head? = some o ∧ s.stands (s.ctx o.req.by_.ctx) = false ∧
    (∀ a ∈ s.flight, a.wave ≠ o.req.by_.wave) ∧ ∀ h ∈ (s.ctx o.req.by_.ctx).held, h.wave ≠ o.req.by_.wave

/-- Sector `k` of a running operation may be performed (R246); in a context that has been halted, one in flight (R258). -/
def sectorOpen (s : State) (o : SlipOp) (k : Nat) : Prop :=
  (s.slip.find? fun x => x.id == o.id) = some o ∧ (∀ x ∈ s.slip, x.id = o.id → x = o) ∧ o.st = .running ∧ k < o.total ∧ k ∉ o.done ∧
    k < o.low + 64 ∧ (∀ x ∈ s.transfers, x.op ≠ o.id) ∧
    (s.stands (s.ctx o.req.by_.ctx) = false ∨ (k < o.asked ∧ (o.req.kind = .wsig → k + 1 < o.total)))

/-- After a sector the operation has it done, or, when it was the last, has left. -/
def sectorCounted (s t : State) (o : SlipOp) (k n : Nat) : Prop :=
  (∀ x ∈ t.slip, x.id = o.id → k ∈ x.done ∧ x.counted = o.counted + n) ∧ (o.done.length + 1 = o.total → ∀ x ∈ t.slip, x.id ≠ o.id) ∧
    (∀ x, x.id ≠ o.id → (x ∈ t.slip ↔ x ∈ s.slip)) ∧ t.waves = s.waves ∧ t.flight = s.flight ∧
    (o.req.object = 0 ∨ n = 0 → t.landings = s.landings) ∧
    ∀ a, 0 < n → o.req.object ≠ 0 → s.engSlice (s.ctx o.req.by_.ctx) o.req.owner o.req.object 32 = some a →
      ∃ l, t.landings = s.landings ++ [l] ∧ l.obj = a ∧ l.bytes = n ∧ l.op = o.id

end Sys2Proof.Claims

open Sys2Proof Sys2Proof.Machine Sys2Proof.Claims in
/-- The ASYNC instructions (R17, R74, R235, R236, R244, R245, R253).  With no Active lane they do nothing.  The first operand that fails a
check of R245 raises ENGINE_OPERAND with it, and nothing is queued.  Else the request joins its queue with the leader's operands, the
wave goes on, and it is one of the wave's unsealed operations; on a queue of 32 the wave stalls instead. -/
def Obligations.SlipInstructionsAreQueued : Prop :=
  ∀ (i : Instr) (s : State) (w : Wave) (q : SubWave) (m : BitVec 2) (kind : EngKind) (queue : Nat) (ops : List W64) (flag : Bool)
    (checks : List (Prop × W64)) (obj : W64), slipRequest s w i = some (m, kind, queue, ops, flag, checks, obj) → s.issuer w q →
    ((∀ l, l < 32 → ¬act w q (w.slotOf m.toNat) l) → ∃ t, exec i s = .next t ∧ passed s t w q) ∧
    ((∃ l, l < 32 ∧ act w q (w.slotOf m.toNat) l) → w.unsealedC.length < 64 →
      (∀ before p v after, checks = before ++ (p, v) :: after → (∀ x ∈ before, x.1) → ¬p → calm s w →
        ∃ t, exec i s = .next t ∧ tookFault s t w q 0x82 q.pc v) ∧
      ((∀ x ∈ checks, x.1) → (∀ a win, obj ≠ 0 → namesByte s w obj.toNat a win → unmodified s w a 32) →
        ((inQueue s w.ctx (ownerOf w) queue).length < 32 →
          ∃ t w' o, exec i s = .next t ∧ onlyWave s t w w' ∧ w.wentTo w' q (q.pc + 4) ∧
            { w'.still with unsealedC := w.unsealedC, grain := w.grain } = w.still ∧ w'.unsealedC = w.unsealedC ++ [s.nextId] ∧
            t.slip = s.slip ++ [o] ∧ o.id = s.nextId ∧ o.st = .queued ∧ o.req.kind = kind ∧ o.req.queue = queue ∧ o.req.ops = ops ∧
            o.req.flag = flag ∧ o.req.owner = ownerOf w ∧ o.req.by_.wave = w.id ∧ o.req.by_.pc = q.pc ∧ t.sieve = s.sieve ∧
            t.requests = s.requests ∧ restSame s t) ∧
        (32 ≤ (inQueue s w.ctx (ownerOf w) queue).length →
          ∃ t w' r, exec i s = .next t ∧ t.waves = w' :: s.waves.tail ∧ w'.wait = .queue r ∧ w'.still = w.still ∧ w'.subs = w.subs ∧
            r.kind = kind ∧ r.ops = ops ∧ t.slip = s.slip ∧ t.sieve = s.sieve ∧ t.requests = s.requests ∧ restSame s t)))

open Sys2Proof Sys2Proof.Machine Sys2Proof.Claims in
/-- What Slip performs on this module (R76 to R78, R246, R247, R249, R250).  The oldest operation of a queue begins: a `cpl` has a sector
for each 256 bytes, a `wsig` one more; a fence leaves when every entry of it is the oldest of its queue.  A sector of a `cpl`, or of a
`wsig` payload, moves its bytes, `hgrd` copies a histogram and zeroes it, and the signal of a `wsig` comes after its payload, set or
added.  Each performed sector's bytes are on their way to the object, and no other byte of memory changes. -/
def Obligations.SlipMovesItsBytes : Prop :=
  (∀ (s : State) (o : SlipOp), mayBegin s o →
    (o.req.kind = .cpl ∨ o.req.kind = .wsig ∨ o.req.kind = .hgrd → o.req.remote (s.ctx o.req.by_.ctx).r = none →
      (o.req.object = 0 ∨ ∃ a, s.engSlice (s.ctx o.req.by_.ctx) o.req.owner o.req.object 32 = some a) →
      let n := if o.req.kind = .hgrd then 1 else (o.req.length + 255) / 256 + if o.req.kind = .wsig then 1 else 0
      0 < n →
        ∃ t, exec (.copyBegin o.id) s = .next t ∧ (∃ x ∈ t.slip, x.id = o.id) ∧
          (∀ x ∈ t.slip, x.id = o.id → x.st = .running ∧ x.total = n ∧ x.done = o.done ∧ x.req = o.req) ∧
          (∀ x, x.id ≠ o.id → (x ∈ t.slip ↔ x ∈ s.slip)) ∧ { t with slip := s.slip, transfers := s.transfers, tlb := s.tlb } = s) ∧
    (o.req.kind = .qfence →
      ((∀ x ∈ s.slip, x.req.kind = .qfence → x.req.by_.seq = o.req.by_.seq →
          (inQueue s x.req.by_.ctx x.req.owner x.req.queue).head? = some x) →
        ∃ t, exec (.copyBegin o.id) s = .next t ∧
          t.slip = s.slip.filter (fun x => ¬(x.req.kind = .qfence ∧ x.req.by_.seq = o.req.by_.seq)) ∧ { t with slip := s.slip } = s) ∧
      ((∃ x ∈ s.slip, x.req.kind = .qfence ∧ x.req.by_.seq = o.req.by_.seq ∧
          ∃ y, (inQueue s x.req.by_.ctx x.req.owner x.req.queue).head? = some y ∧ y.id ≠ x.id) →
        exec (.copyBegin o.id) s = .next s))) ∧
  ∀ (s : State) (o : SlipOp) (k : Nat) (src dst : Bool × Nat), sectorOpen s o k → o.req.remote (s.ctx o.req.by_.ctx).r = none →
    let c := s.ctx o.req.by_.ctx
    let n := min 256 (o.req.length - 256 * k)
    c.trace.state = 0 →
    (o.req.kind = .cpl ∨ (o.req.kind = .wsig ∧ k + 1 < o.total) → 0 < n →
      engineFinds s c o.req.owner (o.req.op 2 + 256 * k) n false src → engineFinds s c o.req.owner (o.req.op 0 + 256 * k) n true dst →
        ∃ t, exec (.copySectorPerform o.id k) s = .next t ∧ placeTook s t dst n (placeByte s src) ∧
          sectorCounted s t o k (if o.req.kind = .wsig then 0 else n)) ∧
    (o.req.kind = .hgrd → k = 0 → o.total = 1 → engineFinds s c o.req.owner (o.req.op 1) 256 true src →
      engineFinds s c o.req.owner (o.req.op 0) 256 true dst → src.1 = false → dst.1 = false →
      (src.2 + 256 ≤ dst.2 ∨ dst.2 + 256 ≤ src.2) →
        ∃ t, exec (.copySectorPerform o.id k) s = .next t ∧ sectorCounted s t o k 256 ∧
          (∀ j, j < 256 → t.slice.byte (dst.2 + j) = s.slice.byte (src.2 + j) ∧ t.slice.byte (src.2 + j) = 0) ∧ t.ext = s.ext ∧
          ∀ x, (x < dst.2 ∨ dst.2 + 256 ≤ x) → (x < src.2 ∨ src.2 + 256 ≤ x) → t.slice.byte x = s.slice.byte x) ∧
    (o.req.kind = .wsig → k + 1 = o.total → o.done.length + 1 = o.total → o.req.by_.slot.toNat / 2 ^ 17 % 16 < 7 →
      engineFinds s c o.req.owner (o.req.op 1) 8 true dst → dst.1 = false →
        ∃ t, exec (.copySectorPerform o.id k) s = .next t ∧ sectorCounted s t o k 0 ∧ t.ext = s.ext ∧
          storedAt s t dst.2 8 (if o.req.flag then o.req.op 4 else s.slice.num dst.2 8 + o.req.op 4))

open Sys2Proof Sys2Proof.Machine Sys2Proof.Claims in
/-- `qfence`, `sealc`, `lrfl` and `lrins`, and a stalled request (R17, R240, R251 to R254).  A `qfence` puts a fence into each queue of its
mask, with none it passes.  `sealc` closes the unsealed operations into one batch and writes its number, all ones for none.  The record
instructions hold their wave until every die has done it: `lrfl` drops every die's copy of its record, `lrins` of a record that is valid
and sealed pins its bytes on every die of the partition.  A queue with room again takes the request that a wave stalls on. -/
def Obligations.FencesBatchesAndRecords : Prop :=
  ((∀ (s : State) (w : Wave) (q : SubWave) (k : BitVec 4) (m : BitVec 2) (d : BitVec 6), s.issuer w q →
    (k = 0 → ∃ t, exec (.qfence k m) s = .next t ∧ passed s t w q) ∧
    (k ≠ 0 → (∀ n, n < 4 → (inQueue s w.ctx (ownerOf w) n).length < 32) →
      ∃ t w' l, exec (.qfence k m) s = .next t ∧ onlyWave s t w w' ∧ w.wentTo w' q (q.pc + 4) ∧ w'.still = w.still ∧
        t.slip = s.slip ++ l ∧ l.map (·.req.queue) = (List.range 4).filter (fun n => k.getLsbD n) ∧
        (∀ o ∈ l, o.req.kind = .qfence ∧ o.req.owner = ownerOf w ∧ o.st = .queued ∧ o.req.by_.seq = s.nextId) ∧ restSame s t) ∧
    (w.unsealedC = [] → ∃ t w', exec (.sealc d m) s = .next t ∧ t.waves = w' :: s.waves.tail ∧ w.wentTo w' q (q.pc + 4) ∧
      (∀ r, w'.s r = if r = d.toNat then BitVec.allOnes 64 else w.s r) ∧ { w'.still with sregs := w.sregs } = w.still ∧
      { t with slip := s.slip, sieve := s.sieve, requests := s.requests, nextId := s.nextId } = t ∧ restSame s t) ∧
    (w.unsealedC ≠ [] → w.batchesC.length < 14 →
      ∃ t w', exec (.sealc d m) s = .next t ∧ t.waves = w' :: s.waves.tail ∧ w.wentTo w' q (q.pc + 4) ∧ w'.unsealedC = [] ∧
        w'.batchesC = w.batchesC ++ [⟨w.nextC, w.unsealedC, q.pc⟩] ∧ w'.nextC = w.nextC + 1 ∧
        (∀ r, w'.s r = if r = d.toNat then BitVec.ofNat 64 w.nextC.toNat else w.s r) ∧
        { w'.still with
          sregs := w.sregs
          unsealedC := w.unsealedC
          batchesC := w.batchesC
          nextC := w.nextC } = w.still ∧
        t.slip = s.slip.map (fun o => if o.id ∈ w.unsealedC then { o with batch := some w.nextC } else o) ∧
        { t with sieve := s.sieve, requests := s.requests, nextId := s.nextId } = t ∧ restSame s t)) ∧
  (∀ (s : State) (w : Wave) (q : SubWave) (a : BitVec 6) (m : BitVec 2) (i : Instr) (kind : EngKind), s.issuer w q →
    (i = .lrfl a m ∧ kind = .lrfl) ∨ (i = .lrins a m ∧ kind = .lrins) → (∃ l, l < 32 ∧ act w q (w.slotOf m.toNat) l) →
    (w.s a.toNat ≠ 0 ∧ un w a % 64 = 0 →
      ∃ t w' r, exec i s = .next t ∧ t.waves = w' :: s.waves.tail ∧ w'.still = w.still ∧ w'.subs = w.subs ∧
        w'.wait = .request s.nextId ∧ t.requests = s.requests ++ [⟨s.nextId, r⟩] ∧ r.kind = kind ∧ r.ops = [w.s a.toNat] ∧
        r.by_.wave = w.id ∧ t.slip = s.slip ∧ t.sieve = s.sieve ∧ restSame s t) ∧
    (w.s a.toNat = 0 ∨ un w a % 64 ≠ 0 → calm s w → ∃ t, exec i s = .next t ∧ tookFault s t w q 0x82 q.pc (w.s a.toNat))) ∧
  ∀ (s : State) (w : Wave) (q : SubWave) (r : EngReq), s.wave? w.id = some w → w.subs.head? = some q → w.wait = .queue r →
    r.by_.wave = w.id →
    (r.kind ∈ [.cpt, .cptt, .cpl, .cpg, .cps, .wsig, .hgrd] → (inQueue s r.by_.ctx r.owner r.queue).length < 32 →
      ∃ t w' o, exec (.queueAccept w.id) s = .next t ∧ onlyWave s t w w' ∧
        { w' with grain := w.grain } = { wentOn w q.quads with unsealedC := w.unsealedC ++ [s.nextId] } ∧
        t.slip = s.slip ++ [o] ∧ o.id = s.nextId ∧ o.req.kind = r.kind ∧ o.req.ops = r.ops ∧ o.st = .queued ∧
        { t with waves := s.waves, slip := s.slip, nextId := s.nextId } = s) ∧
    (r.kind ∈ [.svgrid, .svbin, .svpair, .svstat, .svcheck] → (s.sieve.filter fun o => o.die == r.by_.core / 16).length < 16 →
      ∃ t o, exec (.queueAccept w.id) s = .next t ∧ onlyWave s t w (wentOn w q.quads) ∧ t.sieve = s.sieve ++ [o] ∧ o.id = s.nextId ∧
        o.req.kind = r.kind ∧ o.req.ops = r.ops ∧ o.st = .queued ∧
        { t with waves := s.waves, sieve := s.sieve, nextId := s.nextId } = s)) ∧
  (∀ (s : State) (r : Request) (w : Wave) (q : SubWave), (s.requests.find? fun x => x.id == r.id) = some r →
    s.wave? r.req.by_.wave = some w → w.subs.head? = some q → w.wait = .request r.id → (∀ a ∈ s.flight, a.wave ≠ w.id) →
    (∀ h ∈ (s.ctx r.req.by_.ctx).held, h.wave ≠ w.id) →
    let c := s.ctx r.req.by_.ctx
    let loc := s.recordAt c r.req.owner (r.req.op 0)
    let done := fun (t : State) =>
      exec (.recordCacheComplete r.id) s = .next t ∧ onlyWave s t w (wentOn w q.quads) ∧
        t.requests = s.requests.filter (fun x => x.id ≠ r.id) ∧
        { t with waves := s.waves, requests := s.requests, cache := s.cache } = s
    (r.req.kind = .lrfl → ∃ t, done t ∧ t.cache = s.cache.filter fun e => ¬(e.ctx = c.id ∧ e.handle = loc)) ∧
    (r.req.kind = .lrins → ∀ b p, s.engRead c r.req.owner (r.req.op 0) 192 0 = .ok b → recordFault b = none → sealedIn c.r b = true →
      s.cache = [] → s.part? c.vf = some p →
        ∃ t, done t ∧ (∀ x, x < 128 → (∃ k, k < 4 ∧ p.quads.getLsbD (4 * x + k) = true) →
            ⟨c.id, x / 16, loc, true, b, s.tick⟩ ∈ t.cache) ∧
          ∀ e ∈ t.cache, e.ctx = c.id ∧ e.handle = loc ∧ e.pinned = true ∧ e.bytes = b))

/-! ## Tilth (R112 to R117, R304 to R330) -/

namespace Sys2Proof.Claims

open Sys2Proof.Machine

/-- The Active lanes in ascending order. -/
def activeList (w : Wave) (q : SubWave) (m : W32) (ls : List Nat) : Prop := (∀ l, l ∈ ls ↔ l < 32 ∧ act w q m l) ∧ ls.Pairwise (· < ·)

/-- The first of the lanes for which something holds. -/
def first (ls : List Nat) (p : Nat → Prop) (l : Nat) : Prop := l ∈ ls ∧ p l ∧ ∀ k ∈ ls, k < l → ¬p k

/-- A legal run operand (R310), and one whose registers the wave holds. -/
def legalRun (v : W64) (unit top : Nat) : Prop := v.toNat % unit = 0 ∧ v.toNat ≤ top
def heldRun (w : Wave) (v : W64) : Prop := w.ext = true ∨ ¬(32 ≤ v.toNat ∧ v.toNat < 96)

/-- What Tilth's instructions and its own steps leave alone (R311). -/
def taskRest (s t : State) : Prop :=
  t.red.map (·.upds) = s.red.map (·.upds) ∧
    (∀ c, uncounted (t.ctx c) = uncounted (s.ctx c) ∧ (t.ctx c).modeMismatch = (s.ctx c).modeMismatch) ∧
    { t with
      waves := s.waves
      red := s.red
      transfers := s.transfers
      ctxs := s.ctxs
      nextId := s.nextId
      tasks := s.tasks
      ctrMsgs := s.ctrMsgs
      packets := s.packets
      flight := s.flight
      slice := s.slice } = s

/-- A byte of a core's task pool (R306, R308). -/
def inPool (s : State) (c core b : Nat) : Prop :=
  (s.ctx c).poolAddr core 0 ≤ b ∧ b < (s.ctx c).poolAddr core (s.ctx c).r.poolent

/-- Every task of a core stands in an entry of its pool. -/
def poolHolds (s : State) (c core : Nat) : Prop :=
  ∀ x ∈ s.tasks, x.ctx = c → x.core = core → x.frame = none → x.entryIdx < (s.ctx c).r.poolent

/-- `spawn` and `spawnd`: entry, run, slot, priority, and whether each task has a counter. -/
def spawnForm : Instr → Option (BitVec 6 × BitVec 6 × BitVec 2 × BitVec 2 × Bool)
  | .spawn a b m p => some (a, b, m, p, false)
  | .spawnd a b m p => some (a, b, m, p, true)
  | _ => none

/-- The address is the entry of a task-table entry (R307). -/
def inTable (s : State) (w : Wave) (entry : W64) : Prop :=
  ∃ k, k < (s.ctx w.ctx).r.tasktabn ∧ s.slice.num ((s.ctx w.ctx).r.tasktab + 32 * k) 8 = entry.toNat

/-- The key that a lane of a spawn gives, whether it is refused, and whether its counter is (R312, R313). -/
def laneKey (w : Wave) (r l : Nat) : W64 := w.v (r + 5) l ++ w.v (r + 4) l
def badKey (w : Wave) (r l : Nat) : Prop := 2 ^ 63 - 1 ≤ (laneKey w r l).toNat
def badCounter (s : State) (w : Wave) (r l : Nat) : Prop := (s.ctx w.ctx).r.ctrcount ≤ (w.v r l).toNat

/-- The first fault of a spawn (R311, R313). -/
def spawnRefused (s : State) (w : Wave) (ls : List Nat) (entry : W64) (r : Nat) (dep : Bool) (code : BitVec 16) (val : W64) : Prop :=
  (¬goodTarget s w entry ∧ code = (if entry.toNat % 4 = 0 then 0x05 else 0x04) ∧ val = entry) ∨
    (goodTarget s w entry ∧ ¬inTable s w entry ∧ code = 0x71 ∧ val = entry) ∨
    (goodTarget s w entry ∧ inTable s w entry ∧ ∃ l, first ls (badKey w r) l ∧ code = 0x72 ∧ val = laneKey w r l) ∨
    (goodTarget s w entry ∧ inTable s w entry ∧ (∀ l ∈ ls, ¬badKey w r l) ∧ dep = true ∧
      ∃ l, first ls (badCounter s w (r + 6)) l ∧ code = 0x73 ∧ val = (w.v (r + 6) l).setWidth 64)

/-- The task that a lane of a spawn creates (R312). -/
def spawned (w : Wave) (entry : W64) (r : Nat) (prio : BitVec 2) (dep : Bool) (l : Nat) : TaskRef where
  key := laneKey w r l
  entry := entry
  args := [w.v r l, w.v (r + 1) l, w.v (r + 2) l, w.v (r + 3) l]
  ctr := if dep then some (w.v (r + 6) l).toNat else none
  prio := prio.toNat
  trace := 0
  spawned := false
  decDone := []

/-- Value `k` of a lane of `dcinit`, the record and its four successors, and whether it is out of range (R316). -/
def initValue (w : Wave) (r l k : Nat) : W32 := w.v (if k = 0 then r else r + 1 + k) l
def badInit (s : State) (w : Wave) (r l k : Nat) : Prop :=
  k < 5 ∧ (s.ctx w.ctx).r.ctrcount ≤ (initValue w r l k).toNat ∧ (k = 0 ∨ initValue w r l k ≠ BitVec.allOnes 32)

/-- An aligned structure of 64 bytes in the wave's own slice space (R325). -/
def ownBlock (s : State) (w : Wave) (a : W64) : Prop := a.toNat % 64 = 0 ∧ ∀ k, k < 64 → ownByte s w (a.toNat + k)

/-- A TASK instruction that works on lanes: its slot, its run, the multiple that the run obeys and the highest register. -/
def runForm : Instr → Option (BitVec 2 × BitVec 6 × Nat × Nat)
  | .spawn _ b m _ | .spawnd _ b m _ | .wlpush _ b m => some (m, b, 8, 88)
  | .dcinit a m | .dcdec a m => some (m, a, 8, 88)
  | .wlpull _ _ c m => some (m, c, 1, 95)
  | _ => none

/-- Nothing of the wave under way could be a write of it still to be performed, up to a number (R72, R311). -/
def releasedBy (s : State) (wid seq : Nat) : Prop :=
  (∀ a ∈ s.flight, a.wave = wid → seq ≤ a.id) ∧ (∀ o ∈ s.slip, o.req.by_.wave ≠ wid) ∧ (∀ o ∈ s.sieve, o.req.by_.wave ≠ wid) ∧
    (∀ o ∈ s.requests, o.req.by_.wave ≠ wid) ∧ (∀ m ∈ s.mats, m.wave ≠ wid) ∧
    ∀ c ∈ s.ctxs, ∀ k, c.trace.walk = some k → k.by_.wave ≠ wid

/-- A message is a decrement. -/
def decrements (m : CtrMsg) : Prop := ∃ x n, m.kind = .decrement x n

/-- A message to a counter may be applied (R311, R317, R318, R321): its release is done, no earlier one of its wave to the counter is
left, and of the decrements applied in this clk none has a greater identity, nor any, where it is a registration. -/
def msgRipe (s : State) (m : CtrMsg) : Prop :=
  (s.ctrMsgs.find? fun x => x.id == m.id) = some m ∧ releasedBy s m.wave m.seq ∧
    (∀ x ∈ s.ctrMsgs, x.ctx = m.ctx → x.ctr = m.ctr → x.wave = m.wave → m.seq ≤ x.seq ∧ (x.seq = m.seq → m.id ≤ x.id)) ∧
    ∀ d ∈ (s.ctx m.ctx).decs, d.1 = m.ctr → d.2.1 = s.tick → decrements m ∧ d.2.2.toNat ≤ m.ident.toNat

/-- A task is held on a counter (R315). -/
def heldOn (c n : Nat) (x : Task) : Prop := x.ctx = c ∧ x.st = .held ∧ x.ref.ctr = some n

/-- The tasks held on a counter, and no other, became ready, in the order in which they registered (R318). -/
def releasedOn (s t : State) (c n : Nat) : Prop :=
  (∀ x ∈ s.tasks, ∃ y ∈ t.tasks, y.id = x.id ∧
      (heldOn c n x → { y with order := x.order } = { x with st := .ready }) ∧ (¬heldOn c n x → y = x)) ∧
    (∀ y ∈ t.tasks, ∃ x ∈ s.tasks, x.id = y.id) ∧
    ∀ x ∈ s.tasks, ∀ x' ∈ s.tasks, heldOn c n x → heldOn c n x' → x.order < x'.order →
      ∀ y ∈ t.tasks, ∀ y' ∈ t.tasks, y.id = x.id → y'.id = x'.id → y.order < y'.order

/-- Only the message left, and no wave, access or engine changed. -/
def messageLeft (s t : State) (m : CtrMsg) : Prop :=
  t.ctrMsgs = s.ctrMsgs.filter (fun x => x.id ≠ m.id) ∧
    { t with ctrMsgs := s.ctrMsgs, tasks := s.tasks, slice := s.slice, nextId := s.nextId } = s

/-- The decrement is noted for the rest of the clk, and no context changed otherwise (R318). -/
def decremented (s t : State) (m : CtrMsg) : Prop :=
  (∀ c, { t.ctx c with decs := (s.ctx c).decs } = s.ctx c) ∧
    ((∃ c ∈ s.ctxs, c.id = m.ctx) → (m.ctr, s.tick, m.ident) ∈ (t.ctx m.ctx).decs)

/-- A task wave at its first instruction (R123, R324): its tasks in lanes 0, 1, …, alone in a free slot of the quadrant. -/
def freshTaskWave (s : State) (w' : Wave) (b : Bin) (quad n : Nat) : Prop :=
  w'.ctx = b.ctx ∧ w'.task = true ∧ w'.core = b.core ∧ w'.quad = quad % 4 ∧ w'.slot < 32 ∧
    (∀ x ∈ s.waves, ¬(x.core * 4 + x.quad = quad ∧ x.slot = w'.slot)) ∧ w'.handler = none ∧ w'.ext = false ∧ w'.halt = .running ∧
    w'.wait = .none ∧ w'.flags = 0 ∧ w'.tiles = [] ∧ (∀ l, w'.working.getLsbD l = true ↔ l < n) ∧
    ∃ q, w'.subs = [q] ∧ q.pc = b.entry ∧ q.st = .ready ∧ ∀ k, q.quads.getLsbD k = true ↔ 4 * k < n

/-- A list descriptor that R325 allows, in slice space of the context, with its ring. -/
def goodList (s : State) (c d : Nat) : Prop :=
  let base := s.slice.num d 8
  let cap := s.slice.num (d + 8) 4
  base % 64 = 0 ∧ (∃ k, 4 ≤ k ∧ k ≤ 24 ∧ cap = 2 ^ k) ∧ s.slice.num (d + 12) 4 = 0 ∧
    (∀ k, 28 ≤ k → k < 64 → s.slice.byte (d + k) = 0) ∧ s.sliceMapped (s.ctx c) d 64 = true ∧ s.sliceMapped (s.ctx c) base (4 * cap) = true

/-- A packet may be written (R311, R327): it was sent, it is the first of its list, and its items' waves have nothing under way. -/
def packetMayGo (s : State) (p : WlPacket) : Prop :=
  (s.packets.find? fun x => x.id == p.id) = some p ∧ p.sent = true ∧
    (∀ x ∈ s.packets, x.die = p.die → x.ctx = p.ctx → x.table = p.table → x.list = p.list → p.id ≤ x.id) ∧
    ∀ r ∈ p.rels, releasedBy s r.1 r.2

end Sys2Proof.Claims

open Sys2Proof Sys2Proof.Machine Sys2Proof.Claims in
/-- The TASK instructions of Tilth (R309 to R313, R316, R319, R326, R328, R330), with no live trace.  With no Active lane they do
nothing, but for EXTENDED_NOT_HELD (R94); a run operand that is none raises TASK_OPERAND, and one of registers that the wave does not
hold EXTENDED_NOT_HELD, Active lanes or none.  `spawn` and
`spawnd` create a task for each Active lane in the issuing core's pool, `spawnd` with a registration; `dcinit` and `dcdec` send a
message to each lane's counter, and `dcdec` waits; `wlpush` gives each lane's item to the compaction unit and raises pend; `wlpull` is
on its way to its list; `quiesce` waits for the report. -/
def Obligations.TaskInstructionsTakeEffect : Prop :=
  ∀ (s : State) (w : Wave) (q : SubWave), s.issuer w q →
  (∀ i m b unit top, runForm i = some (m, b, unit, top) →
    ((∀ l, l < 32 → ¬act w q (w.slotOf m.toNat) l) →
      (legalRun (w.s b.toNat) unit top → heldRun w (w.s b.toNat)) → ∃ t, exec i s = .next t ∧ passed s t w q) ∧
    (calm s w → legalRun (w.s b.toNat) unit top → ¬heldRun w (w.s b.toNat) →
      ∃ t, exec i s = .next t ∧ tookFault s t w q 0x03 q.pc (w.s b.toNat)) ∧
    ((∃ l, l < 32 ∧ act w q (w.slotOf m.toNat) l) → calm s w → ¬legalRun (w.s b.toNat) unit top →
      ∃ t, exec i s = .next t ∧ tookFault s t w q 0x71 q.pc (w.s b.toNat))) ∧
  (∀ i a b m p dep ls, spawnForm i = some (a, b, m, p, dep) → activeList w q (w.slotOf m.toNat) ls → ls ≠ [] →
    legalRun (w.s b.toNat) 8 88 → heldRun w (w.s b.toNat) →
    let r := un w b
    let entry := w.s a.toNat
    (∀ code val, spawnRefused s w ls entry r dep code val → calm s w → ∃ t, exec i s = .next t ∧ tookFault s t w q code q.pc val) ∧
    (goodTarget s w entry → inTable s w entry → (∀ l ∈ ls, ¬badKey w r l) → (∀ l ∈ ls, dep = true → ¬badCounter s w (r + 6) l) →
      (s.ctx w.ctx).trace.state = 0 →
      (∀ k, k < (s.ctx w.ctx).r.poolent → ∃ x ∈ s.tasks, x.ctx = w.ctx ∧ x.core = w.core ∧ x.frame = none ∧ x.entryIdx = k) →
        exec i s = .next (s.withIssuer { w with wait := .stall q.quads })) ∧
    (goodTarget s w entry → inTable s w entry → (∀ l ∈ ls, ¬badKey w r l) → (∀ l ∈ ls, dep = true → ¬badCounter s w (r + 6) l) →
      (s.ctx w.ctx).trace.state = 0 → poolHolds s w.ctx w.core →
      (s.tasks.filter fun x => x.ctx == w.ctx && x.core == w.core && x.frame.isNone).length + ls.length ≤ (s.ctx w.ctx).r.poolent →
        ∃ t w' new msgs, exec i s = .next t ∧ onlyWave s t w w' ∧ { w'.still with tasks := w.tasks } = w.still ∧
          w.wentTo w' q (q.pc + 4) ∧ t.tasks = s.tasks ++ new ∧ new.map (·.ref) = ls.map (spawned w entry r p dep) ∧
          (∀ x ∈ new, x.ctx = w.ctx ∧ x.core = w.core ∧ x.st = .arriving ∧ x.frame = none ∧ x.wave = w.id ∧ x.seq = s.nextId ∧
            x.entryIdx < (s.ctx w.ctx).r.poolent ∧ t.slice.num ((s.ctx w.ctx).poolAddr w.core x.entryIdx) 8 = entry.toNat ∧
            t.slice.num ((s.ctx w.ctx).poolAddr w.core x.entryIdx + 8) 8 = x.ref.key.toNat ∧
            t.slice.num ((s.ctx w.ctx).poolAddr w.core x.entryIdx + 36) 4 = p.toNat + 4) ∧
          (∀ x ∈ s.tasks, ∀ y ∈ new, x.ctx = w.ctx → x.core = w.core → x.frame = none → x.entryIdx ≠ y.entryIdx) ∧
          t.ctrMsgs = s.ctrMsgs ++ msgs ∧ (dep = false → msgs = []) ∧
          (dep = true → msgs.map (·.kind) = new.map (fun x => CtrKind.register x.id) ∧
            msgs.map (·.ctr) = ls.map (fun l => (w.v (r + 6) l).toNat)) ∧
          (∀ x ∈ msgs, x.ctx = w.ctx ∧ x.core = w.core ∧ x.wave = w.id ∧ x.seq = s.nextId) ∧ t.packets = s.packets ∧
          t.flight = s.flight ∧ (∀ x, ¬inPool s w.ctx w.core x → t.slice.byte x = s.slice.byte x) ∧ taskRest s t)) ∧
  (∀ a m ls, activeList w q (w.slotOf m.toNat) ls → ls ≠ [] → legalRun (w.s a.toNat) 8 88 → heldRun w (w.s a.toNat) →
    let r := un w a
    (∀ l k, first ls (fun l => ∃ k, badInit s w r l k) l → badInit s w r l k → (∀ j, j < k → ¬badInit s w r l j) → calm s w →
      ∃ t, exec (.dcinit a m) s = .next t ∧ tookFault s t w q 0x73 q.pc ((initValue w r l k).setWidth 64)) ∧
    ((∀ l ∈ ls, ∀ k, ¬badInit s w r l k) →
      ∃ t w' msgs, exec (.dcinit a m) s = .next t ∧ onlyWave s t w w' ∧ w'.still = w.still ∧ w.wentTo w' q (q.pc + 4) ∧
        t.ctrMsgs = s.ctrMsgs ++ msgs ∧
        msgs.map (fun x => (x.ctr, x.kind)) = ls.map (fun l => ((w.v r l).toNat, CtrKind.init (w.v (r + 1) l)
          [w.v (r + 2) l, w.v (r + 3) l, w.v (r + 4) l, w.v (r + 5) l])) ∧
        (∀ x ∈ msgs, x.ctx = w.ctx ∧ x.core = w.core ∧ x.wave = w.id ∧ x.seq = s.nextId) ∧ t.tasks = s.tasks ∧
        t.packets = s.packets ∧ t.flight = s.flight ∧ t.slice = s.slice ∧ taskRest s t) ∧
    (∀ l, first ls (badCounter s w r) l → calm s w →
      ∃ t, exec (.dcdec a m) s = .next t ∧ tookFault s t w q 0x73 q.pc ((w.v r l).setWidth 64)) ∧
    ((∀ l ∈ ls, ¬badCounter s w r l) →
      ∃ t w' msgs x, exec (.dcdec a m) s = .next t ∧ onlyWave s t w w' ∧ w'.still = w.still ∧ w'.subs = w.subs ∧
        w'.wait = .home s.nextId ∧ t.flight = s.flight ++ [x] ∧ issuedBy x s w q (w.slotOf m.toNat) ∧ x.kind = .decs false ∧
        x.units = ls.map (fun l => ⟨l, (s.ctx w.ctx).r.ctrbase + 32 * (w.v r l).toNat, 4, false, (w.v r l).setWidth 64, 0, 0, false, 0,
          false, false, 0⟩) ∧
        t.ctrMsgs = s.ctrMsgs ++ msgs ∧ msgs.map (·.ctr) = ls.map (fun l => (w.v r l).toNat) ∧
        msgs.map (·.kind) = (List.range ls.length).map (fun k => CtrKind.decrement s.nextId k) ∧
        (∀ x ∈ msgs, x.ctx = w.ctx ∧ x.core = w.core ∧ x.wave = w.id ∧ x.seq = s.nextId) ∧ t.tasks = s.tasks ∧
        t.packets = s.packets ∧ t.slice = s.slice ∧ taskRest s t)) ∧
  (∀ a b m ls, activeList w q (w.slotOf m.toNat) ls → ls ≠ [] → legalRun (w.s b.toNat) 8 88 → heldRun w (w.s b.toNat) →
    let r := un w b
    let tab := un w a
    (¬ownBlock s w (w.s a.toNat) → calm s w → ∃ t, exec (.wlpush a b m) s = .next t ∧ tookFault s t w q 0x75 q.pc (w.s a.toNat)) ∧
    (ownBlock s w (w.s a.toNat) → unmodified s w tab 64 → (∀ x ∈ s.flight, x.wave ≠ w.id) →
      (∀ l, first ls (fun l => s.slice.num tab 4 ≤ (w.v r l).toNat) l → calm s w →
        ∃ t, exec (.wlpush a b m) s = .next t ∧ tookFault s t w q 0x75 q.pc ((w.v r l).setWidth 64)) ∧
      ((∀ l ∈ ls, (w.v r l).toNat < s.slice.num tab 4) →
        (s.packets.filter fun x => x.die == w.core / 16).length + ls.length ≤ 256 →
        ∃ t w', exec (.wlpush a b m) s = .next t ∧ onlyWave s t w w' ∧ w'.still = w.still ∧ w.wentTo w' q (q.pc + 4) ∧
          (∀ l ∈ ls, ∃ p ∈ t.packets, p.ctx = w.ctx ∧ p.die = w.core / 16 ∧ p.table = tab ∧ p.list = (w.v r l).toNat ∧
            w.v (r + 1) l ∈ p.items ∧ (w.id, s.nextId) ∈ p.rels) ∧
          (∀ p ∈ s.packets, ∃ p' ∈ t.packets, p'.id = p.id ∧ p'.list = p.list ∧ ∃ more, p'.items = p.items ++ more) ∧
          (∀ n, (∀ k, k < 64 → ownByte s w (tab + 64 * (n + 1) + k)) → t.slice.num (tab + 64 * (n + 1) + 24) 4 =
            (s.slice.num (tab + 64 * (n + 1) + 24) 4 + (ls.filter fun l => (w.v r l).toNat == n).length) % 2 ^ 32) ∧
          (∀ x, (∀ l ∈ ls, ¬(tab + 64 * ((w.v r l).toNat + 1) + 24 ≤ x ∧ x < tab + 64 * ((w.v r l).toNat + 1) + 28)) →
            t.slice.byte x = s.slice.byte x) ∧
          t.tasks = s.tasks ∧ t.ctrMsgs = s.ctrMsgs ∧ t.flight = s.flight ∧ taskRest s t))) ∧
  (∀ a b c m ls, activeList w q (w.slotOf m.toNat) ls → ls ≠ [] → legalRun (w.s c.toNat) 1 95 → heldRun w (w.s c.toNat) →
    (¬ownBlock s w (w.s b.toNat) → calm s w → ∃ t, exec (.wlpull a b c m) s = .next t ∧ tookFault s t w q 0x75 q.pc (w.s b.toNat)) ∧
    (ownBlock s w (w.s b.toNat) → (s.ctx w.ctx).trace.state = 0 →
      ∃ t w' x mask, exec (.wlpull a b c m) s = .next t ∧ launched s t w w' false false [x] ∧ w'.still = w.still ∧
        w.wentTo w' q (q.pc + 4) ∧ issuedBy x s w q (w.slotOf m.toNat) ∧ x.kind = .wlpull ∧ x.acq = true ∧ x.inLd = false ∧
        x.inSt = false ∧ x.sdst = some a.toNat ∧ x.vdst = some (un w c) ∧ activeBits w q (w.slotOf m.toNat) mask ∧
        x.units = [⟨0, un w b, 64, false, mask, 0, un w c, false, 0, false, false, 0⟩])) ∧
  ∀ a m, ((∀ l, l < 32 → ¬act w q (w.slotOf m.toNat) l) → ∃ t, exec (.quiesce a m) s = .next t ∧ passed s t w q) ∧
    ((∃ l, l < 32 ∧ act w q (w.slotOf m.toNat) l) →
      (w.task = false → ∃ w', exec (.quiesce a m) s = .next (s.withIssuer w') ∧ w'.still = w.still ∧ w'.subs = w.subs ∧
        w'.wait = .quiesce a.toNat) ∧
      (w.task = true → calm s w → ∃ t, exec (.quiesce a m) s = .next t ∧ tookFault s t w q 0x74 q.pc 0))

open Sys2Proof Sys2Proof.Machine Sys2Proof.Claims in
/-- Dependency counters (R315 to R319), work lists (R327, R328) and termination (R329, R330).  A registration holds its task, or makes
it ready where the count is zero; `dcinit` sets its record; a decrement lowers the count, makes the held tasks ready at zero, and is
refused at zero, which faults its `dcdec`.  A packet is sent after 32 clk and written where it fits, with tail and pend, else it waits.
A pull takes what there is for its lanes in ascending order.  The report comes when nothing is left to run. -/
def Obligations.CountersAndListsFollowTheirOrder : Prop :=
  (∀ (s : State) (m : CtrMsg), msgRipe s m → (s.tasks.map (·.id)).Nodup → s.ctrMsgs.Pairwise (fun x y => x.id ≠ y.id) →
    let rec_ := (s.ctx m.ctx).r.ctrbase + 32 * m.ctr
    (∀ core, poolHolds s m.ctx core) → (∀ core b, inPool s m.ctx core b → b < rec_ ∨ rec_ + 32 ≤ b) →
    let only := fun (t : State) (lo n : Nat) =>
      ∀ b, (∀ core, ¬inPool s m.ctx core b) → (b < rec_ + lo ∨ rec_ + lo + n ≤ b) → t.slice.byte b = s.slice.byte b
    (∀ k x, m.kind = .register k → x ∈ s.tasks → x.id = k →
      ∃ t y, exec (.taskRegistration m.id) s = .next t ∧ messageLeft s t m ∧ t.tasks = s.tasks.map (fun z => if z.id = k then y else z) ∧
        { y with order := x.order, st := x.st } = x ∧
        (s.slice.num rec_ 4 = 0 → y.st = .ready ∧ only t 0 0) ∧
        (s.slice.num rec_ 4 ≠ 0 → y.st = .held ∧ t.slice.num (rec_ + 4) 4 = (s.slice.num (rec_ + 4) 4 + 1) % 2 ^ 32 ∧ only t 4 4)) ∧
    (∀ count a b c d, m.kind = .init count [a, b, c, d] →
      ∃ t, exec (.taskRegistration m.id) s = .next t ∧ messageLeft s t m ∧ t.slice.num rec_ 4 = count.toNat ∧
        t.slice.num (rec_ + 8) 4 = a.toNat ∧ t.slice.num (rec_ + 12) 4 = b.toNat ∧ t.slice.num (rec_ + 16) 4 = c.toNat ∧
        t.slice.num (rec_ + 20) 4 = d.toNat ∧ only t 0 24 ∧
        (count ≠ 0 → t.tasks = s.tasks ∧ t.slice.num (rec_ + 4) 4 = s.slice.num (rec_ + 4) 4) ∧
        (count = 0 → releasedOn s t m.ctx m.ctr ∧ t.slice.num (rec_ + 4) 4 = 0)) ∧
    ∀ (x : Access) (u : AccUnit) (w : Wave), m.kind = .decrement x.id 0 → s.access? x.id = some x →
      (∀ y ∈ s.flight, y.id = x.id → y = x) → x.kind = .decs false → x.units = [u] → u.done = false → u.value = 0 →
      s.wave? x.wave = some w → u.data.toNat = m.ctr →
      (s.slice.num rec_ 4 ≠ 0 →
        ∃ t, exec (.counterDecrement m.id) s = .next t ∧ onlyWave s t w (wentOn w x.quads) ∧ gone s t x ∧
          t.ctrMsgs = s.ctrMsgs.filter (fun y => y.id ≠ m.id) ∧ decremented s t m ∧
          t.slice.num rec_ 4 = s.slice.num rec_ 4 - 1 ∧ only t 0 8 ∧
          (s.slice.num rec_ 4 ≠ 1 → t.tasks = s.tasks ∧ t.slice.num (rec_ + 4) 4 = s.slice.num (rec_ + 4) 4) ∧
          (s.slice.num rec_ 4 = 1 → releasedOn s t m.ctx m.ctr ∧ t.slice.num (rec_ + 4) 4 = 0) ∧
          { t with
            waves := s.waves
            flight := s.flight
            ctrMsgs := s.ctrMsgs
            tasks := s.tasks
            slice := s.slice
            nextId := s.nextId
            ctxs := s.ctxs } = s) ∧
      (s.slice.num rec_ 4 = 0 → calm s w → m.ctr < 2 ^ 32 →
        ∃ t w', exec (.counterDecrement m.id) s = .next t ∧ onlyWave s t w w' ∧ gone s t x ∧ w'.trapCause = 0x70 ∧ w'.trapPc = x.pc ∧
          w'.trapVal = BitVec.ofNat 64 (m.ctr + 2 ^ 32 * u.lane) ∧ w'.handler = some x.quads ∧ w'.sregs = w.sregs ∧
          w'.vregs = w.vregs ∧ t.ctrMsgs = s.ctrMsgs.filter (fun y => y.id ≠ m.id) ∧ decremented s t m ∧
          { t with waves := s.waves, flight := s.flight, ctrMsgs := s.ctrMsgs, ctxs := s.ctxs } = s)) ∧
  (∀ (s : State) (p : WlPacket), (p ∈ s.packets → (∀ x ∈ s.packets, x.id = p.id → x = p) →
      (p.since + 32 ≤ s.tick → ∃ t, exec (.compactionTimeout p.id) s = .next t ∧
        t.packets = s.packets.map (fun x => if x.id = p.id then { x with sent := true } else x) ∧ { t with packets := s.packets } = s) ∧
      (s.tick < p.since + 32 → exec (.compactionTimeout p.id) s = .next s)) ∧
    (packetMayGo s p → (s.ctx p.ctx).trace.state = 0 →
      let d := p.table + 64 * (p.list + 1)
      let base := s.slice.num d 8
      let cap := s.slice.num (d + 8) 4
      let tail := s.slice.num (d + 20) 4
      let n := p.items.length
      (goodList s p.ctx d → d + 64 ≤ base ∨ base + 4 * cap ≤ d →
        ((tail + 2 ^ 32 - s.slice.num (d + 16) 4) % 2 ^ 32 + n ≤ cap → unbound s p.ctx base (4 * cap) →
          ∃ t, exec (.workListPacketWrite p.id) s = .next t ∧ t.packets = s.packets.filter (fun x => x.id ≠ p.id) ∧
            (∀ k x, p.items[k]? = some x → t.slice.num (base + 4 * ((tail + k) % 2 ^ 32 % cap)) 4 = x.toNat) ∧
            t.slice.num (d + 20) 4 = (tail + n) % 2 ^ 32 ∧
            t.slice.num (d + 24) 4 = (s.slice.num (d + 24) 4 + (2 ^ 32 - n)) % 2 ^ 32 ∧
            (∀ b, ¬(d + 20 ≤ b ∧ b < d + 28) → (∀ k, k < n → ¬(base + 4 * ((tail + k) % 2 ^ 32 % cap) ≤ b ∧
              b < base + 4 * ((tail + k) % 2 ^ 32 % cap) + 4)) → t.slice.byte b = s.slice.byte b) ∧
            { t with packets := s.packets, slice := s.slice } = s) ∧
        (cap < (tail + 2 ^ 32 - s.slice.num (d + 16) 4) % 2 ^ 32 + n → exec (.workListPacketWrite p.id) s = .next s)) ∧
      (¬goodList s p.ctx d → queueHasRoom s p.ctx →
        d + 64 ≤ (s.ctx p.ctx).r.fq ∨ (s.ctx p.ctx).r.fq + 64 + 64 * 2 ^ (s.ctx p.ctx).r.fqlog ≤ d →
        let fq := (s.ctx p.ctx).r.fq
        let e := fq + 64 + 64 * (s.slice.num fq 4 % 2 ^ (s.ctx p.ctx).r.fqlog)
        ∃ t, exec (.workListPacketWrite p.id) s = .next t ∧ t.packets = s.packets.filter (fun x => x.id ≠ p.id) ∧
          t.slice.num e 2 = 0x75 ∧ t.slice.num (e + 2) 1 = 4 ∧ t.slice.num (e + 56) 4 = p.list % 2 ^ 32 ∧
          t.slice.num fq 4 = (s.slice.num fq 4 + 1) % 2 ^ 32))) ∧
  (∀ (s : State) (a : Access) (u : AccUnit) (w : Wave) (ls : List Nat) (r d : Nat), ripe s a 0 u → a.units = [u] → a.kind = .wlpull →
    s.wave? a.wave = some w → (∀ l, l ∈ ls ↔ l < 32 ∧ u.data.getLsbD l = true) → ls.Pairwise (· < ·) → a.vdst = some r → a.sdst = some d →
    let base := s.slice.num u.addr 8
    let cap := s.slice.num (u.addr + 8) 4
    let head := s.slice.num (u.addr + 16) 4
    let n := min ls.length ((s.slice.num (u.addr + 20) 4 + 2 ^ 32 - head) % 2 ^ 32)
    s.sliceMapped (s.ctx w.ctx) base (4 * cap) = true → 0 < cap → (w.ext = true ∨ r < 32) →
      ∃ t w', exec (.atomicAtHome a.id 0) s = .next t ∧ onlyWave s t w w' ∧ gone s t a ∧
        storedAt s t (u.addr + 16) 4 (head + n) ∧ (∀ k, w'.s k = if k = d then BitVec.ofNat 64 n else w.s k) ∧
        (∀ k l, ls[k]? = some l →
          w'.v r l = if k < n then BitVec.ofNat 32 (s.slice.num (base + 4 * ((head + k) % 2 ^ 32 % cap)) 4) else w.v r l) ∧
        (∀ x l, l < 32 → x ≠ r ∨ l ∉ ls → w'.v x l = w.v x l) ∧ { w' with vregs := w.vregs, sregs := w.sregs } = w) ∧
  ∀ (s : State) (c : Nat),
    ((∀ w ∈ s.waves, w.ctx = c → w.task = false ∧ ∃ d, w.wait = .quiesce d) →
      (∀ l ∈ s.limbo, l.ctx ≠ c) → (∀ g ∈ s.grids, g.ctx = c → g.started.length = g.ngroups) →
      (∀ x ∈ s.tasks, x.ctx = c → x.st = .held ∨ ∃ o k, x.st = .waiting o k ∧ (¬complete (phase s o) k.toNat ∨ flagsWord s o % 2 = 1)) →
      (∀ a ∈ s.flight, a.ctx = c → a.ident.getLsbD 63 = true → ∀ u ∈ a.units, u.done = true) → (∀ m ∈ s.ctrMsgs, m.ctx ≠ c) →
      (∀ p ∈ s.packets, p.ctx ≠ c) → (∀ o ∈ s.slip, o.req.by_.ctx = c → o.req.by_.task = false) →
      (∀ o ∈ s.sieve, o.req.by_.ctx = c → o.req.by_.task = false) → (∀ o ∈ s.requests, o.req.by_.ctx = c → o.req.by_.task = false) →
        ∃ t, exec (.terminationReport c) s = .next t ∧ t.waves.length = s.waves.length ∧
          (∀ (n : Nat) (w w' : Wave), s.waves[n]? = some w → t.waves[n]? = some w' →
            (w.ctx ≠ c → w' = w) ∧
            ∀ d q, w.ctx = c → w.wait = .quiesce d → w.subs.head? = some q →
              w'.wait = .none ∧ w'.subs = { q with pc := q.pc + 4 } :: w.subs.tail ∧
              (∀ r, w'.s r = if r = d then BitVec.ofNat 64 ((s.tasks.filter fun x => x.ctx == c && x.st == .held).length
                + 2 ^ 32 * (s.tasks.filter fun x => x.ctx == c && x.st != .held).length) else w.s r) ∧
              { w' with sregs := w.sregs, wait := w.wait, subs := w.subs } = w) ∧
          { t with waves := s.waves } = s) ∧
    ((∃ w ∈ s.waves, w.ctx = c ∧ w.task = true) → exec (.terminationReport c) s = .next s)

/-! ## How tasks and grids come to run (R112 to R117, R123, R124, R322 to R324, R331, R412, R413) -/

namespace Sys2Proof.Claims

open Sys2Proof.Machine

/-- A task stands on a core for a function's partition, which has queues and bins of its own there (R396). -/
def standsOn (s : State) (vf core : Nat) (x : Task) : Prop := x.core = core ∧ (s.ctx x.ctx).vf = vf

/-- Task `x` of a core, and only it, moved to a bin or the spill ring; only the partition's pools of the core changed in memory, and the
dispatcher's count for the clk. -/
def placedTask (s t : State) (vf core : Nat) (x : Task) (st : TaskState) : Prop :=
  (∃ y ∈ t.tasks, { y with order := x.order } = { x with st := st } ∧ t.tasks = s.tasks.map fun z => if z.id = x.id then y else z) ∧
    (∀ b, (∀ c, (s.ctx c).vf = vf → ¬inPool s c core b) → t.slice.byte b = s.slice.byte b) ∧
    { t with tasks := s.tasks, bins := s.bins, slice := s.slice, nextId := s.nextId, dispatched := s.dispatched } = s

/-- Bin `n` of a core is the lowest free one of the function's partition: 16 for each quadrant that it owns (R11, R396). -/
def lowestBin (s : State) (vf core n : Nat) : Prop :=
  ∃ p, s.part? vf = some p ∧ let own := fun k => k < 64 ∧ p.quads.getLsbD (4 * core + k / 16) = true
    own n ∧ (∀ b ∈ s.bins, b.id ≠ 64 * core + n) ∧ ∀ k, k < n → own k → ∃ b ∈ s.bins, b.id = 64 * core + k

/-- The bin is keyed to the task's entry and holds fewer than 32 tasks (R323). -/
def binTakes (s : State) (x : Task) (b : Bin) : Prop :=
  b.ctx = x.ctx ∧ b.core = x.core ∧ b.entry = x.ref.entry ∧ (s.tasks.filter fun y => y.st == .binned b.id).length < 32

/-- The order of a core's ready tasks (R322, R323): priority, then key in determinism mode, else arrival. -/
def readyBefore (det : Bool) (x y : Task) : Prop :=
  x.ref.prio < y.ref.prio ∨ (x.ref.prio = y.ref.prio ∧
    ((det = false ∧ x.order ≤ y.order) ∨ (det = true ∧ x.ref.key.toNat ≤ y.ref.key.toNat)))

/-- The tasks of a bin, in the order in which they entered it. -/
def binHolds (s : State) (b : Bin) (ts : List Task) : Prop :=
  (∀ x, x ∈ ts ↔ x ∈ s.tasks ∧ x.st = .binned b.id) ∧ ts.Pairwise fun x y => x.order < y.order

/-- Bin `b`, alone on its core, launches into quadrant `quad` of the package, which has a slot free (R324). -/
def binLaunches (s : State) (b : Bin) (quad : Nat) (ts : List Task) : Prop :=
  (s.bins.find? fun x => x.id == b.id) = some b ∧ (∀ x ∈ s.bins, x.core = b.core ∨ x.id = b.id → x = b) ∧ binHolds s b ts ∧ ts ≠ [] ∧
    ts.length ≤ 32 ∧ b.expired ≠ none ∧ (s.ctx b.ctx).pre = .none ∧ s.ctxHeld (s.ctx b.ctx) = true ∧ quad / 4 = b.core ∧ b.core < 128 ∧
    (∃ p, s.part? (s.ctx b.ctx).vf = some p ∧ p.quads.getLsbD quad = true) ∧
    (∃ k, k < 32 ∧ ∀ x ∈ s.waves, ¬(x.core * 4 + x.quad = quad ∧ x.slot = k)) ∧ (s.tasks.map (·.id)).Nodup ∧
    poolHolds s b.ctx b.core

/-- The tasks left, the bin that they emptied is free, and only the new wave came (R323, R324). -/
def launchedTasks (s t : State) (b : Bin) (ts : List Task) (w' : Wave) : Prop :=
  t.waves = s.waves ++ [w'] ∧ w'.id = s.nextId ∧ t.tasks = s.tasks.filter (fun x => x ∉ ts) ∧ t.bins = s.bins.filter (fun x => x.id ≠ b.id) ∧
    w'.tasks = (List.range ts.length).zip (ts.map (·.ref)) ∧
    (∀ x, ¬inPool s b.ctx b.core x → t.slice.byte x = s.slice.byte x) ∧
    { t with waves := s.waves, tasks := s.tasks, bins := s.bins, slice := s.slice, nextId := s.nextId, ctxs := s.ctxs } = s

/-- Slice memory of a context. -/
def ownRange (s : State) (c a n : Nat) : Prop := s.sliceMapped (s.ctx c) a n = true

/-- A launch packet at slice address `a` that keeps R413 and R123, but for its geometry. -/
def goodPacket (s : State) (c a : Nat) : Prop :=
  let word := s.slice.num a 4
  let n := s.slice.num (a + 4) 4
  let g := s.slice.num (a + 8) 4
  word / 2 ^ 23 % 2 ^ 5 = 0 ∧ word / 2 ^ 31 = 0 ∧ g / 2 ^ 31 = 0 ∧ 1 ≤ n ∧ n ≤ 512 ∧ 1 ≤ g % 2 ^ 24 ∧ g / 2 ^ 24 ≤ 64 ∧
    s.slice.num (a + 16) 8 % 64 = 0 ∧ ownRange s c (s.slice.num (a + 16) 8) 64 ∧
    (if word / 2 ^ 30 % 2 = 1 then s.slice.num (a + 24) 8 % 32 = 0 ∧ ownRange s c (s.slice.num (a + 24) 8) 32
      else s.slice.num (a + 24) 8 = 0)

/-- Window and spill bytes of a group, in whole pages (R23). -/
def pages (n : Nat) : Nat := (n + 65535) / 65536 * 65536

/-- The kernel record and the geometry of the packet at `a` (R123, R124, R306, R413): none refuses it, in a partition. -/
def goodKernel (s : State) (w : Wave) (c a : Nat) (p : Partition) : Prop :=
  let k := s.slice.num (a + 16) 8
  let n := s.slice.num (a + 4) 4
  s.part? (s.ctx c).vf = some p ∧ (s.ctx c).trace.state = 0 ∧ sound s k 64 ∧ (∀ b, 28 ≤ b → b < 64 → s.slice.byte (k + b) = 0) ∧
    s.slice.num (k + 24) 4 ≤ 2 ^ 23 ∧ goodTarget s { w with ctx := c } (BitVec.ofNat 64 (s.slice.num k 8)) ∧
    pages (s.slice.num (k + 24) 4) + pages (16384 * (s.slice.num (a + 8) 4 / 2 ^ 24)) ≤ (s.ctx c).r.gpoollen ∧
    (s.ctx c).r.tilthOk = true ∧ (s.slice.num a 4 / 2 ^ 28 % 2 = 1 → p.clusters ≠ none) ∧
    (∀ core ∈ p.cores, (n + 31) / 32 ≤ 32 * ((List.range 4).filter fun q => p.quads.getLsbD (4 * core + q)).length) ∧
    ∀ i, i < 4 → reservedFree (BitVec.ofNat 32 (s.slice.num (k + 8 + 4 * i) 4))

/-- The grid that the packet at `a` launches, with nothing started. -/
def gridOfPacket (s : State) (c a : Nat) (p : Partition) (g : Grid) : Prop :=
  let k := s.slice.num (a + 16) 8
  let word := s.slice.num a 4
  g.ctx = c ∧ g.ord = word % 2 ^ 23 ∧ g.nlanes = s.slice.num (a + 4) 4 ∧ g.ngroups = s.slice.num (a + 8) 4 % 2 ^ 24 ∧
    g.spill = s.slice.num (a + 8) 4 / 2 ^ 24 ∧ (g.cluster = true ↔ word / 2 ^ 28 % 2 = 1) ∧ (g.migratable = true ↔ word / 2 ^ 29 % 2 = 1) ∧
    g.entry = BitVec.ofNat 64 (s.slice.num k 8) ∧ g.modes = (List.range 4).map (fun i => BitVec.ofNat 32 (s.slice.num (k + 8 + 4 * i) 4)) ∧
    g.slice = s.slice.num (k + 24) 4 ∧ g.kernel = k ∧
    g.args = (List.range 4).map (fun i => BitVec.ofNat 64 (s.slice.num (a + 32 + 8 * i) 8)) ∧ g.kcores = p.cores.length ∧
    g.started = [] ∧ g.ended = []

/-- A grid of the context has still to end. -/
def gridRuns (s : State) (c : Nat) : Prop := ∃ g ∈ s.grids, g.ctx = c ∧ g.ended.length ≠ g.ngroups

/-- Grid `g` was added; in determinism mode, with no other grid of its context still to end, it takes the ticket word (R270). -/
def gridAdded (s t : State) (g : Grid) : Prop :=
  ((s.ctx g.ctx).r.det = false ∨ gridRuns s g.ctx → t.grids = s.grids ++ [g] ∧ t.slice = s.slice) ∧
    ((s.ctx g.ctx).r.det = true → ¬gridRuns s g.ctx → unbound s g.ctx (s.ctx g.ctx).r.ticket 8 →
      t.grids = s.grids.filter (fun x => x.ctx ≠ g.ctx) ++ [g] ∧ storedAt s t (s.ctx g.ctx).r.ticket 8 (g.ord * 2 ^ 32))

/-- Wave `j` of a group at its first instruction (R123, R124). -/
def firstWave (s : State) (g : Grid) (p : Partition) (gid index core j : Nat) (w : Wave) : Prop :=
  w.ctx = g.ctx ∧ w.task = false ∧ w.ord = g.ord ∧ w.gid = gid ∧ w.group = index ∧ w.widx = j ∧ w.core = core ∧ w.quad < 4 ∧
    p.quads.getLsbD (4 * core + w.quad) = true ∧ w.slot < 32 ∧ (∀ x ∈ s.waves, ¬(x.core = core ∧ x.quad = w.quad ∧ x.slot = w.slot)) ∧
    (∀ r, w.s r = if r < 4 then g.args.getD r 0 else 0) ∧ (∀ r l, w.v r l = 0) ∧ (∀ i, i < 4 → w.slotOf i = g.modes.getD i 0) ∧
    w.kcores = BitVec.ofNat 32 g.kcores ∧ w.kngroups = BitVec.ofNat 32 g.ngroups ∧ w.knlanes = BitVec.ofNat 32 g.nlanes ∧ w.flags = 0 ∧
    w.livemask = 0 ∧ w.preds = [] ∧ w.ext = false ∧ w.handler = none ∧ w.halt = .running ∧ w.wait = .none ∧ w.tiles = [] ∧ w.rsv = [] ∧
    (∀ l, l < 32 → (w.working.getLsbD l = true ↔ 32 * j + l < g.nlanes)) ∧
    ∃ q, w.subs = [q] ∧ q.pc = g.entry ∧ q.st = .ready ∧ ∀ k, k < 8 → (q.quads.getLsbD k = true ↔ 32 * j + 4 * k < g.nlanes)

end Sys2Proof.Claims

open Sys2Proof Sys2Proof.Machine Sys2Proof.Claims in
/-- From the ready queue to a wave (R114, R115, R117, R123, R322 to R324).  The dispatcher takes ready tasks in their order, at most four,
and puts one into the bin of its entry, else into a free bin, else into the spill ring.  A bin's timer runs out after bintimer clk.  A
ready bin launches its tasks in lanes 0, 1, … of a new wave: fresh ones with their arguments, keys and table modes, a continuation with
what its frame holds.  A frame is written for each Active lane that waits, and becomes a ready task when its phase completes. -/
def Obligations.TasksReachTheirWaves : Prop :=
  (∀ (s : State) (c core : Nat), (s.tasks.map (·.id)).Nodup →
    let vf := (s.ctx c).vf
    (∀ k, (s.ctx k).vf = vf → poolHolds s k core) →
    (∀ x ∈ s.tasks, standsOn s vf core x → x.st ≠ .arriving ∧ x.st ≠ .spilled) →
    (∃ t, exec (.taskDispatch c core) s = .next t ∧
      ∀ x ∈ s.tasks, ∀ x' ∈ t.tasks, x'.id = x.id → standsOn s vf core x → x.st = .ready → x'.st ≠ .ready →
        ∀ y ∈ s.tasks, y ∈ t.tasks → standsOn s vf core y → y.st = .ready → (s.ctx y.ctx).r.det = (s.ctx x.ctx).r.det →
          readyBefore (s.ctx x.ctx).r.det x y) ∧
    ((∃ d ∈ s.dispatched, d = (core, vf, s.tick, 4) ∧ ∀ e ∈ s.dispatched, e.1 = core → e.2.1 = vf → e = d) →
      exec (.taskDispatch c core) s = .next s) ∧
    ∀ x ∈ s.tasks, standsOn s vf core x → x.st = .ready → (∀ y ∈ s.tasks, standsOn s vf core y → y.st = .ready → y = x) →
      (∀ d ∈ s.dispatched, ¬(d.1 = core ∧ d.2.1 = vf ∧ d.2.2.1 = s.tick)) →
      (∀ b ∈ s.bins, binTakes s x b → (∀ y ∈ s.bins, binTakes s x y ∨ y.id = b.id → y = b) →
        ∃ t, exec (.taskDispatch c core) s = .next t ∧ placedTask s t vf core x (.binned b.id) ∧
          ((∃ y ∈ s.tasks, y.st = .binned b.id) → (∀ y ∈ s.tasks, y.st = .binned b.id → y.frame = none) → x.frame = none →
            t.bins = s.bins.map fun y =>
              if y.id = b.id ∧ b.expired = none ∧ (s.tasks.filter fun z => z.st == .binned b.id).length = 31 then
                { y with expired := some s.tick }
              else y) ∧
          ((∀ y ∈ s.tasks, y.st ≠ .binned b.id) →
            t.bins = s.bins.map fun y => if y.id = b.id then { b with since := s.tick, expired := none } else y)) ∧
      ((∀ b ∈ s.bins, ¬binTakes s x b) → ∀ n, lowestBin s vf core n →
        ∃ t, exec (.taskDispatch c core) s = .next t ∧ placedTask s t vf core x (.binned (64 * core + n)) ∧
          t.bins = s.bins ++ [⟨64 * core + n, x.ctx, core, x.ref.entry, s.tick, none⟩]) ∧
      ((∀ b ∈ s.bins, ¬binTakes s x b) → (∀ n, ¬lowestBin s vf core n) →
        ∃ t, exec (.taskDispatch c core) s = .next t ∧ placedTask s t vf core x .spilled ∧ t.bins = s.bins)) ∧
  (∀ (s : State) (b : Bin), b ∈ s.bins → (∀ x ∈ s.bins, x.id = b.id → x = b) → b.expired = none →
    ((∃ x ∈ s.tasks, x.st = .binned b.id) → b.since + (s.ctx b.ctx).r.bintimer ≤ s.tick →
      ∃ t, exec (.binTimerExpiry b.id) s = .next t ∧
        t.bins = s.bins.map (fun x => if x.id = b.id then { x with expired := some s.tick } else x) ∧ { t with bins := s.bins } = s) ∧
    ((∀ x ∈ s.tasks, x.st ≠ .binned b.id) ∨ s.tick < b.since + (s.ctx b.ctx).r.bintimer → exec (.binTimerExpiry b.id) s = .next s)) ∧
  (∀ (s : State) (b : Bin) (quad : Nat) (ts : List Task), binLaunches s b quad ts →
    (∀ k, (∀ x ∈ ts, x.frame = none) → k < (s.ctx b.ctx).r.tasktabn → s.slice.num ((s.ctx b.ctx).r.tasktab + 32 * k) 8 = b.entry.toNat →
      (∀ j, j < k → s.slice.num ((s.ctx b.ctx).r.tasktab + 32 * j) 8 ≠ b.entry.toNat) →
      let mode := fun i => BitVec.ofNat 32 (s.slice.num ((s.ctx b.ctx).r.tasktab + 32 * k + 8 + 4 * i) 4)
      (∀ i, i < 4 → reservedFree (mode i)) →
        ∃ t w', exec (.taskWaveLaunch b.id quad) s = .next t ∧ freshTaskWave s w' b quad ts.length ∧ launchedTasks s t b ts w' ∧
          (∀ i, i < 4 → w'.slotOf i = mode i) ∧ (∀ r, w'.s r = 0) ∧ w'.livemask = 0 ∧ w'.preds = [] ∧
          ∀ (l : Nat) (x : Task), ts[l]? = some x → (∀ i, i < 4 → w'.v i l = x.ref.args.getD i 0) ∧ w'.v 4 l = x.ref.key.setWidth 32 ∧
            w'.v 5 l = (x.ref.key >>> 32).setWidth 32 ∧ ∀ r, 6 ≤ r → w'.v r l = 0) ∧
    ∀ x f, ts = [x] → x.frame = some f →
      ∃ t w', exec (.taskWaveLaunch b.id quad) s = .next t ∧ freshTaskWave s w' b quad 1 ∧ launchedTasks s t b ts w' ∧
        w'.livemask = BitVec.ofNat 32 (s.slice.num (f + 32) 4) ∧
        (∀ i, i < 4 → w'.slotOf i = BitVec.ofNat 32 (s.slice.num (f + 48 + 4 * i) 4)) ∧
        (∀ r, w'.s r = if r < 16 then BitVec.ofNat 64 (s.slice.num (f + 64 + 8 * r) 8) else 0) ∧
        (∀ k r, (setBits 32 w'.livemask)[k]? = some r → k < 16 → w'.v r 0 = BitVec.ofNat 32 (s.slice.num (f + 192 + 4 * k) 4)) ∧
        (∀ r, r ∉ (setBits 32 w'.livemask).take 16 → w'.v r 0 = 0) ∧
        (∀ i, i < 7 → ((w'.p (i + 1)).getLsbD 0 = true ↔ s.slice.num (f + 40) 4 / 2 ^ i % 2 = 1)) ∧
        w'.grain.get 0 = BitVec.ofNat 32 (s.slice.num (f + 36) 4)) ∧
  (∀ (s : State) (a : Access) (u : AccUnit) (w : Wave) (q : SubWave) (k : W32) (ls : List Nat), ripe s a 0 u → a.units = [u] →
    a.kind = .check k → s.wave? a.wave = some w → w.task = true → w.handler = none → w.subs = [q] → q.st = .atHome a.id →
    ¬complete (phase s u.addr) k.toNat → flagsWord s u.addr % 2 = 0 → (s.ctx w.ctx).held = [] →
    (∀ l, l ∈ ls ↔ l < 32 ∧ u.data.getLsbD l = true ∧ w.working.getLsbD l = true) → ls.Pairwise (· < ·) →
    (∀ l ∈ ls, (w.taskOf l).isSome = true) →
    let pool := (s.ctx w.ctx).frameAddr w.core 0
    let top := (s.ctx w.ctx).frameAddr w.core (s.ctx w.ctx).r.frames
    (s.tasks.filter fun x => x.ctx == w.ctx && x.core == w.core && x.frame.isSome).length + ls.length ≤ (s.ctx w.ctx).r.frames →
    pool % 256 = 0 → (∀ x ∈ s.tasks, ∀ f, x.frame = some f → f % 256 = 0) → u.addr + 32 ≤ pool ∨ top ≤ u.addr →
    (s.ctx w.ctx).recAddr + 256 ≤ pool ∨ top ≤ (s.ctx w.ctx).recAddr →
      ∃ t, exec (.waitpCheck a.id) s = .next t ∧ gone s t a ∧
        (∀ l ∈ ls, ∃ y ∈ t.tasks, ∃ f, y.st = .waiting u.addr k ∧ w.taskOf l = some y.ref ∧ y.frame = some f ∧ pool ≤ f ∧ f + 256 ≤ top ∧
          (∀ x ∈ s.tasks, x.ctx = w.ctx → x.core = w.core → x.frame ≠ some f) ∧ t.slice.num f 8 = (q.pc + 4).toNat ∧
          t.slice.num (f + 8) 8 = y.ref.key.toNat ∧ t.slice.num (f + 32) 4 = w.livemask.toNat ∧
          t.slice.num (f + 44) 4 = y.ref.prio % 4 ∧ (∀ i, i < 4 → t.slice.num (f + 48 + 4 * i) 4 = (w.slotOf i).toNat) ∧
          (∀ r, r < 16 → t.slice.num (f + 64 + 8 * r) 8 = (w.s r).toNat) ∧
          ∀ n r, (setBits 32 w.livemask)[n]? = some r → n < 16 → t.slice.num (f + 192 + 4 * n) 4 = (w.v r l).toNat) ∧
        ∀ w', t.wave? w.id = some w' → ∀ l ∈ ls, w'.working.getLsbD l = false) ∧
  ∀ (s : State) (x : Task) (o : Nat) (k : W32) (f : Nat), (s.tasks.find? fun y => y.id == x.id) = some x →
    (∀ y ∈ s.tasks, y.id = x.id → y = x) → x.st = .waiting o k → x.frame = some f →
    (complete (phase s o) k.toNat → flagsWord s o % 2 = 0 →
      ∃ t y, exec (.continuationEnqueue x.id) s = .next t ∧ t.tasks = s.tasks.map (fun z => if z.id = x.id then y else z) ∧
        y = { x with
          st := .ready
          order := s.nextId
          ref := { x.ref with
            entry := BitVec.ofNat 64 (s.slice.num f 8)
            key := BitVec.ofNat 64 (s.slice.num (f + 8) 8 % 2 ^ 63)
            trace := s.slice.num (f + 24) 8
            prio := s.slice.num (f + 44) 4 % 4 } } ∧
        (∀ b, (∀ z ∈ s.tasks, ∀ g, z.frame = some g → ¬(g + 16 ≤ b ∧ b < g + 24)) → t.slice.byte b = s.slice.byte b) ∧
        { t with tasks := s.tasks, slice := s.slice, nextId := s.nextId } = s) ∧
    (¬complete (phase s o) k.toNat ∨ flagsWord s o % 2 = 1 → exec (.continuationEnqueue x.id) s = .next s)

open Sys2Proof Sys2Proof.Machine Sys2Proof.Claims in
/-- Launches (R123, R124, R331, R412, R413).  `glaunch` reads a packet in its own slice space, else raises TASK_OPERAND; a good one
becomes a grid that waits for its release, and sd is zero; one whose ordinal is in use or that breaks its fields is reported
LAUNCH_GEOMETRY from source 7.  The controller starts the packet at the head of a launch queue in the same way, or moves on past it.
The next group of a grid starts on its logical core, where there is room, with waves that hold what R123 says. -/
def Obligations.GridsStartTheirGroups : Prop :=
  (∀ (s : State) (w : Wave) (q : SubWave) (a b : BitVec 6) (m : BitVec 2), s.issuer w q →
    ((∀ l, l < 32 → ¬act w q (w.slotOf m.toNat) l) → ∃ t, exec (.glaunch a b m) s = .next t ∧ passed s t w q) ∧
    ((∃ l, l < 32 ∧ act w q (w.slotOf m.toNat) l) →
      (¬ownBlock s w (w.s b.toNat) → calm s w → ∃ t, exec (.glaunch a b m) s = .next t ∧ tookFault s t w q 0x71 q.pc (w.s b.toNat)) ∧
      (ownBlock s w (w.s b.toNat) → sound s (un w b) 64 → (∀ x ∈ s.flight, x.wave ≠ w.id) →
        (s.grids.filter fun g => g.ctx == w.ctx && g.device && g.started.isEmpty).length < 16 →
        (∀ p, goodPacket s w.ctx (un w b) → goodKernel s w w.ctx (un w b) p →
          (∀ g ∈ s.grids, g.ctx = w.ctx → g.ord = s.slice.num (un w b) 4 % 2 ^ 23 → g.ended.length = g.ngroups) →
            ∃ t w' g, exec (.glaunch a b m) s = .next t ∧ onlyWave s t w w' ∧ w.wentTo w' q (q.pc + 4) ∧
              { w'.still with sregs := w.sregs } = w.still ∧ (∀ r, w'.s r = if r = a.toNat then 0 else w.s r) ∧
              gridAdded s t g ∧ gridOfPacket s w.ctx (un w b) p g ∧ g.device = true ∧
              (∃ n, g.hold = some (w.id, n, w.core) ∧ ∀ x ∈ s.flight, x.id < s.nextId → x.id < n) ∧
              (s.slice.num (un w b) 4 / 2 ^ 30 % 2 = 0 → g.waits = none) ∧
              (s.slice.num (un w b) 4 / 2 ^ 30 % 2 = 1 →
                g.waits = some (s.slice.num (un w b + 24) 8, BitVec.ofNat 32 (s.slice.num (un w b + 12) 4)))) ∧
        ((¬goodPacket s w.ctx (un w b) ∨
            ∃ g ∈ s.grids, g.ctx = w.ctx ∧ g.ord = s.slice.num (un w b) 4 % 2 ^ 23 ∧ g.ended.length ≠ g.ngroups) → queueHasRoom s w.ctx →
          let fq := (s.ctx w.ctx).r.fq
          let e := fq + 64 + 64 * (s.slice.num fq 4 % 2 ^ (s.ctx w.ctx).r.fqlog)
          ∃ t w', exec (.glaunch a b m) s = .next t ∧ onlyWave s t w w' ∧ w.wentTo w' q (q.pc + 4) ∧ w'.still = w.still ∧
            t.grids = s.grids ∧ t.slice.num e 2 = 0x08 ∧ t.slice.num (e + 2) 1 = 7 ∧ t.slice.num (e + 16) 8 = q.pc.toNat ∧
            t.slice.num fq 4 = (s.slice.num fq 4 + 1) % 2 ^ 32)))) ∧
  (∀ (s : State) (c : Context) (w : Wave), (s.ctxs.find? fun x => x.id == c.id) = some c → c.pre = .none → c.slot < 16 →
    ((s.func c.vf).lhead.get c.slot) ≠ ((s.func c.vf).ltail.get c.slot) → 0 < c.r.lqent →
    (∀ g ∈ s.grids, g.ctx = c.id → g.device = false → g.ngroups ≤ g.started.length) → s.ctxHeld c = true → (s.func c.vf).id = c.vf →
    let head := (s.func c.vf).lhead.get c.slot
    let a := c.r.lq + 64 * (head.toNat % c.r.lqent)
    sound s a 64 →
    (∀ p, goodPacket s c.id a → goodKernel s w c.id a p →
      (s.slice.num a 4 / 2 ^ 30 % 2 = 1 → flagsWord s (s.slice.num (a + 24) 8) % 2 = 0 ∧
        complete (phase s (s.slice.num (a + 24) 8)) (s.slice.num (a + 12) 4)) →
        ∃ t g, exec (.launchPacketStart c.id) s = .next t ∧ gridAdded s t g ∧ gridOfPacket s c.id a p g ∧ g.device = false ∧
          g.hold = none ∧ g.waits = none ∧ (t.func c.vf).lhead.get c.slot = head + 1 ∧ t.waves = s.waves ∧ t.groups = s.groups) ∧
    (goodPacket s c.id a → s.slice.num a 4 / 2 ^ 30 % 2 = 1 → (flagsWord s (s.slice.num (a + 24) 8) % 2 = 1 ∨
        ¬complete (phase s (s.slice.num (a + 24) 8)) (s.slice.num (a + 12) 4)) → exec (.launchPacketStart c.id) s = .next s) ∧
    (¬goodPacket s c.id a → queueHasRoom s c.id →
      let e := c.r.fq + 64 + 64 * (s.slice.num c.r.fq 4 % 2 ^ c.r.fqlog)
      ∃ t, exec (.launchPacketStart c.id) s = .next t ∧ t.grids = s.grids ∧ (t.func c.vf).lhead.get c.slot = head + 1 ∧
        (t.func c.vf).icause.getLsbD 3 = true ∧ t.slice.num e 2 = 0x08 ∧ t.slice.num (e + 2) 1 = 7)) ∧
  ∀ (s : State) (g : Grid) (p : Partition) (k win sp : Nat), (s.grids.find? fun x => x.id == g.id) = some g →
    (∀ x ∈ s.grids, x.id = g.id → x = g) → s.part? (s.ctx g.ctx).vf = some p → (s.ctx g.ctx).pre = .none →
    s.ctxHeld (s.ctx g.ctx) = true → g.hold = none →
    g.waits = none → g.cluster = false → s.limbo = [] → (∀ i, i ∈ g.started ↔ i < k) → k < g.ngroups → p.cores ≠ [] →
    let core := p.cores.getD (k % p.cores.length) 0
    let n := (g.nlanes + 31) / 32
    s.placeGroup (s.ctx g.ctx) core (pages g.slice) (pages (16384 * g.spill)) = some (win, sp) → n ≤ (s.coreSlots p core).length →
      ∃ t grp ws, exec (.groupStart g.id) s = .next t ∧ t.groups = s.groups ++ [grp] ∧ t.waves = s.waves ++ ws ∧ ws.length = n ∧
        t.grids = s.grids.map (fun x => if x.id = g.id then { g with started := k :: g.started } else x) ∧
        grp = ⟨s.nextId, g.ctx, g.id, g.ord, k, core, win, pages g.slice, sp, pages (16384 * g.spill), [], [], false⟩ ∧
        (∀ (j : Nat) (w : Wave), ws[j]? = some w → firstWave s g p s.nextId k core j w ∧ w.id = s.nextId + 1 + j) ∧
        (0 < pages g.slice → (s.ctx g.ctx).r.gpooloff + sliceOf core ≤ win ∧
          win + pages g.slice ≤ sliceOf core + (s.ctx g.ctx).r.gpooloff + (s.ctx g.ctx).r.gpoollen ∧
          ∀ x ∈ s.groups, 0 < x.winLen → win + pages g.slice ≤ x.win ∨ x.win + x.winLen ≤ win) ∧
        { t with groups := s.groups, waves := s.waves, grids := s.grids, nextId := s.nextId, ctxs := s.ctxs } = s

/-! ## Strata (R335 to R366) -/

namespace Sys2Proof.Claims

open Sys2Proof.Machine

/-- A Strata instruction that holds its wave: slot, kind, operands, destination, and the checks of its operands with the value that each
names (R361, R362, R366). -/
def strataForm (s : State) (w : Wave) : Instr → Option (BitVec 2 × EngKind × List W64 × Nat × List (Prop × W64))
  | .trrec a b m =>
    some (m, .trrec, [w.s a.toNat, w.s b.toNat], 0,
      [(un w a % 65536 = 0 ∧ 0x100000000000 ≤ un w a ∧ un w a < 0x1C0000000000, w.s a.toNat),
       (un w b % 65536 = 0 ∧ 2 ^ 20 ≤ un w b ∧ un w b ≤ 2 ^ 36 ∧ un w a + un w b ≤ 0x1C0000000000, w.s b.toNat)])
  | .trstop a m => some (m, .trstop, [], a.toNat, [])
  | .mdecl a b m =>
    some (m, .mdecl, [w.s a.toNat, w.s b.toNat], 0,
      [(sliceAddress (w.s a.toNat) 64, w.s a.toNat), (un w b % 64 = 0 ∧ 64 ≤ un w b ∧ un w b ≤ 2 ^ 26, w.s b.toNat)])
  | .trdrop m => some (m, .trdrop, [], 0, [])
  | .trstat a b m => some (m, .trstat, [w.s b.toNat], a.toNat, [(un w b = 0 ∨ ownBlock s w (w.s b.toNat), w.s b.toNat)])
  | _ => none

/-- Request `r` of Strata is performed next (R74, R360): its core's oldest, with nothing of its wave under way. -/
def strataTurn (s : State) (r : Request) : Prop :=
  (s.requests.find? fun x => x.id == r.id) = some r ∧ (s.ctx r.req.by_.ctx).trace.stalled = false ∧
    (∀ x ∈ s.requests, x.req.by_.ctx = r.req.by_.ctx → x.req.by_.core = r.req.by_.core → r.id ≤ x.id) ∧
    (∀ a ∈ s.flight, a.wave ≠ r.req.by_.wave) ∧ (∀ h ∈ (s.ctx r.req.by_.ctx).held, h.wave ≠ r.req.by_.wave) ∧
    ∃ c ∈ s.ctxs, c.id = r.req.by_.ctx

/-- The wave of the request waits for it. -/
def awaits (s : State) (r : Request) (w : Wave) (q : SubWave) : Prop :=
  s.wave? r.req.by_.wave = some w ∧ w.subs.head? = some q ∧ w.wait = .request r.id

/-- The request is done and its wave goes on, with a scalar. -/
def doneWith (s t : State) (r : Request) (w : Wave) (q : SubWave) (v : W64) : Prop :=
  ∃ w', onlyWave s t w w' ∧ t.requests = s.requests.filter (fun x => x.id ≠ r.id) ∧ w'.wait = .none ∧
    w'.subs = { q with pc := q.pc + 4 } :: w.subs.tail ∧ (∀ k, w'.s k = if k = r.req.dst then v else w.s k) ∧
    { w'.still with sregs := w.sregs, tasks := w.tasks } = w.still

/-- The request is refused with TRACE_STATE or TRACE_OPERAND, and changes nothing (R360). -/
def strataRefused (s t : State) (r : Request) (w : Wave) (q : SubWave) (code : BitVec 16) (val : W64) : Prop :=
  ∃ w', onlyWave s t w w' ∧ w'.trapCause = code ∧ w'.trapPc = q.pc ∧ w'.trapVal = val ∧ w'.handler = some q.quads ∧
    w'.sregs = w.sregs ∧ w'.vregs = w.vregs ∧ t.requests = s.requests.filter (fun x => x.id ≠ r.id) ∧
    { t with waves := s.waves, requests := s.requests } = s

/-- The trace became `T`, which trace memory holds, and something more happened; or trace memory cannot be written, and Strata waits for
the host, to write it then (R336). -/
def strataGoes (s t : State) (c : Nat) (T : Trace) (rest : Prop) : Prop :=
  (∃ u, s.writeTrace c T = .ok u ∧ t.ext = u.ext ∧ (t.ctx c).trace = { T with unclear := [] } ∧ rest) ∨
    (∃ a, s.writeTrace c T = .error a ∧ (t.ctx c).trace = { T with stalled := true, unclear := (s.ctx c).trace.shadowed })

/-- The trace became `T` as a request was performed; or trace memory cannot be written, and Strata waits for the host with the request
and the trace as they were (R336, R360). -/
def requestGoes (s t : State) (c : Nat) (T : Trace) (rest : Prop) : Prop :=
  (∃ u, s.writeTrace c T = .ok u ∧ t.ext = u.ext ∧ (t.ctx c).trace = { T with unclear := [] } ∧ rest) ∨
    (∃ a, s.writeTrace c T = .error a ∧ (t.ctx c).trace = { (s.ctx c).trace with stalled := true } ∧ t.requests = s.requests ∧
      t.waves = s.waves)

/-- No recorded task of the context runs, in a wave placed or not, is ready, spilled or binned, and no recording is in flight (R363). -/
def recordedAtRest (s : State) (c : Nat) : Prop :=
  (∀ w ∈ s.waves ++ s.limbo.flatMap (·.waves), w.ctx = c → ∀ x ∈ w.tasks, x.2.trace = 0) ∧
    (∀ x ∈ s.tasks, x.ctx = c → x.ref.trace = 0 ∨ x.st = .held ∨ ∃ o k, x.st = .waiting o k) ∧
    ∀ a ∈ s.flight, a.ctx = c → a.traced = false

/-- A task of the trace that is held or waits (R363). -/
def recordedWaits (c : Nat) (x : Task) : Bool :=
  x.ctx == c && x.ref.trace != 0 && (x.st == .held || match x.st with
    | .waiting .. => true
    | _ => false)

/-- The root record (R361). -/
def rootTask : TTask := ⟨32, 0, [], 0, [0, 0, 0, 0], 0, 0, false, false, true, 0, []⟩

/-- The stale count: the root's (R337). -/
def staleTasks (T : Trace) : Nat := ((T.tasks.find? fun x => x.off == 32).map (·.scount)).getD 0

/-- A task's accesses are recorded now (R335). -/
def recordedNow (T : Trace) (off : Nat) : Prop :=
  off ≠ 0 ∧ (T.state = 1 ∨ (T.state = 3 ∧ ∃ k, T.walk = some k ∧ k.cur = some off))

/-- Every task but one that has read the word is stale in `T'` (R352). -/
def readersStale (T T' : Trace) (n except_ : Nat) : Prop :=
  ∀ r ∈ T.reads, r.word.toNat = n → r.task ≠ except_ → ∀ x ∈ T'.tasks, x.off = r.task → x.stale = true

end Sys2Proof.Claims

open Sys2Proof Sys2Proof.Machine Sys2Proof.Claims in
/-- The Strata instructions (R335, R359 to R366).  Each is a request through the lowest Active lane that holds its wave, but
`propagate`, which goes on; a task wave raises TRACE_STATE for all but `trstat`, and a bad operand TRACE_OPERAND.  Performed, `trrec`
opens a trace, `mdecl` adds a region, `trstop` closes a recording, `trdrop` ends the trace, `trstat` reads it, and `propagate` answers
with a status and starts its walk; a state that the instruction does not accept raises TRACE_STATE with it. -/
def Obligations.StrataInstructionsTakeEffect : Prop :=
  (∀ (i : Instr) (s : State) (w : Wave) (q : SubWave) (m : BitVec 2) (kind : EngKind) (ops : List W64) (dst : Nat)
    (checks : List (Prop × W64)), strataForm s w i = some (m, kind, ops, dst, checks) → s.issuer w q →
    ((∀ l, l < 32 → ¬act w q (w.slotOf m.toNat) l) → ∃ t, exec i s = .next t ∧ passed s t w q) ∧
    ((∃ l, l < 32 ∧ act w q (w.slotOf m.toNat) l) →
      (w.task = true → kind ≠ .trstat → calm s w →
        ∃ t, exec i s = .next t ∧ tookFault s t w q 0x65 q.pc (BitVec.ofNat 64 (s.ctx w.ctx).trace.state)) ∧
      (w.task = false ∨ kind = .trstat →
        (∀ before p v after, checks = before ++ (p, v) :: after → (∀ x ∈ before, x.1) → ¬p → calm s w →
          ∃ t, exec i s = .next t ∧ tookFault s t w q 0x66 q.pc v) ∧
        ((∀ x ∈ checks, x.1) →
          ∃ t w' r, exec i s = .next t ∧ t.waves = w' :: s.waves.tail ∧ w'.still = w.still ∧ w'.subs = w.subs ∧
            w'.wait = .request s.nextId ∧ t.requests = s.requests ++ [⟨s.nextId, r⟩] ∧ r.kind = kind ∧ r.ops = ops ∧ r.dst = dst ∧
            r.by_.wave = w.id ∧ r.by_.pc = q.pc ∧ t.slip = s.slip ∧ t.sieve = s.sieve ∧ restSame s t)))) ∧
  (∀ (s : State) (w : Wave) (q : SubWave) (a b : BitVec 6) (m : BitVec 2), s.issuer w q →
    ((∀ l, l < 32 → ¬act w q (w.slotOf m.toNat) l) → ∃ t, exec (.propagate a b m) s = .next t ∧ passed s t w q) ∧
    ((∃ l, l < 32 ∧ act w q (w.slotOf m.toNat) l) → w.task = true → calm s w →
      ∃ t, exec (.propagate a b m) s = .next t ∧ tookFault s t w q 0x65 q.pc (BitVec.ofNat 64 (s.ctx w.ctx).trace.state)) ∧
    ((∃ l, l < 32 ∧ act w q (w.slotOf m.toNat) l) → w.task = false →
      (un w b % 32 ≠ 0 ∨ (∀ o win, ¬namesByte s w (un w b) o win) → calm s w →
        ∃ t, exec (.propagate a b m) s = .next t ∧ tookFault s t w q 0x66 q.pc (w.s b.toNat)) ∧
      ∀ o win, un w b % 32 = 0 → namesByte s w (un w b) o win → unmodified s w o 32 →
        ∃ t w' r, exec (.propagate a b m) s = .next t ∧ t.waves = w' :: s.waves.tail ∧ w'.still = w.still ∧ w.wentTo w' q (q.pc + 4) ∧
          t.requests = s.requests ++ [⟨s.nextId, r⟩] ∧ r.kind = .propagate ∧ r.ops = [BitVec.ofNat 64 o] ∧ r.dst = a.toNat ∧
          r.by_.wave = w.id ∧ t.slip = s.slip ∧ t.sieve = s.sieve ∧ restSame s t)) ∧
  ∀ (s : State) (r : Request) (w : Wave) (q : SubWave), strataTurn s r →
    let c := r.req.by_.ctx
    let T := (s.ctx c).trace
    let state := BitVec.ofNat 64 T.state
    let run := exec (.strataRequestPerform r.id) s
    (awaits s r w q → calm s w → r.req.kind = .trrec ∧ T.state ≠ 0 ∨ r.req.kind = .mdecl ∧ T.state ∉ [1, 2] ∨
        r.req.kind = .trstop ∧ T.state ≠ 1 ∧ (T.state ≠ 4 ∨ T.fullRec = false) ∨ r.req.kind = .trdrop ∧ T.state ∉ [2, 4] →
      ∃ t, run = .next t ∧ strataRefused s t r w q 0x65 state) ∧
    (awaits s r w q → r.req.kind = .trrec → T.state = 0 →
      let T' := { Trace.empty with state := 1, base := r.req.op 0, len := r.req.op 1, tasks := [rootTask] }
      ∃ t, run = .next t ∧ requestGoes s t c T' (onlyWave s t w (wentOn w q.quads) ∧
        t.requests = s.requests.filter (fun x => x.id ≠ r.id) ∧
        { t with waves := s.waves, requests := s.requests, ctxs := s.ctxs, ext := s.ext, tlb := s.tlb } = s)) ∧
    (awaits s r w q → calm s w → r.req.kind = .mdecl → T.state ∈ [1, 2] →
      (¬ownRange s c (r.req.op 0) (r.req.op 1) ∨ 16 ≤ T.regions.length ∨ 0 < r.req.op 1 ∧
          (∃ x ∈ T.regions, r.req.op 0 < x.base + x.len ∧ x.base < r.req.op 0 + r.req.op 1) →
        ∃ t, run = .next t ∧ strataRefused s t r w q 0x66 (BitVec.ofNat 64 (r.req.op 0)))) ∧
    (awaits s r w q → r.req.kind = .mdecl → T.state ∈ [1, 2] → ownRange s c (r.req.op 0) (r.req.op 1) → T.regions.length < 16 →
      (∀ x ∈ T.regions ++ ((s.fixedRanges (s.ctx c)).filter fun y => 0 < y.2).map (fun y => ⟨y.1, y.2, 0⟩),
        r.req.op 0 + r.req.op 1 ≤ x.base ∨ x.base + x.len ≤ r.req.op 0) →
      ∀ off T₁ u v, T.alloc (r.req.op 1 / 8) 1 = some (off, T₁) →
        let T' := { T₁ with regions := T.regions ++ [⟨r.req.op 0, r.req.op 1, off⟩], unclear := [] }
        s.writeTrace c T' = .ok u →
        u.writeTraceBytes c T.base ((List.range (r.req.op 1 / 8)).map fun i => (16 * (off + i), List.replicate 16 0)) = .ok v →
        ∃ t, run = .next t ∧ onlyWave s t w (wentOn w q.quads) ∧ t.requests = s.requests.filter (fun x => x.id ≠ r.id) ∧
          36 ≤ off ∧ off + r.req.op 1 / 8 ≤ T.len / 16 ∧ (t.ctx c).trace = T' ∧ t.ext = v.ext ∧ t.slice = s.slice) ∧
    (awaits s r w q → r.req.kind = .trstop → T.state = 1 ∨ (T.state = 4 ∧ T.fullRec = true) →
      (¬recordedAtRest s c → run = .next s) ∧
      (recordedAtRest s c →
        let n := (s.tasks.filter (recordedWaits c)).length
        let T' := if 0 < n then { T with state := 4, result := 0x65 } else if T.state = 1 then { T with state := 2 } else T
        ∃ t, run = .next t ∧ requestGoes s t c T' (t.slice = s.slice ∧ doneWith s t r w q (BitVec.ofNat 64 (T'.state + 2 ^ 32 * n))))) ∧
    (awaits s r w q → r.req.kind = .trdrop → T.state = 2 ∨ (T.state = 4 ∧ recordedAtRest s c) →
      let T' := { T with state := 0, regions := [], tasks := T.tasks.take 1, reads := [], writes := [], writers := [] }
      (∀ u, s.writeTrace c T' = .ok u →
        ∃ t w', run = .next t ∧ (t.ctx c).trace = Trace.empty ∧ t.requests = s.requests.filter (fun x => x.id ≠ r.id) ∧
          t.wave? w.id = some w' ∧ w'.wait = .none ∧ w'.subs = (wentOn w q.quads).subs ∧ t.ext = u.ext ∧
          (∀ x ∈ t.tasks, x.ctx = c → x.ref.trace = 0) ∧ ∀ v ∈ t.waves, v.ctx = c → ∀ x ∈ v.tasks, x.2.trace = 0) ∧
      ∀ a, s.writeTrace c T' = .error a →
        ∃ t, run = .next t ∧ (t.ctx c).trace = { T with stalled := true } ∧ t.requests = s.requests ∧ t.waves = s.waves) ∧
    (awaits s r w q → r.req.kind = .trstat →
      let v := BitVec.ofNat 64 (T.state + 2 ^ 32 * if T.state = 0 then 0 else staleTasks T)
      let a := r.req.op 0
      (a = 0 → ∃ t, run = .next t ∧ doneWith s t r w q v ∧ { t with waves := s.waves, requests := s.requests } = s) ∧
      (a ≠ 0 → (s.ctx c).modifiable a 64 = false →
        ∃ t, run = .next t ∧ doneWith s t r w q v ∧ (∀ x, (x < a ∨ a + 64 ≤ x) → t.slice.byte x = s.slice.byte x) ∧
          (T.state = 0 → ∀ k, k < 64 → t.slice.byte (a + k) = 0) ∧
          (T.state ≠ 0 → t.slice.num a 4 = T.state % 2 ^ 32 ∧ t.slice.num (a + 4) 4 = T.result % 2 ^ 32 ∧
            t.slice.num (a + 8) 8 = T.len % 2 ^ 64 ∧ t.slice.num (a + 16) 4 = (T.tasks.length - 1) % 2 ^ 32 ∧
            t.slice.num (a + 20) 4 = T.reads.length % 2 ^ 32 ∧ t.slice.num (a + 24) 4 = T.writes.length % 2 ^ 32 ∧
            t.slice.num (a + 28) 4 = staleTasks T % 2 ^ 32 ∧ t.slice.num (a + 56) 4 = T.regions.length % 2 ^ 32) ∧
          { t with waves := s.waves, requests := s.requests, slice := s.slice, ctxs := s.ctxs } = s)) ∧
    (s.wave? r.req.by_.wave = some w → w.wait ≠ .request r.id → r.req.kind = .propagate → T.state < 5 →
      let answer := fun (t : State) (v : W64) => t.requests = s.requests.filter (fun x => x.id ≠ r.id) ∧
        ∃ w', t.wave? w.id = some w' ∧ ∀ k, w'.s k = if k = r.req.dst then v else w.s k
      (T.state ≠ 2 → ∃ t, run = .next t ∧
        answer t (if T.state = 0 then 1 else if T.state = 1 then 2 else if T.state = 3 then 3 else 4) ∧
        { t with waves := s.waves, requests := s.requests } = s) ∧
      let T' := fun k => { T with state := 3, counts := [0, 0, 0, 0, 0], walk := some k }
      (T.state = 2 → T.nextStale 32 ≠ none →
        ∃ t k, run = .next t ∧ k.visit = 32 ∧ k.cur = none ∧ k.obj = r.req.op 0 ∧ k.by_ = r.req.by_ ∧
          requestGoes s t c (T' k) (answer t 0 ∧ t.slice = s.slice)) ∧
      (T.state = 2 → (∀ x ∈ T.tasks, x.stale = false) → arrived s (r.req.op 0) + 1 ≤ expected s (r.req.op 0) →
        (∀ x ∈ s.ctxs, (x.objRec (r.req.op 0)).landTick ≠ some s.tick) →
        ∃ t k, run = .next t ∧ (((∃ u, s.writeTrace c (T' k) = .ok u) ∧ answer t 0 ∧ (t.ctx c).trace.state = 2 ∧
            (t.ctx c).trace.walk = none ∧ ((t.ctx c).trace.stalled = false → counted s t (r.req.op 0) 1 0)) ∨
          ((∃ a, s.writeTrace c (T' k) = .error a) ∧ (t.ctx c).trace = { T with stalled := true } ∧ t.requests = s.requests ∧
            t.waves = s.waves))))

open Sys2Proof Sys2Proof.Machine Sys2Proof.Claims in
/-- Traced steps and re-execution (R343, R344, R349 to R357).  A traced load takes the word and records the read; a traced store by a
party that is not recorded writes the word and makes its readers stale when it changes; one by a recorded task that no other task wrote
before records the write; a word with another writer stays, and the store raises MODIFIABLE_REWRITE.  The next stale task is cleaned and
launched alone in lane 0 on the propagation's core; when it ends, an unmatched old child is discarded, a write that it did not repeat
returns its old value, and the walk goes on or ends. -/
def Obligations.TracedStepsAndReruns : Prop :=
  (∀ (s : State) (a : Access) (k : Nat) (u : AccUnit) (w : Wave), ripe s a k u → s.wave? a.wave = some w → a.traced = true → u.size = 4 →
    (∃ c ∈ s.ctxs, c.id = a.ctx) → ((s.ctx a.ctx).trace.tasks.map (·.off)).Nodup → (s.ctx a.ctx).trace.stalled = false → u.taken = false →
    let T := (s.ctx a.ctx).trace
    let offOf := fun (x : AccUnit) => if x.helper then 0 else w.traceOf x.lane
    let off := offOf u
    let old := BitVec.ofNat 32 (s.slice.num u.addr 4)
    let v := u.data.setWidth 32
    ∀ n, T.wordOf u.addr = some n → T.state ≠ 0 → n < 2 ^ 32 →
    (∀ sg sc, a.kind = .load sg sc →
      let here := fun (x : AccUnit) => x.addr = u.addr ∧ x.size = 4
      let read := fun (x : AccUnit) => if x.addr = u.addr ∧ x.size = 4 ∧ x.done = false then { x with taken := true, value := old.setWidth 64 } else x
      let took := fun (t : State) => t.waves = s.waves ∧ (∀ b, b.id ≠ a.id → (b ∈ t.flight ↔ b ∈ s.flight)) ∧
        ∃ b ∈ t.flight, b.id = a.id ∧ b = { a with units := a.units.map read }
      ((∀ x ∈ a.units, here x → ¬recordedNow T (offOf x)) →
        ∃ t, exec (.tracedAccessStep a.id k) s = .next t ∧ took t ∧ { t with flight := s.flight } = s) ∧
      ((∀ x ∈ a.units, here x → x = u) → recordedNow T off → (T.alloc 1 1).isSome = true →
        ∃ t T', exec (.tracedAccessStep a.id k) s = .next t ∧ took t ∧ strataGoes s t a.ctx T' (t.slice = s.slice) ∧
          (∃ r ∈ T'.reads, r.task = off ∧ r.word.toNat = n) ∧ (∀ r ∈ T.reads, r ∈ T'.reads) ∧
          ((∃ r ∈ T.reads, r.task = off ∧ r.word.toNat = n) → T' = T) ∧ T'.tasks = T.tasks ∧ T'.writes = T.writes) ∧
      ((T.alloc a.units.length 1).isSome = true →
        ∃ t, exec (.tracedAccessStep a.id k) s = .next t ∧ took t ∧
          let T' := (t.ctx a.ctx).trace
          (∀ x ∈ a.units, here x → recordedNow T (offOf x) → ∃ r ∈ T'.reads, r.task = offOf x ∧ r.word.toNat = n) ∧
          (∀ r ∈ T.reads, r ∈ T'.reads) ∧ T'.tasks = T.tasks ∧ T'.writes = T.writes)) ∧
    (a.kind = .store → a.units = [u] → w.wait = .home a.id → unbound s a.ctx u.addr 4 →
      let wrote := fun (t : State) => onlyWave s t w (wentOn w a.quads) ∧ gone s t a ∧ storedAt s t u.addr 4 v.toNat
      (¬recordedNow T off →
        ((old = v ∨ T.state = 4) → ∃ t, exec (.tracedAccessStep a.id k) s = .next t ∧ wrote t ∧ (t.ctx a.ctx).trace = T ∧ t.ext = s.ext) ∧
        (old ≠ v → T.state ∈ [1, 2, 3] → ∃ t T', exec (.tracedAccessStep a.id k) s = .next t ∧ strataGoes s t a.ctx T' (wrote t) ∧
          readersStale T T' n 0 ∧ T'.writes = T.writes ∧ T'.writers = T.writers ∧ T'.reads = T.reads)) ∧
      (recordedNow T off → T.writerOf n = 0 → (T.alloc 2 2).isSome = true →
        ∃ t T', exec (.tracedAccessStep a.id k) s = .next t ∧ strataGoes s t a.ctx T' (wrote t) ∧ T'.writerOf n = off ∧
          (∃ r ∈ T'.writes, r.task = off ∧ r.word.toNat = n ∧ r.old = old ∧ r.new_ = v) ∧ (old ≠ v → readersStale T T' n off)) ∧
      (recordedNow T off → T.writerOf n = off →
        ∃ t T', exec (.tracedAccessStep a.id k) s = .next t ∧ strataGoes s t a.ctx T' (wrote t) ∧ T'.writers = T.writers ∧
          (∀ r ∈ T.writes, r.task = off → r.word.toNat = n → r.held ≠ 2 → { r with new_ := v, held := 0 } ∈ T'.writes) ∧
          (old ≠ v → readersStale T T' n off)) ∧
      (recordedNow T off → T.state = 1 → T.walk = none → T.writerOf n ≠ 0 → T.writerOf n ≠ off → calm s w →
        ∃ t w', exec (.tracedAccessStep a.id k) s = .next t ∧ onlyWave s t w w' ∧ gone s t a ∧ w'.trapCause = 0x61 ∧ w'.trapPc = a.pc ∧
          w'.trapVal = u.data2 ∧ w'.handler = some a.quads ∧ w'.sregs = w.sregs ∧ w'.vregs = w.vregs ∧
          { t with waves := s.waves, flight := s.flight } = s))) ∧
  (∀ (s : State) (c o : Nat) (k : Walk) (x : TTask) (p : Partition),
    let T := (s.ctx c).trace
    (∃ y ∈ s.ctxs, y.id = c) → T.walk = some k → T.stalled = false → T.state = 3 → k.cur = none → (s.ctx c).pre = .none →
    T.nextStale k.visit = some o → T.task? o = some x → s.part? (s.ctx c).vf = some p → k.by_.core < 128 →
    (∃ quad sl, quad / 4 = k.by_.core ∧ p.quads.getLsbD quad = true ∧ sl < 32 ∧
      ∀ v ∈ s.waves, ¬(v.core * 4 + v.quad = quad ∧ v.slot = sl)) → (T.tasks.map (·.off)).Nodup →
    (∀ j i, j < (s.ctx c).r.tasktabn → s.slice.num ((s.ctx c).r.tasktab + 32 * j) 8 = x.entry.toNat → i < 4 →
      reservedFree (BitVec.ofNat 32 (s.slice.num ((s.ctx c).r.tasktab + 32 * j + 8 + 4 * i) 4))) →
      x.stale = true ∧
      ∃ t w' quad T' k', exec (.rerunLaunch c) s = .next t ∧ strataGoes s t c T' (t.slice = s.slice) ∧ t.waves = s.waves ++ [w'] ∧
        freshTaskWave s w' ⟨0, c, k.by_.core, x.entry, 0, none⟩ quad 1 ∧ quad / 4 = k.by_.core ∧ p.quads.getLsbD quad = true ∧
        (∀ i, i < 4 → w'.v i 0 = x.args.getD i 0) ∧ w'.v 4 0 = x.key.setWidth 32 ∧ w'.v 5 0 = (x.key >>> 32).setWidth 32 ∧
        w'.traceOf 0 = o ∧ w'.grain.get 0 = 0 ∧ T'.walk = some k' ∧ k'.visit = o ∧ k'.cur = some o ∧ k'.oldChildren = x.children ∧
        k'.matched = [] ∧ k'.cursor = 0 ∧ (∀ r ∈ T'.reads, r.task ≠ o) ∧ (∀ r ∈ T'.writes, r.task = o → r.held = 1) ∧
        ∀ y ∈ T'.tasks, y.off = o → y.stale = false ∧ y.new_ = false ∧ y.children = [] ∧ y.ended = false) ∧
  ∀ (s : State) (c : Nat) (k : Walk) (x : TTask),
    let T := (s.ctx c).trace
    (∃ y ∈ s.ctxs, y.id = c) → T.walk = some k → T.stalled = false → T.state = 3 → k.cur = some x.off → T.task? x.off = some x →
    x.ended = true → (T.tasks.map (·.off)).Nodup → (∀ r ∈ T.writes, r.held ≠ 2) → arrived s k.obj + 1 ≤ expected s k.obj → (s.ctx c).held = [] →
    let goesOn := fun (t : State) => exec (.rerunEnd c) s = .next t ∧
      (((t.ctx c).trace.state = 3 ∧ ∃ k', (t.ctx c).trace.walk = some k' ∧ k'.cur = none ∧ k'.visit = k.visit) ∨
        ((t.ctx c).trace.state = 2 ∧ (t.ctx c).trace.walk = none))
    (∀ r, (∀ o ∈ k.oldChildren, o ∈ k.matched) → T.writes.filter (fun y => y.task == x.off && y.held == 1) = [r] →
      let a := T.addrOf r.word.toNat
      a + 4 ≤ k.obj ∨ k.obj + 32 ≤ a → unbound s c a 4 →
        ∃ t, goesOn t ∧ (t.ctx c).trace.writerOf r.word.toNat = 0 ∧ r ∉ (t.ctx c).trace.writes ∧
          ((t.ctx c).trace.stalled = false → t.slice.num a 4 = r.old.toNat ∧
            ∀ b, ¬(a ≤ b ∧ b < a + 4) → ¬(k.obj ≤ b ∧ b < k.obj + 32) → t.slice.byte b = s.slice.byte b)) ∧
    ∀ o y, k.oldChildren.filter (fun o => o ∉ k.matched) = [o] → T.task? o = some y → y.children = [] → o ≠ x.off →
      (∀ r ∈ T.writes, r.task ≠ o ∧ ¬(r.task = x.off ∧ r.held = 1)) →
        ∃ t, goesOn t ∧ (∀ z ∈ (t.ctx c).trace.tasks, z.off ≠ o) ∧ (∀ r ∈ (t.ctx c).trace.reads, r.task ≠ o) ∧
          (∀ z ∈ T.tasks, z.off ≠ o → ∃ z' ∈ (t.ctx c).trace.tasks, z'.off = z.off ∧ z'.entry = z.entry ∧ z'.key = z.key) ∧
          ((t.ctx c).trace.stalled = false →
            ∀ b, ¬(k.obj ≤ b ∧ b < k.obj + 32) → t.slice.byte b = s.slice.byte b)

/-! ## Sieve (R371 to R391) -/

namespace Sys2Proof.Claims

open Sys2Proof.Machine

/-- An engine request to Sieve: slot, kind, descriptor, ring, object, `full`, scalar destination (R383). -/
structure SieveForm where
  slot : BitVec 2
  kind : EngKind
  grid : W64
  ring : Option W64
  object : W64
  full : Bool
  dst : Nat

/-- The engine requests to Sieve. -/
def sieveForm (w : Wave) : Instr → Option SieveForm
  | .svgrid a b m => some ⟨m, .svgrid, w.s b.toNat, none, 0, false, a.toNat⟩
  | .svbin a b m => some ⟨m, .svbin, w.s a.toNat, none, w.s b.toNat, false, 0⟩
  | .svpair a b c m f => some ⟨m, .svpair, w.s a.toNat, some (w.s b.toNat), w.s c.toNat, decide (f = 1), 0⟩
  | .svstat a b m => some ⟨m, .svstat, w.s b.toNat, none, 0, false, a.toNat⟩
  | .svcheck a b m => some ⟨m, .svcheck, w.s a.toNat, none, w.s b.toNat, false, 0⟩
  | _ => none

/-- The checks of a request in the order of R383, with the fault and value of each. -/
def SieveForm.checks (f : SieveForm) (s : State) (w : Wave) : List (Prop × BitVec 16 × W64) :=
  [(engineAddress w f.grid 64, 0x90, f.grid), (∀ r, f.ring = some r → sliceAddress r 64, 0x90, f.ring.getD 0),
    (objectFine w f.object, 0x90, f.object),
    (∀ a win, f.object ≠ 0 → namesByte s w f.object.toNat a win → unmodified s w a 32, 0x60, f.object),
    (∀ r, f.ring = some r → unmodified s w r.toNat 64, 0x60, f.ring.getD 0),
    (∃ p, s.part? (s.ctx w.ctx).vf = some p ∧ p.sieve.getLsbD (w.core / 16) = true, 0xA3, BitVec.ofNat 64 (w.core / 16))]

/-- The operations of a die's queue. -/
def dieQueue (s : State) (die : Nat) : List SieveOp := s.sieve.filter fun o => o.die == die

/-- A finite f32 encoding. -/
def finite (x : Nat) : Prop := mag 2 x < infMag 2

/-- An array of a grid lies wholly in mapped slice memory or in external memory (R373, R374). -/
def arrayFine (s : State) (c : Context) (a align n : Nat) : Prop :=
  a % align = 0 ∧ (n = 0 ∨ s.sliceMapped c a n = true ∨ (0x100000000000 ≤ a ∧ a + n ≤ 0x1C0000000000))

/-- The checks of R374 on the bytes 0 to 71 of a descriptor, reasons 1 to 8 in order. -/
def gridChecks (s : State) (c : Context) (b : List Byte) : List Prop :=
  let len := fun a => field b (4 * a) 4
  let n := fun a => field b (12 + 2 * a) 2
  let opts := field b 18 1
  let rc := field b 20 4
  let skin := field b 24 4
  let np := field b 28 4
  let cap := 16 * 2 ^ (opts / 16 % 4)
  [∀ a, a < 3 → finite (len a) ∧ 0 < units 2 (len a),
    ∀ a, a < 3 → n a ≤ 256 ∧ (if opts.testBit a then 3 else 1) ≤ n a,
    finite rc ∧ 0 < units 2 rc ∧ finite skin ∧ 0 ≤ units 2 skin,
    ∀ a, a < 3 → 2 ≤ n a → n a * (units 2 rc + units 2 skin) ≤ units 2 (len a),
    opts / 16 % 4 ≠ 3,
    0 < np ∧ np ≤ 2 ^ 26 ∧ field b 56 4 ≤ 2 ^ 26,
    arrayFine s c (field b 32 8) 16 (16 * np) ∧ arrayFine s c (field b 40 8) 64 (n 0 * n 1 * n 2 * (64 + 4 * cap)) ∧
      arrayFine s c (field b 48 8) 8 (8 * field b 56 4) ∧ arrayFine s c (field b 64 8) 16 (16 * np),
    opts.testBit 3 = false ∧ opts / 64 = 0 ∧ field b 19 1 = 0 ∧ field b 60 4 = 0]

/-- A ring header that R379 allows. -/
def goodRing (s : State) (c : Context) (r : Nat) : Prop :=
  let base := s.slice.num r 8
  let cap := s.slice.num (r + 8) 4
  base % 64 = 0 ∧ (∃ k, 6 ≤ k ∧ k ≤ 20 ∧ cap = 2 ^ k) ∧ s.slice.num (r + 12) 4 = 0 ∧ s.sliceMapped c base (32 * cap) = true ∧
    homeCore base = homeCore r ∧ homeCore (base + 32 * cap - 1) = homeCore r

/-- What an operation is checked for when it begins, with the reason of each check (R374, R384). -/
def beginChecks (s : State) (o : SieveOp) (d : Nat) (b : List Byte) : List (Nat × Prop) :=
  let c := s.ctx o.req.by_.ctx
  let st := s.slice.num (d + 96) 4
  (if o.req.kind = .svstat then [] else [1, 2, 3, 4, 5, 6, 7, 8].zip (gridChecks s c b)) ++
    (if o.req.kind = .svpair ∨ o.req.kind = .svcheck then [(9, st.testBit 1 = true)] else []) ++
    (if o.req.kind = .svpair then [(10, st.testBit 2 = false), (11, st.testBit 3 = false), (12, st.testBit 4 = false),
      (13, goodRing s c (o.req.op 1) ∧ s.slice.num (o.req.op 1 + 40) 4 ≠ 1)] else [])

/-- The reason of the first check that fails; 0 when none does. -/
def firstReason (l : List (Nat × Prop)) (r : Nat) : Prop :=
  (r = 0 ∧ ∀ x ∈ l, x.2) ∨ ∃ before p after, l = before ++ (r, p) :: after ∧ (∀ x ∈ before, x.2) ∧ ¬p

/-- The operation is the only one with its number, in a given state. -/
def sieveOpIs (s : State) (o : SieveOp) (st : OpState) : Prop :=
  (s.sieve.find? fun x => x.id == o.id) = some o ∧ (∀ x ∈ s.sieve, x.id = o.id → x = o) ∧ o.st = st

/-- The operation alone became `o'`. -/
def opBecame (s t : State) (o o' : SieveOp) : Prop := t.sieve = s.sieve.map fun x => if x.id = o.id then o' else x

/-- The 32 bytes of the status block are on their way to the operation's object (R385). -/
def objectCounted (s t : State) (o : SieveOp) : Prop :=
  (o.req.object = 0 → t.landings = s.landings) ∧
    ∀ a, o.req.object ≠ 0 → s.engSlice (s.ctx o.req.by_.ctx) o.req.owner o.req.object 32 = some a →
      ∃ l, t.landings = s.landings ++ [l] ∧ l.obj = a ∧ l.bytes = 32 ∧ l.ctx = o.req.by_.ctx

/-- The operation ended: it left its queue; beside its writes, which lead to `u`, no memory or other engine changed. -/
def sieveEnded (u t : State) (o : SieveOp) : Prop :=
  t.sieve = u.sieve.filter (fun x => x.id ≠ o.id) ∧ t.ext = u.ext ∧ t.hostMem = u.hostMem ∧ t.slip = u.slip ∧ t.flight = u.flight

/-- A stream of whatever context writes to the ring (R388). -/
def streamsTo (r : Nat) (o : SieveOp) : Prop :=
  o.req.kind = .svpair ∧ o.req.op 1 = r ∧ o.refused = 0 ∧ (o.st = .running ∨ ∃ a, o.st = .stopped 0 a)

/-- Round `k` of an operation's transfers, for these ranges, has been asked for, or needs none (R398, R399). -/
def hasAsked (s : State) (o : SieveOp) (k : Nat) (l : List (Nat × Nat)) : Prop :=
  k ≤ o.asked ∨ s.engTransfers (s.ctx o.req.by_.ctx) o.req.owner o.req.by_.core (16 * o.die + 12) o.id l = []

/-- The operation's context goes on, its transfers are granted, and no wave's `svclr` waits for it (R388, R392, R399). -/
def sieveFree (s : State) (o : SieveOp) : Prop :=
  s.stands (s.ctx o.req.by_.ctx) = false ∧ (∀ x ∈ s.transfers, x.op ≠ o.id) ∧ ∀ x ∈ s.waves, x.wait ≠ .request o.id

/-- What an `svbin` that begins writes: empty bins, and BINNED and the marks clear (R378). -/
def binOpening (s : State) (o : SieveOp) (g : Grid3) (d : Nat) : List (Nat × List Byte) :=
  let st := s.slice.num (d + 96) 4
  (List.range g.cells).map (fun k => (g.bins + k * g.binSize, leBytes 4 0 ++ leBytes 4 0 ++ leBytes 4 (2 ^ 32 - 1))) ++
    [(o.req.op 0 + 96, leBytes 4 (st % 2 + st / 32 * 32) ++ List.replicate 12 0 ++ s.slice.bytes (d + 112) 16)]

/-- The cell of a coordinate on an axis (R377), both in units of 2^-149. -/
def cellOn (x : Axis) (len v : Int) : Int :=
  let u := if x.periodic then v - len * (v / len) else v
  if u * x.n / len < 0 then 0 else if (x.n : Int) - 1 < u * x.n / len then x.n - 1 else u * x.n / len

/-- The image of R380 on an axis: the one of -1, 0 and 1 that makes the displacement least, the smaller on a tie. -/
def imageOn (x : Axis) (len d k : Int) : Prop :=
  (x.periodic = false ∧ k = 0) ∨
    (x.periodic = true ∧ k ∈ [-1, 0, 1] ∧ ∀ j ∈ [-1, 0, 1], (d + k * len).natAbs ≤ (d + j * len).natAbs ∧
      ((d + k * len).natAbs = (d + j * len).natAbs → k ≤ j))

/-- A grid of three axes with these positive lengths. -/
def gridOf (g : Grid3) (xs : List Axis) (ls : List Int) : Prop :=
  g.axes = xs ∧ xs.length = 3 ∧ xs.map (·.len) = ls.map some ∧ (∀ x ∈ xs, 0 < x.n) ∧ ∀ l ∈ ls, 0 < l

/-- Item `a` of a list of coordinates. -/
abbrev co (v : List Int) (a : Nat) : Int := v.getD a 0

end Sys2Proof.Claims

open Sys2Proof Sys2Proof.Machine Sys2Proof.Claims in
/-- The SIEVE instructions (R371, R372, R383, R387, R388).  With no Active lane they do nothing.  The engine requests fault on their
first operand that fails, else join their die's queue, or stall where it holds 16.  `svpull` gives the ring's next records to the Active
lanes in ascending order, and waits on an empty ring that streams; `svclr` stops the stream that writes to its ring, then empties it. -/
def Obligations.SieveInstructionsTakeEffect : Prop :=
  ∀ (s : State) (w : Wave) (q : SubWave), s.issuer w q →
  (∀ (i : Instr) (f : SieveForm), sieveForm w i = some f →
    ((∀ l, l < 32 → ¬act w q (w.slotOf f.slot.toNat) l) → ∃ t, exec i s = .next t ∧ passed s t w q) ∧
    ((∃ l, l < 32 ∧ act w q (w.slotOf f.slot.toNat) l) →
      (∀ before p code v after, f.checks s w = before ++ (p, code, v) :: after → (∀ x ∈ before, x.1) → ¬p → calm s w →
        ∃ t, exec i s = .next t ∧ tookFault s t w q code q.pc v) ∧
      ((∀ x ∈ f.checks s w, x.1) →
        ((dieQueue s (w.core / 16)).length < 16 →
          ∃ t w' o, exec i s = .next t ∧ onlyWave s t w w' ∧ w.wentTo w' q (q.pc + 4) ∧ w'.still = w.still ∧
            t.sieve = s.sieve ++ [o] ∧ o.id = s.nextId ∧ o.die = w.core / 16 ∧ o.st = .queued ∧ o.req.kind = f.kind ∧
            o.req.ops = [f.grid, f.ring.getD 0, f.object] ∧ o.req.flag = f.full ∧ o.req.dst = f.dst ∧ o.req.owner = ownerOf w ∧
            o.req.by_.wave = w.id ∧ o.req.by_.ctx = w.ctx ∧ o.req.by_.pc = q.pc ∧ t.slip = s.slip ∧ t.requests = s.requests ∧
            restSame s t) ∧
        (16 ≤ (dieQueue s (w.core / 16)).length →
          ∃ t w' r, exec i s = .next t ∧ t.waves = w' :: s.waves.tail ∧ w'.wait = .queue r ∧ w'.still = w.still ∧ w'.subs = w.subs ∧
            r.kind = f.kind ∧ r.ops = [f.grid, f.ring.getD 0, f.object] ∧ r.dst = f.dst ∧ t.slip = s.slip ∧ t.sieve = s.sieve ∧
            t.requests = s.requests ∧ restSame s t)))) ∧
  (∀ (i : Instr) (m : BitVec 2) (rs : BitVec 6) (run : W64),
    ((∃ a c, i = .svpull a rs c m ∧ run = w.s c.toNat) ∨ (i = .svclr rs m ∧ run = 0)) →
    ((∀ l, l < 32 → ¬act w q (w.slotOf m.toNat) l) →
      ((legalRun run 8 88 → heldRun w run) → ∃ t, exec i s = .next t ∧ passed s t w q) ∧
      (legalRun run 8 88 → ¬heldRun w run → calm s w → ∃ t, exec i s = .next t ∧ tookFault s t w q 0x03 q.pc run)) ∧
    ∀ before p code v after,
      [(sliceAddress (w.s rs.toNat) 64, (0x90 : BitVec 16), w.s rs.toNat), (legalRun run 8 88, 0x90, run), (heldRun w run, 0x03, run),
        (unmodified s w (un w rs) 64, 0x60, w.s rs.toNat), (s.sliceMapped (s.ctx w.ctx) (un w rs) 64 = true, 0x20, w.s rs.toNat),
        (sound s (un w rs) 64, 0x28, w.s rs.toNat)]
          = before ++ (p, code, v) :: after →
      (∀ x ∈ before, x.1) → ¬p → (∃ l, l < 32 ∧ act w q (w.slotOf m.toNat) l) → calm s w →
        ∃ t, exec i s = .next t ∧ tookFault s t w q code q.pc v) ∧
  (∀ (a rs c : BitVec 6) (m : BitVec 2) (ls : List Nat), activeList w q (w.slotOf m.toNat) ls → ls ≠ [] →
    let r := un w rs
    let run := un w c
    sliceAddress (w.s rs.toNat) 64 → legalRun (w.s c.toNat) 8 88 → heldRun w (w.s c.toNat) → unmodified s w r 64 →
    s.sliceMapped (s.ctx w.ctx) r 64 = true → s.eccBad = [] → (∀ x ∈ s.flight, x.wave ≠ w.id) →
    let head := s.slice.num (r + 16) 8
    let tail := s.slice.num (r + 24) 8
    (head = tail → s.slice.num (r + 40) 4 = 1 →
      ∃ w', exec (.svpull a rs c m) s = .next (s.withIssuer w') ∧ w'.still = w.still ∧ w'.subs = w.subs ∧ w'.wait = .again q.quads) ∧
    ((head = tail → s.slice.num (r + 40) 4 ≠ 1) → goodRing s (s.ctx w.ctx) r → unbound s w.ctx r 64 →
      let n := min ls.length (tail - head)
      let at_ := fun k => s.slice.num r 8 + 32 * ((head + k) % s.slice.num (r + 8) 4)
      ∃ t w', exec (.svpull a rs c m) s = .next t ∧ t.waves = w' :: s.waves.tail ∧ w.wentTo w' q (q.pc + 4) ∧
        (∀ k, w'.s k = if k = a.toNat then BitVec.ofNat 64 n else w.s k) ∧
        (∀ k l j, ls[k]? = some l → j < 8 →
          w'.v (run + j) l = if k < n then BitVec.ofNat 32 (s.slice.num (at_ k + 4 * j) 4) else w.v (run + j) l) ∧
        (∀ x l, l < 32 → (x < run ∨ run + 8 ≤ x ∨ l ∉ ls) → w'.v x l = w.v x l) ∧
        { w'.still with vregs := w.vregs, sregs := w.sregs } = w.still ∧ storedAt s t (r + 16) 8 (head + n) ∧
        { t with waves := s.waves, slice := s.slice } = s)) ∧
  ∀ (rs : BitVec 6) (m : BitVec 2), (∃ l, l < 32 ∧ act w q (w.slotOf m.toNat) l) →
    let r := un w rs
    sliceAddress (w.s rs.toNat) 64 → unmodified s w r 64 → s.sliceMapped (s.ctx w.ctx) r 64 = true → s.eccBad = [] →
    (∀ before o after, s.sieve = before ++ o :: after → streamsTo r o → (∀ x ∈ before, ¬streamsTo r x) →
      (∀ x ∈ before ++ after, x.id ≠ o.id) →
      ∃ t w', exec (.svclr rs m) s = .next t ∧ t.waves = w' :: s.waves.tail ∧ w'.still = w.still ∧ w'.subs = w.subs ∧
        (o.st = .running → w'.wait = .request o.id) ∧ (o.st ≠ .running → w'.wait = .again q.quads) ∧
        t.sieve = before ++ { o with stop := true } :: after ∧ { t with waves := s.waves, sieve := s.sieve } = s) ∧
    ((∀ o ∈ s.sieve, ¬streamsTo r o) → (∀ x ∈ s.flight, x.wave ≠ w.id) → unbound s w.ctx r 64 →
      ∃ t w', exec (.svclr rs m) s = .next t ∧ t.waves = w' :: s.waves.tail ∧ w'.still = w.still ∧ w.wentTo w' q (q.pc + 4) ∧
        t.slice.num (r + 16) 8 = s.slice.num (r + 24) 8 ∧ t.slice.num (r + 40) 4 = 2 ∧
        (∀ x, (x < r + 16 ∨ r + 24 ≤ x) → (x < r + 40 ∨ r + 44 ≤ x) → t.slice.byte x = s.slice.byte x) ∧
        { t with waves := s.waves, slice := s.slice } = s)

open Sys2Proof Sys2Proof.Machine Sys2Proof.Claims in
/-- What Sieve performs (R373 to R389).  The oldest operation of a queue begins: an unmapped descriptor stops it; else it is refused with
the reason of the first check that fails, or runs, an `svpair` with its ring reset.  A stream writes its next record at tail while the
ring has room.  Each operation ends with its status block, and counts 32 bytes into its object, refused or not. -/
def Obligations.SieveOperationsArePerformed : Prop :=
  (∀ (s : State) (o : SieveOp), sieveOpIs s o .queued → (dieQueue s o.die).head? = some o → s.stands (s.ctx o.req.by_.ctx) = false →
    (∀ a ∈ s.flight, a.wave ≠ o.req.by_.wave) → (∀ h ∈ (s.ctx o.req.by_.ctx).held, h.wave ≠ o.req.by_.wave) →
    let c := s.ctx o.req.by_.ctx
    (s.engSlice c o.req.owner (o.req.op 0) 128 = none →
      ∃ t, exec (.sieveOpBegin o.id) s = .next t ∧ opBecame s t o { o with st := .stopped 1 (o.req.op 0) } ∧
        (o.req.object = 0 → queueHasRoom s o.req.by_.ctx →
          let e := c.r.fq + 64 + 64 * (s.slice.num c.r.fq 4 % 2 ^ c.r.fqlog)
          t.slice.num e 2 = 0x20 ∧ t.slice.num (e + 2) 1 = 2 ∧ t.slice.num (e + 16) 8 = o.req.by_.pc.toNat ∧
            t.slice.num (e + 32) 8 = o.req.op 0)) ∧
    ∀ d b r, engineFinds s c o.req.owner (o.req.op 0) 128 false (false, d) → (∀ k, k < 128 → b[k]? = some (s.slice.byte (d + k))) →
      b.length = 128 → (o.req.kind = .svpair → s.sliceMapped c (o.req.op 1) 64 = true ∧
        engineFinds s c o.req.owner (o.req.op 1) 64 false (false, o.req.op 1)) →
      (o.req.object = 0 ∨ ∃ a, s.engSlice c o.req.owner o.req.object 32 = some a) → firstReason (beginChecks s o d b) r →
      o.req.kind ∈ [.svgrid, .svbin, .svpair, .svstat, .svcheck] →
      let o' := { o with st := .running, grid := b.take 72, refused := r }
      ((o.req.kind ≠ .svpair ∧ o.req.kind ≠ .svbin) ∨ r ≠ 0 →
        ∃ t, exec (.sieveOpBegin o.id) s = .next t ∧ opBecame s t o o' ∧ { t with sieve := s.sieve } = s) ∧
      (o.req.kind = .svbin → r = 0 → o.binning = ⟨[], [], false, false, []⟩ →
        ∀ u, s.sieveWrite c o (binOpening s o (gridFields (b.take 72)) d) = .ok u →
          ∃ t, exec (.sieveOpBegin o.id) s = .next t ∧ opBecame s t o o' ∧ { t with sieve := u.sieve } = u) ∧
      (o.req.kind = .svpair → r = 0 → c.trace.state = 0 → unbound s c.id (o.req.op 1) 64 →
        engineFinds s c o.req.owner (o.req.op 1 + 16) 28 true (false, o.req.op 1 + 16) →
        ∃ t, exec (.sieveOpBegin o.id) s = .next t ∧ opBecame s t o o' ∧ t.slice.num (o.req.op 1 + 16) 8 = 0 ∧
          t.slice.num (o.req.op 1 + 24) 8 = 0 ∧ t.slice.num (o.req.op 1 + 32) 8 = 2 ^ 64 - 1 ∧ t.slice.num (o.req.op 1 + 40) 4 = 1 ∧
          (∀ x, (x < o.req.op 1 + 16 ∨ o.req.op 1 + 44 ≤ x) → t.slice.byte x = s.slice.byte x) ∧
          { t with sieve := s.sieve, slice := s.slice, transfers := s.transfers } = s)) ∧
  (∀ (s : State) (o : SieveOp) (n : StreamAt) (rec_ : List Byte) (p : Nat), sieveOpIs s o .running → o.req.kind = .svpair →
    o.refused = 0 → o.stop = false → sieveFree s o →
    let c := s.ctx o.req.by_.ctx
    let r := o.req.op 1
    let cap := s.slice.num (r + 8) 4
    let tail := s.slice.num (r + 24) 8
    (¬hasAsked s o 1 (s.pairRanges o) →
      ∃ t, exec (.pairRecordWrite o.id) s = .next t ∧ opBecame s t o { o with asked := 1 } ∧
        (∃ l, t.transfers = s.transfers ++ l ∧ l ≠ [] ∧ ∀ x ∈ l, x.op = o.id) ∧
        { t with sieve := s.sieve, transfers := s.transfers, tlb := s.tlb } = s) ∧
    (hasAsked s o 1 (s.pairRanges o) → tail - s.slice.num (r + 16) 8 = cap → exec (.pairRecordWrite o.id) s = .next s) ∧
    (hasAsked s o 1 (s.pairRanges o) → tail - s.slice.num (r + 16) 8 < cap → s.nextPair o = .ok (n, some rec_) → c.trace.state = 0 →
      engineFinds s c o.req.owner r 64 false (false, r) →
      engineFinds s c o.req.owner (s.slice.num r 8 + 32 * (tail % cap)) 32 true (false, p) →
      engineFinds s c o.req.owner (r + 24) 8 true (false, r + 24) → (p + 32 ≤ r + 24 ∨ r + 32 ≤ p) → rec_.length = 32 →
      ∃ t, exec (.pairRecordWrite o.id) s = .next t ∧
        opBecame s t o { o with cursor := n, written := o.written + 1, asked := 0 } ∧
        (∀ k, k < 32 → rec_[k]? = some (t.slice.byte (p + k))) ∧ t.slice.num (r + 24) 8 = (tail + 1) % 2 ^ 64 ∧
        (∀ x, (x < p ∨ p + 32 ≤ x) → (x < r + 24 ∨ r + 32 ≤ x) → t.slice.byte x = s.slice.byte x) ∧
        t.waves = s.waves ∧ t.flight = s.flight ∧ t.landings = s.landings ∧ t.ext = s.ext)) ∧
  (∀ (s : State) (o : SieveOp) (d : Nat), sieveOpIs s o .running → sieveFree s o →
    let c := s.ctx o.req.by_.ctx
    let st := s.slice.num (d + 96) 4
    let low := st % 32 + st / 64 % 4 * 64
    s.engSlice c o.req.owner (o.req.op 0) 128 = some d → c.trace.state = 0 →
    (∀ n k, 0 < k → n + k ≤ 128 → engineFinds s c o.req.owner (o.req.op 0 + n) k true (false, d + n)) →
    (o.req.kind = .svstat → ∀ w, s.wave? o.req.by_.wave = some w →
      ∃ t w', exec (.sieveOpComplete o.id) s = .next t ∧ onlyWave s t w w' ∧
        (∀ k, w'.s k = if k = o.req.dst then BitVec.ofNat 64 (st + 2 ^ 32 * s.slice.num (d + 108) 4) else w.s k) ∧
        { w' with sregs := w.sregs } = w ∧ sieveEnded s t o ∧ t.slice = s.slice ∧ t.landings = s.landings) ∧
    (o.req.kind = .svgrid → ∀ w, s.wave? o.req.by_.wave = some w →
      ∃ t w', exec (.sieveOpComplete o.id) s = .next t ∧ onlyWave s t w w' ∧
        (∀ k, w'.s k = if k = o.req.dst then BitVec.ofNat 64 o.refused else w.s k) ∧ { w' with sregs := w.sregs } = w ∧
        sieveEnded s t o ∧ t.landings = s.landings ∧
        (o.refused < 16 → t.slice.num (d + 96) 4 = if o.refused = 0 then 1 else 32 + 256 * o.refused) ∧
        (∀ k, 100 ≤ k → k < 128 → t.slice.byte (d + k) = 0) ∧
        ∀ x, (x < d + 96 ∨ d + 128 ≤ x) → (o.refused ≠ 0 ∨ x < d + 72 ∨ d + 84 ≤ x) → t.slice.byte x = s.slice.byte x) ∧
    (o.req.kind ∈ [.svbin, .svpair, .svcheck] → o.refused ≠ 0 → o.refused < 16 →
      let ring := o.req.op 1 + 40
      let refuse := o.req.kind = .svpair ∧ s.slice.num ring 4 ≠ 1
      (refuse → engineFinds s c o.req.owner ring 4 true (false, ring) ∧ (ring + 4 ≤ d + 96 ∨ d + 100 ≤ ring)) →
      ∃ t, exec (.sieveOpComplete o.id) s = .next t ∧ sieveEnded s t o ∧ objectCounted s t o ∧
        t.slice.num (d + 96) 4 = low + 32 + 256 * o.refused ∧ (refuse → t.slice.num ring 4 = 3) ∧
        ∀ x, (x < d + 96 ∨ d + 100 ≤ x) → (¬refuse ∨ x < ring ∨ ring + 4 ≤ x) → t.slice.byte x = s.slice.byte x) ∧
    (o.req.kind = .svcheck → o.refused = 0 → ∀ p n,
      let g := gridFields o.grid
      let rest := (List.range (g.np - o.checked)).map fun i => o.checked + i
      hasAsked s o 1 (g.coordRanges rest ++ rest.map fun p => (g.ref + 16 * p, 16)) →
      s.countStale c o g (g.np - o.checked) o.checked o.stale = (p, n, none) → n < 2 ^ 32 →
      ∃ t, exec (.sieveOpComplete o.id) s = .next t ∧ sieveEnded s t o ∧ objectCounted s t o ∧
        t.slice.num (d + 96) 4 = low + (if 0 < n ∧ st.testBit 3 = false then 8 else 0) ∧ t.slice.num (d + 108) 4 = n ∧
        t.slice.num (d + 124) 4 = 5 ∧
        ∀ x, (x < d + 96 ∨ d + 100 ≤ x) → (x < d + 108 ∨ d + 112 ≤ x) → (x < d + 124 ∨ d + 128 ≤ x) →
          t.slice.byte x = s.slice.byte x) ∧
    (o.req.kind = .svpair → o.refused = 0 →
      ∀ bad, (o.stop = true ∧ bad = o.cursor.bad) ∨ (o.stop = false ∧ hasAsked s o 1 (s.pairRanges o) ∧
        ∃ n, s.nextPair o = .ok (n, none) ∧ bad = n.bad) →
      let ring := o.req.op 1
      engineFinds s c o.req.owner ring 64 false (false, ring) →
      engineFinds s c o.req.owner (ring + 32) 12 true (false, ring + 32) → (ring + 44 ≤ d + 96 ∨ d + 128 ≤ ring + 32) →
      ∃ t, exec (.sieveOpComplete o.id) s = .next t ∧ sieveEnded s t o ∧ objectCounted s t o ∧
        t.slice.num (ring + 32) 8 = s.slice.num (ring + 24) 8 ∧ t.slice.num (ring + 40) 4 = 2 ∧
        t.slice.num (d + 96) 4 = low + (if bad = true ∧ st.testBit 4 = false then 16 else 0) ∧
        t.slice.num (d + 112) 8 = o.written % 2 ^ 64 ∧ t.slice.num (d + 124) 4 = 2 ∧
        ∀ x, (x < d + 96 ∨ d + 100 ≤ x) → (x < d + 112 ∨ d + 120 ≤ x) → (x < d + 124 ∨ d + 128 ≤ x) →
          (x < ring + 32 ∨ ring + 44 ≤ x) → t.slice.byte x = s.slice.byte x) ∧
    (o.req.kind = .svbin → o.refused = 0 → ∀ b u,
      let g := gridFields o.grid
      let n := o.binning.refs.length
      hasAsked s o 1 (g.coordRanges ((List.range (g.np - n)).map fun i => n + i)) →
      s.binAll c o g (g.np - n) n o.binning = (b, none) → hasAsked s o 2 ((b.writes g).map fun x => (x.1, x.2.length)) →
      s.sieveWrite c o (b.writes g) = .ok u → b.ovf.length < 2 ^ 32 →
      ∃ t, exec (.sieveOpComplete o.id) s = .next t ∧ sieveEnded u t o ∧ objectCounted s t o ∧
        t.slice.num (d + 96) 4 =
          low % 2 + 2 + (if b.overfull then 4 else 0) + (if b.bad then 16 else 0) + st / 64 % 4 * 64 ∧
        t.slice.num (d + 100) 4 = b.ovf.length ∧ t.slice.num (d + 108) 4 = 0 ∧
        t.slice.num (d + 120) 4 = (s.slice.num (d + 120) 4 + 1) % 2 ^ 32 ∧ t.slice.num (d + 124) 4 = 1 ∧
        ∀ x, (x < d + 96 ∨ d + 128 ≤ x) → t.slice.byte x = u.slice.byte x)) ∧
  (∀ (s : State) (o : SieveOp) (d : Nat) (w : Wave) (q : SubWave), sieveOpIs s o .running → o.req.kind = .svpair → o.refused = 0 →
    o.stop = true → s.stands (s.ctx o.req.by_.ctx) = false → s.wave? w.id = some w → w.wait = .request o.id → w.subs.head? = some q →
    (∀ x ∈ s.waves, x.wait = .request o.id → x = w) →
    let c := s.ctx o.req.by_.ctx
    let ring := o.req.op 1
    s.engSlice c o.req.owner (o.req.op 0) 128 = some d → c.trace.state = 0 →
    (∀ n k, 0 < k → n + k ≤ 128 → engineFinds s c o.req.owner (o.req.op 0 + n) k true (false, d + n)) →
    (∀ n k, 0 < k → n + k ≤ 64 → engineFinds s c o.req.owner (ring + n) k true (false, ring + n)) → (ring + 64 ≤ d ∨ d + 128 ≤ ring) →
      ∃ t, exec (.sieveOpComplete o.id) s = .next t ∧ onlyWave s t w (wentOn w q.quads) ∧ sieveEnded s t o ∧ objectCounted s t o ∧
        t.slice.num (ring + 16) 8 = s.slice.num (ring + 24) 8 ∧ t.slice.num (ring + 32) 8 = s.slice.num (ring + 24) 8 ∧
        t.slice.num (ring + 40) 4 = 2) ∧
  ∀ (g : Grid3) (xs : List Axis) (ls : List Int), gridOf g xs ls →
    (∀ (p : Nat) (raw : List Byte) (v : List Int) (b : Binning), v.length = 3 →
      let none32 := leBytes 4 (2 ^ 32 - 1)
      let k := cellOn (xs.getD 0 ⟨none, 0, false⟩) (co ls 0) (co v 0) + (xs.getD 0 ⟨none, 0, false⟩).n *
        (cellOn (xs.getD 1 ⟨none, 0, false⟩) (co ls 1) (co v 1) + (xs.getD 1 ⟨none, 0, false⟩).n *
          cellOn (xs.getD 2 ⟨none, 0, false⟩) (co ls 2) (co v 2))
      let count := (sget [] b.slots k.toNat).length
      let b' := b.add g p (v.map some) raw
      b'.bad = b.bad ∧ (∃ e, b'.refs = b.refs ++ [raw.take 12 ++ e] ∧
        (count < g.cap ∨ b.ovf.length < g.ovcap → e = leBytes 4 k.toNat) ∧
        (¬(count < g.cap ∨ b.ovf.length < g.ovcap) → e = none32)) ∧
      (count < g.cap → b'.slots = sset [] k.toNat (sget [] b.slots k.toNat ++ [p]) b.slots ∧ b'.ovf = b.ovf ∧ b'.overfull = b.overfull) ∧
      (g.cap ≤ count → b.ovf.length < g.ovcap → b'.slots = b.slots ∧ b'.ovf = b.ovf ++ [(p, k.toNat)] ∧ b'.overfull = b.overfull) ∧
      (g.cap ≤ count → g.ovcap ≤ b.ovf.length → b'.slots = b.slots ∧ b'.ovf = b.ovf ∧ b'.overfull = true) ∧
      ∀ us : List (Option Int), none ∈ us → let z := b.add g p us raw
        z.bad = true ∧ z.slots = b.slots ∧ z.ovf = b.ovf ∧ z.refs = b.refs ++ [raw.take 12 ++ none32]) ∧
    ∀ (i j : Nat) (u v ks es : List Int) (rc : Int) (enc : List Nat), u.length = 3 → v.length = 3 → ks.length = 3 → enc.length = 3 →
      g.rc = some rc → es = [0, 1, 2].map (fun a =>
        let x := xs.getD a ⟨none, 0, false⟩
        let place := fun (y : Int) => if x.periodic then y - co ls a * (y / co ls a) else y
        place (co v a) - place (co u a)) →
      (∀ a, a < 3 → imageOn (xs.getD a ⟨none, 0, false⟩) (co ls a) (co es a) (co ks a) ∧ finite (enc.getD a 0) ∧ enc.getD a 0 < 2 ^ 32 ∧
        units 2 (enc.getD a 0) = co es a + co ks a * co ls a) →
      let sum := ([0, 1, 2].map fun a => units 2 (enc.getD a 0) * units 2 (enc.getD a 0)).sum
      (rc * rc < sum → g.pairRecord i j u v = none) ∧
      (sum ≤ rc * rc → ∃ r, g.pairRecord i j u v = some r ∧ r.length = 32 ∧ field r 0 4 = i % 2 ^ 32 ∧ field r 4 4 = j % 2 ^ 32 ∧
        (∀ a, a < 3 → finite (field r (8 + 4 * a) 4) ∧ units 2 (field r (8 + 4 * a) 4) = units 2 (enc.getD a 0)) ∧
        (field r 24 1 : Int) = 9 * (co ks 0 + 1) + 3 * (co ks 1 + 1) + (co ks 2 + 1) ∧ ∀ k, 25 ≤ k → k < 32 → r[k]? = some 0)

/-! ## The host: commands (R394, R395, R402 to R404, R407 to R411, R416, R418 to R423) -/

namespace Sys2Proof.Claims

open Sys2Proof.Machine

/-- The module answers an access by the function: it has power, is not frozen, and in recovery only the PF appears (R419, R434). -/
def appears (s : State) (fn : Nat) : Prop := s.powered = true ∧ s.frozen = false ∧ fn ≤ 64 ∧ (s.recovery = false ∨ fn = 64)

/-- The function is not a secure one that has no IDE stream (R418). -/
def worldFine (s : State) (fn : Nat) : Prop :=
  fn = 64 ∨ ∀ p, s.part? fn = some p → p.secure = true → (s.func fn).ide = true

/-- A host command: its function, opcode and operands (R410). -/
def commandForm : Instr → Option (Nat × Nat × List W64)
  | .ctxcreate vf a b => some (vf, 0x01, [a, b])
  | .ctxdestroy vf a => some (vf, 0x02, [a])
  | .preempt vf a => some (vf, 0x03, [a])
  | .kill vf a => some (vf, 0x04, [a])
  | .resume vf a b c => some (vf, 0x05, [a, b, c])
  | .invalidate vf a b c => some (vf, 0x06, [a, b, c])
  | .qresume vf a b c d => some (vf, 0x07, [a, b, c, d])
  | .clearmark vf a b => some (vf, 0x08, [a, b])
  | .migrate vf a b c => some (vf, 0x09, [a, b, c])
  | .attest fn a b => some (fn, 0x0A, [a, b])
  | .fabfence vf a => some (vf, 0x0B, [a])
  | .partcreate => some (64, 0x20, [])
  | .partdestroy a => some (64, 0x21, [a])
  | .fwstage a b => some (64, 0x22, [a, b])
  | .powercap a => some (64, 0x23, [a])
  | .linkworld a b => some (64, 0x24, [a, b])
  | _ => none

/-- The function may issue the opcode (R410). -/
def mayCommand (fn op : Nat) : Prop := if fn = 64 then op = 0x0A ∨ 0x20 ≤ op else op ≤ 0x0B

/-- The function's command is accepted: nothing runs, the module is ready, and a VF has its partition (R410, R421). -/
def accepts (s : State) (fn op : Nat) : Prop :=
  appears s fn ∧ worldFine s fn ∧ (s.func fn).running = false ∧ (s.ready = true ∨ op = 0x22) ∧ (fn = 64 ∨ ∃ p, s.part? fn = some p)

/-- The function's registers became `f`, with its interrupt `b` where that is new; a masked one raises no vector (R409). -/
def functionIs (u t : State) (fn b : Nat) (f : Func) : Prop :=
  t.func fn = { f with icause := (u.func fn).icause ||| BitVec.ofNat 64 (2 ^ b) } ∧ (∀ j, j ≠ fn → t.func j = u.func j) ∧
    t.irqs = u.irqs ++ (if (u.func fn).icause.getLsbD b = true ∨ (u.func fn).imask.getLsbD b = true then [] else [(fn, b)]) ∧
    { t with funcs := u.funcs, irqs := u.irqs } = u

/-- The command block holds an opcode and its operands, and zeros (R410). -/
def blockIs (f : Func) (op : Nat) (ops : List W64) : Prop := ∀ k, f.cmd.get k = (BitVec.ofNat 64 op :: ops).getD k 0

/-- The command was done with a status and a detail, and led to `u` beside (R410). -/
def finished (i : Instr) (s u : State) (status detail : Nat) : Prop :=
  ∃ t fn op ops, commandForm i = some (fn, op, ops) ∧ exec i s = .next t ∧ blockIs (t.func fn) op ops ∧
    functionIs u t fn 0 { u.func fn with
      cmd := (t.func fn).cmd
      status := BitVec.ofNat 8 status
      detail := BitVec.ofNat 8 detail
      done := true
      running := false }

/-- The context in a slot of a function is `c`, the only one of its number. -/
def slotHolds (s : State) (vf : Nat) (slot : W64) (c : Context) : Prop :=
  (s.ctxs.find? fun x => x.vf == vf && x.slot == slot.toNat) = some c ∧ ∀ x ∈ s.ctxs, x.id = c.id → x = c

/-- The context became `c'`, and nothing else changed. -/
def contextBecame (s u : State) (c c' : Context) : Prop := u = { s with ctxs := s.ctxs.map fun x => if x.id = c.id then c' else x }

/-- Nothing of a context is resident (R402). -/
def contextGone (u : State) (c : Nat) : Prop :=
  (∀ x ∈ u.ctxs, x.id ≠ c) ∧ (∀ w ∈ u.waves, w.ctx ≠ c) ∧ (∀ g ∈ u.groups, g.ctx ≠ c) ∧ (∀ g ∈ u.grids, g.ctx ≠ c) ∧
    (∀ a ∈ u.flight, a.ctx ≠ c) ∧ (∀ e ∈ u.red, e.ctx ≠ c) ∧ (∀ o ∈ u.slip, o.req.by_.ctx ≠ c) ∧ (∀ o ∈ u.sieve, o.req.by_.ctx ≠ c) ∧
    (∀ r ∈ u.requests, r.req.by_.ctx ≠ c) ∧ (∀ m ∈ u.mats, m.by_.ctx ≠ c) ∧ (∀ x ∈ u.tasks, x.ctx ≠ c) ∧
    (∀ m ∈ u.ctrMsgs, m.ctx ≠ c) ∧ (∀ p ∈ u.packets, p.ctx ≠ c) ∧ ∀ l ∈ u.limbo, l.ctx ≠ c

/-- Every other context keeps what it has (that none of its waves waits at an operation of this one is the premise where it is used). -/
def othersKept (s u : State) (c : Nat) : Prop :=
  u.ctxs = s.ctxs.filter (fun x => x.id ≠ c) ∧ u.waves = s.waves.filter (fun w => w.ctx ≠ c) ∧
    u.groups = s.groups.filter (fun g => g.ctx ≠ c) ∧ u.grids = s.grids.filter (fun g => g.ctx ≠ c) ∧
    u.slip = s.slip.filter (fun o => o.req.by_.ctx ≠ c) ∧ u.tasks = s.tasks.filter (fun x => x.ctx ≠ c) ∧ u.ext = s.ext ∧
    u.hostMem = s.hostMem ∧ u.parts = s.parts ∧ u.saved = s.saved

/-- A wave or an engine operation of the context exists (R410). -/
def contextBusy (s : State) (c : Nat) : Prop :=
  (∃ w ∈ s.waves, w.ctx = c) ∨ (∃ o ∈ s.slip, o.req.by_.ctx = c) ∨ (∃ o ∈ s.sieve, o.req.by_.ctx = c) ∨
    (∃ r ∈ s.requests, r.req.by_.ctx = c) ∨ ∃ m ∈ s.mats, m.by_.ctx = c

/-- A saved group as a resume leaves it (R224, R233, R234): its waves on no core, and what an unhandled fault had halted halted as the
rest, to go on with them (log 98). -/
def comesBack (l : Limbo) : Limbo :=
  { l with waves := l.waves.map fun (w : Wave) => { w with core := 0, halt := if w.halt = .unhandled then .preempted else w.halt } }

/-- A field of the context record at an address breaks its range (R411). -/
def badRecord (s : State) (addr : Nat) : Prop :=
  let f := fun o n => s.slice.num (addr + o) n
  addr % 64 ≠ 0 ∨ f 0 8 % 4 ≠ 0 ∨ f 8 8 = 0 ∨ f 8 8 % 4 ≠ 0 ∨ f 0 8 < 0x100000000000 ∨ 0x1C0000000000 < f 0 8 + f 8 8 ∨
    (f 16 8 ≠ 0 ∧ (f 16 8 % 4 ≠ 0 ∨ f 16 8 < f 0 8 ∨ f 0 8 + f 8 8 ≤ f 16 8)) ∨ 1 < f 32 4 ∨ 1 < f 36 2 ∨ f 44 4 ≠ 0 ∨
    f 56 8 % 64 ≠ 0 ∨ f 64 4 < 6 ∨ 14 < f 64 4 ∨ 65536 < f 68 4 ∨ f 80 4 % 256 ≠ 0 ∨ f 84 4 = 0 ∨ 4096 < f 84 4 ∨ f 84 4 ≤ f 88 4 ∨
    f 92 4 ≠ 0 ∨ (f 84 4 = 1 ∧ f 96 8 ≠ 0) ∨ f 104 8 % 65536 ≠ 0 ∨ f 120 8 % 64 ≠ 0 ∨
    (∀ k, 4 ≤ k → k ≤ 12 → f 192 4 ≠ 2 ^ k) ∨ f 196 4 % 65536 ≠ 0 ∨ f 200 4 % 65536 ≠ 0 ∨ 2 ^ 23 < f 196 4 + f 200 4

/-- Bytes of the PF's partition record, and what they own (R394). -/
def recByte (s : State) (k : Nat) : Byte := (s.func 64).partRec.get k
def recNum (s : State) (o n : Nat) : Nat := leNat ((List.range n).map fun k => recByte s (o + k))
def recQuad (s : State) (c q : Nat) : Bool := (recNum s 0 64).testBit (4 * c + q)

/-- A partition of the record uses a port (R398). -/
def recUses (s : State) (c : Nat) : Prop :=
  (∃ q, q < 4 ∧ recQuad s c q = true) ∨ (c % 16 < 12 ∧ (recNum s (320 + 2 * (c / 16)) 2).testBit (c % 16) = true) ∨
    (c % 16 = 12 ∧ (recNum s 336 1).testBit (c / 16) = true)

/-- The checks of the create command, with the cases of R395. -/
def createChecks (s : State) : List (Nat × Prop) :=
  let n := recNum s
  [(1, (∀ d, d < 8 → n (320 + 2 * d) 2 < 4096) ∧ n 337 1 ≤ 63 ∧ n 338 1 ≤ 1 ∧ 1 ≤ n 339 1 ∧ n 339 1 ≤ 16 ∧ n 340 4 ≤ n 344 4 ∧
      n 344 4 ≤ 8192 ∧ 1 ≤ n 344 4 ∧ n 348 4 ≤ 255 ∧ 100 ≤ n 352 4 ∧ n 352 4 ≤ 100000 ∧ 1000 ≤ n 356 4 ∧ n 356 4 ≤ 1000000 ∧
      ∀ k, 360 ≤ k → k < 512 → recByte s k = 0),
    (2, ∀ p ∈ s.parts, n 0 64 &&& p.quads.toNat = 0 ∧ n 64 256 &&& p.banks.toNat = 0 ∧ n 320 16 &&& p.slip.toNat = 0 ∧
      n 336 1 &&& p.sieve.toNat = 0 ∧ n 337 1 ≠ p.vf),
    (3, ∀ c, c < 128 → (∃ q, q < 4 ∧ recQuad s c q = true) → n (64 + 2 * c) 2 ≠ 0),
    (4, ∀ c, c < 128 → (∃ q, q < 4 ∧ recQuad s c q = true) → n (320 + 2 * (c / 16)) 2 ≠ 0),
    (5, ∀ c, c < 128 → recUses s c → n 340 4 + ((s.tenants c).map (·.floor)).sum ≤ 8192)]

end Sys2Proof.Claims

open Sys2Proof Sys2Proof.Machine Sys2Proof.Claims in
/-- The host commands (R231, R394, R395, R402, R404, R407 to R411, R416, R418 to R421, R423).  A function that does not appear does nothing; a
secure one without an IDE stream is refused; a command while one runs returns 3; a module not ready 4, a wrong function 1, a
slot without a context 2.  Each accepted command has its effect, or is refused in the cases named, and reports its status.  (That a
quote's addresses are the host's, log 36, and that `migrate` alone runs on, are the model's reading.) -/
def Obligations.HostCommandsAnswer : Prop :=
  (∀ (s : State) (i : Instr) (fn op : Nat) (ops : List W64), commandForm i = some (fn, op, ops) →
    (¬appears s fn → exec i s = .next s) ∧
    (appears s fn → ¬worldFine s fn →
      ∃ t, exec i s = .next t ∧ functionIs s t fn 2 { s.func fn with
        erraddr := 0x80
        errcount := if (s.func fn).errcount = BitVec.allOnes 64 then BitVec.allOnes 64 else (s.func fn).errcount + 1 }) ∧
    (appears s fn → worldFine s fn →
      ((s.func fn).running = true →
        ∃ t, exec i s = .next t ∧ functionIs s t fn 0 { s.func fn with status := 3, detail := 0, done := true }) ∧
      ((s.func fn).running = false →
        (s.ready = false → op ≠ 0x22 → finished i s s 4 0) ∧
        (s.ready = true ∨ op = 0x22 → ¬mayCommand fn op → finished i s s 1 0)))) ∧
  (∀ (s : State) (vf : Nat) (a b c d : W64), vf < 64 → accepts s vf 1 → (∀ x ∈ s.ctxs, ¬(x.vf = vf ∧ x.slot = a.toNat)) →
    ∀ i ∈ [Instr.ctxdestroy vf a, .preempt vf a, .kill vf a, .invalidate vf a b c, .qresume vf a b c d, .clearmark vf a b,
      .migrate vf a b c, .fabfence vf a], finished i s s 2 0) ∧
  (∀ (s : State) (vf : Nat) (slot b : W64) (c : Context), vf < 64 → accepts s vf 1 → slotHolds s vf slot c →
    (contextBusy s c.id → finished (.ctxdestroy vf slot) s s 4 0) ∧
    (¬contextBusy s c.id → (∀ x ∈ s.flight, x.ctx ≠ c.id) → (∀ x ∈ s.red, x.ctx ≠ c.id) → (∀ x ∈ s.limbo, x.ctx ≠ c.id) →
      ∃ u, finished (.ctxdestroy vf slot) s u 0 0 ∧ contextGone u c.id ∧ othersKept s u c.id ∧ u.slice = s.slice ∧ u.funcs = s.funcs) ∧
    (c.pre = .none → ∃ u, finished (.preempt vf slot) s u 0 0 ∧ contextBecame s u c { c with pre := .soft s.elapsed }) ∧
    (c.pre ≠ .none → finished (.preempt vf slot) s s 0 0) ∧
    ((∀ m ∈ s.moves, m.ctx = c.id → m.stage = 2) → queueHasRoom s c.id →
      (∀ w ∈ s.waves, w.ctx ≠ c.id → ∀ o ∈ s.sieve, o.req.by_.ctx = c.id → w.wait ≠ .request o.id) →
      ∃ u, finished (.kill vf slot) s u 0 0xA0 ∧ contextGone u c.id ∧ othersKept s u c.id ∧ (u.func vf).icause.getLsbD 1 = true ∧
        let e := c.r.fq + 64 + 64 * (s.slice.num c.r.fq 4 % 2 ^ c.r.fqlog)
        u.slice.num e 2 = 0xA0 ∧ u.slice.num (e + 2) 1 = 7 ∧ u.slice.num c.r.fq 4 = (s.slice.num c.r.fq 4 + 1) % 2 ^ 32 ∧
          ∀ x, ¬(e ≤ x ∧ x < e + 64) → ¬(c.r.fq ≤ x ∧ x < c.r.fq + 4) → u.slice.byte x = s.slice.byte x) ∧
    (∀ len : W64, ∃ u, finished (.invalidate vf slot b len) s u 0 0 ∧ u = { s with tlb := u.tlb } ∧
      ∀ e, e ∈ u.tlb ↔ e ∈ s.tlb ∧ ¬(e.ctx = c.id ∧ 65536 * e.page < b.toNat + len.toNat ∧ b.toNat < 65536 * e.page + 65536)) ∧
    (b.toNat % 32 ≠ 0 → finished (.clearmark vf slot b) s s 2 0) ∧
    (b.toNat % 32 = 0 → s.sliceMapped c b.toNat 32 = true →
      ∃ u, finished (.clearmark vf slot b) s u 0 0 ∧ u = { s with slice := u.slice } ∧
        storedAt s u (b.toNat + 28) 4 (flagsWord s b.toNat % 512 / 2 * 2)) ∧
    (c.r.jobn ≤ 1 → ∃ u, finished (.fabfence vf slot) s u 0 0 ∧ contextBecame s u c { c with jobTable := [] }) ∧
    (∀ place, 1 < c.r.jobn → engineFinds s c (.core 0) c.r.jobtab (4 * c.r.jobn) false place →
      ∃ u l, finished (.fabfence vf slot) s u 0 0 ∧ contextBecame s u c { c with jobTable := l } ∧ l.length = c.r.jobn ∧
        ∀ k, k < c.r.jobn → l[k]? = some (BitVec.ofNat 32 (leNat ((List.range 4).map fun j => placeByte s place (4 * k + j)))))) ∧
  (∀ (s : State) (vf : Nat) (slot engine die queue : W64) (c : Context), vf < 64 → accepts s vf 1 → slotHolds s vf slot c →
    let stopped := fun (o : SieveOp) => o.req.by_.ctx = c.id ∧ o.die = die.toNat ∧ ∃ k a, o.st = .stopped k a
    (¬(1 ≤ engine.toNat ∧ engine.toNat ≤ 3 ∧ die.toNat < 8 ∧ queue.toNat < 4) → finished (.qresume vf slot engine die queue) s s 2 0) ∧
    (die.toNat < 8 → queue.toNat < 4 →
      (engine = 1 → (∀ o ∈ s.slip, o.req.by_.ctx = c.id → o.die = die.toNat → ∀ k a, o.st ≠ .stopped k a) →
        finished (.qresume vf slot engine die queue) s s 4 0) ∧
      (engine = 2 → (∀ o ∈ s.sieve, ¬stopped o) → finished (.qresume vf slot engine die queue) s s 4 0) ∧
      (engine = 2 → (∃ o ∈ s.sieve, stopped o) → (∀ o ∈ s.sieve, stopped o → o.req.object = 0 ∧ ∃ a, o.st = .stopped 0 a) →
        (s.sieve.map (·.id)).Nodup →
        ∃ u, finished (.qresume vf slot engine die queue) s u 0 0 ∧ u = { s with sieve := u.sieve } ∧
          u.sieve.length = s.sieve.length ∧ ∀ (n : Nat) (x y : SieveOp), s.sieve[n]? = some x → u.sieve[n]? = some y →
            (stopped x → y = { x with st := .running }) ∧ (¬stopped x → y = x)) ∧
      (engine = 3 → c.trace.stalled = false → finished (.qresume vf slot engine die queue) s s 4 0))) ∧
  (∀ (s : State) (vf : Nat) (slot addr : W64), vf < 64 → accepts s vf 1 →
    let free := ∀ x ∈ s.ctxs, ¬(x.vf = vf ∧ x.slot = slot.toNat)
    (16 ≤ slot.toNat → finished (.ctxcreate vf slot addr) s s 2 0) ∧
    (slot.toNat < 16 → ¬free → finished (.ctxcreate vf slot addr) s s 4 0) ∧
    (slot.toNat < 16 → free → badRecord s addr.toNat → finished (.ctxcreate vf slot addr) s s 2 0) ∧
    ∀ r, slot.toNat < 16 → free → s.readCtxRec vf slot.toNat addr.toNat = some r →
      ∃ u c, finished (.ctxcreate vf slot addr) s u 0 0 ∧ u.ctxs = s.ctxs ++ [c] ∧ c.id = s.nextId ∧ c.vf = vf ∧ c.slot = slot.toNat ∧
        c.recAddr = addr.toNat ∧ c.pre = .none ∧ c.trace.state = 0 ∧ c.bindings = [] ∧ c.sessions = [] ∧ c.sumflags = 0 ∧
        (let f := fun o n => s.slice.num (addr.toNat + o) n
         c.r.codebase = f 0 8 ∧ c.r.codelen = f 8 8 ∧ c.r.handler.toNat = f 16 8 ∧ c.r.gseed.toNat = f 24 8 ∧
          c.r.det = decide (f 32 4 = 1) ∧ c.r.sealOnly = decide (f 36 2 = 1) ∧ c.r.sealEpoch = f 38 2 ∧ c.r.ptroot = f 48 8 ∧
          c.r.fq = f 56 8 ∧ c.r.fqlog = f 64 4 ∧ c.r.frames = f 68 4 ∧ c.r.ticket = f 72 8 ∧ c.r.frameoff = f 80 4 ∧
          c.r.jobn = f 84 4 ∧ c.r.jobself = f 88 4 ∧ c.r.jobtab = f 96 8 ∧ c.r.save = f 104 8 ∧ c.r.savelen = f 112 8 ∧
          c.r.lq = f 120 8 ∧ c.r.lqent = f 192 4 ∧ c.r.gpooloff = f 196 4 ∧ c.r.gpoollen = f 200 4) ∧
        u.func vf = { s.func vf with
          ltail := (s.func vf).ltail.set slot.toNat 0
          lhead := (s.func vf).lhead.set slot.toNat 0 } ∧
        { u with ctxs := s.ctxs, funcs := s.funcs, nextId := s.nextId } = s) ∧
  (∀ (s : State) (vf : Nat) (slot save len : W64), vf < 64 → accepts s vf 1 →
    let free := ∀ x ∈ s.ctxs, ¬(x.vf = vf ∧ x.slot = slot.toNat)
    (16 ≤ slot.toNat → finished (.resume vf slot save len) s s 2 0) ∧
    (slot.toNat < 16 → ¬free → finished (.resume vf slot save len) s s 4 0) ∧
    (slot.toNat < 16 → free → (∀ x ∈ s.saved, ¬(x.save = save.toNat ∧ x.len = len.toNat)) → finished (.resume vf slot save len) s s 2 0) ∧
    ∀ (x : Saved) (r : CtxRec), slot.toNat < 16 → free → x ∈ s.saved → x.save = save.toNat → x.len = len.toNat →
      (∀ y ∈ s.saved, y.save = x.save → y.len = x.len → y = x) → s.readCtxRec vf slot.toNat x.ctx.recAddr = some r → x.tasks = [] →
      x.slip = [] → x.red = [] → x.flight = [] → x.sieve = [] → x.requests = [] → (∀ l ∈ x.limbo, l.group.isSome = true) → x.packets = [] →
      x.ctx.trace.walk = none → (∀ y ∈ s.tasks, y.ctx ≠ x.ctx.id) →
        ∃ u c, finished (.resume vf slot save len) s u 0 0 ∧ u.ctxs = s.ctxs ++ [c] ∧
          { c with jobTable := [] } = { x.ctx with vf := vf, slot := slot.toNat, r := r, pre := .none, jobTable := [] } ∧
          u.saved = s.saved.filter (fun y => ¬(y.save = x.save ∧ y.len = x.len)) ∧ u.grids = s.grids ++ x.grids ∧
          u.limbo = s.limbo ++ x.limbo.map comesBack ∧ (x.drainWord = [] → u.slice = s.slice) ∧
          (x.drainWord.length = 8 → s.owns c r.ticket = true → storedAt s u r.ticket 8 (leNat x.drainWord)) ∧ u.func vf = { s.func vf with
            lhead := (s.func vf).lhead.set slot.toNat x.lhead
            ltail := (s.func vf).ltail.set slot.toNat x.ltail } ∧
          { u with ctxs := s.ctxs, funcs := s.funcs, saved := s.saved, grids := s.grids, limbo := s.limbo, slice := s.slice } = s) ∧
  (∀ (s : State) (vf : Nat) (slot group core : W64) (c : Context) (p : Partition), vf < 64 → accepts s vf 1 → slotHolds s vf slot c →
    s.part? vf = some p →
    let i := Instr.migrate vf slot group core
    let movable := fun (g : Group) => g.ctx = c.id ∧ g.index = group.toNat ∧ ∃ x ∈ s.grids, x.id = g.grid ∧ x.migratable = true
    ((∀ g ∈ s.groups, ¬movable g) → finished i s s 4 0) ∧
    ∀ g ∈ s.groups, movable g → (∀ x ∈ s.groups, movable x → x = g) →
      let to_ := core.toNat < 128 ∧ (∃ q, q < 4 ∧ p.quads.getLsbD (4 * core.toNat + q) = true) ∧ core.toNat ≠ g.core
      (¬to_ → finished i s s 2 0) ∧
      (to_ → (c.pre ≠ .none ∨ ∃ m ∈ s.moves, m.gid = g.id) → finished i s s 4 0) ∧
      (to_ → c.pre = .none → (∀ m ∈ s.moves, m.gid ≠ g.id) →
        ∃ t m, exec i s = .next t ∧ blockIs (t.func vf) 9 [slot, group, core] ∧
          t.func vf = { s.func vf with cmd := (t.func vf).cmd, done := false, running := true } ∧ (∀ j, j ≠ vf → t.func j = s.func j) ∧
          t.moves = s.moves ++ [m] ∧ m.id = s.nextId ∧ m.ctx = c.id ∧ m.gid = g.id ∧ m.fromCore = g.core ∧ m.oldWin = g.win ∧
          m.winLen = g.winLen ∧ m.toCore = core.toNat ∧ m.stage = 0 ∧
          { t with funcs := s.funcs, moves := s.moves, nextId := s.nextId } = s)) ∧
  (∀ (s : State) (fn : Nat) (nonce out : W64), accepts s fn 0x0A →
    ∃ u, finished (.attest fn nonce out) s u 0 0 ∧ u = { s with hostMem := u.hostMem } ∧ u.hostMem.num out.toNat 8 = 1 ∧
      (∀ k, k < 64 → u.hostMem.byte (out.toNat + 8 + k) = s.hostMem.byte (nonce.toNat + k)) ∧
      u.hostMem.num (out.toNat + 136) 4 = Config.firmwareVersion s.fwActive % 2 ^ 32 ∧
      u.hostMem.num (out.toNat + 140) 4 = (if ∃ p, s.part? fn = some p ∧ p.secure = true then 1 else 0) ∧
      u.hostMem.num (out.toNat + 208) 8 = s.tick % 2 ^ 64 ∧ (∀ k, 216 ≤ k → k < 256 → u.hostMem.byte (out.toNat + k) = 0) ∧
      u.hostMem.num (out.toNat + 256) 512 = (Config.quoteSignature (sha512 (u.hostMem.bytes out.toNat 256))).toNat ∧
      (∀ k, k < Config.identityCert.length → u.hostMem.byte (out.toNat + 768 + k) = Config.identityCert.getD k 0) ∧
      (∀ x, out.toNat + 768 + Config.identityCert.length ≤ x → u.hostMem.byte x = s.hostMem.byte x) ∧
      (s.part? fn = none → ∀ k, 144 ≤ k → k < 208 → u.hostMem.byte (out.toNat + k) = 0) ∧
      ∀ x, x < out.toNat → u.hostMem.byte x = s.hostMem.byte x) ∧
  (∀ (s : State) (a n : W64), accepts s 64 0x22 →
    let image := s.hostMem.bytes a.toNat n.toNat
    let good := Config.firmwareOk image = true ∧ s.svnFuse ≤ Config.firmwareVersion image
    (good → finished (.fwstage a n) s { s with fwStaged := some image } 0 0) ∧
    (¬good → ∃ u, finished (.fwstage a n) s u 2 0 ∧ u = { s with fwStaged := u.fwStaged } ∧ u.fwStaged ≠ some image)) ∧
  ∀ (s : State), accepts s 64 0x20 →
    (∀ r, firstReason (createChecks s) r →
      (r ≠ 0 → finished .partcreate s s 5 r) ∧
      (r = 0 → ∃ u p, finished .partcreate s u 0 0 ∧ u = { s with parts := s.parts ++ [p] } ∧ p.quads.toNat = recNum s 0 64 ∧
        p.banks.toNat = recNum s 64 256 ∧ p.slip.toNat = recNum s 320 16 ∧ p.sieve.toNat = recNum s 336 1 ∧ p.vf = recNum s 337 1 ∧
        p.secure = decide (recNum s 338 1 = 1) ∧ p.maxctx = recNum s 339 1 ∧ p.floor = recNum s 340 4 ∧ p.ceiling = recNum s 344 4 ∧
        p.weight = recNum s 348 4 ∧ p.grace = recNum s 352 4 ∧ p.killt = recNum s 356 4)) ∧
    (∀ a : W64, (s.part? a.toNat = none → finished (.partdestroy a) s s 2 0) ∧
      (s.part? a.toNat ≠ none → (∃ x ∈ s.ctxs, x.vf = a.toNat) → finished (.partdestroy a) s s 4 0) ∧
      (s.part? a.toNat ≠ none → (∀ x ∈ s.ctxs, x.vf ≠ a.toNat) →
        ∃ u, finished (.partdestroy a) s u 0 0 ∧ u.parts = s.parts.filter (fun p => p.vf ≠ a.toNat) ∧
          { u with parts := s.parts, buckets := s.buckets } = s)) ∧
    (∀ a : W64, (1200 ≤ a.toNat ∧ a.toNat ≤ 2400 → finished (.powercap a) s { s with powerCap := a.toNat } 0 0) ∧
      (¬(1200 ≤ a.toNat ∧ a.toNat ≤ 2400) → finished (.powercap a) s s 2 0)) ∧
    ∀ a b : W64, (a.toNat < 16 → b.toNat < 2 → finished (.linkworld a b) s
        { s with links := s.links.map fun l => if l.num = a.toNat then { l with secure := decide (b = 1) } else l } 0 0) ∧
      (¬(a.toNat < 16 ∧ b.toNat < 2) → finished (.linkworld a b) s s 2 0)

/-! ## The host: registers, windows and the debug block (R407 to R409, R412, R427 to R434, R454) -/

namespace Sys2Proof.Claims

open Sys2Proof.Machine

/-- An access by the function reaches the module. -/
def hostReaches (s : State) (fn : Nat) : Prop := appears s fn ∧ worldFine s fn

/-- Only the registers of the function changed, to `f`. -/
def registersAre (s t : State) (fn : Nat) (f : Func) : Prop :=
  t.func fn = f ∧ (∀ j, j ≠ fn → t.func j = s.func j) ∧ { t with funcs := s.funcs } = s

/-- An access of the function was refused (R408): the address and the count, and vector 2. -/
def hostRefused (s t : State) (fn addr : Nat) : Prop :=
  functionIs s t fn 2 { s.func fn with
    erraddr := BitVec.ofNat 64 addr
    errcount := if (s.func fn).errcount = BitVec.allOnes 64 then BitVec.allOnes 64 else (s.func fn).errcount + 1 }

/-- A scan address names a unit and a die (R435). -/
def scanFits (v : W64) : Prop := v.toNat / 2 ^ 56 % 256 ≤ 6 ∧ v.toNat / 2 ^ 52 % 16 < 8

/-- What a plain register takes: its offset, its range, and the function's registers after the write (R409, R427).  (That zero may be
written to sring and sess, and that a value out of range of the four registers of R409 is refused too, are logs 110 and 111.) -/
def plainRegister (s : State) (fn : Nat) (v : W64) : List (Nat × Prop × Func) :=
  let f := s.func fn
  [(0x098, True, { f with imask := v }), (0x0B0, v.toNat % 64 = 0, { f with resetlog := v }),
    (0x0B8, v = 0 ∨ ∃ k, 4 ≤ k ∧ k ≤ 12 ∧ v.toNat = 2 ^ k, { f with resetlen := v }), (0x0C8, v.toNat < 16, { f with apslot := v }),
    (0x0D0, v.toNat % 2 ^ 30 = 0 ∧ 0x100000000000 ≤ v.toNat ∧ v.toNat < 0x1C0000000000, { f with apbase := v }),
    (0x408, v.toNat < 16, { f with dslot := v }), (0x430, 256 ≤ v.toNat ∧ v.toNat ≤ 2 ^ 20, { f with sint := v }),
    (0x090, True, { f with icause := f.icause &&& ~~~v })] ++
    [(0x420, v.toNat % 64 = 0 ∧ (v = 0 ∨ s.blockOwns fn v.toNat 64 = true), { f with sring := v }),
      (0x428, v = 0 ∨ ∃ k, 6 ≤ k ∧ k ≤ 16 ∧ v.toNat = 2 ^ k, { f with slen := v }),
      (0x440, v.toNat % 64 = 0 ∧ (v = 0 ∨ (0x010000000000 ≤ v.toNat ∧ v.toNat + 128 ≤ 0x010040000000)), { f with sess := v })] ++
    (if fn = 64 then [(0x500, True, { f with freezetick := v }), (0x600, scanFits v, { f with scanaddr := v })] else [])

/-- The registers that a host write leaves alone: read-only ones, and offsets that no register has (R409, R427). -/
def readOnly : List Nat := [0x000, 0x088, 0x0A0, 0x0A8, 0x0C0, 0x180, 0x1F8, 0x410, 0x438, 0x508, 0x608, 0x700]

/-- The function's partition owns the banks of the bytes (R408). -/
def ownsBytes (s : State) (fn a len : Nat) : Prop :=
  ∃ p, s.part? fn = some p ∧ ∀ b, (b = a ∨ b = a + len - 1) → 0x010000000000 ≤ b ∧ b < 0x010040000000 ∧
    p.banks.getLsbD ((b - 0x010000000000) / 2 ^ 19) = true

/-- A watchpoint's words keep their ranges (R432). -/
def watchFine (x : Watch) : Prop :=
  let v := x.where_.toNat
  let type := x.ctl.toNat % 16
  type ≤ 4 ∧ x.ctl.toNat / 16 % 16 ≤ 2 ∧ x.ctl.toNat < 2 ^ 13 ∧ x.len.toNat ≤ 2 ^ 32 ∧
    (type = 2 → v < 2 ^ 14 ∧ v.testBit 3 = false) ∧ (type = 3 → v < 2 ^ 22) ∧ (type = 4 → v < 2 ^ 14 ∧ v.testBit 7 = false)

/-- A watchpoint with one of its words replaced. -/
def watchWith (x : Watch) (k : Nat) (v : W64) : Watch :=
  { ctl := if k = 0 then v else x.ctl
    who := if k = 1 then v else x.who
    where_ := if k = 2 then v else x.where_
    len := if k = 3 then v else x.len }

/-- The debug block of the function applies to the context (R427). -/
def blockFor (f : Func) (c : Context) : Prop := (f.id = c.vf ∨ f.id = 64) ∧ f.dslot.toNat % 16 = c.slot

/-- The value names the wave (R34, R428). -/
def namesWave (w : Wave) (v : W64) : Prop :=
  v = BitVec.allOnes 64 ∨ (w.task = false ∧ w.ident 0 = v) ∨ (w.task = true ∧ ∃ t ∈ w.tasks, w.ident t.1 = v)

/-- An event that writes one bit of dctl: function, bit and value (R428, R429, R431, R434). -/
def controlBit : Instr → Option (Nat × Nat × Bool)
  | .breakpointArm fn on => some (fn, 0, on)
  | .samplingEnable fn on => some (fn, 1, on)
  | .sessionOpen fn => some (fn, 2, true)
  | .sessionClose fn => some (fn, 2, false)
  | .freezeArm => some (64, 3, true)
  | _ => none

/-- The control register with a bit replaced. -/
def bitPut (v : W64) (b : Nat) (on : Bool) (r : W64) : Prop := ∀ k, r.getLsbD k = if k = b then on else v.getLsbD k

/-- The page of external memory that an aperture byte names, through the tables of the context in apslot (R454). -/
def apertureByte (s : State) (fn off : Nat) (write : Bool) (pa : Nat) : Prop :=
  ∃ c p, s.ctxs.find? (fun x => x.vf == fn && x.slot == (s.func fn).apslot.toNat) = some c ∧
    s.walk (s.homeDie c) c ((s.func fn).apbase.toNat + off) = some (pa, p) ∧ (write = true → p.write = true)

end Sys2Proof.Claims

open Sys2Proof Sys2Proof.Machine Sys2Proof.Claims in
/-- The host's accesses (R407 to R409, R412, R418, R427, R428, R432, R454).  Through BAR0 each register takes a value in its range; one out
of range is refused, and a read-only register keeps its value; ones clear icause; a tail goes to its slot; a name on brelease resumes
its wave.  Through BAR2 and BAR4 the bytes of the function's own banks and pages are read and written; any other access is refused, with
all ones for a read.  A frozen module takes nothing but the PF's scan address. -/
def Obligations.HostAccessesReachTheirRegisters : Prop :=
  (∀ (s : State) (fn : Nat), hostReaches s fn →
    (∀ off ok f v, (off, ok, f) ∈ plainRegister s fn v →
      (ok → ∃ t, exec (.registerWrite fn off v) s = .next t ∧ registersAre s t fn f) ∧
      (¬ok → ∃ t, exec (.registerWrite fn off v) s = .next t ∧ hostRefused s t fn off)) ∧
    (∀ off ∈ readOnly, ∀ v, exec (.registerWrite fn off v) s = .next s) ∧
    (∀ k v, k < 8 → ∃ t, exec (.registerWrite fn (0x040 + 8 * k) v) s = .next t ∧
      registersAre s t fn { s.func fn with cmd := (s.func fn).cmd.set k v }) ∧
    (∀ k v, k < 16 → ∃ t, exec (.registerWrite fn (0x100 + 8 * k) v) s = .next t ∧
      registersAre s t fn { s.func fn with ltail := (s.func fn).ltail.set k v } ∧ exec (.ltail fn k v) s = .next t) ∧
    (∀ v, exec (.icause fn v) s = exec (.registerWrite fn 0x090 v) s ∧ exec (.brelease fn v) s = exec (.registerWrite fn 0x418 v) s) ∧
    (∀ k v, k < 64 → fn = 64 → ∃ t, exec (.registerWrite fn (0x200 + 8 * k) v) s = .next t ∧ { t with funcs := s.funcs } = s ∧
      ∀ j, recByte t j = if 8 * k ≤ j ∧ j < 8 * k + 8 then BitVec.ofNat 8 (v.toNat / 256 ^ (j - 8 * k)) else recByte s j) ∧
    (∀ j k v x, j < 4 → k < 4 → (s.func fn).watch[j]? = some x →
      (watchFine (watchWith x k v) → ∃ t, exec (.registerWrite fn (0x480 + 32 * j + 8 * k) v) s = .next t ∧
        registersAre s t fn { s.func fn with watch := (s.func fn).watch.set j (watchWith x k v) }) ∧
      (¬watchFine (watchWith x k v) →
        ∃ t, exec (.registerWrite fn (0x480 + 32 * j + 8 * k) v) s = .next t ∧ hostRefused s t fn (0x480 + 32 * j + 8 * k))) ∧
    (∀ (v : W64), 16 ≤ v.toNat → ∃ t, exec (.registerWrite fn 0x400 v) s = .next t ∧ hostRefused s t fn 0x400) ∧
    ∀ v, ∃ t, exec (.registerWrite fn 0x418 v) s = .next t ∧ t.waves.length = s.waves.length ∧
      (∀ (n : Nat) (w w' : Wave), s.waves[n]? = some w → t.waves[n]? = some w' →
        let hit := (∃ c ∈ s.ctxs, c.id = w.ctx ∧ blockFor (s.func fn) c) ∧ w.halt = .breakpoint ∧ namesWave w v
        (hit → w' = { w with halt := .running }) ∧ (¬hit → w' = w)) ∧
      { t with waves := s.waves, limbo := s.limbo, saved := s.saved } = s) ∧
  (∀ (s : State) (fn off len : Nat) (v : W64), appears s fn → 1 ≤ len → len ≤ 8 → off + len ≤ 2 ^ 30 →
    let a := 0x010000000000 + off
    let free := ∀ c ∈ s.ctxs, c.vf = fn → c.trace.state = 0 ∨ ∀ r ∈ c.trace.regions, a + len ≤ r.base ∨ r.base + r.len ≤ a
    (fn ≠ 64 → worldFine s fn → ownsBytes s fn a len →
      (free → (∀ c ∈ s.ctxs, c.vf = fn → ∀ b ∈ c.bindings, a + len ≤ b.base ∨ b.base + b.len ≤ a) →
        ∃ t, exec (.hostBar2Write fn off len v) s = .next t ∧ storedAt s t a len v.toNat ∧ { t with slice := s.slice } = s) ∧
      (¬free → ∃ t, exec (.hostBar2Write fn off len v) s = .next t ∧ hostRefused s t fn a) ∧
      ((∀ e ∈ s.eccBad, e + 8 ≤ a ∨ a + len ≤ e) → ∃ t, exec (.hostBar2Read fn off len) s = .next t ∧
        registersAre s t fn { s.func fn with rdata := BitVec.ofNat 64 (s.slice.num a len) })) ∧
    (fn = 64 ∨ ¬worldFine s fn ∨ ¬ownsBytes s fn a len →
      (∃ t, exec (.hostBar2Write fn off len v) s = .next t ∧ hostRefused s t fn a) ∧
      ∃ t u, exec (.hostBar2Read fn off len) s = .next t ∧ hostRefused s u fn a ∧
        registersAre u t fn { u.func fn with rdata := BitVec.allOnes 64 })) ∧
  (∀ (s : State) (fn off len : Nat) (v : W64), appears s fn → 1 ≤ len → len ≤ 8 → off + len ≤ 2 ^ 30 →
    let a := (s.func fn).apbase.toNat + off
    (∀ pas : Nat → Nat, fn ≠ 64 → worldFine s fn →
      ((∀ k, k < len → apertureByte s fn (off + k) true (pas k)) → (∀ j k, j < len → k < len → pas j = pas k → j = k) →
        ∃ t, exec (.hostApertureWrite fn off len v) s = .next t ∧
          (∀ k, k < len → t.ext.byte (pas k) = BitVec.ofNat 8 (v.toNat / 256 ^ k)) ∧
          (∀ x, (∀ k, k < len → x ≠ pas k) → t.ext.byte x = s.ext.byte x) ∧ { t with ext := s.ext, tlb := s.tlb } = s) ∧
      ((∀ k, k < len → apertureByte s fn (off + k) false (pas k)) →
        ∃ t d, exec (.hostApertureRead fn off len) s = .next t ∧ registersAre s { t with tlb := s.tlb } fn { s.func fn with rdata := d } ∧
          ∀ k, k < 8 → d.extractLsb' (8 * k) 8 = if k < len then s.ext.byte (pas k) else 0)) ∧
    ((fn = 64 ∨ ¬worldFine s fn ∨ ∃ k, k < len ∧ ∀ pa, ¬apertureByte s fn (off + k) true pa) →
      ∃ t, exec (.hostApertureWrite fn off len v) s = .next t ∧ hostRefused s t fn a) ∧
    ((fn = 64 ∨ ¬worldFine s fn ∨ ∃ k, k < len ∧ ∀ pa, ¬apertureByte s fn (off + k) false pa) →
      ∃ t u, exec (.hostApertureRead fn off len) s = .next t ∧ hostRefused s u fn a ∧
        registersAre u t fn { u.func fn with rdata := BitVec.allOnes 64 })) ∧
  (∀ (s : State) (i : Instr) (fn b : Nat) (on : Bool), controlBit i = some (fn, b, on) → hostReaches s fn → (s.func fn).dctl.toNat < 16 →
    (fn ≠ 64 → (s.func fn).dctl.toNat < 8) →
    let f := s.func fn
    (b = 0 → ∃ t d, exec i s = .next t ∧ registersAre s t fn { f with dctl := d } ∧ bitPut f.dctl 0 on d) ∧
    (b = 1 → ∃ t d, exec i s = .next t ∧ bitPut f.dctl 1 on d ∧
      (on = true → f.dctl.getLsbD 1 = false → registersAre s t fn { f with dctl := d, sampleFrom := s.tick, sampleNext := [] }) ∧
      (¬(on = true ∧ f.dctl.getLsbD 1 = false) → registersAre s t fn { f with dctl := d })) ∧
    (b = 2 → on = true → f.dctl.getLsbD 2 = false → (s.ctxs.map (·.id)).Nodup →
      ∃ t d, exec i s = .next t ∧ bitPut f.dctl 2 true d ∧ t.func fn = { f with dctl := d } ∧
        (s.blockOwns fn f.sess.toNat 128 = true → (∃ c ∈ s.ctxs, blockFor f c) → t.slice.num (f.sess.toNat + 8) 8 = s.tick % 2 ^ 64) ∧
        (∀ x, (x < f.sess.toNat + 8 ∨ f.sess.toNat + 16 ≤ x ∨ s.blockOwns fn f.sess.toNat 128 = false) →
          t.slice.byte x = s.slice.byte x) ∧ t.ctxs.length = s.ctxs.length ∧
        (∀ (n : Nat) (c c' : Context), s.ctxs[n]? = some c → t.ctxs[n]? = some c' →
          (blockFor f c → ∃ ev, c' = { c with
              sessions := c.sessions.filter (fun x => x.fn ≠ fn) ++ [⟨fn, f.sess.toNat, s.tick, ev, []⟩] } ∧
            (s.blockOwns fn f.sess.toNat 128 = true → ev = s.slice.bytes f.sess.toNat 8)) ∧ (¬blockFor f c → c' = c)) ∧
        { t with funcs := s.funcs, slice := s.slice, ctxs := s.ctxs } = s) ∧
    (b = 2 → on = false → f.dctl.getLsbD 2 = true → (s.ctxs.map (·.id)).Nodup →
      ∃ t d, exec i s = .next t ∧ bitPut f.dctl 2 false d ∧ t.func fn = { f with dctl := d } ∧ t.ctxs.length = s.ctxs.length ∧
        (∀ (n : Nat) (c c' : Context), s.ctxs[n]? = some c → t.ctxs[n]? = some c' →
          c' = { c with sessions := c.sessions.filter fun x => x.fn ≠ fn }) ∧
        (∀ c ∈ s.ctxs, ∀ ses ∈ c.sessions, ses.fn = fn → (∀ d ∈ s.ctxs, ∀ x ∈ d.sessions, x.fn = fn → x = ses) →
          s.blockOwns fn ses.record 128 = true → ∀ k code, k < 8 → (ses.events[k]?).map (·.toNat) = some code → code ≠ 0 →
          t.slice.num (ses.record + 64 + 8 * k) 8 = if 13 ≤ code then 2 ^ 63 else sget 0 ses.counts code % 2 ^ 63) ∧
        { t with funcs := s.funcs, slice := s.slice, ctxs := s.ctxs, saved := s.saved } = s) ∧
    (b = 3 → f.dctl.getLsbD 3 = false →
      ∃ t d, exec i s = .next t ∧
        (s.tick < f.freezetick.toNat → bitPut f.dctl 3 true d ∧ t.freezeRefused = false) ∧
        (f.freezetick.toNat ≤ s.tick → d = f.dctl ∧ t.freezeRefused = true) ∧ t.func fn = { f with dctl := d } ∧
        { t with funcs := s.funcs, freezeRefused := s.freezeRefused } = s)) ∧
  ∀ (s : State) (fn off len : Nat) (v : W64),
    (¬appears s fn → ∀ i ∈ [Instr.hostBar2Write fn off len v, .hostBar2Read fn off len, .hostApertureWrite fn off len v,
      .hostApertureRead fn off len, .icause fn v, .brelease fn v, .ltail fn off v], exec i s = .next s) ∧
    (s.powered = true → s.frozen = true → off % 8 = 0 →
      (fn = 64 → off = 0x600 → ∃ t, exec (.registerWrite fn off v) s = .next t ∧
        (scanFits v → registersAre s t fn { s.func fn with scanaddr := v }) ∧ (¬scanFits v → hostRefused s t fn off)) ∧
      (¬(fn = 64 ∧ off = 0x600) → exec (.registerWrite fn off v) s = .next s))

/-! ## Pre-emption, ports and migration (R232 to R234, R274, R398 to R405) -/

namespace Sys2Proof.Claims

open Sys2Proof.Machine

/-- The context is resident, the only one of its number. -/
def resident (s : State) (c : Context) : Prop := (s.ctxs.find? fun x => x.id == c.id) = some c ∧ ∀ x ∈ s.ctxs, x.id = c.id → x = c

/-- A wave halted between instructions: its `xacq` is withdrawn, and any wait that it can issue again; an instruction that has issued and
waits for its home, its request or its joint set goes on waiting (R139, R218, R232). -/
def haltedFrom (w w' : Wave) : Prop :=
  w'.halt = (if w.halt = .running then .preempted else w.halt) ∧
    w'.subs = w.subs.map (fun q => if q.st = .forBlock then { q with st := .ready } else q) ∧
    (let stays := (∃ a, w.wait = .home a) ∨ (∃ a, w.wait = .request a) ∨ ∃ m k, w.wait = .joint m k
     (stays → w'.wait = w.wait) ∧ (¬stays → w'.wait = .none)) ∧
    { w' with halt := w.halt, subs := w.subs, wait := w.wait } = w

/-- What a halt lets complete is complete: nothing of the context is under way (R195, R218, R258, R302, R392). -/
def atRest (s : State) (c : Nat) : Prop :=
  (∀ a ∈ s.flight, a.ctx ≠ c) ∧ (∀ m ∈ s.mats, m.by_.ctx ≠ c) ∧ (∀ l ∈ s.landings, l.ctx ≠ c) ∧ (∀ e ∈ s.red, e.ctx ≠ c) ∧
    (∀ m ∈ s.ctrMsgs, m.ctx ≠ c) ∧ (∀ r ∈ s.requests, r.req.by_.ctx ≠ c) ∧ (∀ o ∈ s.slip, o.req.by_.ctx ≠ c) ∧
    (∀ o ∈ s.sieve, o.req.by_.ctx ≠ c) ∧ (∀ m ∈ s.moves, m.ctx ≠ c) ∧ ∀ l ∈ s.limbo, l.ctx ≠ c

/-- The status of a function says that a pre-emption has ended, and how (R402). -/
def statusIs (t : State) (vf detail : Nat) : Prop :=
  (t.func vf).status = 0 ∧ (t.func vf).detail = BitVec.ofNat 8 detail ∧ (t.func vf).done = true ∧ (t.func vf).running = false ∧
    (t.func vf).icause.getLsbD 0 = true

/-- The context was killed (R232, R402): reported with a value where one is stated, and everything of it discarded. -/
def wasKilled (s t : State) (c : Context) (value : Option Nat) : Prop :=
  let e := c.r.fq + 64 + 64 * (s.slice.num c.r.fq 4 % 2 ^ c.r.fqlog)
  contextGone t c.id ∧ othersKept s t c.id ∧ statusIs t c.vf 0xA0 ∧ t.slice.num e 2 = 0xA0 ∧ t.slice.num (e + 2) 1 = 7 ∧
    t.slice.num c.r.fq 4 = (s.slice.num c.r.fq 4 + 1) % 2 ^ 32 ∧ (∀ v, value = some v → t.slice.num (e + 56) 4 = v)

/-- A saved group: its window part and its spill part, and what each of its waves holds, on no core, quadrant or slot (R233). -/
def groupSaved (s : State) (x : Saved) (g : Group) : Prop :=
  ∃ l ∈ x.limbo, ∃ g', l.group = some (g', s.slice.cut g.win g.winLen, s.slice.cut g.spill g.spillLen) ∧ g'.ord = g.ord ∧
    g'.index = g.index ∧
    l.waves.map (fun w => (w.widx, w.sregs, w.vregs, w.preds, w.modes, w.flags)) =
      (s.waves.filter fun w => !w.task && w.gid == g.id).map (fun w => (w.widx, w.sregs, w.vregs, w.preds, w.modes, w.flags)) ∧
    l.waves.map (fun w => w.subs.map fun q => (q.quads, q.pc)) =
      (s.waves.filter fun w => !w.task && w.gid == g.id).map (fun w => w.subs.map fun q => (q.quads, q.pc)) ∧
    g'.core = 0 ∧ ∀ w ∈ l.waves, w.core = 0 ∧ w.quad = 0 ∧ w.slot = 0

/-- What a halt would withdraw or wait for in flight: a `bind`, a `tkpass` and the check of a phase. -/
def quietFlight (s : State) : Prop :=
  ∀ a ∈ s.flight, (∀ b n l, a.kind ≠ .bind b n l) ∧ a.kind ≠ .tkpass ∧ ∀ k, a.kind ≠ .check k

/-- No wave of another context waits at a stream of this one. -/
def noneAwaits (s : State) (c : Nat) : Prop :=
  ∀ w ∈ s.waves, w.ctx ≠ c → ∀ o ∈ s.sieve, o.req.by_.ctx = c → w.wait ≠ .request o.id

/-- The Slip operations of a state, those of saved groups that wait for room among them. -/
def everySlip (s : State) : List SlipOp := s.slip ++ s.limbo.flatMap (·.slip)

/-- A copy of the function's contexts is stopped by a reset of the function (R274). -/
def ofFunction (s : State) (vf : Nat) (o : SlipOp) : Prop := ∃ c ∈ s.ctxs, c.id = o.req.by_.ctx ∧ c.vf = vf

/-- The share of a tenant in a pool by weight (R400). -/
def tenantShare (pool total : Nat) (p : Partition) : Nat := if p.weight = 0 then 0 else pool * p.weight / total

/-- The move of a group, with what it moves, where its function's partition is `p` (R404). -/
def moveOf (s : State) (m : Move) (g : Group) (p : Partition) : Prop :=
  (s.moves.find? fun x => x.id == m.id) = some m ∧ (∀ x ∈ s.moves, x.id = m.id → x = m) ∧ s.group? m.gid = some g ∧ g.id = m.gid ∧
    (∀ x ∈ s.groups, x.id = g.id → x = g) ∧ s.part? (s.ctx m.ctx).vf = some p ∧ ∀ x ∈ s.groups, x.latches = []

end Sys2Proof.Claims

open Sys2Proof Sys2Proof.Machine Sys2Proof.Claims in
/-- Pre-emption and the reset of a function (R218, R232, R233, R274, R402, R403).  The grace timer halts the context's waves between
instructions; the second timer kills the context.  A context at rest is saved by logical identity, with length 0 when nothing of it
is left, and leaves the module with the status; one whose save area is too small is killed with value 1 (a save's length is the K9's, a
free value, log 35).  A reset of the function drops its queues, and logs its atomic scatter. -/
def Obligations.ContextsAreHaltedSavedAndKilled : Prop :=
  (∀ (s : State) (c : Context), resident s c →
    (∀ since, c.pre = .soft since → (s.waves.map (·.id)).Nodup → (∀ g ∈ s.groups, g.latches = []) →
      quietFlight s →
        ∃ t, exec (.graceTimerExpiry c.id) s = .next t ∧ t.waves.length = s.waves.length ∧
          (∀ (n : Nat) (w w' : Wave), s.waves[n]? = some w → t.waves[n]? = some w' →
            (w.ctx = c.id → haltedFrom w w') ∧ (w.ctx ≠ c.id → w' = w)) ∧
          (∀ e, e ∈ t.waitList ↔ e ∈ s.waitList ∧ ∀ w ∈ s.waves, w.ctx = c.id → w.id ≠ e.2.2.1) ∧
          t.ctxs = s.ctxs.map (fun x => if x.id = c.id then { c with pre := .halting s.elapsed } else x) ∧
          { t with waves := s.waves, waitList := s.waitList, ctxs := s.ctxs } = s) ∧
    (∀ since, c.pre = .soft since → (∀ g ∈ s.groups, g.latches = []) → ∀ a ∈ s.flight, a.isWaitp = true → s.frameStall a = true →
      (∃ w ∈ s.waves, w.ctx = c.id ∧ w.id = a.wave) → ∃ t, exec (.graceTimerExpiry c.id) s = .next t ∧ a ∉ t.flight) ∧
    ((∀ since, c.pre ≠ .soft since) → exec (.graceTimerExpiry c.id) s = .next s) ∧
    ((∀ since, c.pre ≠ .halting since) → exec (.killTimerExpiry c.id) s = .next s) ∧
    (∀ since, c.pre = .halting since → (∀ m ∈ s.moves, m.ctx = c.id → m.stage = 2) → queueHasRoom s c.id → noneAwaits s c.id →
      ∃ t, exec (.killTimerExpiry c.id) s = .next t ∧ wasKilled s t c none) ∧
    (c.pre = .none → exec (.contextSaveComplete c.id) s = .next s) ∧
    (∀ since, c.pre = .soft since → (∃ w ∈ s.waves, w.ctx = c.id ∧ w.halt ≠ .unhandled) →
      exec (.contextSaveComplete c.id) s = .next s) ∧
    ((∃ a ∈ s.flight, a.ctx = c.id ∧ a.kind ≠ .drained ∧ a.kind.isRed = false ∧ (∀ k, a.kind ≠ .check k) ∧ a.finished = false) → exec (.contextSaveComplete c.id) s = .next s) ∧
    (atRest s c.id → c.pre ≠ .none → c.sessions = [] →
      (∀ since, c.pre = .soft since → ∀ w ∈ s.waves, w.ctx = c.id → w.halt = .unhandled) →
      ((∀ w ∈ s.waves, w.ctx ≠ c.id) → (∀ g ∈ s.groups, g.ctx ≠ c.id) → (∀ x ∈ s.tasks, x.ctx ≠ c.id) →
        (∀ p ∈ s.packets, p.ctx ≠ c.id) → (∀ g ∈ s.grids, g.ctx ≠ c.id) → c.trace.walk = none →
          ∃ t x, exec (.contextSaveComplete c.id) s = .next t ∧ t.saved = s.saved ++ [x] ∧ x.save = c.r.save ∧ x.len = 0 ∧ x.ctx = c ∧
            x.limbo = [] ∧ contextGone t c.id ∧ statusIs t c.vf 0 ∧ (t.func c.vf).savedLen = 0 ∧ t.slice = s.slice) ∧
      ((∃ w ∈ s.waves, w.ctx = c.id) →
        let len := (Config.freeValue s.freeCtr).toNat
        (len ≤ c.r.savelen → (s.groups.map (·.id)).Nodup → (s.waves.map (·.id)).Nodup →
          ∃ t x, exec (.contextSaveComplete c.id) s = .next t ∧ t.saved = s.saved ++ [x] ∧ x.save = c.r.save ∧ x.len = len ∧
            x.ctx.id = c.id ∧ x.grids = s.grids.filter (fun g => g.ctx = c.id) ∧ (∀ g ∈ s.groups, g.ctx = c.id → groupSaved s x g) ∧
            x.tasks.map (·.ref) = (s.tasks.filter fun y => y.ctx = c.id).map (·.ref) ∧
            (∀ y ∈ s.tasks, y.ctx = c.id → ∀ a, y.frame = some a → (y.id, s.slice.cut a 256) ∈ x.frames) ∧
            (c.r.det = true → x.drainWord = s.slice.bytes c.r.ticket 8) ∧ contextGone t c.id ∧ statusIs t c.vf 0 ∧
            (t.func c.vf).savedLen = BitVec.ofNat 64 len ∧ t.slice = s.slice) ∧
        (c.r.savelen < len → queueHasRoom s c.id → ∃ t, exec (.contextSaveComplete c.id) s = .next t ∧ wasKilled s t c (some 1))))) ∧
  ∀ (s : State) (vf : Nat), (s.ctxs.map (·.id)).Nodup →
    ((∀ o ∈ everySlip s, ofFunction s vf o → ¬(o.req.kind = .cps ∧ o.req.flag = true ∧ o.st ≠ .queued)) →
      ∃ t, exec (.vfReset vf) s = .next t ∧ (∀ o ∈ t.slip, o ∈ s.slip ∧ ¬ofFunction s vf o) ∧
        (((everySlip s).map (·.id)).Nodup → ∀ o ∈ s.slip, ¬ofFunction s vf o → o ∈ t.slip) ∧
        (∀ e ∈ t.red, e ∈ s.red ∧ ((∃ c ∈ s.ctxs, c.id = e.ctx ∧ c.vf = vf) → e.sent = true)) ∧
        (∀ g ∈ t.groups, (∃ c ∈ s.ctxs, c.id = g.ctx ∧ c.vf = vf) → g.drain = []) ∧
        (∀ l ∈ t.limbo, (∃ c ∈ s.ctxs, c.id = l.ctx ∧ c.vf = vf) → l.slip = [] ∧ l.red = [] ∧ ∀ e, l.group = some e → e.1.drain = []) ∧
        t.waves = s.waves ∧ t.slice = s.slice ∧
        t.ext = s.ext ∧ t.hostMem = s.hostMem ∧ t.funcs = s.funcs) ∧
    ∀ o, ((everySlip s).filter fun x => x.req.kind == .cps && x.req.flag && x.st != .queued) = [o] → ofFunction s vf o →
      (s.func vf).resetlen ≠ 0 → o.applied < 2 ^ 32 →
        let f := s.func vf
        let e := f.resetlog.toNat + 64 * (f.resetseq.toNat % f.resetlen.toNat)
        ∃ t, exec (.vfReset vf) s = .next t ∧ o ∉ t.slip ∧ t.hostMem.num e 2 = 0xA2 ∧ t.hostMem.num (e + 2) 1 = 1 ∧
          t.hostMem.num (e + 8) 8 = o.req.by_.ident.toNat ∧ t.hostMem.num (e + 32) 8 = o.req.op 1 ∧
          t.hostMem.num (e + 56) 4 = o.applied ∧ (t.func vf).resetseq = f.resetseq + 1 ∧
          (∀ x, (x < e ∨ e + 64 ≤ x) → t.hostMem.byte x = s.hostMem.byte x) ∧ t.slice = s.slice ∧ t.ext = s.ext

open Sys2Proof Sys2Proof.Machine Sys2Proof.Claims in
/-- Bands at the ports (R398, R400, R401) and migration (R404, R405).  A refill gives each tenant its floor and its share of the pool, once
in a window.  A port grants a transfer that its tenant's bucket holds, and one of a tenant below its floor first.  A group halts when the
new core has room; its bytes then move, its waves go on there, and what reaches the old range is forwarded at the same offset. -/
def Obligations.PortsGrantAndGroupsMove : Prop :=
  (∀ (s : State) (port : Nat),
    let ts := s.tenants port
    let pool := 8192 - (ts.map (·.floor)).sum
    let total := (ts.map (·.weight)).sum
    (ts = [] ∨ (∃ b ∈ s.buckets, b.port = port ∧ b.window = s.tick / 1024) → exec (.windowRefill port) s = .next s) ∧
    (ts ≠ [] → (∀ b ∈ s.buckets, b.port = port → b.window ≠ s.tick / 1024) → (ts.map (·.vf)).Nodup →
      (∀ p ∈ ts, tenantShare pool total p ≤ p.ceiling - p.floor) →
      let old := s.buckets.filter fun b => b.port = port ∧ b.window + 1 = s.tick / 1024
      let given := fun (extra : Partition → Nat) => ∃ t, exec (.windowRefill port) s = .next t ∧
        t.buckets = s.buckets.filter (fun b => b.port ≠ port) ++
          ts.map (fun p => ⟨port, p.vf, s.tick / 1024, p.floor + tenantShare pool total p + extra p, 0, false⟩) ∧
        { t with buckets := s.buckets } = s
      ((∀ b ∈ old, b.tokens = 0) ∨ (∀ b ∈ old, b.starved = false) → given fun _ => 0) ∧
      ∀ p ∈ ts, 0 < p.weight → (∃ b ∈ old, b.vf = p.vf ∧ b.starved = true) → (∀ b ∈ old, b.starved = true → b.vf = p.vf) →
        given fun q => if q.vf = p.vf then min (old.map (·.tokens)).sum (p.ceiling - (p.floor + tenantShare pool total p)) else 0) ∧
    (s.tick + 1 ≤ sget 0 s.portClk port → exec (.portGrant port) s = .next s) ∧
    ∀ (p : Partition) (b : Bucket) (x : Transfer), sget 0 s.portClk port ≤ s.tick → p ∈ ts → (ts.map (·.vf)).Nodup → b ∈ s.buckets →
      b.port = port → b.vf = p.vf → b.window = s.tick / 1024 → (∀ y ∈ s.buckets, y.port = port → y.vf = b.vf → y = b) →
      x ∈ s.transfers → x.port = port → x.vf = p.vf → s.transfers.Nodup →
      let took := { b with tokens := b.tokens - x.charge, granted := b.granted + x.charge }
      ((∀ y ∈ s.transfers, y.port = port → y = x) → x.charge ≤ b.tokens → x.charge ≤ 8 →
        ∃ t, exec (.portGrant port) s = .next t ∧ t.transfers = s.transfers.filter (fun y => y ≠ x) ∧
          t.buckets = s.buckets.map (fun y => if y = b then took else y) ∧ sget 0 t.portClk port = s.tick + 1 ∧ t.waves = s.waves ∧
          t.flight = s.flight ∧ t.slice = s.slice) ∧
      ((∀ y ∈ s.transfers, y.port = port → y = x) → b.tokens < x.charge →
        ∃ t, exec (.portGrant port) s = .next t ∧ t.transfers = s.transfers ∧
          t.buckets = s.buckets.map (fun y => if y = b then { b with starved := true } else y)) ∧
      ∀ (q : Partition) (d : Bucket) (z : Transfer), q ∈ ts → q ≠ p → d ∈ s.buckets → d.port = port → d.vf = q.vf →
        d.window = s.tick / 1024 → (∀ y ∈ s.buckets, y.port = port → y.vf = d.vf → y = d) → z.port = port → z.vf = q.vf →
        (s.transfers.filter fun y => y.port == port) = [z, x] → x.charge = 8 → z.charge = 8 → x.charge ≤ b.tokens → z.charge ≤ d.tokens →
        b.granted < p.floor → q.floor ≤ d.granted →
          ∃ t, exec (.portGrant port) s = .next t ∧ t.transfers = s.transfers.filter (fun y => y ≠ x) ∧
            t.buckets = s.buckets.map (fun y => if y = b then took else y)) ∧
  (∀ (s : State) (m : Move) (g : Group) (p : Partition), moveOf s m g p →
    (m.stage = 0 → s.placeGroup (s.ctx m.ctx) m.toCore g.winLen g.spillLen = none → exec (.migrationMoveComplete m.id) s = .next s) ∧
    (∀ at_, m.stage = 0 → s.placeGroup (s.ctx m.ctx) m.toCore g.winLen g.spillLen = some at_ → (s.waveMoved p m).isSome = true →
      (s.moves.filter fun x => x.fromCore == m.fromCore && x.stage != 0).length < 16 → (s.ctx m.ctx).pre = .none →
      (s.waves.map (·.id)).Nodup → quietFlight s →
        ∃ t, exec (.migrationMoveComplete m.id) s = .next t ∧
          t.moves = s.moves.map (fun x => if x.id = m.id then { m with newWin := at_.1, newSpill := at_.2, stage := 1 } else x) ∧
          t.waves.length = s.waves.length ∧
          (∀ (n : Nat) (w w' : Wave), s.waves[n]? = some w → t.waves[n]? = some w' →
            (w.task = false ∧ w.gid = g.id → haltedFrom w w') ∧ (¬(w.task = false ∧ w.gid = g.id) → w' = w)) ∧
          t.slip = s.slip.map (fun o => if o.req.owner = .group g.id then { o with die := m.toCore / 16 } else o) ∧
          { t with waves := s.waves, waitList := s.waitList, moves := s.moves, slip := s.slip } = s) ∧
    (m.stage = 1 → (∃ a ∈ s.flight, a.kind ≠ .drained ∧ a.finished = false ∧ ∃ w ∈ s.waves, w.task = false ∧ w.gid = g.id ∧ w.id = a.wave) →
      exec (.migrationMoveComplete m.id) s = .next s) ∧
    (m.stage = 1 → (s.waveMoved p m).isSome = true → (∀ a ∈ s.flight, ∀ w ∈ s.waves, w.gid = g.id → w.id ≠ a.wave) → s.mats = [] →
      (s.waves.map (·.id)).Nodup →
      (m.newWin + g.winLen ≤ m.newSpill ∨ m.newSpill + g.spillLen ≤ m.newWin) →
        ∃ t, exec (.migrationMoveComplete m.id) s = .next t ∧
          (∀ k, k < g.winLen → t.slice.byte (m.newWin + k) = s.slice.byte (m.oldWin + k)) ∧
          (∀ k, k < g.spillLen → t.slice.byte (m.newSpill + k) = s.slice.byte (g.spill + k)) ∧
          (∀ x, (x < m.newWin ∨ m.newWin + g.winLen ≤ x) → (x < m.newSpill ∨ m.newSpill + g.spillLen ≤ x) →
            t.slice.byte x = s.slice.byte x) ∧
          (∃ g' ∈ t.groups, g'.id = g.id ∧ g'.core = m.toCore ∧ g'.win = m.newWin ∧ g'.spill = m.newSpill) ∧
          (∀ w ∈ s.waves, w.task = false → w.gid = g.id → ∃ w' ∈ t.waves, w'.id = w.id ∧ w'.core = m.toCore ∧ w'.sregs = w.sregs ∧
            w'.vregs = w.vregs ∧ w'.kngroups = w.kngroups ∧ w'.kcores = w.kcores ∧ w'.widx = w.widx ∧ w'.group = w.group ∧
            (w.halt = .preempted → w'.halt = .running)) ∧
          t.moves = s.moves.map (fun x => if x.id = m.id then { m with stage := 2, since := s.nextId } else x) ∧ statusIs t (s.ctx m.ctx).vf 0)) ∧
  ∀ (s : State) (m : Move) (msg : Nat), s.moves = [m] → m.stage = 2 →
    let moved := fun (a : Nat) => if m.oldWin ≤ a ∧ a < m.oldWin + m.winLen then m.newWin + (a - m.oldWin) else a
    ∃ t, exec (.migrationForward msg) s = .next t ∧ t.flight.length = s.flight.length ∧
      (∀ (n : Nat) (a a' : Access), s.flight[n]? = some a → t.flight[n]? = some a' →
        (a.id ≠ msg → a' = a) ∧ (a.id = msg → a'.units.map (·.addr) = a.units.map (fun u => moved u.addr) ∧
          a'.units.map (fun u => (u.lane, u.size, u.data, u.done)) = a.units.map (fun u => (u.lane, u.size, u.data, u.done)))) ∧
      t.landings = s.landings.map (fun l => if l.id = msg then { l with obj := moved l.obj } else l) ∧
      t.red = s.red.map (fun e => if e.id = msg then { e with addr := moved e.addr } else e) ∧
      (msg ≠ m.id → t.moves = s.moves) ∧
      (msg = m.id → s.flight = [] → s.landings = [] → s.red = [] → (∀ o ∈ s.slip, m.since ≤ o.req.by_.seq) →
        (∀ o ∈ s.sieve, m.since ≤ o.req.by_.seq) → t.moves = []) ∧
      (msg = m.id → (∃ a ∈ s.flight, a.id ≠ msg ∧ ∃ u ∈ a.units, u.done = false ∧ m.oldWin ≤ u.addr ∧ u.addr < m.oldWin + m.winLen) →
        t.moves = s.moves) ∧
      { t with flight := s.flight, landings := s.landings, red := s.red, moves := s.moves } = s

/-! ## Samples, sessions, freeze, power and links (R414 to R424, R429 to R435) -/

namespace Sys2Proof.Claims

open Sys2Proof.Machine

/-- The block takes a sample of the quadrant in this clk, and `w` is the only wave of its slot there (R429). -/
def sampleOf (s : State) (fn quad : Nat) (w : Wave) (q : SubWave) : Prop :=
  let f := s.func fn
  f.dctl.getLsbD 1 = true ∧ f.slen ≠ 0 ∧ 0 < f.sint.toNat ∧ f.sampleFrom < s.tick ∧ (s.tick - f.sampleFrom) % f.sint.toNat = 0 ∧
    (∀ e ∈ f.sampleNext, e.1 = quad → e.2.2 ≠ s.tick) ∧ w.subs = [q] ∧ w.core * 4 + w.quad = quad ∧
    s.blockOwns fn (f.sring.toNat + 64 * (f.shead.toNat % f.slen.toNat)) 64 = true ∧
    (s.waves.filter fun x => x.core * 4 + x.quad == quad) = [w] ∧ ∃ c ∈ s.ctxs, c.id = w.ctx ∧ blockFor f c

/-- The sub-wave is held by no register that its next instruction uses (R430, reason 1). -/
def registersFree (s : State) (w : Wave) (q : SubWave) : Prop := (s.instrAt w q).bind (s.stallOnRegister w) = none

/-- The instruction at the sub-wave is neither a `waitc` nor a `fence`. -/
def countsNothing (s : State) (w : Wave) (q : SubWave) : Prop :=
  ∀ i, s.instrAt w q = some i → (∀ a b c d, i ≠ .waitc a b c d) ∧ ∀ k c, i ≠ .fence k c

/-- A sample's reason, value and object where its wave is halted, waits, is ready or has issued (R430). -/
def sampleSays (s : State) (w : Wave) (q : SubWave) (reason value object : Nat) : Prop :=
  let issued := w.lastIssue = s.tick ∧ s.tick < w.notBefore
  (w.halt ≠ .running ∧ reason = 10 ∧ value = 0 ∧ object = 0) ∨
    (w.halt = .running ∧ w.handler = none ∧ (s.ctx w.ctx).pre = .none ∧ registersFree s w q ∧
      ((∃ o phase cont va, q.st = .waiting o phase cont va ∧ reason = 3 ∧ value = phase.toNat ∧ object = va.toNat) ∨
        (countsNothing s w q ∧
          ((q.st = .parked ∧ w.wait = .none ∧ reason = 9 ∧ value = 0 ∧ object = 0) ∨
            (q.st = .forBlock ∧ w.wait = .none ∧ reason = 7 ∧ value = 0 ∧ object = 0) ∨
            (q.st = .ready ∧ w.wait = .none ∧ ¬issued ∧ reason = 2 ∧ value = 0 ∧ object = 0) ∨
            (q.st = .ready ∧ w.wait = .none ∧ issued ∧ reason = 0 ∧ value = 0 ∧ object = 0) ∨
            (∃ members tag, q.st = .ready ∧ w.wait = .joint members tag ∧ reason = 8 ∧
              value = tag.toNat ∧ object = members.toNat)))))

/-- A link is `l`, the only one of its number. -/
def linkIs (s : State) (l : Link) : Prop := (s.links.find? fun x => x.num == l.num) = some l ∧ ∀ x ∈ s.links, x.num = l.num → x = l

/-- The link became `l'`, and nothing else changed. -/
def linkBecame (s t : State) (l l' : Link) : Prop :=
  t.links = s.links.map (fun x => if x.num = l.num then l' else x) ∧ { t with links := s.links } = s

/-- The module after a reset: every field at its reset value but flash and fuses, and the host's memory (R419, R422). -/
def wasReset (s t : State) : Prop :=
  t.fwActive = s.fwStaged.getD s.fwActive ∧ t.svnFuse = s.svnFuse ∧ t.hostMem = s.hostMem ∧
    { t with
      fwActive := State.reset.fwActive
      svnFuse := State.reset.svnFuse
      hostMem := State.reset.hostMem
      nextId := State.reset.nextId
      freeCtr := State.reset.freeCtr
      agenda := State.reset.agenda } = State.reset

/-- The function's error interrupt is raised, and nothing else changed (R409). -/
def pfErrorRaised (u t : State) : Prop := functionIs u t 64 2 (u.func 64)

end Sys2Proof.Claims

open Sys2Proof Sys2Proof.Machine Sys2Proof.Claims in
/-- Stall samples, sessions and the freeze (R429 to R431, R434).  A sample that is due writes one record of the wave with its reason, and
none is written where sampling is off or not due.  A session's counts are written back every 2^20 clk.  The module freezes at the tick
at which it is armed to. -/
def Obligations.SamplesAndCountsAreWritten : Prop :=
  (∀ (s : State) (fn quad : Nat),
    (((s.func fn).dctl.getLsbD 1 = false ∨ (s.func fn).slen = 0 ∨ s.tick ≤ (s.func fn).sampleFrom ∨
        (0 < (s.func fn).sint.toNat ∧ (s.tick - (s.func fn).sampleFrom) % (s.func fn).sint.toNat ≠ 0) ∨
        (∃ e ∈ (s.func fn).sampleNext, e.1 = quad ∧ e.2.2 = s.tick) ∨ ∀ w ∈ s.waves, w.core * 4 + w.quad ≠ quad) →
      exec (.stallSample fn quad) s = .next s) ∧
    ∀ w q reason value object, sampleOf s fn quad w q → sampleSays s w q reason value object →
      ∃ t, exec (.stallSample fn quad) s = .next t ∧
        recorded s t fn (w.reportIdent q.quads).toNat q.pc.toNat 0 reason 0 (value % 2 ^ 32) object ∧
        (quad, w.slot, s.tick) ∈ (t.func fn).sampleNext ∧ t.waves = s.waves ∧ t.flight = s.flight ∧ t.ext = s.ext) ∧
  (∀ (s : State) (fn : Nat) (c : Context) (x : Session), c ∈ s.ctxs → x ∈ c.sessions → x.fn = fn →
    (∀ d ∈ s.ctxs, ∀ y ∈ d.sessions, y.fn = fn → y = x) →
    (¬((s.tick - x.opened) % 2 ^ 20 = 0 ∧ x.opened < s.tick) → exec (.sessionWriteback fn) s = .next s) ∧
    ((s.tick - x.opened) % 2 ^ 20 = 0 → x.opened < s.tick → s.blockOwns fn x.record 128 = true →
      ∃ t, exec (.sessionWriteback fn) s = .next t ∧ { t with slice := s.slice } = s ∧
        (∀ k code, k < 8 → (x.events[k]?).map (·.toNat) = some code →
          (code = 0 → t.slice.num (x.record + 64 + 8 * k) 8 = s.slice.num (x.record + 64 + 8 * k) 8) ∧
          (code ≠ 0 → t.slice.num (x.record + 64 + 8 * k) 8 = if 13 ≤ code then 2 ^ 63 else sget 0 x.counts code % 2 ^ 63)) ∧
        ∀ b, (b < x.record + 64 ∨ x.record + 128 ≤ b) → t.slice.byte b = s.slice.byte b)) ∧
  ∀ (s : State),
    ((s.func 64).dctl.getLsbD 3 = true → (s.func 64).freezetick.toNat = s.tick → exec .freeze s = .next { s with frozen := true }) ∧
    ((s.func 64).dctl.getLsbD 3 = false ∨ (s.func 64).freezetick.toNat ≠ s.tick → exec .freeze s = .next s)

open Sys2Proof Sys2Proof.Machine Sys2Proof.Claims in
/-- Bring-up, reset, power, links and errors (R414, R416, R419, R421 to R424).  Power good brings the module up step by step, and firmware
that fails its check leaves it in recovery; a module reset returns every field to its reset value; the clock falls in 47 MHz steps; a
trip is reported, then powers the module off.  A bad flit is sent again; a link without acknowledgements retrains, and works again or is
down, with its job-table entries unreachable.  Scrubbing corrects a word and counts it.  (What a reset leaves to the host, flash, fuses
and the model's own counters, is the model's reading.) -/
def Obligations.PowerLinksAndErrors : Prop :=
  (∀ (s : State),
    let v := Config.firmwareVersion s.fwActive
    let good := Config.firmwareOk s.fwActive = true ∧ s.svnFuse ≤ v
    let u := { s with powered := true }
    (6 ≤ s.bringup ∨ s.recovery = true → exec .powerGood s = .next u) ∧
    (s.recovery = false → s.bringup = 1 → good → exec .powerGood s = .next { u with bringup := 2, svnFuse := max s.svnFuse v }) ∧
    (s.recovery = false → s.bringup = 1 → ¬good → exec .powerGood s = .next { u with recovery := true }) ∧
    (s.recovery = false → s.bringup < 6 → s.bringup ≠ 1 →
      exec .powerGood s = .next { u with bringup := s.bringup + 1, ready := decide (s.bringup = 5) }) ∧
    (∃ t, exec .moduleReset s = .next t ∧ wasReset s t) ∧
    (∀ mhz, (s.powered = true ∧ mhz < s.clockMhz ∧ (∃ k, mhz + 47 * k = 940) ∧ 470 ≤ mhz →
        exec (.thermalThrottle mhz) s = .next { s with clockMhz := mhz }) ∧
      (s.powered = false ∨ mhz < 470 ∨ s.clockMhz ≤ mhz → exec (.thermalThrottle mhz) s = .next s)) ∧
    (s.powered = true → s.tripAt = none →
      ∃ t, exec .thermalTrip s = .next t ∧ pfErrorRaised { s with tripAt := some s.elapsed } t) ∧
    (s.powered = false ∨ s.tripAt ≠ none → exec .thermalTrip s = .next s) ∧
    (s.tripAt ≠ none → ∃ t u, exec .tripPowerOff s = .next t ∧ t.powered = false ∧ wasReset s u ∧ t = { u with powered := false }) ∧
    (s.tripAt = none → exec .tripPowerOff s = .next s)) ∧
  (∀ (s : State) (l : Link), linkIs s l →
    (∀ seq, (l.st = .up → ∃ t, exec (.flitCrcFailure l.num seq) s = .next t ∧ linkBecame s t l { l with
        replay := l.replay.map fun f => if f.seq = seq then { f with sends := f.sends + 1 } else f }) ∧
      (l.st ≠ .up → exec (.flitCrcFailure l.num seq) s = .next s)) ∧
    (l.st = .up → ∃ t, exec (.linkAckTimeout l.num) s = .next t ∧ linkBecame s t l { l with st := .retraining s.elapsed }) ∧
    (l.st ≠ .up → exec (.linkAckTimeout l.num) s = .next s) ∧
    ((∃ since, l.st = .retraining since) →
      (∃ t, exec (.linkRetrained l.num) s = .next t ∧
        linkBecame s t l { l with st := .up, replay := l.replay.map fun f => { f with sends := f.sends + 1 } }) ∧
      ((∀ o ∈ s.slip, o.req.remote (s.ctx o.req.by_.ctx).r = none ∨ o.st = .queued) →
        ∃ u t, exec (.retrainFailure l.num) s = .next t ∧ pfErrorRaised u t ∧
          u.links = s.links.map (fun x => if x.num = l.num then { l with st := .down, replay := [] } else x) ∧
          u.ctxs = s.ctxs.map (fun c => { c with
            jobTable := c.jobTable.map fun e => if e.toNat / 2 ^ 12 % 16 = l.num then e &&& ~~~0x10000 else e }) ∧
          { u with links := s.links, ctxs := s.ctxs } = s)) ∧
    ((∀ since, l.st ≠ .retraining since) → exec (.linkRetrained l.num) s = .next s ∧ exec (.retrainFailure l.num) s = .next s)) ∧
  ∀ (s : State) (addr : Nat),
    (addr ∉ s.eccSoft ∨ s.frozen = true → exec (.patrolScrub addr) s = .next s) ∧
    (addr ∈ s.eccSoft → s.frozen = false →
      ∃ t, exec (.patrolScrub addr) s = .next t ∧ t.eccSoft = s.eccSoft.filter (fun a => a ≠ addr) ∧ t.eccCount = s.eccCount + 1 ∧
        t.slice = s.slice ∧ (∀ c, { t.ctx c with sessions := [] } = { s.ctx c with sessions := [] }) ∧
        { t with eccSoft := s.eccSoft, eccCount := s.eccCount, ctxs := s.ctxs } = s)

/-! ## The machine: steps, words, reset and invariants (R4, R85, R97 to R99, R106, R120, R121, R421, R422, R434) -/

namespace Sys2Proof.Claims

open Sys2Proof.Machine

/-- `n` clk after `s`, with the rest of its agenda; what one clk brings is a clause of its own (R425, R434). -/
def later (s : State) (n : Nat) (l : List Turn) (u : State) : Prop := u = { s with agenda := l }.pass n

/-- A block takes samples. -/
def sampling (s : State) : Prop := ∃ f ∈ s.funcs, f.dctl.getLsbD 1 = true ∧ f.slen ≠ 0

/-- The wave and its sub-wave that issue are brought to the heads of their lists; nothing else changes but the translations that the
fetch keeps (R9). -/
def brought (u v : State) (w w' : Wave) (q : SubWave) : Prop :=
  v.issuer w' q ∧ { w' with subs := w.subs } = w ∧ w'.subs.Perm w.subs ∧ v.waves.Perm (w' :: u.waves.erase w) ∧
    { v with waves := u.waves, tlb := u.tlb } = u

/-- Whether a wave claims a port of its quadrant before another (R121): ready for 256 clk; then of the greater age; then of the lower
slot. -/
def earlier (u : State) (w x : Wave) : Prop :=
  let rank := fun (y : Wave) => if ∃ t, y.readySince = some t ∧ t + 256 ≤ u.tick then 0 else 1
  rank w < rank x ∨ (rank w = rank x ∧ (w.lastIssue < x.lastIssue ∨ (w.lastIssue = x.lastIssue ∧ w.slot ≤ x.slot)))

/-- The wave's turn to issue its sub-wave `q` (R106, R120, R121): the module runs, the wave is not halted and has not issued in this clk,
its quadrant has a port left that no other ready wave claims before it, and `q` is offered. -/
def issues (u : State) (wid : Nat) (w : Wave) (q : SubWave) : Prop :=
  u.powered = true ∧ u.frozen = false ∧ u.wave? wid = some w ∧ w.halt = .running ∧ w.notBefore ≤ u.tick ∧
    (∀ since, (u.ctx w.ctx).pre ≠ .halting since) ∧
    (u.waves.filter fun x => x.core * 4 + x.quad == w.core * 4 + w.quad && x.lastIssue == u.tick && decide (u.tick < x.notBefore)).length < 2 ∧
    (∀ x ∈ u.waves, x.core * 4 + x.quad = w.core * 4 + w.quad → x.id ≠ w.id → u.waveReady x = true → earlier u w x) ∧
    u.offered w = some q ∧ ∀ p ∈ w.subs, p.quads = q.quads → p = q

/-- The word at a code address (R85, R99, R230): four bytes, the first the lowest. -/
def wordAt (u : State) (w : Wave) (a : W64) (x : W32) : Prop :=
  let r := (u.ctx w.ctx).r
  r.codebase ≤ a.toNat ∧ a.toNat + 4 ≤ r.codebase + r.codelen ∧
    ∃ pa p, u.walk (w.core / 16) (u.ctx w.ctx) a.toNat = some (pa, p) ∧ x.toNat = u.ext.num pa 4

/-- Nothing holds the instruction back, and every register that it reads can be read (R120, R142, R226). -/
def unheld (v : State) (w : Wave) (q : SubWave) (i : Instr) : Prop := v.instrReady w i = true ∧ w.eccRead q i = none

/-- What a step adds around an instruction (R121, R431 to R433): the watchpoints act on it, and its wave has issued. -/
def around (v : State) (w : Wave) (i : Instr) (t : State) : State := (v.watched t (.instr i)).issued w.id w.ctx

/-- Events that a module without power, or a frozen one, still lets happen (R422, R423, R434). -/
def stillHappens (u : State) (i : Instr) : Prop :=
  if u.powered = false then i = .powerGood ∨ i = .moduleReset
  else if u.frozen = true then i = .moduleReset ∨ ∃ fn off v, i = .registerWrite fn off v
  else True

/-- Words written out from the encodings of the manual, with what each stands for (R86, R97, R130, R137, R141, R147, R150, R154, R190). -/
def words : List (W32 × Instr) :=
  [(0x00000000, .nop), (0x00747000, .mode 1 7), (0x00E26000, .fence 2 6), (0x1228000C, .brz 5 12),
    (0b00100000000000110000010001010000, .sadd 3 1 5), (0b00110000000010000011000000000100, .saddi 2 3 4),
    (0x4B218103, .vadds 1 6 2 3), (0xC01461CA, .cpt 10 12 14 1 0 2), (0xA6A00403, .vrx96 1 8 3), (0xD0842009, .spawnd 2 4 1 1),
    (0xD4041800, .trrec 2 3 0), (0xD50A3008, .propagate 5 6 1), (0xE228C390, .svpair 10 12 14 1 0), (0xE350C580, .svpull 20 12 22 0)]

end Sys2Proof.Claims

open Sys2Proof Sys2Proof.Machine Sys2Proof.Claims in
/-- A step (R97, R98, R106, R120, R121, R425, R434).  In a wave's turn the word at its program counter is fetched; the instruction that it
decodes to runs on the state with its wave at the head, and around it the watchpoints act and the issue is noted.  A word that is no
instruction and a failing fetch fault, and an instruction that is held back leaves the state.  In an event's turn the event happens, unless
the module has stopped.  A clk advances the tick, unless the module has stopped or stops at its end.  (The agenda that gives the turns is the model's own, log 37.) -/
def Obligations.StepRunsTheDecodedInstruction : Prop :=
  (∀ (s : State) (n wid : Nat) (l : List Turn) (u : State) (w : Wave) (q : SubWave), s.agenda = .issue n wid :: l → later s n l u →
    issues u wid w q →
    (∀ x i, wordAt u w q.pc x → decode x = some i →
      ∃ v w', brought u v w w' q ∧ (unheld v w' q i →
        (∀ t, exec i v = .next t → step s = .next (around v w i t)) ∧ (∀ e, exec i v = .fault e → step s = .fault e) ∧
        ∀ r, exec i v = .refused r → step s = .refused r) ∧ (v.instrReady w' i = false → step s = .next v)) ∧
    (∀ x, wordAt u w q.pc x → decode x = none → ∃ v w', brought u v w w' q ∧ step s = exec (.illegalInstruction x) v) ∧
    ((∀ x, ¬wordAt u w q.pc x) → ∃ v w', brought u v w w' q ∧ step s = exec (.codeFetchFault q.pc) v)) ∧
  (∀ (s : State) (n : Nat) (l : List Turn) (u : State) (i : Instr), s.agenda = .event n i :: l → later s n l u →
    (i.isWord = false → (∀ x, i ≠ .illegalInstruction x) → (∀ a, i ≠ .codeFetchFault a) →
      (stillHappens u i → ∀ t, exec i u = .next t → step s = .next (u.watched t (acted i))) ∧ (¬stillHappens u i → step s = .next u)) ∧
    (i.isWord = true → step s = .next u)) ∧
  (∀ (s : State), (s.powered = false ∨ s.frozen = true → s.clk = s) ∧
    (s.powered = true → s.frozen = false → ¬sampling s →
      let armed := (s.func 64).dctl.getLsbD 3 = true ∧ (s.func 64).freezetick.toNat = s.tick
      (armed → s.clk = { s with frozen := true }) ∧
      (¬armed → (∀ c ∈ s.ctxs, c.sessions = []) → ∃ ws bs,
        s.clk = { s with tick := s.tick + 1, elapsed := s.elapsed + Config.timePerUs / max 1 s.clockMhz, waves := ws, buckets := bs } ∧
          ws.map (fun (w : Wave) => { w with readySince := none }) = s.waves.map (fun (w : Wave) => { w with readySince := none }) ∧
          ((s.tick + 1) % 1024 ≠ 0 → bs = s.buckets)))) ∧
  ∀ (s : State), s.agenda = [] → (s.powered = false ∨ s.frozen = true → step s = .next s) ∧ ∃ t, step s = .next t

open Sys2Proof Sys2Proof.Machine Sys2Proof.Claims in
/-- Decoding is right on words written out from the encodings of the manual (R86, R97): each decodes to the instruction that it stands for,
and is what that instruction encodes to; the reserved classes and a nonzero reserved field decode to none. -/
def Obligations.WordsDecodeToTheirInstructions : Prop :=
  (∀ x ∈ words, decode x.1 = some x.2 ∧ encode x.2 = x.1 ∧ decodeTableWord 32 x.1.toNat = some x.2) ∧
    decode 0xF0000000 = none ∧ decode 0xFFFFFFFF = none ∧ decode 0x00000001 = none

open Sys2Proof Sys2Proof.Machine Sys2Proof.Claims in
/-- Reset (R394, R409, R422, R427): no partition, context, wave or queue, the tick at 0, every register of a function at its Reset value, and the
module not yet ready.  (That it has power, its cap, its firmware and its links are the model's choices, log 1 to 4, and are not stated.) -/
def Obligations.ResetLeavesTheResetValues : Prop :=
  let s := State.reset
  s.tick = 0 ∧ s.ready = false ∧ s.frozen = false ∧ s.parts = [] ∧ s.ctxs = [] ∧ s.waves = [] ∧ s.groups = [] ∧ s.grids = [] ∧
    s.flight = [] ∧ s.slip = [] ∧ s.sieve = [] ∧ s.requests = [] ∧ s.mats = [] ∧ s.tasks = [] ∧ s.saved = [] ∧ s.irqs = [] ∧
    s.tlb = [] ∧ s.memoriesOk ∧ (∀ a, s.slice.byte a = 0) ∧ (∀ k, k < 337 ∨ k = 338 ∨ 360 ≤ k → recByte s k = 0) ∧ recNum s 339 1 = 1 ∧
    recNum s 340 4 = 0 ∧ recNum s 344 4 = 8192 ∧ recNum s 348 4 = 1 ∧ recNum s 352 4 = 2000 ∧ recNum s 356 4 = 20000 ∧
    ∀ fn, let f := s.func fn
      f.icause = 0 ∧ f.imask = 0 ∧ f.erraddr = 0 ∧ f.errcount = 0 ∧ f.resetlog = 0 ∧ f.resetlen = 0 ∧ f.resetseq = 0 ∧ f.apslot = 0 ∧
        f.apbase = 0 ∧ f.dctl = 0 ∧ f.dslot = 0 ∧ f.sring = 0 ∧ f.slen = 0 ∧ f.sint = 4096 ∧ f.shead = 0 ∧ f.sess = 0 ∧
        f.freezetick = 0 ∧ f.scanaddr = 0 ∧ f.done = false ∧ f.status = 0 ∧ f.running = false ∧
        (∀ k, f.ltail.get k = 0 ∧ f.lhead.get k = 0 ∧ f.cmd.get k = 0) ∧ (∀ x ∈ f.watch, x.ctl = 0 ∧ x.who = 0 ∧ x.where_ = 0 ∧ x.len = 0) ∧
        f.watch.length = 4 ∧ s.bar0 fn 0 = 0

open Sys2Proof Sys2Proof.Machine Sys2Proof.Claims in
/-- Decode and encode agree (R85, R86, R97): for every well-formed instruction word of the table, with every operand at every value that its
encoding admits, decoding its encoding gives it back. -/
def Obligations.EncodingsDecodeToTheirInstructions : Prop :=
  ∀ (i : Instr), i.isWord = true → i.wellFormed = true →
    decode (encode i) = some i ∧ decodeTableWord 32 (encode i).toNat = some i ∧
      ∀ rest, decodeBytes (bytesOfWord (encode i) ++ rest) = some (i, rest)

open Sys2Proof Sys2Proof.Machine Sys2Proof.Claims in
/-- Every step keeps the memories in their canonical form: the slices, external memory and the host's memory list rising addresses, and no
byte that an unlisted address already reads as (a property of the model's own data, which makes equal memories equal). -/
def Obligations.EveryStepKeepsTheMemoriesCanonical : Prop :=
  ∀ (s t : State), s.memoriesOk → step s = .next t → t.memoriesOk
end

