-- ==== Sys2Proof/Laws/Mem.lean ====
section
/-! SUPPORT. What reading and writing a sparse list and a byte memory do: read after write, other places unchanged, and the
canonical form kept by every memory operation. -/

namespace Sys2Proof.Machine

/-! ## Sparse lists -/

/-- Entries at or below a key do not show above it. -/
theorem sget_dropWhile {α : Type} (d : α) (k j : Nat) (hj : k < j) (l : List (Nat × α)) :
    sget d (l.dropWhile fun x => decide (x.1 ≤ k)) j = sget d l j := by
  induction l with
  | nil => rfl
  | cons e t ih =>
    by_cases h : e.1 ≤ k
    · have h1 : ¬ j < e.1 := by omega
      have h2 : ¬ j = e.1 := by omega
      simp [List.dropWhile, h, ih, sget, h1, h2]
    · simp [List.dropWhile, h]

/-- Nothing stands at or below `k` in a list whose entries up to `k` were dropped. -/
theorem sget_dropWhile_le {α : Type} (d : α) (k j : Nat) (hj : j ≤ k) (l : List (Nat × α)) :
    sget d (l.dropWhile fun x => decide (x.1 ≤ k)) j = d := by
  induction l with
  | nil => rfl
  | cons e t ih =>
    by_cases h : e.1 ≤ k
    · simp [List.dropWhile, h, ih]
    · have h1 : j < e.1 := by omega
      simp [List.dropWhile, h, sget, h1]

/-- A read after a write: the value written at its index, and every other index as before. -/
@[simp] theorem sget_sset {α : Type} [DecidableEq α] (d : α) (k : Nat) (v : α) (l : List (Nat × α)) (j : Nat) :
    sget d (sset d k v l) j = if j = k then v else sget d l j := by
  induction l with
  | nil =>
    by_cases hv : v = d
    · simp [sset, hv, sget]
    · simp only [sset, hv, if_false, sget]
      split <;> split <;> first | rfl | omega
  | cons e t ih =>
    unfold sset
    by_cases h : k < e.1
    · simp only [h, if_true]
      by_cases hv : v = d
      · simp only [hv, if_true]
        by_cases hj : j = k
        · simp [hj, sget, h]
        · simp [hj]
      · simp only [hv, if_false]
        simp only [sget]
        by_cases h1 : j < k
        · have h2 : j < e.1 := by omega
          have h3 : ¬ j = k := by omega
          simp [h1, h2, h3]
        · by_cases h2 : j = k <;> simp [h1, h2]
    · by_cases h' : k = e.1
      · subst h'
        simp only [Nat.lt_irrefl, if_true, if_false]
        by_cases hv : v = d
        · simp only [hv, if_true]
          by_cases hj : j = e.1
          · simp [hj, sget_dropWhile_le]
          · by_cases h1 : j < e.1
            · simp [hj, sget, h1, sget_dropWhile_le d e.1 j (by omega)]
            · simp [hj, sget, h1, sget_dropWhile d e.1 j (by omega)]
        · simp only [hv, if_false, sget]
          by_cases h1 : j < e.1
          · have h2 : ¬ j = e.1 := by omega
            simp [h1, h2]
          · by_cases h2 : j = e.1 <;> simp [h1, h2]
      · simp only [h, h', if_false, sget, ih]
        by_cases h1 : j < e.1
        · have h2 : ¬ j = k := by omega
          simp [h1, h2]
        · by_cases h2 : j = e.1
          · have h3 : ¬ j = k := by omega
            simp [h2, Ne.symm h']
          · simp [h1, h2]

/-- Register files: a read after a write. -/
@[simp] theorem Regs.get_set {w : Nat} (r : Regs w) (k : Nat) (v : BitVec w) (j : Nat) :
    (r.set k v).get j = if j = k then v else r.get j := sget_sset 0 k v r j

/-! ## The canonical form -/

/-- Every key of a list lies above `k`. -/
def keysAbove {α : Type} (k : Nat) (l : List (Nat × α)) : Prop := ∀ e ∈ l, k < e.1

/-- The canonical form, unfolded at the head. -/
theorem canonical_cons {α : Type} [DecidableEq α] (d : α) (e : Nat × α) (t : List (Nat × α)) :
    canonical d (e :: t) = true ↔ e.2 ≠ d ∧ keysAbove e.1 t ∧ canonical d t = true := by
  induction t generalizing e with
  | nil => simp [canonical, keysAbove]
  | cons f t ih =>
    simp only [canonical, Bool.and_eq_true, decide_eq_true_eq, ih f, keysAbove, List.mem_cons, forall_eq_or_imp]
    constructor
    · rintro ⟨⟨h1, h2⟩, h3, h4, h5⟩
      exact ⟨h1, ⟨h2, fun x hx => Nat.lt_trans h2 (h4 x hx)⟩, h3, h4, h5⟩
    · rintro ⟨h1, ⟨h2, _⟩, h3, h4, h5⟩
      exact ⟨⟨h1, h2⟩, h3, h4, h5⟩

/-- A sublist of a canonical list is canonical. -/
theorem canonical_sublist {α : Type} [DecidableEq α] (d : α) {l m : List (Nat × α)} (h : l.Sublist m)
    (hm : canonical d m = true) : canonical d l = true := by
  induction h with
  | slnil => rfl
  | cons a _ ih => exact ih ((canonical_cons d _ _).1 hm).2.2
  | cons_cons a hs ih =>
    obtain ⟨h1, h2, h3⟩ := (canonical_cons d _ _).1 hm
    exact (canonical_cons d _ _).2 ⟨h1, fun e he => h2 e (hs.subset he), ih h3⟩

/-- The keys of a list after a write are its keys and the key written. -/
theorem keysAbove_sset {α : Type} [DecidableEq α] (d : α) (k : Nat) (v : α) (n : Nat) (l : List (Nat × α)) (h : keysAbove n l)
    (hk : n < k) : keysAbove n (sset d k v l) := by
  induction l with
  | nil =>
    unfold sset
    split
    · exact h
    · intro e he
      simp only [List.mem_singleton] at he
      exact he ▸ hk
  | cons f t ih =>
    have ht : keysAbove n t := fun e he => h e (List.mem_cons_of_mem _ he)
    have hf : n < f.1 := h f (List.mem_cons_self ..)
    unfold sset
    split
    · split
      · exact h
      · intro e he
        rcases List.mem_cons.1 he with rfl | he
        · exact hk
        · exact h e he
    · split
      · split
        · exact fun e he => ht e ((List.dropWhile_sublist _).subset he)
        · intro e he
          rcases List.mem_cons.1 he with rfl | he
          · exact hk
          · exact ht e he
      · intro e he
        rcases List.mem_cons.1 he with rfl | he
        · exact hf
        · exact ih ht e he

/-- A write keeps the canonical form. -/
theorem canonical_sset {α : Type} [DecidableEq α] (d : α) (k : Nat) (v : α) (l : List (Nat × α)) (h : canonical d l = true) :
    canonical d (sset d k v l) = true := by
  induction l with
  | nil =>
    unfold sset
    split
    · rfl
    · simp_all [canonical]
  | cons f t ih =>
    obtain ⟨h1, h2, h3⟩ := (canonical_cons d f t).1 h
    unfold sset
    split
    · rename_i hk
      split
      · exact h
      · rename_i hv
        refine (canonical_cons d _ _).2 ⟨hv, fun e he => ?_, h⟩
        rcases List.mem_cons.1 he with rfl | he
        · exact hk
        · exact Nat.lt_trans hk (h2 e he)
    · split
      · rename_i hk
        split
        · exact canonical_sublist d (List.dropWhile_sublist _) h3
        · rename_i hv
          exact (canonical_cons d _ _).2 ⟨hv, hk ▸ h2, h3⟩
      · rename_i ha hb
        exact (canonical_cons d _ _).2 ⟨h1, keysAbove_sset d k v f.1 t h2 (by omega), ih h3⟩

/-! ## Byte memory -/

/-- The memory that lists nothing is canonical. -/
@[simp] theorem wf_nil : Memory.wf [] := rfl

/-- Reading a byte after writing one. -/
@[simp] theorem byte_setByte (m : Memory) (a : Nat) (b : Byte) (x : Nat) :
    (m.setByte a b).byte x = if x = a then b else m.byte x := sget_sset 0 a b m x

/-- A byte write keeps the canonical form. -/
@[simp] theorem wf_setByte (m : Memory) (a : Nat) (b : Byte) (h : m.wf) : (m.setByte a b).wf := canonical_sset 0 a b m h

/-- A write of bytes keeps the canonical form. -/
@[simp] theorem wf_setBytes (m : Memory) (a : Nat) (l : List Byte) (h : m.wf) : (m.setBytes a l).wf := by
  induction l generalizing m a with
  | nil => exact h
  | cons b t ih => exact ih _ _ (wf_setByte m a b h)

/-- Bytes outside those written are as before. -/
theorem byte_setBytes_other (m : Memory) (a : Nat) (l : List Byte) (x : Nat) (h : x < a ∨ a + l.length ≤ x) :
    (m.setBytes a l).byte x = m.byte x := by
  induction l generalizing m a with
  | nil => rfl
  | cons b t ih =>
    simp only [List.length_cons] at h
    have hx : x ≠ a := by omega
    simp only [Memory.setBytes]
    rw [ih _ _ (by omega)]
    simp [hx]

/-- The bytes written read back. -/
theorem byte_setBytes (m : Memory) (a : Nat) (l : List Byte) (i : Nat) (h : i < l.length) :
    (m.setBytes a l).byte (a + i) = l[i] := by
  induction l generalizing m a i with
  | nil => simp at h
  | cons b t ih =>
    cases i with
    | zero =>
      simp only [Memory.setBytes]
      rw [byte_setBytes_other _ _ _ _ (by omega)]
      simp
    | succ n =>
      have := ih (m.setByte a b) (a + 1) n (by simpa using h)
      simp only [Memory.setBytes, List.getElem_cons_succ]
      rw [← this]
      congr 1
      omega

/-- A write of a number keeps the canonical form. -/
@[simp] theorem wf_setNum (m : Memory) (a n v : Nat) (h : m.wf) : (m.setNum a n v).wf := wf_setBytes m a _ h

/-- A number has as many bytes as asked for. -/
@[simp] theorem length_leBytes (n v : Nat) : (leBytes n v).length = n := by
  induction n generalizing v with
  | zero => rfl
  | succ n ih => simp [leBytes, ih]

/-- Bytes outside a number written are as before. -/
theorem byte_setNum_other (m : Memory) (a n v x : Nat) (h : x < a ∨ a + n ≤ x) : (m.setNum a n v).byte x = m.byte x :=
  byte_setBytes_other m a _ x (by simpa using h)

/-- A number of `n` bytes reads back from them. -/
@[simp] theorem leNat_leBytes (n v : Nat) : leNat (leBytes n v) = v % 256 ^ n := by
  induction n generalizing v with
  | zero => simp [leBytes, leNat, Nat.mod_one]
  | succ n ih =>
    have h : 256 ^ (n + 1) = 256 * 256 ^ n := Nat.pow_succ'
    rw [leBytes, leNat, ih, BitVec.toNat_ofNat, h, Nat.mod_mul]

/-- The bytes just written are read. -/
theorem bytes_setBytes (m : Memory) (a : Nat) (l : List Byte) : (m.setBytes a l).bytes a l.length = l := by
  apply List.ext_getElem
  · simp [Memory.bytes]
  · intro i h1 h2
    simp [Memory.bytes, byte_setBytes m a l i h2]

/-- A number just written is read. -/
theorem num_setNum (m : Memory) (a n v : Nat) : (m.setNum a n v).num a n = v % 256 ^ n := by
  have h := bytes_setBytes m a (leBytes n v)
  rw [length_leBytes] at h
  simp [Memory.num, Memory.setNum, h]

/-- Folding byte writes keeps the canonical form. -/
theorem wf_foldl_setByte (f : Host.Cell → Nat) (g : Host.Cell → Byte) (l : List Host.Cell) (m : Memory) (h : m.wf) :
    Memory.wf (l.foldl (fun (m : Memory) c => m.setByte (f c) (g c)) m) := by
  induction l generalizing m with
  | nil => exact h
  | cons c t ih => exact ih _ (wf_setByte m _ _ h)

/-- A part of a memory is canonical. -/
@[simp] theorem wf_filter (m : Memory) (p : Host.Cell → Bool) (h : m.wf) : Memory.wf (m.filter p) :=
  canonical_sublist 0 (List.filter_sublist ..) h

/-- Pasting bytes keeps the canonical form. -/
@[simp] theorem wf_paste (m : Memory) (a n : Nat) (l : Memory) (h : m.wf) : (m.paste a n l).wf :=
  wf_foldl_setByte _ _ l _ (wf_filter m _ h)

end Sys2Proof.Machine
end

