-- ==== Sys2Proof/Laws/Memories.lean ====
section
/-! SUPPORT. Every operation of the waves' chapters keeps the byte memories in their canonical form: one lemma for each definition
that answers a state, named after it. -/

namespace Sys2Proof.Machine

/-- The memories of the state that an outcome answers are in their canonical form. -/
def Out.memoriesOk (o : Out) : Prop :=
  match o with
  | .next t => t.memoriesOk
  | _ => True

@[simp] theorem Out.memoriesOk_next (t : State) : Out.memoriesOk (.next t) ↔ t.memoriesOk := Iff.rfl

/-- The canonical form, as a closed word for rewriting. -/
def Memory.ok (m : Memory) : Prop := m.wf

@[simp] theorem Memory.ok_nil : Memory.ok [] := wf_nil
@[simp] theorem Memory.ok_setByte (m : Memory) (a : Nat) (b : Byte) (h : m.ok) : (m.setByte a b).ok := wf_setByte m a b h
@[simp] theorem Memory.ok_setBytes (m : Memory) (a : Nat) (l : List Byte) (h : m.ok) : (m.setBytes a l).ok := wf_setBytes m a l h
@[simp] theorem Memory.ok_setNum (m : Memory) (a n v : Nat) (h : m.ok) : (m.setNum a n v).ok := wf_setNum m a n v h
@[simp] theorem Memory.ok_paste (m : Memory) (a n : Nat) (l : Memory) (h : m.ok) : (m.paste a n l).ok := wf_paste m a n l h

@[simp] theorem Memory.ok_foldl {α : Type} (f : Memory → α → Memory) (hf : ∀ m x, m.ok → (f m x).ok) (l : List α) (m : Memory)
    (h : m.ok) : (l.foldl f m).ok := by
  induction l generalizing m with
  | nil => exact h
  | cons x t ih => exact ih _ (hf m x h)

@[simp] theorem State.slice_ok {s : State} (h : s.memoriesOk) : s.slice.ok := h.1
@[simp] theorem State.ext_ok {s : State} (h : s.memoriesOk) : s.ext.ok := h.2.1
@[simp] theorem State.host_ok {s : State} (h : s.memoriesOk) : s.hostMem.ok := h.2.2

@[simp] theorem foldl_ok {α : Type} (f : State → α → State) (hf : ∀ s x, s.memoriesOk → (f s x).memoriesOk) (l : List α) (s : State)
    (h : s.memoriesOk) : (l.foldl f s).memoriesOk := by
  induction l generalizing s with
  | nil => exact h
  | cons x t ih => exact ih _ (hf s x h)

theorem foldl_pair_ok {α β : Type} (f : State × β → α → State × β) (hf : ∀ r x, r.1.memoriesOk → (f r x).1.memoriesOk) (l : List α)
    (r : State × β) (h : r.1.memoriesOk) : (l.foldl f r).1.memoriesOk := by
  induction l generalizing r with
  | nil => exact h
  | cons x t ih => exact ih _ (hf r x h)

/-- Only the three memories matter. -/
@[simp] theorem memoriesOk_mk (tick : Nat) (elapsed : Nat) (powered : Bool) (ready : Bool) (recovery : Bool) (bringup : Nat) (powerCap : Nat) (clockMhz : Nat) (tripAt : Option Nat) (fwActive : List Byte) (fwStaged : Option (List Byte)) (svnFuse : Nat) (frozen : Bool) (freezeRefused : Bool) (links : List Link) (slice : Memory) (ext : Memory) (tlb : List TlbEntry) (hostMem : Memory) (eccBad : List Nat) (eccSoft : List Nat) (eccCount : Nat) (irqs : List (Nat × Nat)) (funcs : List Func) (parts : List Partition) (ctxs : List Context) (grids : List Grid) (groups : List Group) (waves : List Wave) (flight : List Access) (red : List RedEntry) (slip : List SlipOp) (cache : List CacheEntry) (landings : List Landing) (mats : List MatOp) (tasks : List Task) (bins : List Bin) (dispatched : List (Nat × Nat × Nat × Nat)) (ctrMsgs : List CtrMsg) (packets : List WlPacket) (sieve : List SieveOp) (requests : List Request) (waitList : List (Nat × Nat × Nat × Instr)) (saved : List Saved) (limbo : List Limbo) (moves : List Move) (transfers : List Transfer) (buckets : List Bucket) (portClk : List (Nat × Nat)) (nextId : Nat) (freeCtr : Nat) (agenda : List Turn) :
    (State.mk tick elapsed powered ready recovery bringup powerCap clockMhz tripAt fwActive fwStaged svnFuse frozen freezeRefused links slice ext tlb hostMem eccBad eccSoft eccCount irqs funcs parts ctxs grids groups waves flight red slip cache landings mats tasks bins dispatched ctrMsgs packets sieve requests waitList saved limbo moves transfers buckets portClk nextId freeCtr agenda).memoriesOk ↔ slice.ok ∧ ext.ok ∧ hostMem.ok := Iff.rfl

theorem memoriesOk_mk_of {tick : Nat} {elapsed : Nat} {powered : Bool} {ready : Bool} {recovery : Bool} {bringup : Nat} {powerCap : Nat} {clockMhz : Nat} {tripAt : Option Nat} {fwActive : List Byte} {fwStaged : Option (List Byte)} {svnFuse : Nat} {frozen : Bool} {freezeRefused : Bool} {links : List Link} {slice : Memory} {ext : Memory} {tlb : List TlbEntry} {hostMem : Memory} {eccBad : List Nat} {eccSoft : List Nat} {eccCount : Nat} {irqs : List (Nat × Nat)} {funcs : List Func} {parts : List Partition} {ctxs : List Context} {grids : List Grid} {groups : List Group} {waves : List Wave} {flight : List Access} {red : List RedEntry} {slip : List SlipOp} {cache : List CacheEntry} {landings : List Landing} {mats : List MatOp} {tasks : List Task} {bins : List Bin} {dispatched : List (Nat × Nat × Nat × Nat)} {ctrMsgs : List CtrMsg} {packets : List WlPacket} {sieve : List SieveOp} {requests : List Request} {waitList : List (Nat × Nat × Nat × Instr)} {saved : List Saved} {limbo : List Limbo} {moves : List Move} {transfers : List Transfer} {buckets : List Bucket} {portClk : List (Nat × Nat)} {nextId : Nat} {freeCtr : Nat} {agenda : List Turn} (h1 : slice.ok) (h2 : ext.ok) (h3 : hostMem.ok) :
    (State.mk tick elapsed powered ready recovery bringup powerCap clockMhz tripAt fwActive fwStaged svnFuse frozen freezeRefused links slice ext tlb hostMem eccBad eccSoft eccCount irqs funcs parts ctxs grids groups waves flight red slip cache landings mats tasks bins dispatched ctrMsgs packets sieve requests waitList saved limbo moves transfers buckets portClk nextId freeCtr agenda).memoriesOk := ⟨h1, h2, h3⟩

/-- A state with the memories of another. -/
theorem memoriesOk_of {s t : State} (h : s.memoriesOk) (h1 : t.slice = s.slice) (h2 : t.ext = s.ext) (h3 : t.hostMem = s.hostMem) :
    t.memoriesOk := by
  unfold State.memoriesOk
  rw [h1, h2, h3]
  exact h

theorem ite_ok {c : Prop} [Decidable c] {s t : State} (h : s.memoriesOk) (h' : t.memoriesOk) : (if c then s else t).memoriesOk := by
  split
  · exact h
  · exact h'

theorem ite2_ok {α : Type} {c : Prop} [Decidable c] {s t : α × State} (h : s.2.memoriesOk) (h' : t.2.memoriesOk) :
    (if c then s else t).2.memoriesOk := by
  split
  · exact h
  · exact h'

theorem getD_ok (o : Option State) (s : State) (h : s.memoriesOk) (ho : ∀ t, o = some t → t.memoriesOk) : (o.getD s).memoriesOk := by
  cases o with
  | none => exact h
  | some t => exact ho t rfl


@[simp] theorem State.updCtx_ok (s : State) (id : Nat) (f : Context → Context) (hs : s.memoriesOk) : (State.updCtx s id f).memoriesOk := by
  unfold State.updCtx
  simp (maxDischargeDepth := 40) [*]

@[simp] theorem State.count_ok (s : State) (cid : Nat) (code : Nat) (n : Nat) (hs : s.memoriesOk) : (State.count s cid code n).memoriesOk := by
  unfold State.count
  simp (maxDischargeDepth := 40) [*]

@[simp] theorem State.updWave_ok (s : State) (id : Nat) (f : Wave → Wave) (hs : s.memoriesOk) : (State.updWave s id f).memoriesOk := by
  unfold State.updWave
  simp (maxDischargeDepth := 40) [*]

@[simp] theorem State.updGroup_ok (s : State) (id : Nat) (f : Group → Group) (hs : s.memoriesOk) : (State.updGroup s id f).memoriesOk := by
  unfold State.updGroup
  simp (maxDischargeDepth := 40) [*]

@[simp] theorem State.setFunc_ok (s : State) (f : Func) (hs : s.memoriesOk) : (State.setFunc s f).memoriesOk := by
  unfold State.setFunc
  simp (maxDischargeDepth := 40) [*]

@[simp] theorem State.updFunc_ok (s : State) (id : Nat) (f : Func → Func) (hs : s.memoriesOk) : (State.updFunc s id f).memoriesOk := by
  unfold State.updFunc
  simp (maxDischargeDepth := 40) [*]

@[simp] theorem State.fresh_ok (s : State) (hs : s.memoriesOk) : (State.fresh s).2.memoriesOk := by
  unfold State.fresh
  simp (maxDischargeDepth := 40) [*]

@[simp] theorem State.free_ok (s : State) (hs : s.memoriesOk) : (State.free s).2.memoriesOk := by
  unfold State.free
  simp (maxDischargeDepth := 40) [*]

@[simp] theorem State.interrupt_ok (s : State) (fn : Nat) (b : Nat) (hs : s.memoriesOk) : (State.interrupt s fn b).memoriesOk := by
  unfold State.interrupt
  try dsimp only
  repeat' split
  all_goals simp (maxDischargeDepth := 40) [*]

@[simp] theorem State.report_ok (s : State) (cid : Nat) (r : Rep) (hs : s.memoriesOk) : (State.report s cid r).memoriesOk := by
  unfold State.report
  try dsimp only
  repeat' split
  all_goals simp (maxDischargeDepth := 40) [*]

@[simp] theorem State.put_ok (s : State) (w : Wave) (hs : s.memoriesOk) : (State.put s w).memoriesOk := by
  unfold State.put
  simp (maxDischargeDepth := 40) [*]

@[simp] theorem State.retire_ok (s : State) (w : Wave) (hs : s.memoriesOk) : (State.retire s w).memoriesOk := by
  unfold State.retire
  simp (maxDischargeDepth := 40) [*]

@[simp] theorem State.again_ok (s : State) (w : Wave) (q : SubWave) (hs : s.memoriesOk) : (State.again s w q).memoriesOk := by
  unfold State.again
  simp (maxDischargeDepth := 40) [*]

@[simp] theorem State.stall_ok (s : State) (w : Wave) (q : SubWave) (hs : s.memoriesOk) : (State.stall s w q).memoriesOk := by
  unfold State.stall
  try dsimp only
  repeat' first
    | split | intro _ | with_reducible assumption | with_reducible refine (Out.memoriesOk_next _).2 ?_
    | with_reducible apply foldl_ok | with_reducible apply foldl_pair_ok | with_reducible apply ite_ok | with_reducible apply ite2_ok
    | with_reducible apply State.put_ok
  all_goals try simp (maxDischargeDepth := 40) [*]

@[simp] theorem State.onIssuer_ok (s : State) (f : Wave → SubWave → State) (hs : s.memoriesOk) (hf : ∀ x0 x1, (f x0 x1).memoriesOk) : (State.onIssuer s f).memoriesOk := by
  unfold State.onIssuer
  try dsimp only
  repeat' split
  all_goals simp (maxDischargeDepth := 40) [*]

@[simp] theorem State.withdrawBinds_ok (s : State) (ids : List Nat) (hs : s.memoriesOk) : (State.withdrawBinds s ids).memoriesOk := by
  unfold State.withdrawBinds
  try dsimp only
  repeat' first
    | split | intro _ | with_reducible assumption | with_reducible refine (Out.memoriesOk_next _).2 ?_
    | with_reducible apply foldl_ok | with_reducible apply foldl_pair_ok | with_reducible apply ite_ok | with_reducible apply ite2_ok
    | with_reducible apply State.free_ok
  all_goals try simp (maxDischargeDepth := 40) [*]

@[simp] theorem State.withdraw_ok (s : State) (ids : List Nat) (f : Wave → Wave) (hs : s.memoriesOk) : (State.withdraw s ids f).memoriesOk := by
  unfold State.withdraw
  try dsimp only
  repeat' first
    | split | intro _ | with_reducible assumption | with_reducible refine (Out.memoriesOk_next _).2 ?_
    | with_reducible apply foldl_ok | with_reducible apply foldl_pair_ok | with_reducible apply ite_ok | with_reducible apply ite2_ok
    | with_reducible apply State.withdrawBinds_ok
  all_goals try simp (maxDischargeDepth := 40) [*]

@[simp] theorem State.faultOne_ok (s : State) (wid : Nat) (quads : BitVec 8) (code : Nat) (pc : W64) (val : W64) (hs : s.memoriesOk) : (State.faultOne s wid quads code pc val).memoriesOk := by
  unfold State.faultOne
  try dsimp only
  repeat' split
  all_goals simp (maxDischargeDepth := 40) [*]

@[simp] theorem State.breakLatches_ok (n : Nat) (l : List (Nat × Option (BitVec 16 × BitVec 4))) (s : State) (h : s.memoriesOk) :
    (State.breakLatches n l s).memoriesOk := by
  induction n generalizing l s with
  | zero => simpa [State.breakLatches] using h
  | succ n ih =>
    cases l with
    | nil => simpa [State.breakLatches] using h
    | cons x l =>
      unfold State.breakLatches
      dsimp only
      repeat' split
      all_goals try simp [*]
      apply ih
      apply foldl_ok
      · intro s x hs
        split <;> simp [*]
      · simp [*]


@[simp] theorem State.fault_ok (s : State) (wid : Nat) (quads : BitVec 8) (code : Nat) (pc : W64) (val : W64) (hs : s.memoriesOk) : (State.fault s wid quads code pc val).memoriesOk := by
  unfold State.fault
  simp (maxDischargeDepth := 40) [*]

@[simp] theorem State.raise_ok (s : State) (w : Wave) (q : SubWave) (code : Nat) (val : W64) (hs : s.memoriesOk) : (State.raise s w q code val).memoriesOk := by
  unfold State.raise
  simp (maxDischargeDepth := 40) [*]

@[simp] theorem State.raiseFree_ok (s : State) (w : Wave) (q : SubWave) (code : Nat) (hs : s.memoriesOk) : (State.raiseFree s w q code).memoriesOk := by
  unfold State.raiseFree
  simp (maxDischargeDepth := 40) [*]

@[simp] theorem State.tlbFill_ok (s : State) (die : Nat) (c : Context) (va : Nat) (hs : s.memoriesOk) : (State.tlbFill s die c va).memoriesOk := by
  unfold State.tlbFill
  try dsimp only
  repeat' first
    | split | intro _ | with_reducible assumption | with_reducible refine (Out.memoriesOk_next _).2 ?_
    | with_reducible apply foldl_ok | with_reducible apply foldl_pair_ok | with_reducible apply ite_ok | with_reducible apply ite2_ok
  all_goals try simp (maxDischargeDepth := 40) [*]

@[simp] theorem State.fetchFill_ok (s : State) (die : Nat) (c : Context) (a : W64) (hs : s.memoriesOk) : (State.fetchFill s die c a).memoriesOk := by
  unfold State.fetchFill
  try dsimp only
  repeat' first
    | split | intro _ | with_reducible assumption | with_reducible refine (Out.memoriesOk_next _).2 ?_
    | with_reducible apply foldl_ok | with_reducible apply foldl_pair_ok | with_reducible apply ite_ok | with_reducible apply ite2_ok
    | with_reducible apply State.tlbFill_ok
  all_goals try simp (maxDischargeDepth := 40) [*]

@[simp] theorem State.flagWave_ok (s : State) (wid : Nat) (cid : Nat) (f : Flags) (hs : s.memoriesOk) : (State.flagWave s wid cid f).memoriesOk := by
  unfold State.flagWave
  try dsimp only
  repeat' split
  all_goals simp (maxDischargeDepth := 40) [*]

@[simp] theorem State.laneOp_ok (s : State) (w : Wave) (q : SubWave) (m : W32) (d : Nat) (calls : Nat) (f : Nat → (Nat → W64) → W32 × Flags) (hs : s.memoriesOk) : (State.laneOp s w q m d calls f).memoriesOk := by
  unfold State.laneOp
  simp (maxDischargeDepth := 40) [*]

@[simp] theorem State.laneCmp_ok (s : State) (w : Wave) (q : SubWave) (m : W32) (d : Nat) (f : Nat → Bool × Flags) (hs : s.memoriesOk) : (State.laneCmp s w q m d f).memoriesOk := by
  unfold State.laneCmp
  simp (maxDischargeDepth := 40) [*]

@[simp] theorem State.vecGuarded_ok (s : State) (w : Wave) (q : SubWave) (m : W32) (fields : List Nat) (typeOk : Bool) (k : State) (hs : s.memoriesOk) (hk : k.memoriesOk) : (State.vecGuarded s w q m fields typeOk k).memoriesOk := by
  unfold State.vecGuarded
  try dsimp only
  repeat' split
  all_goals simp (maxDischargeDepth := 40) [*]

@[simp] theorem State.vec_ok (s : State) (m : BitVec 2) (fields : List (BitVec 7)) (typeOk : Nat → Bool) (k : Wave → SubWave → W32 → State) (hs : s.memoriesOk) (hk : ∀ x0 x1 x2, (k x0 x1 x2).memoriesOk) : (State.vec s m fields typeOk k).memoriesOk := by
  unfold State.vec
  simp (maxDischargeDepth := 40) [*]

@[simp] theorem State.scalarOp_ok (s : State) (d : Nat) (f : Wave → W64) (hs : s.memoriesOk) : (State.scalarOp s d f).memoriesOk := by
  unfold State.scalarOp
  simp (maxDischargeDepth := 40) [*]

@[simp] theorem State.predOp_ok (s : State) (d : Nat) (f : Wave → W32) (hs : s.memoriesOk) : (State.predOp s d f).memoriesOk := by
  unfold State.predOp
  simp (maxDischargeDepth := 40) [*]

@[simp] theorem execSadd_ok (d : BitVec 6) (a : BitVec 6) (b : BitVec 6) (s : State) (hs : s.memoriesOk) : Out.memoriesOk (execSadd d a b s) := by
  unfold execSadd
  simp (maxDischargeDepth := 40) [*]

@[simp] theorem execSsub_ok (d : BitVec 6) (a : BitVec 6) (b : BitVec 6) (s : State) (hs : s.memoriesOk) : Out.memoriesOk (execSsub d a b s) := by
  unfold execSsub
  simp (maxDischargeDepth := 40) [*]

@[simp] theorem execSmul_ok (d : BitVec 6) (a : BitVec 6) (b : BitVec 6) (s : State) (hs : s.memoriesOk) : Out.memoriesOk (execSmul d a b s) := by
  unfold execSmul
  simp (maxDischargeDepth := 40) [*]

@[simp] theorem execSmulh_ok (d : BitVec 6) (a : BitVec 6) (b : BitVec 6) (s : State) (hs : s.memoriesOk) : Out.memoriesOk (execSmulh d a b s) := by
  unfold execSmulh
  simp (maxDischargeDepth := 40) [*]

@[simp] theorem execSmulhn_ok (d : BitVec 6) (a : BitVec 6) (b : BitVec 6) (s : State) (hs : s.memoriesOk) : Out.memoriesOk (execSmulhn d a b s) := by
  unfold execSmulhn
  simp (maxDischargeDepth := 40) [*]

@[simp] theorem execSand_ok (d : BitVec 6) (a : BitVec 6) (b : BitVec 6) (s : State) (hs : s.memoriesOk) : Out.memoriesOk (execSand d a b s) := by
  unfold execSand
  simp (maxDischargeDepth := 40) [*]

@[simp] theorem execSor_ok (d : BitVec 6) (a : BitVec 6) (b : BitVec 6) (s : State) (hs : s.memoriesOk) : Out.memoriesOk (execSor d a b s) := by
  unfold execSor
  simp (maxDischargeDepth := 40) [*]

@[simp] theorem execSxor_ok (d : BitVec 6) (a : BitVec 6) (b : BitVec 6) (s : State) (hs : s.memoriesOk) : Out.memoriesOk (execSxor d a b s) := by
  unfold execSxor
  simp (maxDischargeDepth := 40) [*]

@[simp] theorem execSandn_ok (d : BitVec 6) (a : BitVec 6) (b : BitVec 6) (s : State) (hs : s.memoriesOk) : Out.memoriesOk (execSandn d a b s) := by
  unfold execSandn
  simp (maxDischargeDepth := 40) [*]

@[simp] theorem execSshl_ok (d : BitVec 6) (a : BitVec 6) (b : BitVec 6) (s : State) (hs : s.memoriesOk) : Out.memoriesOk (execSshl d a b s) := by
  unfold execSshl
  simp (maxDischargeDepth := 40) [*]

@[simp] theorem execSshr_ok (d : BitVec 6) (a : BitVec 6) (b : BitVec 6) (s : State) (hs : s.memoriesOk) : Out.memoriesOk (execSshr d a b s) := by
  unfold execSshr
  simp (maxDischargeDepth := 40) [*]

@[simp] theorem execSsra_ok (d : BitVec 6) (a : BitVec 6) (b : BitVec 6) (s : State) (hs : s.memoriesOk) : Out.memoriesOk (execSsra d a b s) := by
  unfold execSsra
  simp (maxDischargeDepth := 40) [*]

@[simp] theorem execSmin_ok (d : BitVec 6) (a : BitVec 6) (b : BitVec 6) (s : State) (hs : s.memoriesOk) : Out.memoriesOk (execSmin d a b s) := by
  unfold execSmin
  simp (maxDischargeDepth := 40) [*]

@[simp] theorem execSmax_ok (d : BitVec 6) (a : BitVec 6) (b : BitVec 6) (s : State) (hs : s.memoriesOk) : Out.memoriesOk (execSmax d a b s) := by
  unfold execSmax
  simp (maxDischargeDepth := 40) [*]

@[simp] theorem execSminn_ok (d : BitVec 6) (a : BitVec 6) (b : BitVec 6) (s : State) (hs : s.memoriesOk) : Out.memoriesOk (execSminn d a b s) := by
  unfold execSminn
  simp (maxDischargeDepth := 40) [*]

@[simp] theorem execSmaxn_ok (d : BitVec 6) (a : BitVec 6) (b : BitVec 6) (s : State) (hs : s.memoriesOk) : Out.memoriesOk (execSmaxn d a b s) := by
  unfold execSmaxn
  simp (maxDischargeDepth := 40) [*]

@[simp] theorem execSseq_ok (d : BitVec 6) (a : BitVec 6) (b : BitVec 6) (s : State) (hs : s.memoriesOk) : Out.memoriesOk (execSseq d a b s) := by
  unfold execSseq
  simp (maxDischargeDepth := 40) [*]

@[simp] theorem execSsne_ok (d : BitVec 6) (a : BitVec 6) (b : BitVec 6) (s : State) (hs : s.memoriesOk) : Out.memoriesOk (execSsne d a b s) := by
  unfold execSsne
  simp (maxDischargeDepth := 40) [*]

@[simp] theorem execSslt_ok (d : BitVec 6) (a : BitVec 6) (b : BitVec 6) (s : State) (hs : s.memoriesOk) : Out.memoriesOk (execSslt d a b s) := by
  unfold execSslt
  simp (maxDischargeDepth := 40) [*]

@[simp] theorem execSsle_ok (d : BitVec 6) (a : BitVec 6) (b : BitVec 6) (s : State) (hs : s.memoriesOk) : Out.memoriesOk (execSsle d a b s) := by
  unfold execSsle
  simp (maxDischargeDepth := 40) [*]

@[simp] theorem execSsltn_ok (d : BitVec 6) (a : BitVec 6) (b : BitVec 6) (s : State) (hs : s.memoriesOk) : Out.memoriesOk (execSsltn d a b s) := by
  unfold execSsltn
  simp (maxDischargeDepth := 40) [*]

@[simp] theorem execSslen_ok (d : BitVec 6) (a : BitVec 6) (b : BitVec 6) (s : State) (hs : s.memoriesOk) : Out.memoriesOk (execSslen d a b s) := by
  unfold execSslen
  simp (maxDischargeDepth := 40) [*]

@[simp] theorem execSclz_ok (d : BitVec 6) (a : BitVec 6) (s : State) (hs : s.memoriesOk) : Out.memoriesOk (execSclz d a s) := by
  unfold execSclz
  simp (maxDischargeDepth := 40) [*]

@[simp] theorem execSpopc_ok (d : BitVec 6) (a : BitVec 6) (s : State) (hs : s.memoriesOk) : Out.memoriesOk (execSpopc d a s) := by
  unfold execSpopc
  simp (maxDischargeDepth := 40) [*]

@[simp] theorem execPand_ok (d : BitVec 6) (a : BitVec 6) (b : BitVec 6) (s : State) (hs : s.memoriesOk) : Out.memoriesOk (execPand d a b s) := by
  unfold execPand
  simp (maxDischargeDepth := 40) [*]

@[simp] theorem execPor_ok (d : BitVec 6) (a : BitVec 6) (b : BitVec 6) (s : State) (hs : s.memoriesOk) : Out.memoriesOk (execPor d a b s) := by
  unfold execPor
  simp (maxDischargeDepth := 40) [*]

@[simp] theorem execPxor_ok (d : BitVec 6) (a : BitVec 6) (b : BitVec 6) (s : State) (hs : s.memoriesOk) : Out.memoriesOk (execPxor d a b s) := by
  unfold execPxor
  simp (maxDischargeDepth := 40) [*]

@[simp] theorem execPandn_ok (d : BitVec 6) (a : BitVec 6) (b : BitVec 6) (s : State) (hs : s.memoriesOk) : Out.memoriesOk (execPandn d a b s) := by
  unfold execPandn
  simp (maxDischargeDepth := 40) [*]

@[simp] theorem execPnot_ok (d : BitVec 6) (a : BitVec 6) (s : State) (hs : s.memoriesOk) : Out.memoriesOk (execPnot d a s) := by
  unfold execPnot
  simp (maxDischargeDepth := 40) [*]

@[simp] theorem execPmovs_ok (d : BitVec 6) (a : BitVec 6) (s : State) (hs : s.memoriesOk) : Out.memoriesOk (execPmovs d a s) := by
  unfold execPmovs
  simp (maxDischargeDepth := 40) [*]

@[simp] theorem execSmovp_ok (d : BitVec 6) (a : BitVec 6) (s : State) (hs : s.memoriesOk) : Out.memoriesOk (execSmovp d a s) := by
  unfold execSmovp
  simp (maxDischargeDepth := 40) [*]

@[simp] theorem execPcnt_ok (d : BitVec 6) (a : BitVec 6) (b : BitVec 6) (s : State) (hs : s.memoriesOk) : Out.memoriesOk (execPcnt d a b s) := by
  unfold execPcnt
  simp (maxDischargeDepth := 40) [*]

@[simp] theorem execPfirst_ok (d : BitVec 6) (a : BitVec 6) (b : BitVec 6) (s : State) (hs : s.memoriesOk) : Out.memoriesOk (execPfirst d a b s) := by
  unfold execPfirst
  simp (maxDischargeDepth := 40) [*]

@[simp] theorem execSaddi_ok (d : BitVec 6) (a : BitVec 6) (i : BitVec 12) (s : State) (hs : s.memoriesOk) : Out.memoriesOk (execSaddi d a i s) := by
  unfold execSaddi
  simp (maxDischargeDepth := 40) [*]

@[simp] theorem execSandi_ok (d : BitVec 6) (a : BitVec 6) (i : BitVec 12) (s : State) (hs : s.memoriesOk) : Out.memoriesOk (execSandi d a i s) := by
  unfold execSandi
  simp (maxDischargeDepth := 40) [*]

@[simp] theorem execSori_ok (d : BitVec 6) (a : BitVec 6) (i : BitVec 12) (s : State) (hs : s.memoriesOk) : Out.memoriesOk (execSori d a i s) := by
  unfold execSori
  simp (maxDischargeDepth := 40) [*]

@[simp] theorem execSxori_ok (d : BitVec 6) (a : BitVec 6) (i : BitVec 12) (s : State) (hs : s.memoriesOk) : Out.memoriesOk (execSxori d a i s) := by
  unfold execSxori
  simp (maxDischargeDepth := 40) [*]

@[simp] theorem execSshli_ok (d : BitVec 6) (a : BitVec 6) (n : BitVec 6) (s : State) (hs : s.memoriesOk) : Out.memoriesOk (execSshli d a n s) := by
  unfold execSshli
  simp (maxDischargeDepth := 40) [*]

@[simp] theorem execSshri_ok (d : BitVec 6) (a : BitVec 6) (n : BitVec 6) (s : State) (hs : s.memoriesOk) : Out.memoriesOk (execSshri d a n s) := by
  unfold execSshri
  simp (maxDischargeDepth := 40) [*]

@[simp] theorem execSsrai_ok (d : BitVec 6) (a : BitVec 6) (n : BitVec 6) (s : State) (hs : s.memoriesOk) : Out.memoriesOk (execSsrai d a n s) := by
  unfold execSsrai
  simp (maxDischargeDepth := 40) [*]

@[simp] theorem execSmovi_ok (d : BitVec 6) (p : BitVec 2) (i : BitVec 16) (s : State) (hs : s.memoriesOk) : Out.memoriesOk (execSmovi d p i s) := by
  unfold execSmovi
  simp (maxDischargeDepth := 40) [*]

@[simp] theorem execSinsi_ok (d : BitVec 6) (p : BitVec 2) (i : BitVec 16) (s : State) (hs : s.memoriesOk) : Out.memoriesOk (execSinsi d p i s) := by
  unfold execSinsi
  simp (maxDischargeDepth := 40) [*]

@[simp] theorem execSseqi_ok (d : BitVec 6) (a : BitVec 6) (i : BitVec 12) (s : State) (hs : s.memoriesOk) : Out.memoriesOk (execSseqi d a i s) := by
  unfold execSseqi
  simp (maxDischargeDepth := 40) [*]

@[simp] theorem execSslti_ok (d : BitVec 6) (a : BitVec 6) (i : BitVec 12) (s : State) (hs : s.memoriesOk) : Out.memoriesOk (execSslti d a i s) := by
  unfold execSslti
  simp (maxDischargeDepth := 40) [*]

@[simp] theorem execSsltni_ok (d : BitVec 6) (a : BitVec 6) (i : BitVec 12) (s : State) (hs : s.memoriesOk) : Out.memoriesOk (execSsltni d a i s) := by
  unfold execSsltni
  simp (maxDischargeDepth := 40) [*]

@[simp] theorem State.vint_ok (s : State) (m : BitVec 2) (d : BitVec 7) (a : BitVec 7) (y : Wave → W32 → Nat → W32) (fields : List (BitVec 7)) (f : IntElem → Nat × Flags) (hs : s.memoriesOk) : (State.vint s m d a y fields f).memoriesOk := by
  unfold State.vint
  simp (maxDischargeDepth := 40) [*]

@[simp] theorem State.vbits_ok (s : State) (m : BitVec 2) (d : BitVec 7) (fields : List (BitVec 7)) (f : Wave → W32 → Nat → W32) (hs : s.memoriesOk) : (State.vbits s m d fields f).memoriesOk := by
  unfold State.vbits
  simp (maxDischargeDepth := 40) [*]

@[simp] theorem State.vicmp_ok (s : State) (m : BitVec 2) (d : BitVec 7) (a : BitVec 7) (b : BitVec 7) (some_ : Bool) (f : Int → Int → Bool) (hs : s.memoriesOk) : (State.vicmp s m d a b some_ f).memoriesOk := by
  unfold State.vicmp
  simp (maxDischargeDepth := 40) [*]

@[simp] theorem execVadd_ok (m : BitVec 2) (d : BitVec 7) (a : BitVec 7) (b : BitVec 7) (s : State) (hs : s.memoriesOk) : Out.memoriesOk (execVadd m d a b s) := by
  unfold execVadd
  simp (maxDischargeDepth := 40) [*]

@[simp] theorem execVsub_ok (m : BitVec 2) (d : BitVec 7) (a : BitVec 7) (b : BitVec 7) (s : State) (hs : s.memoriesOk) : Out.memoriesOk (execVsub m d a b s) := by
  unfold execVsub
  simp (maxDischargeDepth := 40) [*]

@[simp] theorem execVmul_ok (m : BitVec 2) (d : BitVec 7) (a : BitVec 7) (b : BitVec 7) (s : State) (hs : s.memoriesOk) : Out.memoriesOk (execVmul m d a b s) := by
  unfold execVmul
  simp (maxDischargeDepth := 40) [*]

@[simp] theorem execVmulh_ok (m : BitVec 2) (d : BitVec 7) (a : BitVec 7) (b : BitVec 7) (s : State) (hs : s.memoriesOk) : Out.memoriesOk (execVmulh m d a b s) := by
  unfold execVmulh
  simp (maxDischargeDepth := 40) [*]

@[simp] theorem execVmad_ok (m : BitVec 2) (d : BitVec 7) (a : BitVec 7) (b : BitVec 7) (s : State) (hs : s.memoriesOk) : Out.memoriesOk (execVmad m d a b s) := by
  unfold execVmad
  simp (maxDischargeDepth := 40) [*]

@[simp] theorem execVadds_ok (m : BitVec 2) (d : BitVec 7) (a : BitVec 7) (b : BitVec 7) (s : State) (hs : s.memoriesOk) : Out.memoriesOk (execVadds m d a b s) := by
  unfold execVadds
  simp (maxDischargeDepth := 40) [*]

@[simp] theorem execVsubs_ok (m : BitVec 2) (d : BitVec 7) (a : BitVec 7) (b : BitVec 7) (s : State) (hs : s.memoriesOk) : Out.memoriesOk (execVsubs m d a b s) := by
  unfold execVsubs
  simp (maxDischargeDepth := 40) [*]

@[simp] theorem execVand_ok (m : BitVec 2) (d : BitVec 7) (a : BitVec 7) (b : BitVec 7) (s : State) (hs : s.memoriesOk) : Out.memoriesOk (execVand m d a b s) := by
  unfold execVand
  simp (maxDischargeDepth := 40) [*]

@[simp] theorem execVor_ok (m : BitVec 2) (d : BitVec 7) (a : BitVec 7) (b : BitVec 7) (s : State) (hs : s.memoriesOk) : Out.memoriesOk (execVor m d a b s) := by
  unfold execVor
  simp (maxDischargeDepth := 40) [*]

@[simp] theorem execVxor_ok (m : BitVec 2) (d : BitVec 7) (a : BitVec 7) (b : BitVec 7) (s : State) (hs : s.memoriesOk) : Out.memoriesOk (execVxor m d a b s) := by
  unfold execVxor
  simp (maxDischargeDepth := 40) [*]

@[simp] theorem execVandn_ok (m : BitVec 2) (d : BitVec 7) (a : BitVec 7) (b : BitVec 7) (s : State) (hs : s.memoriesOk) : Out.memoriesOk (execVandn m d a b s) := by
  unfold execVandn
  simp (maxDischargeDepth := 40) [*]

@[simp] theorem execVshl_ok (m : BitVec 2) (d : BitVec 7) (a : BitVec 7) (b : BitVec 7) (s : State) (hs : s.memoriesOk) : Out.memoriesOk (execVshl m d a b s) := by
  unfold execVshl
  simp (maxDischargeDepth := 40) [*]

@[simp] theorem execVshr_ok (m : BitVec 2) (d : BitVec 7) (a : BitVec 7) (b : BitVec 7) (s : State) (hs : s.memoriesOk) : Out.memoriesOk (execVshr m d a b s) := by
  unfold execVshr
  simp (maxDischargeDepth := 40) [*]

@[simp] theorem execVsra_ok (m : BitVec 2) (d : BitVec 7) (a : BitVec 7) (b : BitVec 7) (s : State) (hs : s.memoriesOk) : Out.memoriesOk (execVsra m d a b s) := by
  unfold execVsra
  simp (maxDischargeDepth := 40) [*]

@[simp] theorem execVmin_ok (m : BitVec 2) (d : BitVec 7) (a : BitVec 7) (b : BitVec 7) (s : State) (hs : s.memoriesOk) : Out.memoriesOk (execVmin m d a b s) := by
  unfold execVmin
  simp (maxDischargeDepth := 40) [*]

@[simp] theorem execVmax_ok (m : BitVec 2) (d : BitVec 7) (a : BitVec 7) (b : BitVec 7) (s : State) (hs : s.memoriesOk) : Out.memoriesOk (execVmax m d a b s) := by
  unfold execVmax
  simp (maxDischargeDepth := 40) [*]

@[simp] theorem execVabs_ok (m : BitVec 2) (d : BitVec 7) (a : BitVec 7) (s : State) (hs : s.memoriesOk) : Out.memoriesOk (execVabs m d a s) := by
  unfold execVabs
  simp (maxDischargeDepth := 40) [*]

@[simp] theorem execVclz_ok (m : BitVec 2) (d : BitVec 7) (a : BitVec 7) (s : State) (hs : s.memoriesOk) : Out.memoriesOk (execVclz m d a s) := by
  unfold execVclz
  simp (maxDischargeDepth := 40) [*]

@[simp] theorem execVpopc_ok (m : BitVec 2) (d : BitVec 7) (a : BitVec 7) (s : State) (hs : s.memoriesOk) : Out.memoriesOk (execVpopc m d a s) := by
  unfold execVpopc
  simp (maxDischargeDepth := 40) [*]

@[simp] theorem execVsel_ok (m : BitVec 2) (d : BitVec 7) (a : BitVec 7) (b : BitVec 7) (s : State) (hs : s.memoriesOk) : Out.memoriesOk (execVsel m d a b s) := by
  unfold execVsel
  simp (maxDischargeDepth := 40) [*]

@[simp] theorem execVcmpeq_ok (m : BitVec 2) (d : BitVec 7) (a : BitVec 7) (b : BitVec 7) (s : State) (hs : s.memoriesOk) : Out.memoriesOk (execVcmpeq m d a b s) := by
  unfold execVcmpeq
  simp (maxDischargeDepth := 40) [*]

@[simp] theorem execVcmpne_ok (m : BitVec 2) (d : BitVec 7) (a : BitVec 7) (b : BitVec 7) (s : State) (hs : s.memoriesOk) : Out.memoriesOk (execVcmpne m d a b s) := by
  unfold execVcmpne
  simp (maxDischargeDepth := 40) [*]

@[simp] theorem execVcmplt_ok (m : BitVec 2) (d : BitVec 7) (a : BitVec 7) (b : BitVec 7) (s : State) (hs : s.memoriesOk) : Out.memoriesOk (execVcmplt m d a b s) := by
  unfold execVcmplt
  simp (maxDischargeDepth := 40) [*]

@[simp] theorem execVcmple_ok (m : BitVec 2) (d : BitVec 7) (a : BitVec 7) (b : BitVec 7) (s : State) (hs : s.memoriesOk) : Out.memoriesOk (execVcmple m d a b s) := by
  unfold execVcmple
  simp (maxDischargeDepth := 40) [*]

@[simp] theorem State.vidot_ok (s : State) (m : BitVec 2) (d : BitVec 7) (a : BitVec 7) (b : BitVec 7) (types : List Nat) (hs : s.memoriesOk) : (State.vidot s m d a b types).memoriesOk := by
  unfold State.vidot
  simp (maxDischargeDepth := 40) [*]

@[simp] theorem execVdot4_ok (m : BitVec 2) (d : BitVec 7) (a : BitVec 7) (b : BitVec 7) (s : State) (hs : s.memoriesOk) : Out.memoriesOk (execVdot4 m d a b s) := by
  unfold execVdot4
  simp (maxDischargeDepth := 40) [*]

@[simp] theorem execVdot8_ok (m : BitVec 2) (d : BitVec 7) (a : BitVec 7) (b : BitVec 7) (s : State) (hs : s.memoriesOk) : Out.memoriesOk (execVdot8 m d a b s) := by
  unfold execVdot8
  simp (maxDischargeDepth := 40) [*]

@[simp] theorem execVbfe_ok (m : BitVec 2) (d : BitVec 7) (a : BitVec 7) (b : BitVec 7) (s : State) (hs : s.memoriesOk) : Out.memoriesOk (execVbfe m d a b s) := by
  unfold execVbfe
  simp (maxDischargeDepth := 40) [*]

@[simp] theorem execVbfi_ok (m : BitVec 2) (d : BitVec 7) (a : BitVec 7) (b : BitVec 7) (s : State) (hs : s.memoriesOk) : Out.memoriesOk (execVbfi m d a b s) := by
  unfold execVbfi
  simp (maxDischargeDepth := 40) [*]

@[simp] theorem execVaddi_ok (m : BitVec 2) (d : BitVec 7) (a : BitVec 7) (i : BitVec 9) (s : State) (hs : s.memoriesOk) : Out.memoriesOk (execVaddi m d a i s) := by
  unfold execVaddi
  simp (maxDischargeDepth := 40) [*]

@[simp] theorem execVandi_ok (m : BitVec 2) (d : BitVec 7) (a : BitVec 7) (i : BitVec 9) (s : State) (hs : s.memoriesOk) : Out.memoriesOk (execVandi m d a i s) := by
  unfold execVandi
  simp (maxDischargeDepth := 40) [*]

@[simp] theorem execVori_ok (m : BitVec 2) (d : BitVec 7) (a : BitVec 7) (i : BitVec 9) (s : State) (hs : s.memoriesOk) : Out.memoriesOk (execVori m d a i s) := by
  unfold execVori
  simp (maxDischargeDepth := 40) [*]

@[simp] theorem execVxori_ok (m : BitVec 2) (d : BitVec 7) (a : BitVec 7) (i : BitVec 9) (s : State) (hs : s.memoriesOk) : Out.memoriesOk (execVxori m d a i s) := by
  unfold execVxori
  simp (maxDischargeDepth := 40) [*]

@[simp] theorem execVshli_ok (m : BitVec 2) (d : BitVec 7) (a : BitVec 7) (n : BitVec 5) (s : State) (hs : s.memoriesOk) : Out.memoriesOk (execVshli m d a n s) := by
  unfold execVshli
  simp (maxDischargeDepth := 40) [*]

@[simp] theorem execVshri_ok (m : BitVec 2) (d : BitVec 7) (a : BitVec 7) (n : BitVec 5) (s : State) (hs : s.memoriesOk) : Out.memoriesOk (execVshri m d a n s) := by
  unfold execVshri
  simp (maxDischargeDepth := 40) [*]

@[simp] theorem execVsrai_ok (m : BitVec 2) (d : BitVec 7) (a : BitVec 7) (n : BitVec 5) (s : State) (hs : s.memoriesOk) : Out.memoriesOk (execVsrai m d a n s) := by
  unfold execVsrai
  simp (maxDischargeDepth := 40) [*]

@[simp] theorem execVmovi_ok (m : BitVec 2) (d : BitVec 7) (i : BitVec 9) (s : State) (hs : s.memoriesOk) : Out.memoriesOk (execVmovi m d i s) := by
  unfold execVmovi
  simp (maxDischargeDepth := 40) [*]

@[simp] theorem State.vflt_ok (s : State) (m : BitVec 2) (d : BitVec 7) (a : BitVec 7) (b : Option (BitVec 7)) (fields : List (BitVec 7)) (f : RMode →   Fmt →     Num →       Num → Num → Num × Flags) (hs : s.memoriesOk) : (State.vflt s m d a b fields f).memoriesOk := by
  unfold State.vflt
  simp (maxDischargeDepth := 40) [*]

@[simp] theorem State.vfltRaw_ok (s : State) (m : BitVec 2) (d : BitVec 7) (a : BitVec 7) (b : Option (BitVec 7)) (types : Nat → Bool) (fields : List (BitVec 7)) (f : W32 → Fmt → Nat → Nat → Nat × Flags) (hs : s.memoriesOk) : (State.vfltRaw s m d a b types fields f).memoriesOk := by
  unfold State.vfltRaw
  simp (maxDischargeDepth := 40) [*]

@[simp] theorem execVfadd_ok (m : BitVec 2) (d : BitVec 7) (a : BitVec 7) (b : BitVec 7) (s : State) (hs : s.memoriesOk) : Out.memoriesOk (execVfadd m d a b s) := by
  unfold execVfadd
  simp (maxDischargeDepth := 40) [*]

@[simp] theorem execVfsub_ok (m : BitVec 2) (d : BitVec 7) (a : BitVec 7) (b : BitVec 7) (s : State) (hs : s.memoriesOk) : Out.memoriesOk (execVfsub m d a b s) := by
  unfold execVfsub
  simp (maxDischargeDepth := 40) [*]

@[simp] theorem execVfmul_ok (m : BitVec 2) (d : BitVec 7) (a : BitVec 7) (b : BitVec 7) (s : State) (hs : s.memoriesOk) : Out.memoriesOk (execVfmul m d a b s) := by
  unfold execVfmul
  simp (maxDischargeDepth := 40) [*]

@[simp] theorem execVfma_ok (m : BitVec 2) (d : BitVec 7) (a : BitVec 7) (b : BitVec 7) (s : State) (hs : s.memoriesOk) : Out.memoriesOk (execVfma m d a b s) := by
  unfold execVfma
  simp (maxDischargeDepth := 40) [*]

@[simp] theorem execVfmin_ok (m : BitVec 2) (d : BitVec 7) (a : BitVec 7) (b : BitVec 7) (s : State) (hs : s.memoriesOk) : Out.memoriesOk (execVfmin m d a b s) := by
  unfold execVfmin
  simp (maxDischargeDepth := 40) [*]

@[simp] theorem execVfmax_ok (m : BitVec 2) (d : BitVec 7) (a : BitVec 7) (b : BitVec 7) (s : State) (hs : s.memoriesOk) : Out.memoriesOk (execVfmax m d a b s) := by
  unfold execVfmax
  simp (maxDischargeDepth := 40) [*]

@[simp] theorem execVfneg_ok (m : BitVec 2) (d : BitVec 7) (a : BitVec 7) (s : State) (hs : s.memoriesOk) : Out.memoriesOk (execVfneg m d a s) := by
  unfold execVfneg
  simp (maxDischargeDepth := 40) [*]

@[simp] theorem execVfabs_ok (m : BitVec 2) (d : BitVec 7) (a : BitVec 7) (s : State) (hs : s.memoriesOk) : Out.memoriesOk (execVfabs m d a s) := by
  unfold execVfabs
  simp (maxDischargeDepth := 40) [*]

@[simp] theorem State.vfcmp_ok (s : State) (m : BitVec 2) (d : BitVec 7) (a : BitVec 7) (b : BitVec 7) (some_ : Bool) (quiet : Bool) (f : Num → Num → Bool) (hs : s.memoriesOk) : (State.vfcmp s m d a b some_ quiet f).memoriesOk := by
  unfold State.vfcmp
  simp (maxDischargeDepth := 40) [*]

@[simp] theorem execVfcmpeq_ok (m : BitVec 2) (d : BitVec 7) (a : BitVec 7) (b : BitVec 7) (s : State) (hs : s.memoriesOk) : Out.memoriesOk (execVfcmpeq m d a b s) := by
  unfold execVfcmpeq
  simp (maxDischargeDepth := 40) [*]

@[simp] theorem execVfcmplt_ok (m : BitVec 2) (d : BitVec 7) (a : BitVec 7) (b : BitVec 7) (s : State) (hs : s.memoriesOk) : Out.memoriesOk (execVfcmplt m d a b s) := by
  unfold execVfcmplt
  simp (maxDischargeDepth := 40) [*]

@[simp] theorem execVfcmple_ok (m : BitVec 2) (d : BitVec 7) (a : BitVec 7) (b : BitVec 7) (s : State) (hs : s.memoriesOk) : Out.memoriesOk (execVfcmple m d a b s) := by
  unfold execVfcmple
  simp (maxDischargeDepth := 40) [*]

@[simp] theorem execVfcmpun_ok (m : BitVec 2) (d : BitVec 7) (a : BitVec 7) (b : BitVec 7) (s : State) (hs : s.memoriesOk) : Out.memoriesOk (execVfcmpun m d a b s) := by
  unfold execVfcmpun
  simp (maxDischargeDepth := 40) [*]

@[simp] theorem State.vspecial_ok (s : State) (m : BitVec 2) (d : BitVec 7) (a : BitVec 7) (fn : Special) (hs : s.memoriesOk) : (State.vspecial s m d a fn).memoriesOk := by
  unfold State.vspecial
  simp (maxDischargeDepth := 40) [*]

@[simp] theorem execVfrcp_ok (m : BitVec 2) (d : BitVec 7) (a : BitVec 7) (s : State) (hs : s.memoriesOk) : Out.memoriesOk (execVfrcp m d a s) := by
  unfold execVfrcp
  simp (maxDischargeDepth := 40) [*]

@[simp] theorem execVfrsq_ok (m : BitVec 2) (d : BitVec 7) (a : BitVec 7) (s : State) (hs : s.memoriesOk) : Out.memoriesOk (execVfrsq m d a s) := by
  unfold execVfrsq
  simp (maxDischargeDepth := 40) [*]

@[simp] theorem execVfexp2_ok (m : BitVec 2) (d : BitVec 7) (a : BitVec 7) (s : State) (hs : s.memoriesOk) : Out.memoriesOk (execVfexp2 m d a s) := by
  unfold execVfexp2
  simp (maxDischargeDepth := 40) [*]

@[simp] theorem execVflog2_ok (m : BitVec 2) (d : BitVec 7) (a : BitVec 7) (s : State) (hs : s.memoriesOk) : Out.memoriesOk (execVflog2 m d a s) := by
  unfold execVflog2
  simp (maxDischargeDepth := 40) [*]

@[simp] theorem State.vfdot_ok (s : State) (m : BitVec 2) (d : BitVec 7) (a : BitVec 7) (b : BitVec 7) (types : List Nat) (hs : s.memoriesOk) : (State.vfdot s m d a b types).memoriesOk := by
  unfold State.vfdot
  simp (maxDischargeDepth := 40) [*]

@[simp] theorem execVfdot4_ok (m : BitVec 2) (d : BitVec 7) (a : BitVec 7) (b : BitVec 7) (s : State) (hs : s.memoriesOk) : Out.memoriesOk (execVfdot4 m d a b s) := by
  unfold execVfdot4
  simp (maxDischargeDepth := 40) [*]

@[simp] theorem execVfdot8_ok (m : BitVec 2) (d : BitVec 7) (a : BitVec 7) (b : BitVec 7) (s : State) (hs : s.memoriesOk) : Out.memoriesOk (execVfdot8 m d a b s) := by
  unfold execVfdot8
  simp (maxDischargeDepth := 40) [*]

@[simp] theorem execVfscl_ok (m : BitVec 2) (d : BitVec 7) (a : BitVec 7) (b : BitVec 7) (s : State) (hs : s.memoriesOk) : Out.memoriesOk (execVfscl m d a b s) := by
  unfold execVfscl
  simp (maxDischargeDepth := 40) [*]

@[simp] theorem execVfcvt_ok (m : BitVec 2) (d : BitVec 7) (a : BitVec 7) (t : BitVec 7) (s : State) (hs : s.memoriesOk) : Out.memoriesOk (execVfcvt m d a t s) := by
  unfold execVfcvt
  simp (maxDischargeDepth := 40) [*]

@[simp] theorem execVfpk4_ok (m : BitVec 2) (d : BitVec 7) (a : BitVec 7) (s : State) (hs : s.memoriesOk) : Out.memoriesOk (execVfpk4 m d a s) := by
  unfold execVfpk4
  simp (maxDischargeDepth := 40) [*]

@[simp] theorem execVfclass_ok (m : BitVec 2) (d : BitVec 7) (a : BitVec 7) (s : State) (hs : s.memoriesOk) : Out.memoriesOk (execVfclass m d a s) := by
  unfold execVfclass
  simp (maxDischargeDepth := 40) [*]

@[simp] theorem execVfrnd_ok (m : BitVec 2) (d : BitVec 7) (a : BitVec 7) (s : State) (hs : s.memoriesOk) : Out.memoriesOk (execVfrnd m d a s) := by
  unfold execVfrnd
  simp (maxDischargeDepth := 40) [*]

@[simp] theorem State.vmove_ok (s : State) (m : BitVec 2) (d : BitVec 7) (fields : List (BitVec 7)) (f : Wave → W32 → Nat → W32) (hs : s.memoriesOk) : (State.vmove s m d fields f).memoriesOk := by
  unfold State.vmove
  simp (maxDischargeDepth := 40) [*]

@[simp] theorem execVmov_ok (m : BitVec 2) (d : BitVec 7) (a : BitVec 7) (s : State) (hs : s.memoriesOk) : Out.memoriesOk (execVmov m d a s) := by
  unfold execVmov
  simp (maxDischargeDepth := 40) [*]

@[simp] theorem execVmovs_ok (m : BitVec 2) (d : BitVec 7) (a : BitVec 7) (s : State) (hs : s.memoriesOk) : Out.memoriesOk (execVmovs m d a s) := by
  unfold execVmovs
  simp (maxDischargeDepth := 40) [*]

@[simp] theorem execVlaneid_ok (m : BitVec 2) (d : BitVec 7) (s : State) (hs : s.memoriesOk) : Out.memoriesOk (execVlaneid m d s) := by
  unfold execVlaneid
  simp (maxDischargeDepth := 40) [*]

@[simp] theorem execVbcst_ok (m : BitVec 2) (d : BitVec 7) (a : BitVec 7) (b : BitVec 7) (s : State) (hs : s.memoriesOk) : Out.memoriesOk (execVbcst m d a b s) := by
  unfold execVbcst
  simp (maxDischargeDepth := 40) [*]

@[simp] theorem execVshfl_ok (m : BitVec 2) (d : BitVec 7) (a : BitVec 7) (b : BitVec 7) (s : State) (hs : s.memoriesOk) : Out.memoriesOk (execVshfl m d a b s) := by
  unfold execVshfl
  simp (maxDischargeDepth := 40) [*]

@[simp] theorem execVrdlane_ok (m : BitVec 2) (d : BitVec 7) (a : BitVec 7) (b : BitVec 7) (s : State) (hs : s.memoriesOk) : Out.memoriesOk (execVrdlane m d a b s) := by
  unfold execVrdlane
  simp (maxDischargeDepth := 40) [*]

@[simp] theorem execVqswz_ok (m : BitVec 2) (d : BitVec 7) (a : BitVec 7) (p : BitVec 7) (s : State) (hs : s.memoriesOk) : Out.memoriesOk (execVqswz m d a p s) := by
  unfold execVqswz
  simp (maxDischargeDepth := 40) [*]

@[simp] theorem State.combOp_ok (s : State) (m : BitVec 2) (d : BitVec 7) (a : BitVec 7) (c : Comb) (vals : Wave → SubWave → W32 → Nat → List W32) (maker : Wave → SubWave → W32 → Nat → Option Nat) (hs : s.memoriesOk) : (State.combOp s m d a c vals maker).memoriesOk := by
  unfold State.combOp
  simp (maxDischargeDepth := 40) [*]

@[simp] theorem execVqsum_ok (m : BitVec 2) (d : BitVec 7) (a : BitVec 7) (s : State) (hs : s.memoriesOk) : Out.memoriesOk (execVqsum m d a s) := by
  unfold execVqsum
  simp (maxDischargeDepth := 40) [*]

@[simp] theorem execVprfx_ok (m : BitVec 2) (d : BitVec 7) (a : BitVec 7) (e : BitVec 1) (s : State) (hs : s.memoriesOk) : Out.memoriesOk (execVprfx m d a e s) := by
  unfold execVprfx
  simp (maxDischargeDepth := 40) [*]

@[simp] theorem execVredadd_ok (m : BitVec 2) (d : BitVec 7) (a : BitVec 7) (s : State) (hs : s.memoriesOk) : Out.memoriesOk (execVredadd m d a s) := by
  unfold execVredadd
  simp (maxDischargeDepth := 40) [*]

@[simp] theorem execVredmin_ok (m : BitVec 2) (d : BitVec 7) (a : BitVec 7) (s : State) (hs : s.memoriesOk) : Out.memoriesOk (execVredmin m d a s) := by
  unfold execVredmin
  simp (maxDischargeDepth := 40) [*]

@[simp] theorem execVredmax_ok (m : BitVec 2) (d : BitVec 7) (a : BitVec 7) (s : State) (hs : s.memoriesOk) : Out.memoriesOk (execVredmax m d a s) := by
  unfold execVredmax
  simp (maxDischargeDepth := 40) [*]

@[simp] theorem execVcmpct_ok (m : BitVec 2) (d : BitVec 7) (a : BitVec 7) (s : State) (hs : s.memoriesOk) : Out.memoriesOk (execVcmpct m d a s) := by
  unfold execVcmpct
  simp (maxDischargeDepth := 40) [*]

@[simp] theorem State.tlbKeep_ok (s : State) (c : Context) (ow : Owner) (l : List Nat) (hs : s.memoriesOk) : (State.tlbKeep s c ow l).memoriesOk := by
  unfold State.tlbKeep
  try dsimp only
  repeat' first
    | split | intro _ | with_reducible assumption | with_reducible refine (Out.memoriesOk_next _).2 ?_
    | with_reducible apply foldl_ok | with_reducible apply foldl_pair_ok | with_reducible apply ite_ok | with_reducible apply ite2_ok
    | with_reducible apply State.tlbFill_ok
  all_goals try simp (maxDischargeDepth := 40) [*]

@[simp] theorem State.perform_ok (s : State) (cid : Nat) (by_ : Writer) (a : Nat) (bs : List Byte) (hs : s.memoriesOk) : (State.perform s cid by_ a bs).memoriesOk := by
  unfold State.perform
  try dsimp only
  repeat' split
  all_goals simp (maxDischargeDepth := 40) [*]

@[simp] theorem State.storeAs_ok (s : State) (cid : Nat) (wid : Nat) (a : Nat) (bs : List Byte) (hs : s.memoriesOk) : (State.storeAs s cid wid a bs).memoriesOk := by
  unfold State.storeAs
  try dsimp only
  repeat' split
  all_goals simp (maxDischargeDepth := 40) [*]

@[simp] theorem State.flushHeld_ok (s : State) (cid : Nat) (p : HeldWrite → Bool) (hs : s.memoriesOk) : (State.flushHeld s cid p).memoriesOk := by
  unfold State.flushHeld
  try dsimp only
  repeat' first
    | split | intro _ | with_reducible assumption | with_reducible refine (Out.memoriesOk_next _).2 ?_
    | with_reducible apply foldl_ok | with_reducible apply foldl_pair_ok | with_reducible apply State.onIssuer_ok
    | with_reducible apply State.vec_ok | with_reducible apply State.perform_ok | with_reducible apply State.updCtx_ok
  all_goals try simp (maxDischargeDepth := 40) [*]

@[simp] theorem State.flushFor_ok (s : State) (i : Issuer) (scope : Nat) (hs : s.memoriesOk) : (State.flushFor s i scope).memoriesOk := by
  unfold State.flushFor
  try dsimp only
  repeat' first
    | split | intro _ | with_reducible assumption | with_reducible refine (Out.memoriesOk_next _).2 ?_
    | with_reducible apply foldl_ok | with_reducible apply foldl_pair_ok | with_reducible apply ite_ok | with_reducible apply ite2_ok
    | with_reducible apply State.flushHeld_ok
  all_goals try simp (maxDischargeDepth := 40) [*]

@[simp] theorem State.releaseOn_ok (s : State) (cid : Nat) (wid : Nat) (obj : Nat) (seq : Nat) (hs : s.memoriesOk) : (State.releaseOn s cid wid obj seq).memoriesOk := by
  unfold State.releaseOn
  simp (maxDischargeDepth := 40) [*]

@[simp] theorem State.acquireIf_ok (s : State) (cid : Nat) (wid : Nat) (p : Version → Bool) (hs : s.memoriesOk) : (State.acquireIf s cid wid p).memoriesOk := by
  unfold State.acquireIf
  simp (maxDischargeDepth := 40) [*]

@[simp] theorem State.acquireOn_ok (s : State) (cid : Nat) (wid : Nat) (obj : Nat) (seq : Nat) (hs : s.memoriesOk) : (State.acquireOn s cid wid obj seq).memoriesOk := by
  unfold State.acquireOn
  simp (maxDischargeDepth := 40) [*]

@[simp] theorem State.acquireEngine_ok (s : State) (cid : Nat) (wid : Nat) (p : Version → Bool) (hs : s.memoriesOk) : (State.acquireEngine s cid wid p).memoriesOk := by
  unfold State.acquireEngine
  try dsimp only
  repeat' first
    | split | intro _ | with_reducible assumption | with_reducible refine (Out.memoriesOk_next _).2 ?_
    | with_reducible apply foldl_ok | with_reducible apply foldl_pair_ok | with_reducible apply ite_ok | with_reducible apply ite2_ok
    | with_reducible apply State.acquireIf_ok | with_reducible apply State.updCtx_ok
  all_goals try simp (maxDischargeDepth := 40) [*]

@[simp] theorem State.acquireOps_ok (s : State) (cid : Nat) (wid : Nat) (ops : List Nat) (hs : s.memoriesOk) : (State.acquireOps s cid wid ops).memoriesOk := by
  unfold State.acquireOps
  simp (maxDischargeDepth := 40) [*]

@[simp] theorem State.acquireLandings_ok (s : State) (cid : Nat) (wid : Nat) (lands : List Nat) (hs : s.memoriesOk) : (State.acquireLandings s cid wid lands).memoriesOk := by
  unfold State.acquireLandings
  simp (maxDischargeDepth := 40) [*]

@[simp] theorem State.retireAccesses_ok (s : State) (hs : s.memoriesOk) : (State.retireAccesses s).memoriesOk := by
  unfold State.retireAccesses
  simp (maxDischargeDepth := 40) [*]

@[simp] theorem State.updUnit_ok (s : State) (acc : Nat) (i : Nat) (f : AccUnit → AccUnit) (hs : s.memoriesOk) : (State.updUnit s acc i f).memoriesOk := by
  unfold State.updUnit
  simp (maxDischargeDepth := 40) [*]

@[simp] theorem State.mismatch_ok (s : State) (cid : Nat) (b : Bool) (hs : s.memoriesOk) : (State.mismatch s cid b).memoriesOk := by
  unfold State.mismatch
  try dsimp only
  repeat' split
  all_goals simp (maxDischargeDepth := 40) [*]

@[simp] theorem State.sendEntries_ok (s : State) (p : RedEntry → Bool) (hs : s.memoriesOk) : (State.sendEntries s p).memoriesOk := by
  unfold State.sendEntries
  try dsimp only
  repeat' first
    | split | intro _ | with_reducible assumption | with_reducible refine (Out.memoriesOk_next _).2 ?_
    | with_reducible apply foldl_ok | with_reducible apply foldl_pair_ok | with_reducible apply State.onIssuer_ok
    | with_reducible apply State.vec_ok | with_reducible apply State.count_ok
  all_goals try simp (maxDischargeDepth := 40) [*]

@[simp] theorem State.sendCombiner_ok (s : State) (wid : Nat) (hs : s.memoriesOk) : (State.sendCombiner s wid).memoriesOk := by
  unfold State.sendCombiner
  simp (maxDischargeDepth := 40) [*]

@[simp] theorem State.launch_ok (s : State) (w : Wave) (mk : Nat → Access) (hs : s.memoriesOk) : (State.launch s w mk).memoriesOk := by
  unfold State.launch
  try dsimp only
  repeat' split
  all_goals simp (maxDischargeDepth := 40) [*]

@[simp] theorem execNop_ok (s : State) (hs : s.memoriesOk) : Out.memoriesOk (execNop s) := by
  unfold execNop
  simp (maxDischargeDepth := 40) [*]

@[simp] theorem execTrap_ok (i : BitVec 16) (s : State) (hs : s.memoriesOk) : Out.memoriesOk (execTrap i s) := by
  unfold execTrap
  simp (maxDischargeDepth := 40) [*]

@[simp] theorem execEret_ok (s : State) (hs : s.memoriesOk) : Out.memoriesOk (execEret s) := by
  unfold execEret
  try dsimp only
  repeat' first
    | split | intro _ | with_reducible assumption | with_reducible refine (Out.memoriesOk_next _).2 ?_
    | with_reducible apply foldl_ok | with_reducible apply foldl_pair_ok | with_reducible apply State.onIssuer_ok
    | with_reducible apply State.vec_ok | with_reducible apply State.put_ok | with_reducible apply State.raise_ok
  all_goals try simp (maxDischargeDepth := 40) [*]

@[simp] theorem execGetk_ok (s : BitVec 6) (k : BitVec 6) (st : State) (hst : st.memoriesOk) : Out.memoriesOk (execGetk s k st) := by
  unfold execGetk
  simp (maxDischargeDepth := 40) [*]

@[simp] theorem execSetk_ok (s : BitVec 6) (k : BitVec 6) (st : State) (hst : st.memoriesOk) : Out.memoriesOk (execSetk s k st) := by
  unfold execSetk
  try dsimp only
  repeat' first
    | split | intro _ | with_reducible assumption | with_reducible refine (Out.memoriesOk_next _).2 ?_
    | with_reducible apply foldl_ok | with_reducible apply foldl_pair_ok | with_reducible apply State.onIssuer_ok
    | with_reducible apply State.vec_ok | with_reducible apply State.raise_ok | with_reducible apply State.retire_ok
  all_goals try simp (maxDischargeDepth := 40) [*]

@[simp] theorem State.setMode_ok (s : State) (w : Wave) (q : SubWave) (m : Nat) (v : W32) (k : Wave → Wave) (hs : s.memoriesOk) : (State.setMode s w q m v k).memoriesOk := by
  unfold State.setMode
  try dsimp only
  repeat' split
  all_goals simp (maxDischargeDepth := 40) [*]

@[simp] theorem execMode_ok (m : BitVec 2) (a : BitVec 6) (s : State) (hs : s.memoriesOk) : Out.memoriesOk (execMode m a s) := by
  unfold execMode
  simp (maxDischargeDepth := 40) [*]

@[simp] theorem execModea_ok (m : BitVec 2) (a : BitVec 6) (b : BitVec 6) (s : State) (hs : s.memoriesOk) : Out.memoriesOk (execModea m a b s) := by
  unfold execModea
  simp (maxDischargeDepth := 40) [*]

@[simp] theorem execModem_ok (m : BitVec 2) (a : BitVec 6) (b : BitVec 6) (s : State) (hs : s.memoriesOk) : Out.memoriesOk (execModem m a b s) := by
  unfold execModem
  simp (maxDischargeDepth := 40) [*]

@[simp] theorem execXacq_ok (s : State) (hs : s.memoriesOk) : Out.memoriesOk (execXacq s) := by
  unfold execXacq
  try dsimp only
  repeat' first
    | split | intro _ | with_reducible assumption | with_reducible refine (Out.memoriesOk_next _).2 ?_
    | with_reducible apply foldl_ok | with_reducible apply foldl_pair_ok | with_reducible apply State.onIssuer_ok
    | with_reducible apply State.vec_ok | with_reducible apply State.put_ok | with_reducible apply State.retire_ok
  all_goals try simp (maxDischargeDepth := 40) [*]

@[simp] theorem execXrel_ok (s : State) (hs : s.memoriesOk) : Out.memoriesOk (execXrel s) := by
  unfold execXrel
  simp (maxDischargeDepth := 40) [*]

@[simp] theorem execExtendedBlockGrant_ok (quad : Nat) (s : State) (hs : s.memoriesOk) : Out.memoriesOk (execExtendedBlockGrant quad s) := by
  unfold execExtendedBlockGrant
  try dsimp only
  repeat' split
  all_goals simp (maxDischargeDepth := 40) [*]

@[simp] theorem execYield_ok (s : State) (hs : s.memoriesOk) : Out.memoriesOk (execYield s) := by
  unfold execYield
  simp (maxDischargeDepth := 40) [*]

@[simp] theorem State.tryRejoin_ok (s : State) (wid : Nat) (hs : s.memoriesOk) : (State.tryRejoin s wid).memoriesOk := by
  unfold State.tryRejoin
  try dsimp only
  repeat' split
  all_goals simp (maxDischargeDepth := 40) [*]

@[simp] theorem execRejoin_ok (s : State) (hs : s.memoriesOk) : Out.memoriesOk (execRejoin s) := by
  unfold execRejoin
  try dsimp only
  repeat' first
    | split | intro _ | with_reducible assumption | with_reducible refine (Out.memoriesOk_next _).2 ?_
    | with_reducible apply foldl_ok | with_reducible apply foldl_pair_ok | with_reducible apply State.onIssuer_ok
    | with_reducible apply State.vec_ok | with_reducible apply State.put_ok | with_reducible apply State.retire_ok
    | with_reducible apply State.tryRejoin_ok
  all_goals try simp (maxDischargeDepth := 40) [*]

@[simp] theorem execFence_ok (k : BitVec 4) (c : BitVec 4) (s : State) (hs : s.memoriesOk) : Out.memoriesOk (execFence k c s) := by
  unfold execFence
  try dsimp only
  repeat' first
    | split | intro _ | with_reducible assumption | with_reducible refine (Out.memoriesOk_next _).2 ?_
    | with_reducible apply foldl_ok | with_reducible apply foldl_pair_ok | with_reducible apply State.onIssuer_ok
    | with_reducible apply State.vec_ok | with_reducible apply State.again_ok | with_reducible apply State.raise_ok
    | with_reducible apply State.retire_ok | with_reducible apply State.sendCombiner_ok
  all_goals try simp (maxDischargeDepth := 40) [*]

@[simp] theorem execWaitc_ok (l : BitVec 4) (st : BitVec 4) (c : BitVec 4) (m : BitVec 4) (s : State) (hs : s.memoriesOk) : Out.memoriesOk (execWaitc l st c m s) := by
  unfold execWaitc
  try dsimp only
  repeat' first
    | split | intro _ | with_reducible assumption | with_reducible refine (Out.memoriesOk_next _).2 ?_
    | with_reducible apply foldl_ok | with_reducible apply foldl_pair_ok | with_reducible apply State.onIssuer_ok
    | with_reducible apply State.vec_ok | with_reducible apply State.acquireOps_ok | with_reducible apply State.again_ok
    | with_reducible apply State.retire_ok
  all_goals try simp (maxDischargeDepth := 40) [*]

@[simp] theorem execTick_ok (s : BitVec 6) (st : State) (hst : st.memoriesOk) : Out.memoriesOk (execTick s st) := by
  unfold execTick
  simp (maxDischargeDepth := 40) [*]

@[simp] theorem State.jump_ok (s : State) (w : Wave) (q : SubWave) (target : W64) (link : Bool) (hs : s.memoriesOk) : (State.jump s w q target link).memoriesOk := by
  unfold State.jump
  try dsimp only
  repeat' split
  all_goals simp (maxDischargeDepth := 40) [*]

@[simp] theorem execJmp_ok (s : BitVec 6) (st : State) (hst : st.memoriesOk) : Out.memoriesOk (execJmp s st) := by
  unfold execJmp
  simp (maxDischargeDepth := 40) [*]

@[simp] theorem execCallr_ok (s : BitVec 6) (st : State) (hst : st.memoriesOk) : Out.memoriesOk (execCallr s st) := by
  unfold execCallr
  simp (maxDischargeDepth := 40) [*]

@[simp] theorem execBra_ok (o : BitVec 19) (s : State) (hs : s.memoriesOk) : Out.memoriesOk (execBra o s) := by
  unfold execBra
  simp (maxDischargeDepth := 40) [*]

@[simp] theorem execCall_ok (o : BitVec 19) (s : State) (hs : s.memoriesOk) : Out.memoriesOk (execCall o s) := by
  unfold execCall
  simp (maxDischargeDepth := 40) [*]

@[simp] theorem State.branchIf_ok (s : State) (o : BitVec 19) (f : Wave → Bool) (hs : s.memoriesOk) : (State.branchIf s o f).memoriesOk := by
  unfold State.branchIf
  try dsimp only
  repeat' first
    | split | intro _ | with_reducible assumption | with_reducible refine (Out.memoriesOk_next _).2 ?_
    | with_reducible apply foldl_ok | with_reducible apply foldl_pair_ok | with_reducible apply State.onIssuer_ok
    | with_reducible apply State.vec_ok | with_reducible apply State.jump_ok | with_reducible apply State.retire_ok
  all_goals try simp (maxDischargeDepth := 40) [*]

@[simp] theorem execBrz_ok (r : BitVec 6) (o : BitVec 19) (s : State) (hs : s.memoriesOk) : Out.memoriesOk (execBrz r o s) := by
  unfold execBrz
  simp (maxDischargeDepth := 40) [*]

@[simp] theorem execBrnz_ok (r : BitVec 6) (o : BitVec 19) (s : State) (hs : s.memoriesOk) : Out.memoriesOk (execBrnz r o s) := by
  unfold execBrnz
  simp (maxDischargeDepth := 40) [*]

@[simp] theorem State.branchQuads_ok (s : State) (o : BitVec 19) (t : Wave → Nat → Bool) (hs : s.memoriesOk) : (State.branchQuads s o t).memoriesOk := by
  unfold State.branchQuads
  try dsimp only
  repeat' first
    | split | intro _ | with_reducible assumption | with_reducible refine (Out.memoriesOk_next _).2 ?_
    | with_reducible apply foldl_ok | with_reducible apply foldl_pair_ok | with_reducible apply State.onIssuer_ok
    | with_reducible apply State.vec_ok | with_reducible apply State.jump_ok | with_reducible apply State.put_ok
    | with_reducible apply State.raise_ok | with_reducible apply State.retire_ok
  all_goals try simp (maxDischargeDepth := 40) [*]

@[simp] theorem execBrany_ok (r : BitVec 6) (o : BitVec 19) (s : State) (hs : s.memoriesOk) : Out.memoriesOk (execBrany r o s) := by
  unfold execBrany
  simp (maxDischargeDepth := 40) [*]

@[simp] theorem execBrnone_ok (r : BitVec 6) (o : BitVec 19) (s : State) (hs : s.memoriesOk) : Out.memoriesOk (execBrnone r o s) := by
  unfold execBrnone
  simp (maxDischargeDepth := 40) [*]

@[simp] theorem execBrall_ok (r : BitVec 6) (o : BitVec 19) (s : State) (hs : s.memoriesOk) : Out.memoriesOk (execBrall r o s) := by
  unfold execBrall
  simp (maxDischargeDepth := 40) [*]

@[simp] theorem execIllegalInstruction_ok (word : W32) (s : State) (hs : s.memoriesOk) : Out.memoriesOk (execIllegalInstruction word s) := by
  unfold execIllegalInstruction
  simp (maxDischargeDepth := 40) [*]

@[simp] theorem execCodeFetchFault_ok (addr : W64) (s : State) (hs : s.memoriesOk) : Out.memoriesOk (execCodeFetchFault addr s) := by
  unfold execCodeFetchFault
  simp (maxDischargeDepth := 40) [*]

@[simp] theorem State.acquirePhase_ok (s : State) (cid : Nat) (wid : Nat) (a : Nat) (k : Nat) (hs : s.memoriesOk) : (State.acquirePhase s cid wid a k).memoriesOk := by
  unfold State.acquirePhase
  simp (maxDischargeDepth := 40) [*]

@[simp] theorem State.wakeWaiters_ok (s : State) (a : Nat) (hs : s.memoriesOk) : (State.wakeWaiters s a).memoriesOk := by
  unfold State.wakeWaiters
  try dsimp only
  repeat' first
    | split | intro _ | with_reducible assumption | with_reducible refine (Out.memoriesOk_next _).2 ?_
    | with_reducible apply foldl_ok | with_reducible apply foldl_pair_ok | with_reducible apply State.onIssuer_ok
    | with_reducible apply State.vec_ok | with_reducible apply State.acquirePhase_ok | with_reducible apply State.updWave_ok
  all_goals try simp (maxDischargeDepth := 40) [*]

@[simp] theorem State.tryComplete_ok (s : State) (cid : Nat) (a : Nat) (hs : s.memoriesOk) : (State.tryComplete s cid a).memoriesOk := by
  unfold State.tryComplete
  try dsimp only
  repeat' split
  all_goals simp (maxDischargeDepth := 40) [*]

@[simp] theorem State.faultWaiter_ok (s : State) (w : Wave) (q : SubWave) (k : W32) (va : W64) (a : Nat) (hs : s.memoriesOk) : (State.faultWaiter s w q k va a).memoriesOk := by
  unfold State.faultWaiter
  try dsimp only
  repeat' split
  all_goals simp (maxDischargeDepth := 40) [*]

@[simp] theorem State.markFaulted_ok (s : State) (a : Nat) (hs : s.memoriesOk) : (State.markFaulted s a).memoriesOk := by
  unfold State.markFaulted
  try dsimp only
  repeat' first
    | split | intro _ | with_reducible assumption | with_reducible refine (Out.memoriesOk_next _).2 ?_
    | with_reducible apply foldl_ok | with_reducible apply foldl_pair_ok | with_reducible apply State.onIssuer_ok
    | with_reducible apply State.vec_ok | with_reducible apply State.faultWaiter_ok
  all_goals try simp (maxDischargeDepth := 40) [*]

@[simp] theorem State.objArrive_ok (s : State) (cid : Nat) (a : Nat) (n : Nat) (idents : List W64) (rep : Rep) (hs : s.memoriesOk) : (State.objArrive s cid a n idents rep).memoriesOk := by
  unfold State.objArrive
  try dsimp only
  repeat' split
  all_goals simp (maxDischargeDepth := 40) [*]

@[simp] theorem State.objLand_ok (s : State) (cid : Nat) (a : Nat) (n : Nat) (land : Nat) (rep : Rep) (hs : s.memoriesOk) : (State.objLand s cid a n land rep).memoriesOk := by
  unfold State.objLand
  try dsimp only
  repeat' split
  all_goals simp (maxDischargeDepth := 40) [*]

@[simp] theorem State.objBind_ok (s : State) (a : Nat) (up : Bool) (hs : s.memoriesOk) : (State.objBind s a up).memoriesOk := by
  unfold State.objBind
  simp (maxDischargeDepth := 40) [*]

theorem State.traceMem_ok (s : State) (c : Context) (base : Nat) (l : List (Nat × List Byte)) (m n : Memory) (h : m.ok)
    (e : s.traceMem c base l m = .ok n) : n.ok := by
  induction l generalizing m with
  | nil =>
    cases e
    exact h
  | cons x l ih =>
    unfold State.traceMem at e
    repeat' split at e
    · exact ih _ (Memory.ok_setBytes _ _ _ h) e
    · cases e
    · cases e

theorem State.writeTraceBytes_ok (s : State) (cid base : Nat) (l : List (Nat × List Byte)) (t : State) (h : s.memoriesOk)
    (e : s.writeTraceBytes cid base l = .ok t) : t.memoriesOk := by
  unfold State.writeTraceBytes at e
  dsimp only at e
  split at e
  · cases e
  · rename_i m hm
    cases e
    have := State.traceMem_ok _ _ _ _ _ _ (State.ext_ok h) hm
    refine foldl_ok _ (fun s x hs => State.tlbFill_ok _ _ _ _ hs) _ _ ?_
    simp [*]


theorem State.writeTrace_ok (s : State) (cid : Nat) (t : Trace) (u : State) (h : s.memoriesOk)
    (e : s.writeTrace cid t = .ok u) : u.memoriesOk := State.writeTraceBytes_ok _ _ _ _ _ h e


@[simp] theorem State.setTrace_ok (s : State) (cid : Nat) (t : Trace) (h : s.memoriesOk) : (State.setTrace s cid t).memoriesOk := by
  unfold State.setTrace
  dsimp only
  split
  · simp (maxDischargeDepth := 40) [*]
  · split
    · rename_i e
      have := State.writeTrace_ok _ _ _ _ h e
      simp (maxDischargeDepth := 40) [*]
    · simp (maxDischargeDepth := 40) [*]


@[simp] theorem State.traceFail_ok (s : State) (cid : Nat) (code : Nat) (addrs : List Nat) (hs : s.memoriesOk) : (State.traceFail s cid code addrs).memoriesOk := by
  unfold State.traceFail
  try dsimp only
  repeat' first
    | split | intro _ | with_reducible assumption | with_reducible refine (Out.memoriesOk_next _).2 ?_
    | with_reducible apply foldl_ok | with_reducible apply foldl_pair_ok | with_reducible apply ite_ok | with_reducible apply ite2_ok
    | with_reducible apply State.setTrace_ok | with_reducible apply State.markFaulted_ok | with_reducible apply State.report_ok
  all_goals try simp (maxDischargeDepth := 40) [*]

@[simp] theorem State.traceFull_ok (s : State) (cid : Nat) (addr : Nat) (hs : s.memoriesOk) : (State.traceFull s cid addr).memoriesOk := by
  unfold State.traceFull
  try dsimp only
  repeat' first
    | split | intro _ | with_reducible assumption | with_reducible refine (Out.memoriesOk_next _).2 ?_
    | with_reducible apply foldl_ok | with_reducible apply foldl_pair_ok | with_reducible apply ite_ok | with_reducible apply ite2_ok
    | with_reducible apply State.traceFail_ok
  all_goals try simp (maxDischargeDepth := 40) [*]

@[simp] theorem State.tracedRead_ok (s : State) (cid : Nat) (off : Nat) (a : Nat) (hs : s.memoriesOk) : (State.tracedRead s cid off a).memoriesOk := by
  unfold State.tracedRead
  try dsimp only
  repeat' split
  all_goals simp (maxDischargeDepth := 40) [*]

@[simp] theorem State.tracedWrite_ok (s : State) (cid : Nat) (by_ : Writer) (off : Nat) (a : Nat) (v : W32) (hs : s.memoriesOk) : (State.tracedWrite s cid by_ off a v).1.memoriesOk := by
  unfold State.tracedWrite
  try dsimp only
  repeat' split
  all_goals simp (maxDischargeDepth := 40) [*]

@[simp] theorem State.vload_ok (s : State) (m : BitVec 2) (d : BitVec 7) (b : BitVec 6) (x : BitVec 7) (c : BitVec 2) (size : Nat) (traced : Bool) (hs : s.memoriesOk) : (State.vload s m d b x c size traced).memoriesOk := by
  unfold State.vload
  try dsimp only
  repeat' first
    | split | intro _ | with_reducible assumption | with_reducible refine (Out.memoriesOk_next _).2 ?_
    | with_reducible apply foldl_ok | with_reducible apply foldl_pair_ok | with_reducible apply State.onIssuer_ok
    | with_reducible apply State.vec_ok | with_reducible apply State.launch_ok | with_reducible apply State.mismatch_ok
    | with_reducible apply State.raise_ok | with_reducible apply State.retire_ok
  all_goals try simp (maxDischargeDepth := 40) [*]

@[simp] theorem State.vstore_ok (s : State) (m : BitVec 2) (d : BitVec 7) (b : BitVec 6) (x : BitVec 7) (c : BitVec 2) (size : Nat) (traced : Bool) (hs : s.memoriesOk) : (State.vstore s m d b x c size traced).memoriesOk := by
  unfold State.vstore
  try dsimp only
  repeat' first
    | split | intro _ | with_reducible assumption | with_reducible refine (Out.memoriesOk_next _).2 ?_
    | with_reducible apply foldl_ok | with_reducible apply foldl_pair_ok | with_reducible apply State.onIssuer_ok
    | with_reducible apply State.vec_ok | with_reducible apply State.launch_ok | with_reducible apply State.mismatch_ok
    | with_reducible apply State.put_ok | with_reducible apply State.raise_ok | with_reducible apply State.retire_ok
  all_goals try simp (maxDischargeDepth := 40) [*]

@[simp] theorem execVld_ok (m : BitVec 2) (d : BitVec 7) (b : BitVec 6) (x : BitVec 7) (c : BitVec 2) (s : State) (hs : s.memoriesOk) : Out.memoriesOk (execVld m d b x c s) := by
  unfold execVld
  simp (maxDischargeDepth := 40) [*]

@[simp] theorem execVld8_ok (m : BitVec 2) (d : BitVec 7) (b : BitVec 6) (x : BitVec 7) (c : BitVec 2) (s : State) (hs : s.memoriesOk) : Out.memoriesOk (execVld8 m d b x c s) := by
  unfold execVld8
  simp (maxDischargeDepth := 40) [*]

@[simp] theorem execVld16_ok (m : BitVec 2) (d : BitVec 7) (b : BitVec 6) (x : BitVec 7) (c : BitVec 2) (s : State) (hs : s.memoriesOk) : Out.memoriesOk (execVld16 m d b x c s) := by
  unfold execVld16
  simp (maxDischargeDepth := 40) [*]

@[simp] theorem execVld64_ok (m : BitVec 2) (d : BitVec 7) (b : BitVec 6) (x : BitVec 7) (c : BitVec 2) (s : State) (hs : s.memoriesOk) : Out.memoriesOk (execVld64 m d b x c s) := by
  unfold execVld64
  simp (maxDischargeDepth := 40) [*]

@[simp] theorem execVld128_ok (m : BitVec 2) (d : BitVec 7) (b : BitVec 6) (x : BitVec 7) (c : BitVec 2) (s : State) (hs : s.memoriesOk) : Out.memoriesOk (execVld128 m d b x c s) := by
  unfold execVld128
  simp (maxDischargeDepth := 40) [*]

@[simp] theorem execVst_ok (m : BitVec 2) (d : BitVec 7) (b : BitVec 6) (x : BitVec 7) (c : BitVec 2) (s : State) (hs : s.memoriesOk) : Out.memoriesOk (execVst m d b x c s) := by
  unfold execVst
  simp (maxDischargeDepth := 40) [*]

@[simp] theorem execVst8_ok (m : BitVec 2) (d : BitVec 7) (b : BitVec 6) (x : BitVec 7) (c : BitVec 2) (s : State) (hs : s.memoriesOk) : Out.memoriesOk (execVst8 m d b x c s) := by
  unfold execVst8
  simp (maxDischargeDepth := 40) [*]

@[simp] theorem execVst16_ok (m : BitVec 2) (d : BitVec 7) (b : BitVec 6) (x : BitVec 7) (c : BitVec 2) (s : State) (hs : s.memoriesOk) : Out.memoriesOk (execVst16 m d b x c s) := by
  unfold execVst16
  simp (maxDischargeDepth := 40) [*]

@[simp] theorem execVst64_ok (m : BitVec 2) (d : BitVec 7) (b : BitVec 6) (x : BitVec 7) (c : BitVec 2) (s : State) (hs : s.memoriesOk) : Out.memoriesOk (execVst64 m d b x c s) := by
  unfold execVst64
  simp (maxDischargeDepth := 40) [*]

@[simp] theorem execVst128_ok (m : BitVec 2) (d : BitVec 7) (b : BitVec 6) (x : BitVec 7) (c : BitVec 2) (s : State) (hs : s.memoriesOk) : Out.memoriesOk (execVst128 m d b x c s) := by
  unfold execVst128
  simp (maxDischargeDepth := 40) [*]

@[simp] theorem execVldm_ok (m : BitVec 2) (d : BitVec 7) (b : BitVec 6) (x : BitVec 7) (c : BitVec 2) (s : State) (hs : s.memoriesOk) : Out.memoriesOk (execVldm m d b x c s) := by
  unfold execVldm
  simp (maxDischargeDepth := 40) [*]

@[simp] theorem execVstm_ok (m : BitVec 2) (d : BitVec 7) (b : BitVec 6) (x : BitVec 7) (c : BitVec 2) (s : State) (hs : s.memoriesOk) : Out.memoriesOk (execVstm m d b x c s) := by
  unfold execVstm
  simp (maxDischargeDepth := 40) [*]

@[simp] theorem State.settle_ok (s : State) (acc : Nat) (hs : s.memoriesOk) : (State.settle s acc).memoriesOk := by
  unfold State.settle
  try dsimp only
  repeat' split
  all_goals simp (maxDischargeDepth := 40) [*]

@[simp] theorem execWritePerformed_ok (acc : Nat) (unit : Nat) (s : State) (hs : s.memoriesOk) : Out.memoriesOk (execWritePerformed acc unit s) := by
  unfold execWritePerformed
  try dsimp only
  repeat' split
  all_goals simp (maxDischargeDepth := 40) [*]

@[simp] theorem State.keepValue_ok (s : State) (acc : Nat) (u : AccUnit) (v : Nat) (hs : s.memoriesOk) : (State.keepValue s acc u v).memoriesOk := by
  unfold State.keepValue
  try dsimp only
  repeat' first
    | split | intro _ | with_reducible assumption | with_reducible refine (Out.memoriesOk_next _).2 ?_
    | with_reducible apply foldl_ok | with_reducible apply foldl_pair_ok | with_reducible apply ite_ok | with_reducible apply ite2_ok
  all_goals try simp (maxDischargeDepth := 40) [*]

@[simp] theorem execTracedAccessStep_ok (acc : Nat) (unit : Nat) (s : State) (hs : s.memoriesOk) : Out.memoriesOk (execTracedAccessStep acc unit s) := by
  unfold execTracedAccessStep
  try dsimp only
  repeat' first
    | split | intro _ | with_reducible assumption | with_reducible refine (Out.memoriesOk_next _).2 ?_
    | with_reducible apply foldl_ok | with_reducible apply foldl_pair_ok | with_reducible apply ite_ok | with_reducible apply ite2_ok
    | with_reducible apply State.tracedRead_ok | with_reducible apply State.keepValue_ok | with_reducible apply State.tracedWrite_ok
    | with_reducible apply State.updUnit_ok | with_reducible apply State.settle_ok | with_reducible apply State.retireAccesses_ok
  all_goals try simp (maxDischargeDepth := 40) [*]

@[simp] theorem State.mems_ok (s : State) (m : BitVec 2) (b : BitVec 6) (o : BitVec 9) (f : SForm) (perLane : Bool) (k : Wave →   SubWave → W32 → W64 → Nat × Bool → State) (hs : s.memoriesOk) (hk : ∀ x0 x1 x2 x3 x4, (k x0 x1 x2 x3 x4).memoriesOk) : (State.mems s m b o f perLane k).memoriesOk := by
  unfold State.mems
  try dsimp only
  repeat' first
    | split | intro _ | with_reducible assumption | with_reducible refine (Out.memoriesOk_next _).2 ?_
    | with_reducible apply foldl_ok | with_reducible apply foldl_pair_ok | with_reducible apply State.onIssuer_ok
    | with_reducible apply State.vec_ok | with_reducible apply State.raise_ok | with_reducible apply State.retire_ok
  all_goals try simp (maxDischargeDepth := 40) [*]

@[simp] theorem State.sload_ok (s : State) (d : BitVec 6) (b : BitVec 6) (m : BitVec 2) (o : BitVec 9) (size : Nat) (traced : Bool) (hs : s.memoriesOk) : (State.sload s d b m o size traced).memoriesOk := by
  unfold State.sload
  try dsimp only
  repeat' first
    | split | intro _ | with_reducible assumption | with_reducible refine (Out.memoriesOk_next _).2 ?_
    | with_reducible apply foldl_ok | with_reducible apply foldl_pair_ok | with_reducible apply State.onIssuer_ok
    | with_reducible apply State.vec_ok | with_reducible apply State.mems_ok | with_reducible apply State.launch_ok
    | with_reducible apply State.mismatch_ok | with_reducible apply State.raise_ok | with_reducible apply State.retire_ok
  all_goals try simp (maxDischargeDepth := 40) [*]

@[simp] theorem State.sstore_ok (s : State) (d : BitVec 6) (b : BitVec 6) (m : BitVec 2) (o : BitVec 9) (size : Nat) (traced : Bool) (hs : s.memoriesOk) : (State.sstore s d b m o size traced).memoriesOk := by
  unfold State.sstore
  try dsimp only
  repeat' first
    | split | intro _ | with_reducible assumption | with_reducible refine (Out.memoriesOk_next _).2 ?_
    | with_reducible apply foldl_ok | with_reducible apply foldl_pair_ok | with_reducible apply State.onIssuer_ok
    | with_reducible apply State.vec_ok | with_reducible apply State.mems_ok | with_reducible apply State.launch_ok
    | with_reducible apply State.mismatch_ok | with_reducible apply State.put_ok | with_reducible apply State.raise_ok
    | with_reducible apply State.retire_ok
  all_goals try simp (maxDischargeDepth := 40) [*]

@[simp] theorem execSld_ok (d : BitVec 6) (b : BitVec 6) (m : BitVec 2) (o : BitVec 9) (s : State) (hs : s.memoriesOk) : Out.memoriesOk (execSld d b m o s) := by
  unfold execSld
  simp (maxDischargeDepth := 40) [*]

@[simp] theorem execSld32_ok (d : BitVec 6) (b : BitVec 6) (m : BitVec 2) (o : BitVec 9) (s : State) (hs : s.memoriesOk) : Out.memoriesOk (execSld32 d b m o s) := by
  unfold execSld32
  simp (maxDischargeDepth := 40) [*]

@[simp] theorem execSst_ok (d : BitVec 6) (b : BitVec 6) (m : BitVec 2) (o : BitVec 9) (s : State) (hs : s.memoriesOk) : Out.memoriesOk (execSst d b m o s) := by
  unfold execSst
  simp (maxDischargeDepth := 40) [*]

@[simp] theorem execSst32_ok (d : BitVec 6) (b : BitVec 6) (m : BitVec 2) (o : BitVec 9) (s : State) (hs : s.memoriesOk) : Out.memoriesOk (execSst32 d b m o s) := by
  unfold execSst32
  simp (maxDischargeDepth := 40) [*]

@[simp] theorem execSldm_ok (d : BitVec 6) (b : BitVec 6) (m : BitVec 2) (o : BitVec 9) (s : State) (hs : s.memoriesOk) : Out.memoriesOk (execSldm d b m o s) := by
  unfold execSldm
  simp (maxDischargeDepth := 40) [*]

@[simp] theorem execSstm_ok (d : BitVec 6) (b : BitVec 6) (m : BitVec 2) (o : BitVec 9) (s : State) (hs : s.memoriesOk) : Out.memoriesOk (execSstm d b m o s) := by
  unfold execSstm
  simp (maxDischargeDepth := 40) [*]

@[simp] theorem State.satomic_ok (s : State) (d : BitVec 6) (b : BitVec 6) (m : BitVec 2) (o : BitVec 9) (kind : W64 → AccKind) (hs : s.memoriesOk) : (State.satomic s d b m o kind).memoriesOk := by
  unfold State.satomic
  simp (maxDischargeDepth := 40) [*]

@[simp] theorem execScas_ok (d : BitVec 6) (b : BitVec 6) (m : BitVec 2) (o : BitVec 9) (s : State) (hs : s.memoriesOk) : Out.memoriesOk (execScas d b m o s) := by
  unfold execScas
  simp (maxDischargeDepth := 40) [*]

@[simp] theorem execSamo_ok (d : BitVec 6) (b : BitVec 6) (m : BitVec 2) (o : BitVec 9) (s : State) (hs : s.memoriesOk) : Out.memoriesOk (execSamo d b m o s) := by
  unfold execSamo
  simp (maxDischargeDepth := 40) [*]

@[simp] theorem State.atHomeWait_ok (s : State) (w : Wave) (mk : Nat → Access) (hs : s.memoriesOk) : (State.atHomeWait s w mk).memoriesOk := by
  unfold State.atHomeWait
  simp (maxDischargeDepth := 40) [*]

@[simp] theorem State.subWait_ok (s : State) (w : Wave) (q : SubWave) (mk : Nat → Access) (hs : s.memoriesOk) : (State.subWait s w q mk).memoriesOk := by
  unfold State.subWait
  simp (maxDischargeDepth := 40) [*]

@[simp] theorem execBinit_ok (d : BitVec 6) (b : BitVec 6) (m : BitVec 2) (o : BitVec 9) (s : State) (hs : s.memoriesOk) : Out.memoriesOk (execBinit d b m o s) := by
  unfold execBinit
  simp (maxDischargeDepth := 40) [*]

@[simp] theorem execBarv_ok (d : BitVec 6) (b : BitVec 6) (m : BitVec 2) (o : BitVec 9) (s : State) (hs : s.memoriesOk) : Out.memoriesOk (execBarv d b m o s) := by
  unfold execBarv
  simp (maxDischargeDepth := 40) [*]

@[simp] theorem execBarb_ok (d : BitVec 6) (b : BitVec 6) (m : BitVec 2) (o : BitVec 9) (s : State) (hs : s.memoriesOk) : Out.memoriesOk (execBarb d b m o s) := by
  unfold execBarb
  simp (maxDischargeDepth := 40) [*]

@[simp] theorem execWaitp_ok (d : BitVec 6) (b : BitVec 6) (m : BitVec 2) (o : BitVec 9) (s : State) (hs : s.memoriesOk) : Out.memoriesOk (execWaitp d b m o s) := by
  unfold execWaitp
  try dsimp only
  repeat' first
    | split | intro _ | with_reducible assumption | with_reducible refine (Out.memoriesOk_next _).2 ?_
    | with_reducible apply foldl_ok | with_reducible apply foldl_pair_ok | with_reducible apply State.onIssuer_ok
    | with_reducible apply State.vec_ok | with_reducible apply State.mems_ok | with_reducible apply State.raise_ok
    | with_reducible apply State.retire_ok | with_reducible apply State.subWait_ok
  all_goals try simp (maxDischargeDepth := 40) [*]

@[simp] theorem execBphase_ok (d : BitVec 6) (b : BitVec 6) (m : BitVec 2) (o : BitVec 9) (s : State) (hs : s.memoriesOk) : Out.memoriesOk (execBphase d b m o s) := by
  unfold execBphase
  simp (maxDischargeDepth := 40) [*]

@[simp] theorem execBind_ok (d : BitVec 6) (b : BitVec 6) (m : BitVec 2) (o : BitVec 9) (s : State) (hs : s.memoriesOk) : Out.memoriesOk (execBind d b m o s) := by
  unfold execBind
  try dsimp only
  repeat' first
    | split | intro _ | with_reducible assumption | with_reducible refine (Out.memoriesOk_next _).2 ?_
    | with_reducible apply foldl_ok | with_reducible apply foldl_pair_ok | with_reducible apply State.onIssuer_ok
    | with_reducible apply State.vec_ok | with_reducible apply State.mems_ok | with_reducible apply State.atHomeWait_ok
    | with_reducible apply State.raise_ok | with_reducible apply State.raiseFree_ok | with_reducible apply State.retire_ok
  all_goals try simp (maxDischargeDepth := 40) [*]

@[simp] theorem execUnbind_ok (d : BitVec 6) (b : BitVec 6) (m : BitVec 2) (o : BitVec 9) (s : State) (hs : s.memoriesOk) : Out.memoriesOk (execUnbind d b m o s) := by
  unfold execUnbind
  try dsimp only
  repeat' first
    | split | intro _ | with_reducible assumption | with_reducible refine (Out.memoriesOk_next _).2 ?_
    | with_reducible apply foldl_ok | with_reducible apply foldl_pair_ok | with_reducible apply State.onIssuer_ok
    | with_reducible apply State.vec_ok | with_reducible apply State.mems_ok | with_reducible apply State.again_ok
    | with_reducible apply State.flushHeld_ok | with_reducible apply State.objBind_ok | with_reducible apply State.raise_ok
    | with_reducible apply State.retire_ok | with_reducible apply State.updCtx_ok
  all_goals try simp (maxDischargeDepth := 40) [*]

@[simp] theorem execBindingInstalled_ok (acc : Nat) (s : State) (hs : s.memoriesOk) : Out.memoriesOk (execBindingInstalled acc s) := by
  unfold execBindingInstalled
  try dsimp only
  repeat' split
  all_goals simp (maxDischargeDepth := 40) [*]

@[simp] theorem execRgacq_ok (d : BitVec 6) (b : BitVec 6) (m : BitVec 2) (o : BitVec 9) (s : State) (hs : s.memoriesOk) : Out.memoriesOk (execRgacq d b m o s) := by
  unfold execRgacq
  simp (maxDischargeDepth := 40) [*]

@[simp] theorem execRgrel_ok (b : BitVec 6) (m : BitVec 2) (o : BitVec 9) (s : State) (hs : s.memoriesOk) : Out.memoriesOk (execRgrel b m o s) := by
  unfold execRgrel
  simp (maxDischargeDepth := 40) [*]

@[simp] theorem execTkwait_ok (b : BitVec 6) (m : BitVec 2) (o : BitVec 9) (s : State) (hs : s.memoriesOk) : Out.memoriesOk (execTkwait b m o s) := by
  unfold execTkwait
  try dsimp only
  repeat' first
    | split | intro _ | with_reducible assumption | with_reducible refine (Out.memoriesOk_next _).2 ?_
    | with_reducible apply foldl_ok | with_reducible apply foldl_pair_ok | with_reducible apply State.onIssuer_ok
    | with_reducible apply State.vec_ok | with_reducible apply State.mems_ok | with_reducible apply State.again_ok
    | with_reducible apply State.raise_ok | with_reducible apply State.retire_ok
  all_goals try simp (maxDischargeDepth := 40) [*]

@[simp] theorem execTkpass_ok (b : BitVec 6) (m : BitVec 2) (o : BitVec 9) (s : State) (hs : s.memoriesOk) : Out.memoriesOk (execTkpass b m o s) := by
  unfold execTkpass
  simp (maxDischargeDepth := 40) [*]

@[simp] theorem State.accept_ok (s : State) (e : RedEntry) (u : Upd) (hs : s.memoriesOk) : (State.accept s e u).memoriesOk := by
  unfold State.accept
  try dsimp only
  repeat' split
  all_goals simp (maxDischargeDepth := 40) [*]

@[simp] theorem execCombinerHoldTimeout_ok (entry : Nat) (s : State) (hs : s.memoriesOk) : Out.memoriesOk (execCombinerHoldTimeout entry s) := by
  unfold execCombinerHoldTimeout
  simp (maxDischargeDepth := 40) [*]

@[simp] theorem execCombinerPacketApply_ok (packet : Nat) (s : State) (hs : s.memoriesOk) : Out.memoriesOk (execCombinerPacketApply packet s) := by
  unfold execCombinerPacketApply
  try dsimp only
  repeat' first
    | with_reducible apply ite_ok
    | split
    | intro _
    | with_reducible assumption
    | with_reducible refine (Out.memoriesOk_next _).2 ?_
    | with_reducible apply foldl_ok
    | with_reducible apply State.retireAccesses_ok
  refine memoriesOk_of ?_ rfl rfl rfl
  apply foldl_ok
  · intro s x hs
    simp [*]
  · apply foldl_ok
    · intro s x hs
      simp [*]
    · simp [*]


@[simp] theorem State.reduce_ok (s : State) (m : BitVec 2) (a : BitVec 7) (b : BitVec 7) (minor : Nat) (types : List Nat) (hs : s.memoriesOk) : (State.reduce s m a b minor types).memoriesOk := by
  unfold State.reduce
  try dsimp only
  repeat' first
    | split | intro _ | with_reducible assumption | with_reducible refine (Out.memoriesOk_next _).2 ?_
    | with_reducible apply foldl_ok | with_reducible apply foldl_pair_ok | with_reducible apply State.onIssuer_ok
    | with_reducible apply State.vec_ok | with_reducible apply State.mems_ok | with_reducible apply State.accept_ok
    | with_reducible apply State.fresh_ok | with_reducible apply State.launch_ok | with_reducible apply State.mismatch_ok
    | with_reducible apply State.raise_ok | with_reducible apply State.retire_ok | with_reducible apply State.updGroup_ok
  all_goals try simp (maxDischargeDepth := 40) [*]

@[simp] theorem execVradd_ok (m : BitVec 2) (a : BitVec 7) (b : BitVec 7) (s : State) (hs : s.memoriesOk) : Out.memoriesOk (execVradd m a b s) := by
  unfold execVradd
  simp (maxDischargeDepth := 40) [*]

@[simp] theorem execVrfadd_ok (m : BitVec 2) (a : BitVec 7) (b : BitVec 7) (s : State) (hs : s.memoriesOk) : Out.memoriesOk (execVrfadd m a b s) := by
  unfold execVrfadd
  simp (maxDischargeDepth := 40) [*]

@[simp] theorem execVrmin_ok (m : BitVec 2) (a : BitVec 7) (b : BitVec 7) (s : State) (hs : s.memoriesOk) : Out.memoriesOk (execVrmin m a b s) := by
  unfold execVrmin
  simp (maxDischargeDepth := 40) [*]

@[simp] theorem execVrmax_ok (m : BitVec 2) (a : BitVec 7) (b : BitVec 7) (s : State) (hs : s.memoriesOk) : Out.memoriesOk (execVrmax m a b s) := by
  unfold execVrmax
  simp (maxDischargeDepth := 40) [*]

@[simp] theorem execVrx96_ok (m : BitVec 2) (a : BitVec 7) (b : BitVec 7) (s : State) (hs : s.memoriesOk) : Out.memoriesOk (execVrx96 m a b s) := by
  unfold execVrx96
  simp (maxDischargeDepth := 40) [*]

@[simp] theorem State.drainOne_ok (s : State) (cid : Nat) (e : DrainEntry) (hs : s.memoriesOk) : (State.drainOne s cid e).memoriesOk := by
  unfold State.drainOne
  try dsimp only
  repeat' split
  all_goals simp (maxDischargeDepth := 40) [*]

@[simp] theorem State.askDrain_ok (s : State) (g : Group) (hs : s.memoriesOk) : (State.askDrain s g).memoriesOk := by
  unfold State.askDrain
  try dsimp only
  repeat' first
    | split | intro _ | with_reducible assumption | with_reducible refine (Out.memoriesOk_next _).2 ?_
    | with_reducible apply foldl_ok | with_reducible apply foldl_pair_ok | with_reducible apply ite_ok | with_reducible apply ite2_ok
    | with_reducible apply State.updGroup_ok
  all_goals try simp (maxDischargeDepth := 40) [*]

@[simp] theorem State.drainAll_ok (s : State) (g : Group) (hs : s.memoriesOk) : (State.drainAll s g).memoriesOk := by
  unfold State.drainAll
  try dsimp only
  repeat' first
    | split | intro _ | with_reducible assumption | with_reducible refine (Out.memoriesOk_next _).2 ?_
    | with_reducible apply foldl_ok | with_reducible apply foldl_pair_ok | with_reducible apply State.onIssuer_ok
    | with_reducible apply State.vec_ok | with_reducible apply State.mems_ok | with_reducible apply State.drainOne_ok
    | with_reducible apply State.updGroup_ok
  all_goals try simp (maxDischargeDepth := 40) [*]

@[simp] theorem execDrainPass_ok (group : Nat) (s : State) (hs : s.memoriesOk) : Out.memoriesOk (execDrainPass group s) := by
  unfold execDrainPass
  try dsimp only
  repeat' split
  all_goals simp (maxDischargeDepth := 40) [*]

@[simp] theorem State.passTicket_ok (s : State) (cid : Nat) (a : Nat) (n : Nat) (hs : s.memoriesOk) : (State.passTicket s cid a n).memoriesOk := by
  unfold State.passTicket
  simp (maxDischargeDepth := 40) [*]

@[simp] theorem execTicketHandover_ok (ctx : Nat) (s : State) (hs : s.memoriesOk) : Out.memoriesOk (execTicketHandover ctx s) := by
  unfold execTicketHandover
  try dsimp only
  repeat' split
  all_goals simp (maxDischargeDepth := 40) [*]

@[simp] theorem State.vatomic_ok (s : State) (m : BitVec 2) (d : BitVec 7) (a : BitVec 7) (b : BitVec 7) (minor : Nat) (hs : s.memoriesOk) : (State.vatomic s m d a b minor).memoriesOk := by
  unfold State.vatomic
  try dsimp only
  repeat' first
    | split | intro _ | with_reducible assumption | with_reducible refine (Out.memoriesOk_next _).2 ?_
    | with_reducible apply foldl_ok | with_reducible apply foldl_pair_ok | with_reducible apply State.onIssuer_ok
    | with_reducible apply State.vec_ok | with_reducible apply State.mems_ok | with_reducible apply State.launch_ok
    | with_reducible apply State.raise_ok | with_reducible apply State.retire_ok | with_reducible apply State.updGroup_ok
  all_goals try simp (maxDischargeDepth := 40) [*]

@[simp] theorem execVaadd_ok (m : BitVec 2) (d : BitVec 7) (a : BitVec 7) (b : BitVec 7) (s : State) (hs : s.memoriesOk) : Out.memoriesOk (execVaadd m d a b s) := by
  unfold execVaadd
  simp (maxDischargeDepth := 40) [*]

@[simp] theorem execVamin_ok (m : BitVec 2) (d : BitVec 7) (a : BitVec 7) (b : BitVec 7) (s : State) (hs : s.memoriesOk) : Out.memoriesOk (execVamin m d a b s) := by
  unfold execVamin
  simp (maxDischargeDepth := 40) [*]

@[simp] theorem execVamax_ok (m : BitVec 2) (d : BitVec 7) (a : BitVec 7) (b : BitVec 7) (s : State) (hs : s.memoriesOk) : Out.memoriesOk (execVamax m d a b s) := by
  unfold execVamax
  simp (maxDischargeDepth := 40) [*]

@[simp] theorem execVaand_ok (m : BitVec 2) (d : BitVec 7) (a : BitVec 7) (b : BitVec 7) (s : State) (hs : s.memoriesOk) : Out.memoriesOk (execVaand m d a b s) := by
  unfold execVaand
  simp (maxDischargeDepth := 40) [*]

@[simp] theorem execVaor_ok (m : BitVec 2) (d : BitVec 7) (a : BitVec 7) (b : BitVec 7) (s : State) (hs : s.memoriesOk) : Out.memoriesOk (execVaor m d a b s) := by
  unfold execVaor
  simp (maxDischargeDepth := 40) [*]

@[simp] theorem execVaxor_ok (m : BitVec 2) (d : BitVec 7) (a : BitVec 7) (b : BitVec 7) (s : State) (hs : s.memoriesOk) : Out.memoriesOk (execVaxor m d a b s) := by
  unfold execVaxor
  simp (maxDischargeDepth := 40) [*]

@[simp] theorem execVaxch_ok (m : BitVec 2) (d : BitVec 7) (a : BitVec 7) (b : BitVec 7) (s : State) (hs : s.memoriesOk) : Out.memoriesOk (execVaxch m d a b s) := by
  unfold execVaxch
  simp (maxDischargeDepth := 40) [*]

@[simp] theorem execVacas_ok (m : BitVec 2) (d : BitVec 7) (a : BitVec 7) (b : BitVec 7) (s : State) (hs : s.memoriesOk) : Out.memoriesOk (execVacas m d a b s) := by
  unfold execVacas
  simp (maxDischargeDepth := 40) [*]

@[simp] theorem execVafadd_ok (m : BitVec 2) (d : BitVec 7) (a : BitVec 7) (b : BitVec 7) (s : State) (hs : s.memoriesOk) : Out.memoriesOk (execVafadd m d a b s) := by
  unfold execVafadd
  simp (maxDischargeDepth := 40) [*]

@[simp] theorem State.finishAll_ok (s : State) (acc : Nat) (hs : s.memoriesOk) : (State.finishAll s acc).memoriesOk := by
  unfold State.finishAll
  simp (maxDischargeDepth := 40) [*]

@[simp] theorem State.homeOk_ok (s : State) (a : Access) (hs : s.memoriesOk) : (State.homeOk s a).memoriesOk := by
  unfold State.homeOk
  simp (maxDischargeDepth := 40) [*]

@[simp] theorem State.homeFault_ok (s : State) (a : Access) (code : Nat) (val : W64) (hs : s.memoriesOk) : (State.homeFault s a code val).memoriesOk := by
  unfold State.homeFault
  simp (maxDischargeDepth := 40) [*]

@[simp] theorem State.atomicLane_ok (s : State) (w : Wave) (a : Access) (i : Nat) (minor : Nat) (u : AccUnit) (hs : s.memoriesOk) : (State.atomicLane s w a i minor u).memoriesOk := by
  unfold State.atomicLane
  try dsimp only
  repeat' split
  all_goals simp (maxDischargeDepth := 40) [*]

@[simp] theorem State.scalarBack_ok (s : State) (a : Access) (v : W64) (hs : s.memoriesOk) : (State.scalarBack s a v).memoriesOk := by
  unfold State.scalarBack
  try dsimp only
  repeat' split
  all_goals simp (maxDischargeDepth := 40) [*]

@[simp] theorem State.pullList_ok (s : State) (w : Wave) (a : Access) (u : AccUnit) (hs : s.memoriesOk) : (State.pullList s w a u).memoriesOk := by
  unfold State.pullList
  simp (maxDischargeDepth := 40) [*]

@[simp] theorem execAtomicAtHome_ok (acc unit : Nat) (s : State) (hs : s.memoriesOk) : Out.memoriesOk (execAtomicAtHome acc unit s) := by
  unfold execAtomicAtHome
  dsimp only
  refine (Out.memoriesOk_next _).2 ?_
  cases s.access? acc with
  | none => exact hs
  | some a =>
    dsimp only
    cases a.units[unit]? with
    | none => exact hs
    | some u =>
      cases s.wave? a.wave with
      | none => exact hs
      | some w =>
        dsimp only
        refine ite_ok hs (ite_ok hs ?_)
        cases a.kind
        all_goals dsimp only
        all_goals try exact hs
        repeat' first
            | with_reducible apply ite_ok
            | intro _
            | with_reducible assumption
            | with_reducible refine (Out.memoriesOk_next _).2 ?_
            | with_reducible apply foldl_ok
            | with_reducible apply State.atomicLane_ok
            | with_reducible apply State.scalarBack_ok
            | with_reducible apply State.finishAll_ok
            | with_reducible apply State.perform_ok
            | with_reducible apply State.homeFault_ok
            | with_reducible apply State.homeOk_ok
            | with_reducible apply State.updCtx_ok
            | with_reducible apply State.acquireOn_ok
            | with_reducible apply State.releaseOn_ok
            | with_reducible apply State.updGroup_ok
            | with_reducible apply State.pullList_ok

        · simp [*]
        · cases s.groupOf w with
          | none => simp [*]
          | some g =>
            dsimp only
            refine ite_ok hs (ite_ok ?_ (State.homeOk_ok _ _ (ite_ok ?_ ?_))) <;> simp [*]


@[simp] theorem State.takeValue_ok (s : State) (acc : Nat) (i : Nat) (back : Nat) (hs : s.memoriesOk) : (State.takeValue s acc i back).memoriesOk := by
  unfold State.takeValue
  try dsimp only
  repeat' first
    | split | intro _ | with_reducible assumption | with_reducible refine (Out.memoriesOk_next _).2 ?_
    | with_reducible apply foldl_ok | with_reducible apply foldl_pair_ok | with_reducible apply ite_ok | with_reducible apply ite2_ok
    | with_reducible apply State.updCtx_ok | with_reducible apply State.keepValue_ok
  all_goals try simp (maxDischargeDepth := 40) [*]

@[simp] theorem State.deliverUnit_ok (s : State) (acc : Nat) (i : Nat) (hs : s.memoriesOk) : (State.deliverUnit s acc i).memoriesOk := by
  unfold State.deliverUnit
  try dsimp only
  repeat' first
    | split | intro _ | with_reducible assumption | with_reducible refine (Out.memoriesOk_next _).2 ?_
    | with_reducible apply foldl_ok | with_reducible apply foldl_pair_ok | with_reducible apply ite_ok | with_reducible apply ite2_ok
    | with_reducible apply State.updUnit_ok | with_reducible apply State.updWave_ok
  all_goals try simp (maxDischargeDepth := 40) [*]

@[simp] theorem execLoadDataReturn_ok (acc : Nat) (unit : Nat) (back : Nat) (s : State) (hs : s.memoriesOk) : Out.memoriesOk (execLoadDataReturn acc unit back s) := by
  unfold execLoadDataReturn
  try dsimp only
  repeat' first
    | split | intro _ | with_reducible assumption | with_reducible refine (Out.memoriesOk_next _).2 ?_
    | with_reducible apply foldl_ok | with_reducible apply foldl_pair_ok | with_reducible apply ite_ok | with_reducible apply ite2_ok
    | with_reducible apply State.takeValue_ok | with_reducible apply State.deliverUnit_ok | with_reducible apply State.retireAccesses_ok
    | with_reducible apply State.scalarBack_ok | with_reducible apply State.finishAll_ok
  all_goals try simp (maxDischargeDepth := 40) [*]

@[simp] theorem State.thenCheck_ok (s : State) (a : Access) (u : AccUnit) (phase : Nat) (hs : s.memoriesOk) : (State.thenCheck s a u phase).memoriesOk := by
  unfold State.thenCheck
  simp (maxDischargeDepth := 40) [*]

@[simp] theorem execBarrierArrivalApply_ok (acc : Nat) (s : State) (hs : s.memoriesOk) : Out.memoriesOk (execBarrierArrivalApply acc s) := by
  unfold execBarrierArrivalApply
  try dsimp only
  repeat' split
  all_goals simp (maxDischargeDepth := 40) [*]

@[simp] theorem execLandedBytesApply_ok (landing : Nat) (s : State) (hs : s.memoriesOk) : Out.memoriesOk (execLandedBytesApply landing s) := by
  unfold execLandedBytesApply
  try dsimp only
  repeat' split
  all_goals simp (maxDischargeDepth := 40) [*]

@[simp] theorem State.groupLeave_ok (s : State) (g : Group) (hs : s.memoriesOk) : (State.groupLeave s g).memoriesOk := by
  unfold State.groupLeave
  simp (maxDischargeDepth := 40) [*]

@[simp] theorem State.tryLeave_ok (s : State) (gid : Nat) (hs : s.memoriesOk) : (State.tryLeave s gid).memoriesOk := by
  unfold State.tryLeave
  try dsimp only
  repeat' split
  all_goals simp (maxDischargeDepth := 40) [*]

@[simp] theorem execGroupExitPass_ok (group : Nat) (s : State) (hs : s.memoriesOk) : Out.memoriesOk (execGroupExitPass group s) := by
  unfold execGroupExitPass
  try dsimp only
  repeat' split
  all_goals simp (maxDischargeDepth := 40) [*]

@[simp] theorem State.sumFlags_ok (s : State) (cid : Nat) (f : Flags) (hs : s.memoriesOk) : (State.sumFlags s cid f).memoriesOk := by
  unfold State.sumFlags
  try dsimp only
  repeat' split
  all_goals simp (maxDischargeDepth := 40) [*]

@[simp] theorem State.endWave_ok (s : State) (wid : Nat) (hs : s.memoriesOk) : (State.endWave s wid).memoriesOk := by
  unfold State.endWave
  try dsimp only
  repeat' split
  all_goals simp (maxDischargeDepth := 40) [*]

@[simp] theorem State.exitQuads_ok (s : State) (wid : Nat) (quads : BitVec 8) (hs : s.memoriesOk) : (State.exitQuads s wid quads).memoriesOk := by
  unfold State.exitQuads
  try dsimp only
  repeat' split
  all_goals simp (maxDischargeDepth := 40) [*]

@[simp] theorem State.retireLanes_ok (s : State) (wid : Nat) (lanes : W32) (hs : s.memoriesOk) : (State.retireLanes s wid lanes).memoriesOk := by
  unfold State.retireLanes
  try dsimp only
  repeat' split
  all_goals simp (maxDischargeDepth := 40) [*]

@[simp] theorem State.recordSpawn_ok (s : State) (w : Wave) (x : Spawned) (seq : Nat) (hs : s.memoriesOk) : (State.recordSpawn s w x seq).1.memoriesOk := by
  unfold State.recordSpawn
  try dsimp only
  repeat' split
  all_goals simp (maxDischargeDepth := 40) [*]

@[simp] theorem State.rerunSpawn_ok (s : State) (w : Wave) (x : Spawned) (hs : s.memoriesOk) : (State.rerunSpawn s w x).memoriesOk := by
  unfold State.rerunSpawn
  try dsimp only
  repeat' split
  all_goals simp (maxDischargeDepth := 40) [*]

@[simp] theorem State.taskOp_ok (s : State) (m : BitVec 2) (k : Wave → SubWave → W32 → List Nat → State) (hs : s.memoriesOk) (hk : ∀ x0 x1 x2 x3, (k x0 x1 x2 x3).memoriesOk) : (State.taskOp s m k).memoriesOk := by
  unfold State.taskOp
  try dsimp only
  repeat' first
    | split | intro _ | with_reducible assumption | with_reducible refine (Out.memoriesOk_next _).2 ?_
    | with_reducible apply foldl_ok | with_reducible apply foldl_pair_ok | with_reducible apply State.onIssuer_ok
    | with_reducible apply State.vec_ok | with_reducible apply State.mems_ok | with_reducible apply State.retire_ok
  all_goals try simp (maxDischargeDepth := 40) [*]

@[simp] theorem State.runOrSkip_ok (s : State) (m : BitVec 2) (fault : Wave → Option (Nat × W64)) (k : Wave → SubWave → W32 → List Nat → State) (hs : s.memoriesOk) (hk : ∀ x0 x1 x2 x3, (k x0 x1 x2 x3).memoriesOk) : (State.runOrSkip s m fault k).memoriesOk := by
  unfold State.runOrSkip
  try dsimp only
  repeat' first
    | split | intro _ | with_reducible assumption | with_reducible refine (Out.memoriesOk_next _).2 ?_
    | with_reducible apply foldl_ok | with_reducible apply foldl_pair_ok | with_reducible apply ite_ok | with_reducible apply ite2_ok
    | with_reducible apply State.fault_ok | with_reducible apply State.onIssuer_ok | with_reducible apply State.raise_ok
    | with_reducible apply State.retire_ok
  all_goals try simp (maxDischargeDepth := 40) [*]

@[simp] theorem State.runOp_ok (s : State) (m : BitVec 2) (run : BitVec 6) (multiple : Nat) (top : Nat) (k : Wave → SubWave → W32 → List Nat → State) (hs : s.memoriesOk) (hk : ∀ x0 x1 x2 x3, (k x0 x1 x2 x3).memoriesOk) : (State.runOp s m run multiple top k).memoriesOk := by
  unfold State.runOp
  try dsimp only
  repeat' first
    | split | intro _ | with_reducible assumption | with_reducible refine (Out.memoriesOk_next _).2 ?_
    | with_reducible apply foldl_ok | with_reducible apply foldl_pair_ok | with_reducible apply ite_ok | with_reducible apply ite2_ok
    | with_reducible apply State.fault_ok | with_reducible apply State.runOrSkip_ok | with_reducible apply State.raise_ok
  all_goals try simp (maxDischargeDepth := 40) [*]

@[simp] theorem State.syncPool_ok (s : State) (cid : Nat) (core : Nat) (hs : s.memoriesOk) : (State.syncPool s cid core).memoriesOk := by
  unfold State.syncPool
  try dsimp only
  repeat' first
    | split | intro _ | with_reducible assumption | with_reducible refine (Out.memoriesOk_next _).2 ?_
    | with_reducible apply foldl_ok | with_reducible apply foldl_pair_ok | with_reducible apply State.onIssuer_ok
    | with_reducible apply State.vec_ok | with_reducible apply State.mems_ok | with_reducible apply State.taskOp_ok
  all_goals try simp (maxDischargeDepth := 40) [*]

@[simp] theorem State.spawnOne_ok (s : State) (w : Wave) (seq : Nat) (x : Spawned) (hs : s.memoriesOk) : (State.spawnOne s w seq x).memoriesOk := by
  unfold State.spawnOne
  try dsimp only
  repeat' split
  all_goals simp (maxDischargeDepth := 40) [*]

@[simp] theorem State.spawnOp_ok (s : State) (a : BitVec 6) (b : BitVec 6) (m : BitVec 2) (p : BitVec 2) (dep : Bool) (hs : s.memoriesOk) : (State.spawnOp s a b m p dep).memoriesOk := by
  unfold State.spawnOp
  try dsimp only
  repeat' first
    | split | intro _ | with_reducible assumption | with_reducible refine (Out.memoriesOk_next _).2 ?_
    | with_reducible apply foldl_ok | with_reducible apply foldl_pair_ok | with_reducible apply ite_ok | with_reducible apply ite2_ok
    | with_reducible apply State.runOp_ok | with_reducible apply State.raise_ok | with_reducible apply State.stall_ok
    | with_reducible apply State.fresh_ok | with_reducible apply State.rerunSpawn_ok | with_reducible apply State.spawnOne_ok
    | with_reducible apply State.sendCombiner_ok | with_reducible apply State.syncPool_ok | with_reducible apply State.retire_ok
  all_goals try simp (maxDischargeDepth := 40) [*]

@[simp] theorem execSpawn_ok (a : BitVec 6) (b : BitVec 6) (m : BitVec 2) (p : BitVec 2) (s : State) (hs : s.memoriesOk) : Out.memoriesOk (execSpawn a b m p s) := by
  unfold execSpawn
  simp (maxDischargeDepth := 40) [*]

@[simp] theorem execSpawnd_ok (a : BitVec 6) (b : BitVec 6) (m : BitVec 2) (p : BitVec 2) (s : State) (hs : s.memoriesOk) : Out.memoriesOk (execSpawnd a b m p s) := by
  unfold execSpawnd
  simp (maxDischargeDepth := 40) [*]

@[simp] theorem execDcinit_ok (a : BitVec 6) (m : BitVec 2) (s : State) (hs : s.memoriesOk) : Out.memoriesOk (execDcinit a m s) := by
  unfold execDcinit
  try dsimp only
  repeat' first
    | split | intro _ | with_reducible assumption | with_reducible refine (Out.memoriesOk_next _).2 ?_
    | with_reducible apply foldl_ok | with_reducible apply foldl_pair_ok | with_reducible apply ite_ok | with_reducible apply ite2_ok
    | with_reducible apply State.runOp_ok | with_reducible apply State.raise_ok | with_reducible apply State.fresh_ok
    | with_reducible apply State.sendCombiner_ok | with_reducible apply State.retire_ok
  all_goals try simp (maxDischargeDepth := 40) [*]

@[simp] theorem State.sendDecs_ok (s : State) (w : Wave) (acc : Nat) (decs : List (Nat × Nat)) (hs : s.memoriesOk) : (State.sendDecs s w acc decs).memoriesOk := by
  unfold State.sendDecs
  try dsimp only
  repeat' first
    | split | intro _ | with_reducible assumption | with_reducible refine (Out.memoriesOk_next _).2 ?_
    | with_reducible apply foldl_ok | with_reducible apply foldl_pair_ok | with_reducible apply ite_ok | with_reducible apply ite2_ok
    | with_reducible apply State.fresh_ok | with_reducible apply State.sendCombiner_ok
  all_goals try simp (maxDischargeDepth := 40) [*]

@[simp] theorem execDcdec_ok (a : BitVec 6) (m : BitVec 2) (s : State) (hs : s.memoriesOk) : Out.memoriesOk (execDcdec a m s) := by
  unfold execDcdec
  try dsimp only
  repeat' first
    | split | intro _ | with_reducible assumption | with_reducible refine (Out.memoriesOk_next _).2 ?_
    | with_reducible apply foldl_ok | with_reducible apply foldl_pair_ok | with_reducible apply ite_ok | with_reducible apply ite2_ok
    | with_reducible apply State.runOp_ok | with_reducible apply State.raise_ok | with_reducible apply State.atHomeWait_ok
    | with_reducible apply State.sendDecs_ok
  all_goals try simp (maxDischargeDepth := 40) [*]

@[simp] theorem State.makeReady_ok (s : State) (ids : List Nat) (hs : s.memoriesOk) : (State.makeReady s ids).memoriesOk := by
  unfold State.makeReady
  try dsimp only
  repeat' first
    | split | intro _ | with_reducible assumption | with_reducible refine (Out.memoriesOk_next _).2 ?_
    | with_reducible apply foldl_ok | with_reducible apply foldl_pair_ok | with_reducible apply State.onIssuer_ok
    | with_reducible apply State.vec_ok | with_reducible apply State.mems_ok | with_reducible apply State.taskOp_ok
    | with_reducible apply State.fresh_ok
  all_goals try simp (maxDischargeDepth := 40) [*]

@[simp] theorem State.releaseHeld_ok (s : State) (cid : Nat) (ctr : Nat) (hs : s.memoriesOk) : (State.releaseHeld s cid ctr).memoriesOk := by
  unfold State.releaseHeld
  try dsimp only
  repeat' first
    | split | intro _ | with_reducible assumption | with_reducible refine (Out.memoriesOk_next _).2 ?_
    | with_reducible apply foldl_ok | with_reducible apply foldl_pair_ok | with_reducible apply State.onIssuer_ok
    | with_reducible apply State.vec_ok | with_reducible apply State.mems_ok | with_reducible apply State.taskOp_ok
    | with_reducible apply State.makeReady_ok | with_reducible apply State.syncPool_ok
  all_goals try simp (maxDischargeDepth := 40) [*]

@[simp] theorem execTaskRegistration_ok (msg : Nat) (s : State) (hs : s.memoriesOk) : Out.memoriesOk (execTaskRegistration msg s) := by
  unfold execTaskRegistration
  try dsimp only
  repeat' split
  all_goals simp (maxDischargeDepth := 40) [*]

@[simp] theorem State.traceEnded_ok (s : State) (cid : Nat) (off : Nat) (hs : s.memoriesOk) : (State.traceEnded s cid off).memoriesOk := by
  unfold State.traceEnded
  try dsimp only
  repeat' split
  all_goals simp (maxDischargeDepth := 40) [*]

@[simp] theorem State.finishEnd_ok (s : State) (wid : Nat) (quads : BitVec 8) (hs : s.memoriesOk) : (State.finishEnd s wid quads).memoriesOk := by
  unfold State.finishEnd
  try dsimp only
  repeat' first
    | split | intro _ | with_reducible assumption | with_reducible refine (Out.memoriesOk_next _).2 ?_
    | with_reducible apply foldl_ok | with_reducible apply foldl_pair_ok | with_reducible apply State.onIssuer_ok
    | with_reducible apply State.vec_ok | with_reducible apply State.mems_ok | with_reducible apply State.taskOp_ok
    | with_reducible apply State.exitQuads_ok | with_reducible apply State.traceEnded_ok
    | with_reducible apply State.updWave_ok
  all_goals try simp (maxDischargeDepth := 40) [*]

@[simp] theorem State.settleDecs_ok (s : State) (acc : Nat) (hs : s.memoriesOk) : (State.settleDecs s acc).memoriesOk := by
  unfold State.settleDecs
  try dsimp only
  repeat' split
  all_goals simp (maxDischargeDepth := 40) [*]

@[simp] theorem execCounterDecrement_ok (msg : Nat) (s : State) (hs : s.memoriesOk) : Out.memoriesOk (execCounterDecrement msg s) := by
  unfold execCounterDecrement
  try dsimp only
  repeat' split
  all_goals simp (maxDischargeDepth := 40) [*]

@[simp] theorem State.admitTasks_ok (s : State) (cid : Nat) (core : Nat) (hs : s.memoriesOk) : (State.admitTasks s cid core).memoriesOk := by
  unfold State.admitTasks
  simp (maxDischargeDepth := 40) [*]

@[simp] theorem State.markBin_ok (s : State) (b : Nat) (hs : s.memoriesOk) : (State.markBin s b).memoriesOk := by
  unfold State.markBin
  try dsimp only
  repeat' first
    | split | intro _ | with_reducible assumption | with_reducible refine (Out.memoriesOk_next _).2 ?_
    | with_reducible apply foldl_ok | with_reducible apply foldl_pair_ok | with_reducible apply ite_ok | with_reducible apply ite2_ok
  all_goals try simp (maxDischargeDepth := 40) [*]

@[simp] theorem State.placeTask_ok (s : State) (t : Task) (hs : s.memoriesOk) : (State.placeTask s t).memoriesOk := by
  unfold State.placeTask
  try dsimp only
  repeat' split
  all_goals simp (maxDischargeDepth := 40) [*]

@[simp] theorem State.dispatch_ok (cid core n : Nat) (s : State) (h : s.memoriesOk) : (State.dispatch cid core n s).memoriesOk := by
  induction n generalizing s with
  | zero => simpa [State.dispatch] using h
  | succ n ih =>
    unfold State.dispatch
    split
    · exact ih _ (State.placeTask_ok _ _ h)
    · exact h


@[simp] theorem execTaskDispatch_ok (ctx : Nat) (core : Nat) (s : State) (hs : s.memoriesOk) : Out.memoriesOk (execTaskDispatch ctx core s) := by
  unfold execTaskDispatch
  try dsimp only
  repeat' first
    | split | intro _ | with_reducible assumption | with_reducible refine (Out.memoriesOk_next _).2 ?_
    | with_reducible apply foldl_ok | with_reducible apply foldl_pair_ok | with_reducible apply ite_ok | with_reducible apply ite2_ok
    | with_reducible apply State.admitTasks_ok | with_reducible apply State.dispatch_ok | with_reducible apply State.syncPool_ok
  all_goals try simp (maxDischargeDepth := 40) [*]

@[simp] theorem execBinTimerExpiry_ok (bin : Nat) (s : State) (hs : s.memoriesOk) : Out.memoriesOk (execBinTimerExpiry bin s) := by
  unfold execBinTimerExpiry
  simp (maxDischargeDepth := 40) [*]

@[simp] theorem State.launchTasks_ok (s : State) (cid : Nat) (core : Nat) (quad : Nat) (slot : Nat) (modes : Regs 32) (pc : W64) (ts : List Task) (hs : s.memoriesOk) : (State.launchTasks s cid core quad slot modes pc ts).memoriesOk := by
  unfold State.launchTasks
  try dsimp only
  repeat' first
    | split | intro _ | with_reducible assumption | with_reducible refine (Out.memoriesOk_next _).2 ?_
    | with_reducible apply foldl_ok | with_reducible apply foldl_pair_ok | with_reducible apply State.onIssuer_ok
    | with_reducible apply State.vec_ok | with_reducible apply State.mems_ok | with_reducible apply State.taskOp_ok
    | with_reducible apply State.acquirePhase_ok | with_reducible apply State.count_ok | with_reducible apply State.fresh_ok
  all_goals try simp (maxDischargeDepth := 40) [*]

@[simp] theorem State.afterLaunch_ok (s : State) (b : Nat) (hs : s.memoriesOk) : (State.afterLaunch s b).memoriesOk := by
  unfold State.afterLaunch
  try dsimp only
  repeat' split
  all_goals simp (maxDischargeDepth := 40) [*]

@[simp] theorem execTaskWaveLaunch_ok (bin : Nat) (quad : Nat) (s : State) (hs : s.memoriesOk) : Out.memoriesOk (execTaskWaveLaunch bin quad s) := by
  unfold execTaskWaveLaunch
  try dsimp only
  repeat' split
  all_goals simp (maxDischargeDepth := 40) [*]

@[simp] theorem State.linkFrames_ok (s : State) (a : Nat) (hs : s.memoriesOk) : (State.linkFrames s a).memoriesOk := by
  unfold State.linkFrames
  try dsimp only
  repeat' first
    | split | intro _ | with_reducible assumption | with_reducible refine (Out.memoriesOk_next _).2 ?_
    | with_reducible apply foldl_ok | with_reducible apply foldl_pair_ok | with_reducible apply State.onIssuer_ok
    | with_reducible apply State.vec_ok | with_reducible apply State.mems_ok | with_reducible apply State.taskOp_ok
  all_goals try simp (maxDischargeDepth := 40) [*]

@[simp] theorem State.waitLane_ok (s : State) (w : Wave) (a : Nat) (k : W32) (cont : W64) (x : Nat × Nat) (hs : s.memoriesOk) : (State.waitLane s w a k cont x).memoriesOk := by
  unfold State.waitLane
  try dsimp only
  repeat' split
  all_goals simp (maxDischargeDepth := 40) [*]

@[simp] theorem execWaitpCheck_ok (acc : Nat) (s : State) (hs : s.memoriesOk) : Out.memoriesOk (execWaitpCheck acc s) := by
  unfold execWaitpCheck
  try dsimp only
  repeat' first
    | split | intro _ | with_reducible assumption | with_reducible refine (Out.memoriesOk_next _).2 ?_
    | with_reducible apply foldl_ok | with_reducible apply foldl_pair_ok | with_reducible apply State.onIssuer_ok
    | with_reducible apply State.vec_ok | with_reducible apply State.mems_ok | with_reducible apply State.taskOp_ok
    | with_reducible apply State.acquirePhase_ok | with_reducible apply State.fault_ok
    | with_reducible apply State.finishAll_ok | with_reducible apply State.flushHeld_ok
    | with_reducible apply State.linkFrames_ok | with_reducible apply State.retireLanes_ok
    | with_reducible apply State.updWave_ok | with_reducible apply State.waitLane_ok
  all_goals try simp (maxDischargeDepth := 40) [*]

@[simp] theorem execContinuationEnqueue_ok (frame : Nat) (s : State) (hs : s.memoriesOk) : Out.memoriesOk (execContinuationEnqueue frame s) := by
  unfold execContinuationEnqueue
  try dsimp only
  repeat' split
  all_goals simp (maxDischargeDepth := 40) [*]

@[simp] theorem State.raisePend_ok (s : State) (cid : Nat) (d : Nat) (n : Nat) (hs : s.memoriesOk) : (State.raisePend s cid d n).memoriesOk := by
  unfold State.raisePend
  try dsimp only
  repeat' split
  all_goals simp (maxDischargeDepth := 40) [*]

@[simp] theorem State.pushItem_ok (s : State) (w : Wave) (table : Nat) (seq : Nat) (x : Nat × W32) (hs : s.memoriesOk) : (State.pushItem s w table seq x).memoriesOk := by
  unfold State.pushItem
  try dsimp only
  repeat' split
  all_goals simp (maxDischargeDepth := 40) [*]

@[simp] theorem execWlpush_ok (a : BitVec 6) (b : BitVec 6) (m : BitVec 2) (s : State) (hs : s.memoriesOk) : Out.memoriesOk (execWlpush a b m s) := by
  unfold execWlpush
  try dsimp only
  repeat' first
    | split | intro _ | with_reducible assumption | with_reducible refine (Out.memoriesOk_next _).2 ?_
    | with_reducible apply foldl_ok | with_reducible apply foldl_pair_ok | with_reducible apply ite_ok | with_reducible apply ite2_ok
    | with_reducible apply State.runOp_ok | with_reducible apply State.raise_ok | with_reducible apply State.stall_ok
    | with_reducible apply State.fresh_ok | with_reducible apply State.pushItem_ok | with_reducible apply State.sendCombiner_ok
    | with_reducible apply State.retire_ok
  all_goals try simp (maxDischargeDepth := 40) [*]

@[simp] theorem execCompactionTimeout_ok (packet : Nat) (s : State) (hs : s.memoriesOk) : Out.memoriesOk (execCompactionTimeout packet s) := by
  unfold execCompactionTimeout
  simp (maxDischargeDepth := 40) [*]

@[simp] theorem execWorkListPacketWrite_ok (packet : Nat) (s : State) (hs : s.memoriesOk) : Out.memoriesOk (execWorkListPacketWrite packet s) := by
  unfold execWorkListPacketWrite
  try dsimp only
  repeat' first
    | with_reducible apply ite_ok
    | split
    | intro _
    | with_reducible assumption
    | with_reducible refine (Out.memoriesOk_next _).2 ?_
    | with_reducible apply foldl_ok
    | with_reducible apply State.raisePend_ok
    | with_reducible apply State.report_ok
  all_goals try exact memoriesOk_of hs rfl rfl rfl
  rw [memoriesOk_mk]
  refine ⟨Memory.ok_setNum _ _ _ _ (State.slice_ok ?_), State.ext_ok ?_, State.host_ok ?_⟩
  all_goals
    refine foldl_ok _ (fun s x h => ?_) _ s hs
    simp [*]


@[simp] theorem execWlpull_ok (a : BitVec 6) (b : BitVec 6) (c : BitVec 6) (m : BitVec 2) (s : State) (hs : s.memoriesOk) : Out.memoriesOk (execWlpull a b c m s) := by
  unfold execWlpull
  try dsimp only
  repeat' first
    | split | intro _ | with_reducible assumption | with_reducible refine (Out.memoriesOk_next _).2 ?_
    | with_reducible apply foldl_ok | with_reducible apply foldl_pair_ok | with_reducible apply ite_ok | with_reducible apply ite2_ok
    | with_reducible apply State.runOp_ok | with_reducible apply State.raise_ok | with_reducible apply State.launch_ok
    | with_reducible apply State.retire_ok
  all_goals try simp (maxDischargeDepth := 40) [*]

@[simp] theorem execQuiesce_ok (a : BitVec 6) (m : BitVec 2) (s : State) (hs : s.memoriesOk) : Out.memoriesOk (execQuiesce a m s) := by
  unfold execQuiesce
  try dsimp only
  repeat' first
    | split | intro _ | with_reducible assumption | with_reducible refine (Out.memoriesOk_next _).2 ?_
    | with_reducible apply foldl_ok | with_reducible apply foldl_pair_ok | with_reducible apply State.onIssuer_ok
    | with_reducible apply State.vec_ok | with_reducible apply State.mems_ok | with_reducible apply State.taskOp_ok
    | with_reducible apply State.put_ok | with_reducible apply State.raise_ok
  all_goals try simp (maxDischargeDepth := 40) [*]

@[simp] theorem execTerminationReport_ok (ctx : Nat) (s : State) (hs : s.memoriesOk) : Out.memoriesOk (execTerminationReport ctx s) := by
  unfold execTerminationReport
  try dsimp only
  repeat' split
  all_goals simp (maxDischargeDepth := 40) [*]

@[simp] theorem State.request_ok (s : State) (w : Wave) (q : SubWave) (sl : W32) (lane : Nat) (kind : EngKind) (ops : List W64) (dst : Nat) (hs : s.memoriesOk) : (State.request s w q sl lane kind ops dst).1.memoriesOk := by
  unfold State.request
  try dsimp only
  repeat' split
  all_goals simp (maxDischargeDepth := 40) [*]

@[simp] theorem State.requestWait_ok (s : State) (w : Wave) (q : SubWave) (sl : W32) (lane : Nat) (kind : EngKind) (ops : List W64) (dst : Nat) (hs : s.memoriesOk) : (State.requestWait s w q sl lane kind ops dst).memoriesOk := by
  unfold State.requestWait
  simp (maxDischargeDepth := 40) [*]

@[simp] theorem State.strataOp_ok (s : State) (m : BitVec 2) (taskOk : Bool) (k : Wave → SubWave → W32 → Nat → State) (hs : s.memoriesOk) (hk : ∀ x0 x1 x2 x3, (k x0 x1 x2 x3).memoriesOk) : (State.strataOp s m taskOk k).memoriesOk := by
  unfold State.strataOp
  try dsimp only
  repeat' first
    | split | intro _ | with_reducible assumption | with_reducible refine (Out.memoriesOk_next _).2 ?_
    | with_reducible apply foldl_ok | with_reducible apply foldl_pair_ok | with_reducible apply State.onIssuer_ok
    | with_reducible apply State.vec_ok | with_reducible apply State.mems_ok | with_reducible apply State.taskOp_ok
    | with_reducible apply State.raise_ok
  all_goals try simp (maxDischargeDepth := 40) [*]

@[simp] theorem execTrrec_ok (a : BitVec 6) (b : BitVec 6) (m : BitVec 2) (s : State) (hs : s.memoriesOk) : Out.memoriesOk (execTrrec a b m s) := by
  unfold execTrrec
  try dsimp only
  repeat' first
    | split | intro _ | with_reducible assumption | with_reducible refine (Out.memoriesOk_next _).2 ?_
    | with_reducible apply foldl_ok | with_reducible apply foldl_pair_ok | with_reducible apply State.onIssuer_ok
    | with_reducible apply State.vec_ok | with_reducible apply State.mems_ok | with_reducible apply State.taskOp_ok
    | with_reducible apply State.strataOp_ok | with_reducible apply State.raise_ok
    | with_reducible apply State.requestWait_ok
  all_goals try simp (maxDischargeDepth := 40) [*]

@[simp] theorem execTrstop_ok (a : BitVec 6) (m : BitVec 2) (s : State) (hs : s.memoriesOk) : Out.memoriesOk (execTrstop a m s) := by
  unfold execTrstop
  simp (maxDischargeDepth := 40) [*]

@[simp] theorem execPropagate_ok (a : BitVec 6) (b : BitVec 6) (m : BitVec 2) (s : State) (hs : s.memoriesOk) : Out.memoriesOk (execPropagate a b m s) := by
  unfold execPropagate
  try dsimp only
  repeat' first
    | split | intro _ | with_reducible assumption | with_reducible refine (Out.memoriesOk_next _).2 ?_
    | with_reducible apply foldl_ok | with_reducible apply foldl_pair_ok | with_reducible apply State.onIssuer_ok
    | with_reducible apply State.vec_ok | with_reducible apply State.mems_ok | with_reducible apply State.taskOp_ok
    | with_reducible apply State.strataOp_ok | with_reducible apply State.raise_ok | with_reducible apply State.request_ok
    | with_reducible apply State.retire_ok
  all_goals try simp (maxDischargeDepth := 40) [*]

@[simp] theorem execMdecl_ok (a : BitVec 6) (b : BitVec 6) (m : BitVec 2) (s : State) (hs : s.memoriesOk) : Out.memoriesOk (execMdecl a b m s) := by
  unfold execMdecl
  try dsimp only
  repeat' first
    | split | intro _ | with_reducible assumption | with_reducible refine (Out.memoriesOk_next _).2 ?_
    | with_reducible apply foldl_ok | with_reducible apply foldl_pair_ok | with_reducible apply State.onIssuer_ok
    | with_reducible apply State.vec_ok | with_reducible apply State.mems_ok | with_reducible apply State.taskOp_ok
    | with_reducible apply State.strataOp_ok | with_reducible apply State.raise_ok
    | with_reducible apply State.requestWait_ok
  all_goals try simp (maxDischargeDepth := 40) [*]

@[simp] theorem execTrdrop_ok (m : BitVec 2) (s : State) (hs : s.memoriesOk) : Out.memoriesOk (execTrdrop m s) := by
  unfold execTrdrop
  simp (maxDischargeDepth := 40) [*]

@[simp] theorem execTrstat_ok (a : BitVec 6) (b : BitVec 6) (m : BitVec 2) (s : State) (hs : s.memoriesOk) : Out.memoriesOk (execTrstat a b m s) := by
  unfold execTrstat
  try dsimp only
  repeat' first
    | split | intro _ | with_reducible assumption | with_reducible refine (Out.memoriesOk_next _).2 ?_
    | with_reducible apply foldl_ok | with_reducible apply foldl_pair_ok | with_reducible apply State.onIssuer_ok
    | with_reducible apply State.vec_ok | with_reducible apply State.mems_ok | with_reducible apply State.taskOp_ok
    | with_reducible apply State.strataOp_ok | with_reducible apply State.raise_ok
    | with_reducible apply State.requestWait_ok
  all_goals try simp (maxDischargeDepth := 40) [*]

@[simp] theorem State.requestDone_ok (s : State) (r : Request) (v : Option W64) (hs : s.memoriesOk) : (State.requestDone s r v).memoriesOk := by
  unfold State.requestDone
  simp (maxDischargeDepth := 40) [*]

@[simp] theorem State.requestFault_ok (s : State) (r : Request) (code : Nat) (v : W64) (hs : s.memoriesOk) : (State.requestFault s r code v).memoriesOk := by
  unfold State.requestFault
  try dsimp only
  repeat' split
  all_goals simp (maxDischargeDepth := 40) [*]

@[simp] theorem State.untrace_ok (s : State) (cid : Nat) (hs : s.memoriesOk) : (State.untrace s cid).memoriesOk := by
  unfold State.untrace
  try dsimp only
  repeat' first
    | with_reducible apply ite_ok
    | split
    | intro _
    | with_reducible assumption
    | with_reducible refine (Out.memoriesOk_next _).2 ?_
    | with_reducible apply foldl_ok
  refine memoriesOk_of (foldl_ok _ ?_ _ s hs) rfl rfl rfl
  intro s x hs
  simp [*]


@[simp] theorem State.walkLand_ok (s : State) (cid : Nat) (k : Walk) (hs : s.memoriesOk) : (State.walkLand s cid k).memoriesOk := by
  unfold State.walkLand
  try dsimp only
  repeat' first
    | split | intro _ | with_reducible assumption | with_reducible refine (Out.memoriesOk_next _).2 ?_
    | with_reducible apply foldl_ok | with_reducible apply foldl_pair_ok | with_reducible apply ite_ok | with_reducible apply ite2_ok
    | with_reducible apply State.flushHeld_ok | with_reducible apply State.updCtx_ok
  all_goals try simp (maxDischargeDepth := 40) [*]

@[simp] theorem State.walkEnd_ok (s : State) (cid : Nat) (t : Trace) (k : Walk) (hs : s.memoriesOk) : (State.walkEnd s cid t k).memoriesOk := by
  unfold State.walkEnd
  try dsimp only
  repeat' first
    | split | intro _ | with_reducible assumption | with_reducible refine (Out.memoriesOk_next _).2 ?_
    | with_reducible apply foldl_ok | with_reducible apply foldl_pair_ok | with_reducible apply State.onIssuer_ok
    | with_reducible apply State.vec_ok | with_reducible apply State.mems_ok | with_reducible apply State.taskOp_ok
    | with_reducible apply State.strataOp_ok | with_reducible apply State.objArrive_ok
    | with_reducible apply State.releaseOn_ok | with_reducible apply State.setTrace_ok
  all_goals try simp (maxDischargeDepth := 40) [*]

@[simp] theorem State.walkOn_ok (s : State) (cid : Nat) (hs : s.memoriesOk) : (State.walkOn s cid).memoriesOk := by
  unfold State.walkOn
  try dsimp only
  repeat' split
  all_goals simp (maxDischargeDepth := 40) [*]

@[simp] theorem State.traceEffect_ok (s : State) (r : Request) (t : Trace) (k : State → State) (hs : s.memoriesOk)
    (hk : ∀ x, x.memoriesOk → (k x).memoriesOk) : (State.traceEffect s r t k).memoriesOk := by
  unfold State.traceEffect
  dsimp only
  split
  · rename_i e
    exact hk _ (State.updCtx_ok _ _ _ (State.writeTrace_ok _ _ _ _ hs e))
  · simp (maxDischargeDepth := 40) [*]


@[simp] theorem State.performPropagate_ok (s : State) (r : Request) (t : Trace) (obj : Nat) (hs : s.memoriesOk) : (State.performPropagate s r t obj).memoriesOk := by
  unfold State.performPropagate
  try dsimp only
  repeat' first
    | split | intro _ | with_reducible assumption | with_reducible refine (Out.memoriesOk_next _).2 ?_
    | with_reducible apply foldl_ok | with_reducible apply foldl_pair_ok | with_reducible apply ite_ok | with_reducible apply ite2_ok
    | with_reducible apply State.requestDone_ok | with_reducible apply State.traceEffect_ok | with_reducible apply State.walkOn_ok
  all_goals try simp (maxDischargeDepth := 40) [*]

@[simp] theorem State.performDecl_ok (s : State) (r : Request) (t : Trace) (base len : Nat) (b : W64) (hs : s.memoriesOk) :
    (State.performDecl s r t base len b).memoriesOk := by
  unfold State.performDecl
  dsimp only
  repeat' refine ite_ok (State.requestFault_ok _ _ _ _ hs) ?_
  split
  · simp (maxDischargeDepth := 40) [*]
  · refine State.traceEffect_ok _ _ _ _ hs fun x hx => ?_
    split
    · rename_i e
      exact State.requestDone_ok _ _ _ (State.writeTraceBytes_ok _ _ _ _ _ hx e)
    · simp (maxDischargeDepth := 40) [*]


@[simp] theorem State.performStat_ok (s : State) (r : Request) (t : Trace) (a : Nat) (hs : s.memoriesOk) : (State.performStat s r t a).memoriesOk := by
  unfold State.performStat
  try dsimp only
  repeat' split
  all_goals simp (maxDischargeDepth := 40) [*]

@[simp] theorem execStrataRequestPerform_ok (req : Nat) (s : State) (hs : s.memoriesOk) : Out.memoriesOk (execStrataRequestPerform req s) := by
  unfold execStrataRequestPerform
  try dsimp only
  repeat' first
    | split | intro _ | with_reducible assumption | with_reducible refine (Out.memoriesOk_next _).2 ?_
    | with_reducible apply foldl_ok | with_reducible apply foldl_pair_ok | with_reducible apply ite_ok | with_reducible apply ite2_ok
    | with_reducible apply State.flushFor_ok | with_reducible apply State.requestFault_ok | with_reducible apply State.traceEffect_ok
    | with_reducible apply State.requestDone_ok | with_reducible apply State.performDecl_ok | with_reducible apply State.untrace_ok
    | with_reducible apply State.updCtx_ok | with_reducible apply State.performStat_ok | with_reducible apply State.performPropagate_ok
  all_goals try simp (maxDischargeDepth := 40) [*]

@[simp] theorem execRerunLaunch_ok (ctx : Nat) (s : State) (hs : s.memoriesOk) : Out.memoriesOk (execRerunLaunch ctx s) := by
  unfold execRerunLaunch
  try dsimp only
  repeat' split
  all_goals simp (maxDischargeDepth := 40) [*]

@[simp] theorem State.revertWord_ok (s : State) (cid : Nat) (walk : Nat) (t : Trace) (r : TWrite) (hs : s.memoriesOk) : (State.revertWord s cid walk t r).1.memoriesOk := by
  unfold State.revertWord
  try dsimp only
  repeat' first
    | split | intro _ | with_reducible assumption | with_reducible refine (Out.memoriesOk_next _).2 ?_
    | with_reducible apply foldl_ok | with_reducible apply foldl_pair_ok | with_reducible apply ite_ok | with_reducible apply ite2_ok
    | with_reducible apply State.perform_ok
  all_goals try simp (maxDischargeDepth := 40) [*]

@[simp] theorem execRerunEnd_ok (ctx : Nat) (s : State) (hs : s.memoriesOk) : Out.memoriesOk (execRerunEnd ctx s) := by
  unfold execRerunEnd
  try dsimp only
  repeat' first
    | split | intro _ | with_reducible assumption | with_reducible refine (Out.memoriesOk_next _).2 ?_
    | with_reducible apply foldl_ok | with_reducible apply foldl_pair_ok | with_reducible apply ite_ok | with_reducible apply ite2_ok
    | with_reducible apply State.revertWord_ok | with_reducible apply State.setTrace_ok | with_reducible apply State.walkOn_ok
    | with_reducible apply State.traceFail_ok
  all_goals try simp (maxDischargeDepth := 40) [*]

@[simp] theorem execEndq_ok (s : State) (hs : s.memoriesOk) : Out.memoriesOk (execEndq s) := by
  unfold execEndq
  try dsimp only
  repeat' first
    | split | intro _ | with_reducible assumption | with_reducible refine (Out.memoriesOk_next _).2 ?_
    | with_reducible apply foldl_ok | with_reducible apply foldl_pair_ok | with_reducible apply ite_ok | with_reducible apply ite2_ok
    | with_reducible apply State.onIssuer_ok | with_reducible apply State.put_ok | with_reducible apply State.flushHeld_ok
    | with_reducible apply State.finishEnd_ok | with_reducible apply State.subWait_ok | with_reducible apply State.sendDecs_ok
  all_goals try simp (maxDischargeDepth := 40) [*]

end Sys2Proof.Machine
end

