-- ==== Sys2Proof/Laws/MemoriesEngines.lean ====
section
/-! SUPPORT. The same for the engines: Slip, the matrix engine and Sieve. -/

namespace Sys2Proof.Machine

@[simp] theorem State.engPut_ok (s : State) (cid : Nat) (by_ : Writer) (l : List Chunk) (b : List Byte) (h : s.memoriesOk) :
    (State.engPut s cid by_ l b).memoriesOk := by
  induction l generalizing s b with
  | nil => simpa [State.engPut] using h
  | cons x t ih =>
    unfold State.engPut
    dsimp only
    apply ih
    split <;> simp [*]


@[simp] theorem State.cachePut_ok (s : State) (e : CacheEntry) (hs : s.memoriesOk) : (State.cachePut s e).memoriesOk := by
  unfold State.cachePut
  simp (maxDischargeDepth := 40) [*]

theorem State.readRecord_ok (s : State) (c : Context) (ow : Owner) (die a : Nat) (r : List Byte × State) (hs : s.memoriesOk)
    (e : s.readRecord c ow die a = .ok r) : r.2.memoriesOk := by
  unfold State.readRecord at e
  dsimp only at e
  repeat' split at e
  all_goals cases e
  all_goals simp [*]


@[simp] theorem State.slipPush_ok (s : State) (r : EngReq) (hs : s.memoriesOk) : (State.slipPush s r).memoriesOk := by
  unfold State.slipPush
  simp (maxDischargeDepth := 40) [*]

@[simp] theorem State.fencePush_ok (s : State) (r : EngReq) (hs : s.memoriesOk) : (State.fencePush s r).memoriesOk := by
  unfold State.fencePush
  try dsimp only
  repeat' first
    | split | intro _ | with_reducible assumption | with_reducible refine (Out.memoriesOk_next _).2 ?_
    | with_reducible apply foldl_ok | with_reducible apply foldl_pair_ok | with_reducible apply State.onIssuer_ok
    | with_reducible apply State.vec_ok | with_reducible apply State.mems_ok | with_reducible apply State.taskOp_ok
    | with_reducible apply State.strataOp_ok | with_reducible apply State.fresh_ok
  all_goals try simp (maxDischargeDepth := 40) [*]

@[simp] theorem State.slipAccept_ok (s : State) (r : EngReq) (hs : s.memoriesOk) : (State.slipAccept s r).memoriesOk := by
  unfold State.slipAccept
  try dsimp only
  repeat' split
  all_goals simp (maxDischargeDepth := 40) [*]

@[simp] theorem State.asyncOp_ok (s : State) (m : BitVec 2) (k : Wave → SubWave → W32 → Nat → State) (hs : s.memoriesOk) (hk : ∀ x0 x1 x2 x3, (k x0 x1 x2 x3).memoriesOk) : (State.asyncOp s m k).memoriesOk := by
  unfold State.asyncOp
  try dsimp only
  repeat' first
    | split | intro _ | with_reducible assumption | with_reducible refine (Out.memoriesOk_next _).2 ?_
    | with_reducible apply foldl_ok | with_reducible apply foldl_pair_ok | with_reducible apply State.onIssuer_ok
    | with_reducible apply State.vec_ok | with_reducible apply State.mems_ok | with_reducible apply State.taskOp_ok
    | with_reducible apply State.strataOp_ok | with_reducible apply State.again_ok
  all_goals try simp (maxDischargeDepth := 40) [*]

@[simp] theorem State.slipIssue_ok (s : State) (w : Wave) (q : SubWave) (sl : W32) (lane : Nat) (kind : EngKind) (queue : Nat) (ops : List W64) (flag : Bool) (hs : s.memoriesOk) : (State.slipIssue s w q sl lane kind queue ops flag).memoriesOk := by
  unfold State.slipIssue
  try dsimp only
  repeat' split
  all_goals simp (maxDischargeDepth := 40) [*]

@[simp] theorem State.recordCopy_ok (s : State) (kind : EngKind) (a : BitVec 6) (b : BitVec 6) (c : BitVec 6) (m : BitVec 2) (x : Nat) (q : Nat) (hs : s.memoriesOk) : (State.recordCopy s kind a b c m x q).memoriesOk := by
  unfold State.recordCopy
  try dsimp only
  repeat' first
    | split | intro _ | with_reducible assumption | with_reducible refine (Out.memoriesOk_next _).2 ?_
    | with_reducible apply foldl_ok | with_reducible apply foldl_pair_ok | with_reducible apply State.onIssuer_ok
    | with_reducible apply State.vec_ok | with_reducible apply State.mems_ok | with_reducible apply State.taskOp_ok
    | with_reducible apply State.strataOp_ok | with_reducible apply State.asyncOp_ok | with_reducible apply State.raise_ok
    | with_reducible apply State.slipIssue_ok
  all_goals try simp (maxDischargeDepth := 40) [*]

@[simp] theorem execCpt_ok (a : BitVec 6) (b : BitVec 6) (c : BitVec 6) (m : BitVec 2) (x : BitVec 1) (q : BitVec 2) (s : State) (hs : s.memoriesOk) : Out.memoriesOk (execCpt a b c m x q s) := by
  unfold execCpt
  simp (maxDischargeDepth := 40) [*]

@[simp] theorem execCptt_ok (a : BitVec 6) (b : BitVec 6) (c : BitVec 6) (m : BitVec 2) (x : BitVec 1) (q : BitVec 2) (s : State) (hs : s.memoriesOk) : Out.memoriesOk (execCptt a b c m x q s) := by
  unfold execCptt
  simp (maxDischargeDepth := 40) [*]

@[simp] theorem execCpg_ok (a : BitVec 6) (b : BitVec 6) (c : BitVec 6) (m : BitVec 2) (q : BitVec 2) (s : State) (hs : s.memoriesOk) : Out.memoriesOk (execCpg a b c m q s) := by
  unfold execCpg
  simp (maxDischargeDepth := 40) [*]

@[simp] theorem execCps_ok (a : BitVec 6) (b : BitVec 6) (c : BitVec 6) (m : BitVec 2) (x : BitVec 1) (q : BitVec 2) (s : State) (hs : s.memoriesOk) : Out.memoriesOk (execCps a b c m x q s) := by
  unfold execCps
  simp (maxDischargeDepth := 40) [*]

@[simp] theorem execCpl_ok (a : BitVec 6) (b : BitVec 6) (c : BitVec 6) (m : BitVec 2) (q : BitVec 2) (s : State) (hs : s.memoriesOk) : Out.memoriesOk (execCpl a b c m q s) := by
  unfold execCpl
  try dsimp only
  repeat' first
    | split | intro _ | with_reducible assumption | with_reducible refine (Out.memoriesOk_next _).2 ?_
    | with_reducible apply foldl_ok | with_reducible apply foldl_pair_ok | with_reducible apply State.onIssuer_ok
    | with_reducible apply State.vec_ok | with_reducible apply State.mems_ok | with_reducible apply State.taskOp_ok
    | with_reducible apply State.strataOp_ok | with_reducible apply State.asyncOp_ok | with_reducible apply State.raise_ok
    | with_reducible apply State.slipIssue_ok
  all_goals try simp (maxDischargeDepth := 40) [*]

@[simp] theorem execWsig_ok (a : BitVec 6) (b : BitVec 6) (c : BitVec 6) (m : BitVec 2) (x : BitVec 1) (q : BitVec 2) (s : State) (hs : s.memoriesOk) : Out.memoriesOk (execWsig a b c m x q s) := by
  unfold execWsig
  try dsimp only
  repeat' first
    | split | intro _ | with_reducible assumption | with_reducible refine (Out.memoriesOk_next _).2 ?_
    | with_reducible apply foldl_ok | with_reducible apply foldl_pair_ok | with_reducible apply State.onIssuer_ok
    | with_reducible apply State.vec_ok | with_reducible apply State.mems_ok | with_reducible apply State.taskOp_ok
    | with_reducible apply State.strataOp_ok | with_reducible apply State.asyncOp_ok | with_reducible apply State.raise_ok
    | with_reducible apply State.slipIssue_ok
  all_goals try simp (maxDischargeDepth := 40) [*]

@[simp] theorem execHgrd_ok (a : BitVec 6) (b : BitVec 6) (c : BitVec 6) (m : BitVec 2) (q : BitVec 2) (s : State) (hs : s.memoriesOk) : Out.memoriesOk (execHgrd a b c m q s) := by
  unfold execHgrd
  try dsimp only
  repeat' first
    | split | intro _ | with_reducible assumption | with_reducible refine (Out.memoriesOk_next _).2 ?_
    | with_reducible apply foldl_ok | with_reducible apply foldl_pair_ok | with_reducible apply State.onIssuer_ok
    | with_reducible apply State.vec_ok | with_reducible apply State.mems_ok | with_reducible apply State.taskOp_ok
    | with_reducible apply State.strataOp_ok | with_reducible apply State.asyncOp_ok | with_reducible apply State.raise_ok
    | with_reducible apply State.slipIssue_ok
  all_goals try simp (maxDischargeDepth := 40) [*]

@[simp] theorem execQfence_ok (k : BitVec 4) (m : BitVec 2) (s : State) (hs : s.memoriesOk) : Out.memoriesOk (execQfence k m s) := by
  unfold execQfence
  try dsimp only
  repeat' split
  all_goals simp (maxDischargeDepth := 40) [*]

@[simp] theorem execSealc_ok (a : BitVec 6) (_m : BitVec 2) (s : State) (hs : s.memoriesOk) : Out.memoriesOk (execSealc a _m s) := by
  unfold execSealc
  try dsimp only
  repeat' first
    | split | intro _ | with_reducible assumption | with_reducible refine (Out.memoriesOk_next _).2 ?_
    | with_reducible apply foldl_ok | with_reducible apply foldl_pair_ok | with_reducible apply State.onIssuer_ok
    | with_reducible apply State.vec_ok | with_reducible apply State.mems_ok | with_reducible apply State.taskOp_ok
    | with_reducible apply State.strataOp_ok | with_reducible apply State.asyncOp_ok | with_reducible apply State.again_ok
    | with_reducible apply State.retire_ok
  all_goals try simp (maxDischargeDepth := 40) [*]

@[simp] theorem State.recordControl_ok (s : State) (kind : EngKind) (a : BitVec 6) (m : BitVec 2) (hs : s.memoriesOk) : (State.recordControl s kind a m).memoriesOk := by
  unfold State.recordControl
  try dsimp only
  repeat' first
    | split | intro _ | with_reducible assumption | with_reducible refine (Out.memoriesOk_next _).2 ?_
    | with_reducible apply foldl_ok | with_reducible apply foldl_pair_ok | with_reducible apply State.onIssuer_ok
    | with_reducible apply State.vec_ok | with_reducible apply State.mems_ok | with_reducible apply State.taskOp_ok
    | with_reducible apply State.strataOp_ok | with_reducible apply State.asyncOp_ok | with_reducible apply State.raise_ok
    | with_reducible apply State.requestWait_ok
  all_goals try simp (maxDischargeDepth := 40) [*]

@[simp] theorem execLrfl_ok (a : BitVec 6) (m : BitVec 2) (s : State) (hs : s.memoriesOk) : Out.memoriesOk (execLrfl a m s) := by
  unfold execLrfl
  simp (maxDischargeDepth := 40) [*]

@[simp] theorem execLrins_ok (a : BitVec 6) (m : BitVec 2) (s : State) (hs : s.memoriesOk) : Out.memoriesOk (execLrins a m s) := by
  unfold execLrins
  simp (maxDischargeDepth := 40) [*]

@[simp] theorem State.slipReport_ok (s : State) (o : SlipOp) (code : Nat) (addr : Nat) (value : Option Nat) (hs : s.memoriesOk) : (State.slipReport s o code addr value).memoriesOk := by
  unfold State.slipReport
  simp (maxDischargeDepth := 40) [*]

@[simp] theorem State.markObject_ok (s : State) (r : EngReq) (hs : s.memoriesOk) : (State.markObject s r).memoriesOk := by
  unfold State.markObject
  try dsimp only
  repeat' split
  all_goals simp (maxDischargeDepth := 40) [*]

@[simp] theorem State.dropFlits_ok (s : State) (p : Flit → Bool) (hs : s.memoriesOk) : (State.dropFlits s p).memoriesOk := by
  unfold State.dropFlits
  simp (maxDischargeDepth := 40) [*]

@[simp] theorem State.slipLeave_ok (s : State) (o : SlipOp) (hs : s.memoriesOk) : (State.slipLeave s o).memoriesOk := by
  unfold State.slipLeave
  try dsimp only
  repeat' split
  all_goals simp (maxDischargeDepth := 40) [*]

@[simp] theorem State.slipRefuse_ok (s : State) (o : SlipOp) (code : Nat) (addr : Nat) (value : Option Nat) (hs : s.memoriesOk) : (State.slipRefuse s o code addr value).memoriesOk := by
  unfold State.slipRefuse
  simp (maxDischargeDepth := 40) [*]

@[simp] theorem State.setSlip_ok (s : State) (o : SlipOp) (hs : s.memoriesOk) : (State.setSlip s o).memoriesOk := by
  unfold State.setSlip
  simp (maxDischargeDepth := 40) [*]

@[simp] theorem State.writeProgress_ok (s : State) (o : SlipOp) (fsect : Nat) (hs : s.memoriesOk) : (State.writeProgress s o fsect).1.memoriesOk := by
  unfold State.writeProgress
  try dsimp only
  repeat' split
  all_goals simp (maxDischargeDepth := 40) [*]

@[simp] theorem State.slipStop_ok (s : State) (o : SlipOp) (k : Nat) (addr : Nat) (hs : s.memoriesOk) : (State.slipStop s o k addr).memoriesOk := by
  unfold State.slipStop
  simp (maxDischargeDepth := 40) [*]

@[simp] theorem State.slipFail_ok (s : State) (o : SlipOp) (k : Nat) (e : EngErr) (hs : s.memoriesOk) : (State.slipFail s o k e).memoriesOk := by
  unfold State.slipFail
  try dsimp only
  repeat' split
  all_goals simp (maxDischargeDepth := 40) [*]

@[simp] theorem State.beginRecord_ok (s : State) (c : Context) (o : SlipOp) (hs : s.memoriesOk) : (s.beginRecord c o).2.memoriesOk := by
  unfold State.beginRecord
  dsimp only
  refine ite2_ok hs ?_
  split
  · exact hs
  · rename_i b s' hr
    have hk : s'.memoriesOk := State.readRecord_ok _ _ _ _ _ _ hs hr
    repeat' split
    all_goals exact hk


@[simp] theorem State.slipBegin_ok (s : State) (o : SlipOp) (hs : s.memoriesOk) : (s.slipBegin o).2.memoriesOk := by
  unfold State.slipBegin
  refine ite2_ok hs ?_
  split
  all_goals simp [*]


@[simp] theorem State.askSectors_ok (s : State) (o : SlipOp) (hs : s.memoriesOk) : (State.askSectors s o).memoriesOk := by
  unfold State.askSectors
  simp (maxDischargeDepth := 40) [*]

@[simp] theorem execCopyBegin_ok (op : Nat) (s : State) (hs : s.memoriesOk) : Out.memoriesOk (execCopyBegin op s) := by
  unfold execCopyBegin
  dsimp only
  refine (Out.memoriesOk_next _).2 ?_
  cases s.slip.find? fun o => o.id == op with
  | none => exact hs
  | some o =>
    dsimp only
    refine ite_ok hs (ite_ok hs (ite_ok (ite_ok (memoriesOk_of hs rfl rfl rfl) hs) ?_))
    have hf := State.flushFor_ok s o.req.by_ (reachScope false (slScope o.req.by_.slot)) hs
    have hb := State.slipBegin_ok _ o hf
    split <;> rename_i h <;> rw [h] at hb
    · simp [*]
    · dsimp only at hb
      refine ite_ok ?_ ?_ <;> simp (maxDischargeDepth := 40) [*]


@[simp] theorem State.histAdd_ok (s : State) (cid : Nat) (op : Nat) (issuer : Nat) (a : Nat) (x : Num) (hs : s.memoriesOk) : (State.histAdd s cid op issuer a x).memoriesOk := by
  unfold State.histAdd
  try dsimp only
  repeat' first
    | split | intro _ | with_reducible assumption | with_reducible refine (Out.memoriesOk_next _).2 ?_
    | with_reducible apply foldl_ok | with_reducible apply foldl_pair_ok | with_reducible apply ite_ok | with_reducible apply ite2_ok
    | with_reducible apply State.perform_ok
  all_goals try simp (maxDischargeDepth := 40) [*]

@[simp] theorem State.scatterSector_ok (s : State) (cid : Nat) (o : SlipOp) (land : Nat) (l : List (List Chunk × List Byte)) (h : s.memoriesOk) :
    (State.scatterSector s cid o land l).memoriesOk := by
  induction l generalizing s with
  | nil => simpa [State.scatterSector] using h
  | cons x t ih =>
    unfold State.scatterSector
    dsimp only
    apply ih
    refine State.updCtx_ok _ _ _ (State.perform_ok _ _ _ _ _ ?_)
    split <;> simp [*]


@[simp] theorem State.land_ok (s : State) (o : SlipOp) (id : Nat) (n : Nat) (hs : s.memoriesOk) : (State.land s o id n).memoriesOk := by
  unfold State.land
  try dsimp only
  repeat' split
  all_goals simp (maxDischargeDepth := 40) [*]

@[simp] theorem State.sectorDone_ok (s : State) (o : SlipOp) (k : Nat) (id : Nat) (hs : s.memoriesOk) : (State.sectorDone s o k id).memoriesOk := by
  unfold State.sectorDone
  try dsimp only
  repeat' split
  all_goals simp (maxDischargeDepth := 40) [*]

@[simp] theorem State.putAll_ok (s : State) (cid : Nat) (by_ : Writer) (ws : List (List Chunk × List Byte)) (hs : s.memoriesOk) : (State.putAll s cid by_ ws).memoriesOk := by
  unfold State.putAll
  try dsimp only
  repeat' first
    | split | intro _ | with_reducible assumption | with_reducible refine (Out.memoriesOk_next _).2 ?_
    | with_reducible apply foldl_ok | with_reducible apply foldl_pair_ok | with_reducible apply State.onIssuer_ok
    | with_reducible apply State.vec_ok | with_reducible apply State.mems_ok | with_reducible apply State.taskOp_ok
    | with_reducible apply State.strataOp_ok | with_reducible apply State.asyncOp_ok | with_reducible apply State.engPut_ok
  all_goals try simp (maxDischargeDepth := 40) [*]

@[simp] theorem State.signalHome_ok (s : State) (c : Context) (o : SlipOp) (k : Nat) (land : Nat) (hs : s.memoriesOk) : (State.signalHome s c o k land).memoriesOk := by
  unfold State.signalHome
  try dsimp only
  repeat' split
  all_goals simp (maxDischargeDepth := 40) [*]

@[simp] theorem State.sendFlit_ok (s : State) (ln : Nat) (dest : Nat) (addr : Nat) (op : Nat) (part : Nat) (bs : List Byte) (hs : s.memoriesOk) : (State.sendFlit s ln dest addr op part bs).memoriesOk := by
  unfold State.sendFlit
  simp (maxDischargeDepth := 40) [*]

@[simp] theorem State.freeBytes_ok (n : Nat) (s : State) (h : s.memoriesOk) : (State.freeBytes n s).2.memoriesOk := by
  induction n generalizing s with
  | zero => simpa [State.freeBytes] using h
  | succ n ih => exact ih _ (State.free_ok _ h)


@[simp] theorem State.remoteSector_ok (s : State) (c : Context) (o : SlipOp) (k : Nat) (hs : s.memoriesOk) : (State.remoteSector s c o k).memoriesOk := by
  unfold State.remoteSector
  try dsimp only
  repeat' split
  all_goals simp (maxDischargeDepth := 40) [*]

@[simp] theorem State.homeSector_ok (s : State) (c : Context) (o : SlipOp) (k : Nat) (hs : s.memoriesOk) : (State.homeSector s c o k).memoriesOk := by
  unfold State.homeSector
  try dsimp only
  repeat' first
    | split | intro _ | with_reducible assumption | with_reducible refine (Out.memoriesOk_next _).2 ?_
    | with_reducible apply foldl_ok | with_reducible apply foldl_pair_ok | with_reducible apply ite_ok | with_reducible apply ite2_ok
    | with_reducible apply State.fresh_ok | with_reducible apply State.signalHome_ok | with_reducible apply State.slipFail_ok
    | with_reducible apply State.sectorDone_ok | with_reducible apply State.engPut_ok | with_reducible apply State.updCtx_ok
    | with_reducible apply State.histAdd_ok | with_reducible apply State.scatterSector_ok | with_reducible apply State.putAll_ok
  all_goals try simp (maxDischargeDepth := 40) [*]

@[simp] theorem execCopySectorPerform_ok (op : Nat) (sector : Nat) (s : State) (hs : s.memoriesOk) : Out.memoriesOk (execCopySectorPerform op sector s) := by
  unfold execCopySectorPerform
  try dsimp only
  repeat' split
  all_goals simp (maxDischargeDepth := 40) [*]

theorem State.slipResume_ok (s : State) (cid die q : Nat) (t : State) (hs : s.memoriesOk) (e : s.slipResume cid die q = some t) :
    t.memoriesOk := by
  unfold State.slipResume at e
  dsimp only at e
  split at e
  · cases e
  · cases e
    refine (memoriesOk_of (foldl_ok _ (fun s x h => ?_) _ s hs) rfl rfl rfl)
    split <;> simp [*]


@[simp] theorem State.insertReport_ok (s : State) (r : Request) (code : Nat) (value : Option Nat) (hs : s.memoriesOk) : (State.insertReport s r code value).memoriesOk := by
  unfold State.insertReport
  simp (maxDischargeDepth := 40) [*]

@[simp] theorem execRecordCacheComplete_ok (req : Nat) (s : State) (hs : s.memoriesOk) : Out.memoriesOk (execRecordCacheComplete req s) := by
  unfold execRecordCacheComplete
  try dsimp only
  repeat' first
    | split | intro _ | with_reducible assumption | with_reducible refine (Out.memoriesOk_next _).2 ?_
    | with_reducible apply foldl_ok | with_reducible apply foldl_pair_ok | with_reducible apply State.onIssuer_ok
    | with_reducible apply State.vec_ok | with_reducible apply State.mems_ok | with_reducible apply State.taskOp_ok
    | with_reducible apply State.strataOp_ok | with_reducible apply State.asyncOp_ok | with_reducible apply State.cachePut_ok
    | with_reducible apply State.insertReport_ok | with_reducible apply State.requestDone_ok
  all_goals try simp (maxDischargeDepth := 40) [*]

@[simp] theorem State.matFlush_ok (s : State) (m : MatOp) (hs : s.memoriesOk) : (State.matFlush s m).memoriesOk := by
  unfold State.matFlush
  try dsimp only
  repeat' first
    | split | intro _ | with_reducible assumption | with_reducible refine (Out.memoriesOk_next _).2 ?_
    | with_reducible apply foldl_ok | with_reducible apply foldl_pair_ok | with_reducible apply ite_ok | with_reducible apply ite2_ok
    | with_reducible apply State.flushFor_ok
  all_goals try simp (maxDischargeDepth := 40) [*]

@[simp] theorem State.mtxOp_ok (s : State) (m : BitVec 2) (k : Wave → SubWave → W32 → Nat → State) (hs : s.memoriesOk) (hk : ∀ x0 x1 x2 x3, (k x0 x1 x2 x3).memoriesOk) : (State.mtxOp s m k).memoriesOk := by
  unfold State.mtxOp
  simp (maxDischargeDepth := 40) [*]

@[simp] theorem State.matIssue_ok (s : State) (w : Wave) (q : SubWave) (sl : W32) (lane : Nat) (tile : Nat) (kind : MatKind) (active : W32) (engine : Bool) (loose : Bool) (w' : Wave) (hs : s.memoriesOk) : (State.matIssue s w q sl lane tile kind active engine loose w').memoriesOk := by
  unfold State.matIssue
  try dsimp only
  repeat' split
  all_goals simp (maxDischargeDepth := 40) [*]

@[simp] theorem State.unless_ok (s : State) (w : Wave) (q : SubWave) (e : Option (Nat × W64)) (k : State) (hs : s.memoriesOk) (hk : k.memoriesOk) : (State.unless s w q e k).memoriesOk := by
  unfold State.unless
  try dsimp only
  repeat' split
  all_goals simp (maxDischargeDepth := 40) [*]

@[simp] theorem State.awaitGrant_ok (s : State) (w : Wave) (kind : Nat) (i : Instr) (hs : s.memoriesOk) : (State.awaitGrant s w kind i).memoriesOk := by
  unfold State.awaitGrant
  simp (maxDischargeDepth := 40) [*]

@[simp] theorem State.grantTile_ok (s : State) (t : BitVec 3) (m : BitVec 2) (anchor : Wave → Option (BitVec 12)) (i : Instr) (hs : s.memoriesOk) : (State.grantTile s t m anchor i).memoriesOk := by
  unfold State.grantTile
  try dsimp only
  repeat' first
    | split | intro _ | with_reducible assumption | with_reducible refine (Out.memoriesOk_next _).2 ?_
    | with_reducible apply foldl_ok | with_reducible apply foldl_pair_ok | with_reducible apply State.onIssuer_ok
    | with_reducible apply State.vec_ok | with_reducible apply State.mems_ok | with_reducible apply State.taskOp_ok
    | with_reducible apply State.strataOp_ok | with_reducible apply State.asyncOp_ok | with_reducible apply State.mtxOp_ok
    | with_reducible apply State.again_ok | with_reducible apply State.awaitGrant_ok | with_reducible apply State.raise_ok
    | with_reducible apply State.retire_ok
  all_goals try simp (maxDischargeDepth := 40) [*]

@[simp] theorem execAccz_ok (t : BitVec 3) (m : BitVec 2) (a : BitVec 6) (r : BitVec 1) (s : State) (hs : s.memoriesOk) : Out.memoriesOk (execAccz t m a r s) := by
  unfold execAccz
  try dsimp only
  repeat' first
    | split | intro _ | with_reducible assumption | with_reducible refine (Out.memoriesOk_next _).2 ?_
    | with_reducible apply foldl_ok | with_reducible apply foldl_pair_ok | with_reducible apply State.onIssuer_ok
    | with_reducible apply State.vec_ok | with_reducible apply State.mems_ok | with_reducible apply State.taskOp_ok
    | with_reducible apply State.strataOp_ok | with_reducible apply State.asyncOp_ok | with_reducible apply State.mtxOp_ok
    | with_reducible apply State.again_ok | with_reducible apply State.grantTile_ok | with_reducible apply State.retire_ok
  all_goals try simp (maxDischargeDepth := 40) [*]

@[simp] theorem execAccza_ok (t : BitVec 3) (m : BitVec 2) (s : State) (hs : s.memoriesOk) : Out.memoriesOk (execAccza t m s) := by
  unfold execAccza
  simp (maxDischargeDepth := 40) [*]

@[simp] theorem State.granted_ok (s : State) (kind : Nat) (w : Wave) (hs : s.memoriesOk) : (State.granted s kind w).memoriesOk := by
  unfold State.granted
  simp (maxDischargeDepth := 40) [*]

@[simp] theorem execAccumulatorTileGrant_ok (quad : Nat) (s : State) (hs : s.memoriesOk) : Out.memoriesOk (execAccumulatorTileGrant quad s) := by
  unfold execAccumulatorTileGrant
  try dsimp only
  repeat' split
  all_goals simp (maxDischargeDepth := 40) [*]

@[simp] theorem execObres_ok (h : BitVec 4) (m : BitVec 2) (d : BitVec 6) (s : State) (hs : s.memoriesOk) : Out.memoriesOk (execObres h m d s) := by
  unfold execObres
  try dsimp only
  repeat' first
    | split | intro _ | with_reducible assumption | with_reducible refine (Out.memoriesOk_next _).2 ?_
    | with_reducible apply foldl_ok | with_reducible apply foldl_pair_ok | with_reducible apply State.onIssuer_ok
    | with_reducible apply State.vec_ok | with_reducible apply State.mems_ok | with_reducible apply State.taskOp_ok
    | with_reducible apply State.strataOp_ok | with_reducible apply State.asyncOp_ok | with_reducible apply State.mtxOp_ok
    | with_reducible apply State.awaitGrant_ok | with_reducible apply State.raise_ok | with_reducible apply State.retire_ok
  all_goals try simp (maxDischargeDepth := 40) [*]

@[simp] theorem execOperandBufferGrant_ok (quad : Nat) (s : State) (hs : s.memoriesOk) : Out.memoriesOk (execOperandBufferGrant quad s) := by
  unfold execOperandBufferGrant
  try dsimp only
  repeat' split
  all_goals simp (maxDischargeDepth := 40) [*]

@[simp] theorem execObrel_ok (h : BitVec 4) (m : BitVec 2) (s : State) (hs : s.memoriesOk) : Out.memoriesOk (execObrel h m s) := by
  unfold execObrel
  try dsimp only
  repeat' first
    | split | intro _ | with_reducible assumption | with_reducible refine (Out.memoriesOk_next _).2 ?_
    | with_reducible apply foldl_ok | with_reducible apply foldl_pair_ok | with_reducible apply State.onIssuer_ok
    | with_reducible apply State.vec_ok | with_reducible apply State.mems_ok | with_reducible apply State.taskOp_ok
    | with_reducible apply State.strataOp_ok | with_reducible apply State.asyncOp_ok | with_reducible apply State.mtxOp_ok
    | with_reducible apply State.again_ok | with_reducible apply State.retire_ok
  all_goals try simp (maxDischargeDepth := 40) [*]

@[simp] theorem execObld_ok (h : BitVec 4) (c : BitVec 4) (m : BitVec 2) (s1 : BitVec 6) (x : BitVec 1) (s : State) (hs : s.memoriesOk) : Out.memoriesOk (execObld h c m s1 x s) := by
  unfold execObld
  try dsimp only
  repeat' first
    | split | intro _ | with_reducible assumption | with_reducible refine (Out.memoriesOk_next _).2 ?_
    | with_reducible apply foldl_ok | with_reducible apply foldl_pair_ok | with_reducible apply State.onIssuer_ok
    | with_reducible apply State.vec_ok | with_reducible apply State.mems_ok | with_reducible apply State.taskOp_ok
    | with_reducible apply State.strataOp_ok | with_reducible apply State.asyncOp_ok | with_reducible apply State.mtxOp_ok
    | with_reducible apply State.again_ok | with_reducible apply State.matIssue_ok | with_reducible apply State.raise_ok
    | with_reducible apply State.raiseFree_ok
  all_goals try simp (maxDischargeDepth := 40) [*]

@[simp] theorem execObwin_ok (h : BitVec 4) (m : BitVec 2) (s1 : BitVec 6) (s : State) (hs : s.memoriesOk) : Out.memoriesOk (execObwin h m s1 s) := by
  unfold execObwin
  try dsimp only
  repeat' first
    | split | intro _ | with_reducible assumption | with_reducible refine (Out.memoriesOk_next _).2 ?_
    | with_reducible apply foldl_ok | with_reducible apply foldl_pair_ok | with_reducible apply State.onIssuer_ok
    | with_reducible apply State.vec_ok | with_reducible apply State.mems_ok | with_reducible apply State.taskOp_ok
    | with_reducible apply State.strataOp_ok | with_reducible apply State.asyncOp_ok | with_reducible apply State.mtxOp_ok
    | with_reducible apply State.again_ok | with_reducible apply State.raise_ok | with_reducible apply State.raiseFree_ok
    | with_reducible apply State.retire_ok
  all_goals try simp (maxDischargeDepth := 40) [*]

@[simp] theorem execMmac_ok (t : BitVec 3) (a : BitVec 4) (b : BitVec 4) (m : BitVec 2) (j : BitVec 3) (h : BitVec 1) (v : BitVec 1) (u : BitVec 1) (s : State) (hs : s.memoriesOk) : Out.memoriesOk (execMmac t a b m j h v u s) := by
  unfold execMmac
  try dsimp only
  repeat' first
    | split | intro _ | with_reducible assumption | with_reducible refine (Out.memoriesOk_next _).2 ?_
    | with_reducible apply foldl_ok | with_reducible apply foldl_pair_ok | with_reducible apply State.onIssuer_ok
    | with_reducible apply State.vec_ok | with_reducible apply State.mems_ok | with_reducible apply State.taskOp_ok
    | with_reducible apply State.strataOp_ok | with_reducible apply State.asyncOp_ok | with_reducible apply State.mtxOp_ok
    | with_reducible apply State.again_ok | with_reducible apply State.matIssue_ok | with_reducible apply State.unless_ok
  all_goals try simp (maxDischargeDepth := 40) [*]

@[simp] theorem State.memberGoes_ok (set : Nat) (low : LatchEntry) (s : State) (e : LatchEntry) (hs : s.memoriesOk) : (State.memberGoes set low s e).memoriesOk := by
  unfold State.memberGoes
  try dsimp only
  repeat' split
  all_goals simp (maxDischargeDepth := 40) [*]

@[simp] theorem State.memberFaults_ok (v : W64) (s : State) (e : LatchEntry) (hs : s.memoriesOk) : (State.memberFaults v s e).memoriesOk := by
  unfold State.memberFaults
  try dsimp only
  repeat' split
  all_goals simp (maxDischargeDepth := 40) [*]

@[simp] theorem State.closeLatch_ok (s : State) (gid : Nat) (members : BitVec 16) (tag : BitVec 4) (hs : s.memoriesOk) : (State.closeLatch s gid members tag).memoriesOk := by
  unfold State.closeLatch
  try dsimp only
  repeat' first
    | split | intro _ | with_reducible assumption | with_reducible refine (Out.memoriesOk_next _).2 ?_
    | with_reducible apply foldl_ok | with_reducible apply foldl_pair_ok | with_reducible apply State.onIssuer_ok
    | with_reducible apply State.vec_ok | with_reducible apply State.mems_ok | with_reducible apply State.taskOp_ok
    | with_reducible apply State.strataOp_ok | with_reducible apply State.asyncOp_ok | with_reducible apply State.mtxOp_ok
    | with_reducible apply State.memberFaults_ok | with_reducible apply State.memberGoes_ok
    | with_reducible apply State.updGroup_ok
  all_goals try simp (maxDischargeDepth := 40) [*]

@[simp] theorem State.enterLatch_ok (s : State) (w : Wave) (tag : BitVec 4) (e : LatchEntry) (hs : s.memoriesOk) : (State.enterLatch s w tag e).memoriesOk := by
  unfold State.enterLatch
  simp (maxDischargeDepth := 40) [*]

@[simp] theorem execMma_ok (t : BitVec 3) (a : BitVec 4) (b : BitVec 4) (m : BitVec 2) (j : BitVec 3) (g : BitVec 4) (o : BitVec 1) (v : BitVec 1) (u : BitVec 1) (s : State) (hs : s.memoriesOk) : Out.memoriesOk (execMma t a b m j g o v u s) := by
  unfold execMma
  try dsimp only
  repeat' first
    | split | intro _ | with_reducible assumption | with_reducible refine (Out.memoriesOk_next _).2 ?_
    | with_reducible apply foldl_ok | with_reducible apply foldl_pair_ok | with_reducible apply State.onIssuer_ok
    | with_reducible apply State.vec_ok | with_reducible apply State.mems_ok | with_reducible apply State.taskOp_ok
    | with_reducible apply State.strataOp_ok | with_reducible apply State.asyncOp_ok | with_reducible apply State.mtxOp_ok
    | with_reducible apply State.again_ok | with_reducible apply State.enterLatch_ok | with_reducible apply State.matIssue_ok
    | with_reducible apply State.raise_ok | with_reducible apply State.unless_ok
  all_goals try simp (maxDischargeDepth := 40) [*]

@[simp] theorem execJset_ok (_m : BitVec 2) (s1 : BitVec 6) (s : State) (hs : s.memoriesOk) : Out.memoriesOk (execJset _m s1 s) := by
  unfold execJset
  try dsimp only
  repeat' first
    | split | intro _ | with_reducible assumption | with_reducible refine (Out.memoriesOk_next _).2 ?_
    | with_reducible apply foldl_ok | with_reducible apply foldl_pair_ok | with_reducible apply State.onIssuer_ok
    | with_reducible apply State.vec_ok | with_reducible apply State.mems_ok | with_reducible apply State.taskOp_ok
    | with_reducible apply State.strataOp_ok | with_reducible apply State.asyncOp_ok | with_reducible apply State.mtxOp_ok
    | with_reducible apply State.raise_ok | with_reducible apply State.retire_ok
  all_goals try simp (maxDischargeDepth := 40) [*]

@[simp] theorem State.partOp_ok (s : State) (m : BitVec 2) (t : Nat) (p : Nat) (f : BitVec 7) (k : Wave → SubWave → W32 → State) (hs : s.memoriesOk) (hk : ∀ x0 x1 x2, (k x0 x1 x2).memoriesOk) : (State.partOp s m t p f k).memoriesOk := by
  unfold State.partOp
  try dsimp only
  repeat' first
    | split | intro _ | with_reducible assumption | with_reducible refine (Out.memoriesOk_next _).2 ?_
    | with_reducible apply foldl_ok | with_reducible apply foldl_pair_ok | with_reducible apply State.onIssuer_ok
    | with_reducible apply State.vec_ok | with_reducible apply State.mems_ok | with_reducible apply State.taskOp_ok
    | with_reducible apply State.strataOp_ok | with_reducible apply State.asyncOp_ok | with_reducible apply State.mtxOp_ok
    | with_reducible apply State.raise_ok | with_reducible apply State.unless_ok
  all_goals try simp (maxDischargeDepth := 40) [*]

@[simp] theorem execAccrd_ok (t : BitVec 3) (d : BitVec 7) (m : BitVec 2) (p : BitVec 3) (s : State) (hs : s.memoriesOk) : Out.memoriesOk (execAccrd t d m p s) := by
  unfold execAccrd
  simp (maxDischargeDepth := 40) [*]

@[simp] theorem execAccwr_ok (t : BitVec 3) (a : BitVec 7) (m : BitVec 2) (p : BitVec 3) (s : State) (hs : s.memoriesOk) : Out.memoriesOk (execAccwr t a m p s) := by
  unfold execAccwr
  try dsimp only
  repeat' first
    | split | intro _ | with_reducible assumption | with_reducible refine (Out.memoriesOk_next _).2 ?_
    | with_reducible apply foldl_ok | with_reducible apply foldl_pair_ok | with_reducible apply State.onIssuer_ok
    | with_reducible apply State.vec_ok | with_reducible apply State.mems_ok | with_reducible apply State.taskOp_ok
    | with_reducible apply State.strataOp_ok | with_reducible apply State.asyncOp_ok | with_reducible apply State.mtxOp_ok
    | with_reducible apply State.partOp_ok | with_reducible apply State.again_ok | with_reducible apply State.matIssue_ok
  all_goals try simp (maxDischargeDepth := 40) [*]

@[simp] theorem execAccadd_ok (t : BitVec 3) (u : BitVec 3) (m : BitVec 2) (s : State) (hs : s.memoriesOk) : Out.memoriesOk (execAccadd t u m s) := by
  unfold execAccadd
  try dsimp only
  repeat' first
    | split | intro _ | with_reducible assumption | with_reducible refine (Out.memoriesOk_next _).2 ?_
    | with_reducible apply foldl_ok | with_reducible apply foldl_pair_ok | with_reducible apply State.onIssuer_ok
    | with_reducible apply State.vec_ok | with_reducible apply State.mems_ok | with_reducible apply State.taskOp_ok
    | with_reducible apply State.strataOp_ok | with_reducible apply State.asyncOp_ok | with_reducible apply State.mtxOp_ok
    | with_reducible apply State.partOp_ok | with_reducible apply State.again_ok | with_reducible apply State.matIssue_ok
    | with_reducible apply State.unless_ok
  all_goals try simp (maxDischargeDepth := 40) [*]

@[simp] theorem execAccst_ok (t : BitVec 3) (c : BitVec 1) (g : BitVec 2) (h : BitVec 4) (m : BitVec 2) (s1 : BitVec 6) (x : BitVec 1) (s : State) (hs : s.memoriesOk) : Out.memoriesOk (execAccst t c g h m s1 x s) := by
  unfold execAccst
  try dsimp only
  repeat' first
    | split | intro _ | with_reducible assumption | with_reducible refine (Out.memoriesOk_next _).2 ?_
    | with_reducible apply foldl_ok | with_reducible apply foldl_pair_ok | with_reducible apply State.onIssuer_ok
    | with_reducible apply State.vec_ok | with_reducible apply State.mems_ok | with_reducible apply State.taskOp_ok
    | with_reducible apply State.strataOp_ok | with_reducible apply State.asyncOp_ok | with_reducible apply State.mtxOp_ok
    | with_reducible apply State.partOp_ok | with_reducible apply State.again_ok | with_reducible apply State.matIssue_ok
    | with_reducible apply State.raise_ok | with_reducible apply State.unless_ok
  all_goals try simp (maxDischargeDepth := 40) [*]

@[simp] theorem execSealm_ok (_m : BitVec 2) (d : BitVec 6) (s : State) (hs : s.memoriesOk) : Out.memoriesOk (execSealm _m d s) := by
  unfold execSealm
  try dsimp only
  repeat' first
    | split | intro _ | with_reducible assumption | with_reducible refine (Out.memoriesOk_next _).2 ?_
    | with_reducible apply foldl_ok | with_reducible apply foldl_pair_ok | with_reducible apply State.onIssuer_ok
    | with_reducible apply State.vec_ok | with_reducible apply State.mems_ok | with_reducible apply State.taskOp_ok
    | with_reducible apply State.strataOp_ok | with_reducible apply State.asyncOp_ok | with_reducible apply State.mtxOp_ok
    | with_reducible apply State.partOp_ok | with_reducible apply State.again_ok | with_reducible apply State.retire_ok
  all_goals try simp (maxDischargeDepth := 40) [*]

@[simp] theorem State.matReport_ok (s : State) (m : MatOp) (code : Nat) (addr : Nat) (obj : Nat) (value : Option Nat) (marked : Bool) (hs : s.memoriesOk) : (State.matReport s m code addr obj value marked).memoriesOk := by
  unfold State.matReport
  simp (maxDischargeDepth := 40) [*]

@[simp] theorem State.matDone_ok (s : State) (m : MatOp) (hs : s.memoriesOk) : (State.matDone s m).memoriesOk := by
  unfold State.matDone
  simp (maxDischargeDepth := 40) [*]

@[simp] theorem State.performProduct_ok (s : State) (m : MatOp) (w : Wave) (ra : Reservation) (wb : Wave) (rb : Reservation) (j : Nat) (cells : List (List Byte) → List (List Byte) → List (Nat × List Prod)) (hs : s.memoriesOk) : (State.performProduct s m w ra wb rb j cells).memoriesOk := by
  unfold State.performProduct
  try dsimp only
  repeat' split
  all_goals simp (maxDischargeDepth := 40) [*]

@[simp] theorem State.runProduct_ok (s : State) (m : MatOp) (a : Nat) (bw : Nat) (b : Nat) (j : Nat) (ta : Bool) (tb : Bool) (hi : Option Bool) (hs : s.memoriesOk) : (State.runProduct s m a bw b j ta tb hi).memoriesOk := by
  unfold State.runProduct
  try dsimp only
  repeat' split
  all_goals simp (maxDischargeDepth := 40) [*]

@[simp] theorem State.runRead_ok (s : State) (m : MatOp) (w : Wave) (t : Tile) (d : Nat) (p : Nat) (draws : List (Nat × W32)) (hs : s.memoriesOk) : (State.runRead s m w t d p draws).memoriesOk := by
  unfold State.runRead
  simp (maxDischargeDepth := 40) [*]

@[simp] theorem State.runStore_ok (s : State) (m : MatOp) (w : Wave) (t : Tile) (addr : Nat) (four : Bool) (tag : Nat) (hist : Option Nat) (hs : s.memoriesOk) : (State.runStore s m w t addr four tag hist).memoriesOk := by
  unfold State.runStore
  try dsimp only
  repeat' first
    | split | intro _ | with_reducible assumption | with_reducible refine (Out.memoriesOk_next _).2 ?_
    | with_reducible apply foldl_ok | with_reducible apply foldl_pair_ok | with_reducible apply ite_ok | with_reducible apply ite2_ok
    | with_reducible apply State.matDone_ok | with_reducible apply State.perform_ok | with_reducible apply State.histAdd_ok
    | with_reducible apply State.updWave_ok
  all_goals try simp (maxDischargeDepth := 40) [*]

@[simp] theorem execMatrixOpPerform_ok (op : Nat) (s : State) (hs : s.memoriesOk) : Out.memoriesOk (execMatrixOpPerform op s) := by
  unfold execMatrixOpPerform
  try dsimp only
  repeat' first
    | split | intro _ | with_reducible assumption | with_reducible refine (Out.memoriesOk_next _).2 ?_
    | with_reducible apply foldl_ok | with_reducible apply foldl_pair_ok | with_reducible apply State.onIssuer_ok
    | with_reducible apply State.vec_ok | with_reducible apply State.mems_ok | with_reducible apply State.taskOp_ok
    | with_reducible apply State.strataOp_ok | with_reducible apply State.asyncOp_ok | with_reducible apply State.mtxOp_ok
    | with_reducible apply State.partOp_ok | with_reducible apply State.matDone_ok | with_reducible apply State.runProduct_ok
    | with_reducible apply State.runRead_ok | with_reducible apply State.runStore_ok | with_reducible apply State.updWave_ok
  all_goals try simp (maxDischargeDepth := 40) [*]

@[simp] theorem State.fillMark_ok (s : State) (at_ : Option Nat) (hs : s.memoriesOk) : (State.fillMark s at_).memoriesOk := by
  unfold State.fillMark
  try dsimp only
  repeat' first
    | split | intro _ | with_reducible assumption | with_reducible refine (Out.memoriesOk_next _).2 ?_
    | with_reducible apply foldl_ok | with_reducible apply foldl_pair_ok | with_reducible apply ite_ok | with_reducible apply ite2_ok
    | with_reducible apply State.markFaulted_ok
  all_goals try simp (maxDischargeDepth := 40) [*]

@[simp] theorem State.fillLand_ok (s : State) (m : MatOp) (w : Wave) (obj : Nat) (n : Nat) (hs : s.memoriesOk) : (State.fillLand s m w obj n).memoriesOk := by
  unfold State.fillLand
  try dsimp only
  repeat' split
  all_goals simp (maxDischargeDepth := 40) [*]

@[simp] theorem execOperandFillLand_ok (op : Nat) (target : Nat) (s : State) (hs : s.memoriesOk) : Out.memoriesOk (execOperandFillLand op target s) := by
  unfold execOperandFillLand
  try dsimp only
  repeat' split
  all_goals simp (maxDischargeDepth := 40) [*]

@[simp] theorem State.sieveAccept_ok (s : State) (r : EngReq) (hs : s.memoriesOk) : (State.sieveAccept s r).memoriesOk := by
  unfold State.sieveAccept
  simp (maxDischargeDepth := 40) [*]

@[simp] theorem State.sieveOp_ok (s : State) (m : BitVec 2) (kind : EngKind) (g : Wave → Option W64) (r : Wave → Option W64) (o : Wave → Option W64) (flag : Bool) (dst : Nat) (hs : s.memoriesOk) : (State.sieveOp s m kind g r o flag dst).memoriesOk := by
  unfold State.sieveOp
  try dsimp only
  repeat' first
    | split | intro _ | with_reducible assumption | with_reducible refine (Out.memoriesOk_next _).2 ?_
    | with_reducible apply foldl_ok | with_reducible apply foldl_pair_ok | with_reducible apply State.onIssuer_ok
    | with_reducible apply State.vec_ok | with_reducible apply State.mems_ok | with_reducible apply State.taskOp_ok
    | with_reducible apply State.strataOp_ok | with_reducible apply State.asyncOp_ok | with_reducible apply State.mtxOp_ok
    | with_reducible apply State.partOp_ok | with_reducible apply State.put_ok | with_reducible apply State.raise_ok
    | with_reducible apply State.retire_ok | with_reducible apply State.sendCombiner_ok
    | with_reducible apply State.sieveAccept_ok
  all_goals try simp (maxDischargeDepth := 40) [*]

@[simp] theorem execSvgrid_ok (a : BitVec 6) (b : BitVec 6) (m : BitVec 2) (s : State) (hs : s.memoriesOk) : Out.memoriesOk (execSvgrid a b m s) := by
  unfold execSvgrid
  simp (maxDischargeDepth := 40) [*]

@[simp] theorem execSvbin_ok (a : BitVec 6) (b : BitVec 6) (m : BitVec 2) (s : State) (hs : s.memoriesOk) : Out.memoriesOk (execSvbin a b m s) := by
  unfold execSvbin
  simp (maxDischargeDepth := 40) [*]

@[simp] theorem execSvpair_ok (a : BitVec 6) (b : BitVec 6) (c : BitVec 6) (m : BitVec 2) (f : BitVec 1) (s : State) (hs : s.memoriesOk) : Out.memoriesOk (execSvpair a b c m f s) := by
  unfold execSvpair
  simp (maxDischargeDepth := 40) [*]

@[simp] theorem execSvstat_ok (a : BitVec 6) (b : BitVec 6) (m : BitVec 2) (s : State) (hs : s.memoriesOk) : Out.memoriesOk (execSvstat a b m s) := by
  unfold execSvstat
  simp (maxDischargeDepth := 40) [*]

@[simp] theorem execSvcheck_ok (a : BitVec 6) (b : BitVec 6) (m : BitVec 2) (s : State) (hs : s.memoriesOk) : Out.memoriesOk (execSvcheck a b m s) := by
  unfold execSvcheck
  simp (maxDischargeDepth := 40) [*]

@[simp] theorem State.setSieve_ok (s : State) (o : SieveOp) (hs : s.memoriesOk) : (State.setSieve s o).memoriesOk := by
  unfold State.setSieve
  simp (maxDischargeDepth := 40) [*]

@[simp] theorem State.sieveReport_ok (s : State) (o : SieveOp) (code : Nat) (addr : Nat) (hs : s.memoriesOk) : (State.sieveReport s o code addr).memoriesOk := by
  unfold State.sieveReport
  simp (maxDischargeDepth := 40) [*]

@[simp] theorem State.gridFaulted_ok (s : State) (o : SieveOp) (hs : s.memoriesOk) : (State.gridFaulted s o).memoriesOk := by
  unfold State.gridFaulted
  try dsimp only
  repeat' split
  all_goals simp (maxDischargeDepth := 40) [*]

@[simp] theorem State.sieveFail_ok (s : State) (o : SieveOp) (e : EngErr) (hs : s.memoriesOk) : (State.sieveFail s o e).memoriesOk := by
  unfold State.sieveFail
  try dsimp only
  repeat' split
  all_goals simp (maxDischargeDepth := 40) [*]

@[simp] theorem State.sieveLeave_ok (s : State) (o : SieveOp) (hs : s.memoriesOk) : (State.sieveLeave s o).memoriesOk := by
  unfold State.sieveLeave
  try dsimp only
  repeat' split
  all_goals simp (maxDischargeDepth := 40) [*]

theorem State.sieveResume_ok (s : State) (cid die : Nat) (t : State) (hs : s.memoriesOk) (e : s.sieveResume cid die = some t) :
    t.memoriesOk := by
  unfold State.sieveResume at e
  dsimp only at e
  split at e
  · cases e
  · cases e
    refine foldl_ok _ (fun s x h => ?_) _ s hs
    split
    · exact State.setSieve_ok _ _ (by split <;> simp [*])
    · simp [*]


theorem State.sieveWrite_ok (s : State) (c : Context) (o : SieveOp) (ws : List (Nat × List Byte)) (t : State) (hs : s.memoriesOk)
    (e : s.sieveWrite c o ws = .ok t) : t.memoriesOk := by
  unfold State.sieveWrite at e
  dsimp only at e
  split at e
  · cases e
  · cases e
    simp [*]


theorem State.sieveAsk_ok (s : State) (o : SieveOp) (k : Nat) (l : List (Nat × Nat)) (t : State) (hs : s.memoriesOk)
    (e : s.sieveAsk o k l = some t) : t.memoriesOk := by
  unfold State.sieveAsk at e
  dsimp only at e
  split at e
  · cases e
  · cases e
    exact State.tlbKeep_ok _ _ _ _ (State.setSieve_ok _ _ (memoriesOk_of hs rfl rfl rfl))


@[simp] theorem execSieveOpBegin_ok (op : Nat) (s : State) (hs : s.memoriesOk) : Out.memoriesOk (execSieveOpBegin op s) := by
  unfold execSieveOpBegin
  dsimp only
  refine (Out.memoriesOk_next _).2 ?_
  split
  · exact hs
  rename_i o _
  have hf := State.flushFor_ok s o.req.by_ (reachScope false (slScope o.req.by_.slot)) hs
  refine ite_ok hs ?_
  split
  · simp [*]
  split
  · simp [*]
  · simp [*]
  split
  · simp [*]
  · rename_i e
    have := State.sieveWrite_ok _ _ _ _ _ hf e
    simp [*]


@[simp] theorem execPairRecordWrite_ok (op : Nat) (s : State) (hs : s.memoriesOk) : Out.memoriesOk (execPairRecordWrite op s) := by
  unfold execPairRecordWrite
  dsimp only
  refine (Out.memoriesOk_next _).2 ?_
  split
  · exact hs
  refine ite_ok hs ?_
  split
  · rename_i e
    exact State.sieveAsk_ok _ _ _ _ _ hs e
  refine ite_ok hs ?_
  split
  · simp [*]
  · simp [*]
  · exact hs
  split
  · simp [*]
  · rename_i e
    have := State.sieveWrite_ok _ _ _ _ _ hs e
    simp (maxDischargeDepth := 40) [*]


@[simp] theorem State.clearRing_ok (s : State) (w : Wave) (r : Nat) (hs : s.memoriesOk) : (State.clearRing s w r).memoriesOk := by
  unfold State.clearRing
  try dsimp only
  repeat' first
    | split | intro _ | with_reducible assumption | with_reducible refine (Out.memoriesOk_next _).2 ?_
    | with_reducible apply foldl_ok | with_reducible apply foldl_pair_ok | with_reducible apply ite_ok | with_reducible apply ite2_ok
    | with_reducible apply State.perform_ok
  all_goals try simp (maxDischargeDepth := 40) [*]

@[simp] theorem State.cleared_ok (s : State) (o : SieveOp) (hs : s.memoriesOk) : (State.cleared s o).memoriesOk := by
  unfold State.cleared
  try dsimp only
  repeat' first
    | split | intro _ | with_reducible assumption | with_reducible refine (Out.memoriesOk_next _).2 ?_
    | with_reducible apply foldl_ok | with_reducible apply foldl_pair_ok | with_reducible apply ite_ok | with_reducible apply ite2_ok
    | with_reducible apply State.request_ok | with_reducible apply State.clearRing_ok | with_reducible apply State.updWave_ok
  all_goals try simp (maxDischargeDepth := 40) [*]

@[simp] theorem State.sieveEnd_ok (s : State) (o : SieveOp) (hs : s.memoriesOk) : (State.sieveEnd s o).memoriesOk := by
  unfold State.sieveEnd
  try dsimp only
  repeat' split
  all_goals simp (maxDischargeDepth := 40) [*]

@[simp] theorem State.sieveFinish_ok (s : State) (c : Context) (o : SieveOp) (ws : List (Nat × List Byte)) (hs : s.memoriesOk) : (State.sieveFinish s c o ws).memoriesOk := by
  unfold State.sieveFinish
  split
  · simp [*]
  · rename_i e
    have := State.sieveWrite_ok _ _ _ _ _ hs e
    simp [*]


@[simp] theorem State.sieveRefused_ok (s : State) (c : Context) (o : SieveOp) (d : Nat) (hs : s.memoriesOk) : (State.sieveRefused s c o d).memoriesOk := by
  unfold State.sieveRefused
  simp (maxDischargeDepth := 40) [*]

@[simp] theorem State.finishGrid_ok (s : State) (c : Context) (o : SieveOp) (hs : s.memoriesOk) : (State.finishGrid s c o).memoriesOk := by
  unfold State.finishGrid
  dsimp only
  split
  · simp [*]
  · rename_i e
    have := State.sieveWrite_ok _ _ _ _ _ hs e
    simp (maxDischargeDepth := 40) [*]


@[simp] theorem State.finishStat_ok (s : State) (o : SieveOp) (d : Nat) (hs : s.memoriesOk) : (State.finishStat s o d).memoriesOk := by
  unfold State.finishStat
  simp (maxDischargeDepth := 40) [*]

@[simp] theorem State.finishBin_ok (s : State) (c : Context) (o : SieveOp) (d : Nat) (hs : s.memoriesOk) : (State.finishBin s c o d).memoriesOk := by
  unfold State.finishBin
  dsimp only
  split
  · rename_i e
    exact State.sieveAsk_ok _ _ _ _ _ hs e
  split
  · refine State.sieveFail_ok _ _ _ ?_
    split
    · exact hs
    · rename_i e
      exact State.sieveWrite_ok _ _ _ _ _ hs e
  · split
    · rename_i e
      exact State.sieveAsk_ok _ _ _ _ _ hs e
    · simp [*]


@[simp] theorem State.finishCheck_ok (s : State) (c : Context) (o : SieveOp) (d : Nat) (hs : s.memoriesOk) : (State.finishCheck s c o d).memoriesOk := by
  unfold State.finishCheck
  dsimp only
  split
  · rename_i e
    exact State.sieveAsk_ok _ _ _ _ _ hs e
  split <;> simp [*]


@[simp] theorem State.finishPair_ok (s : State) (c : Context) (o : SieveOp) (d : Nat) (hs : s.memoriesOk) : (State.finishPair s c o d).memoriesOk := by
  unfold State.finishPair
  dsimp only
  split
  · simp [*]
  refine ite_ok (by simp [*]) ?_
  split
  · rename_i e
    exact State.sieveAsk_ok _ _ _ _ _ hs e
  split <;> simp (maxDischargeDepth := 40) [*]


@[simp] theorem execSieveOpComplete_ok (op : Nat) (s : State) (hs : s.memoriesOk) : Out.memoriesOk (execSieveOpComplete op s) := by
  unfold execSieveOpComplete
  try dsimp only
  repeat' split
  all_goals simp (maxDischargeDepth := 40) [*]

@[simp] theorem State.freeWords_ok (n : Nat) (s : State) (h : s.memoriesOk) : (State.freeWords n s).2.memoriesOk := by
  induction n generalizing s with
  | zero => simpa [State.freeWords] using h
  | succ n ih => exact ih _ (State.free_ok _ h)


@[simp] theorem execSvpull_ok (a : BitVec 6) (b : BitVec 6) (c : BitVec 6) (m : BitVec 2) (s : State) (hs : s.memoriesOk) : Out.memoriesOk (execSvpull a b c m s) := by
  unfold execSvpull
  try dsimp only
  repeat' first
    | split | intro _ | with_reducible assumption | with_reducible refine (Out.memoriesOk_next _).2 ?_
    | with_reducible apply foldl_ok | with_reducible apply foldl_pair_ok | with_reducible apply ite_ok | with_reducible apply ite2_ok
    | with_reducible apply State.runOrSkip_ok | with_reducible apply State.raise_ok | with_reducible apply State.again_ok
    | with_reducible apply State.freeWords_ok | with_reducible apply State.perform_ok | with_reducible apply State.retire_ok
  all_goals try simp (maxDischargeDepth := 40) [*]

@[simp] theorem execSvclr_ok (a : BitVec 6) (m : BitVec 2) (s : State) (hs : s.memoriesOk) : Out.memoriesOk (execSvclr a m s) := by
  unfold execSvclr
  try dsimp only
  repeat' first
    | split | intro _ | with_reducible assumption | with_reducible refine (Out.memoriesOk_next _).2 ?_
    | with_reducible apply foldl_ok | with_reducible apply foldl_pair_ok | with_reducible apply State.onIssuer_ok
    | with_reducible apply State.vec_ok | with_reducible apply State.mems_ok | with_reducible apply State.taskOp_ok
    | with_reducible apply State.strataOp_ok | with_reducible apply State.asyncOp_ok | with_reducible apply State.mtxOp_ok
    | with_reducible apply State.partOp_ok | with_reducible apply State.again_ok | with_reducible apply State.perform_ok
    | with_reducible apply State.raise_ok | with_reducible apply State.retire_ok
  all_goals try simp (maxDischargeDepth := 40) [*]

@[simp] theorem execQueueAccept_ok (wave : Nat) (s : State) (hs : s.memoriesOk) : Out.memoriesOk (execQueueAccept wave s) := by
  unfold execQueueAccept
  try dsimp only
  repeat' split
  all_goals simp (maxDischargeDepth := 40) [*]

end Sys2Proof.Machine
end

