-- ==== Sys2Proof/Laws/MemoriesModule.lean ====
section
/-! SUPPORT. The same for partitions, contexts, the debug blocks, the fabric and the host, and for every instruction and event. -/

namespace Sys2Proof.Machine

@[simp] theorem State.hostRefuse_ok (s : State) (fn : Nat) (addr : Nat) (hs : s.memoriesOk) : (State.hostRefuse s fn addr).memoriesOk := by
  unfold State.hostRefuse
  simp (maxDischargeDepth := 40) [*]

@[simp] theorem State.barAccess_ok (s : State) (fn : Nat) (off : Nat) (k : State → State) (hs : s.memoriesOk) (hk : ∀ x0, x0.memoriesOk → (k x0).memoriesOk) : (State.barAccess s fn off k).memoriesOk := by
  unfold State.barAccess
  try dsimp only
  repeat' split
  all_goals simp (maxDischargeDepth := 40) [*]

@[simp] theorem State.cmdDone_ok (s : State) (fn : Nat) (status : Nat) (detail : Nat) (hs : s.memoriesOk) : (State.cmdDone s fn status detail).memoriesOk := by
  unfold State.cmdDone
  simp (maxDischargeDepth := 40) [*]

@[simp] theorem State.cmdBusy_ok (s : State) (fn : Nat) (hs : s.memoriesOk) : (State.cmdBusy s fn).memoriesOk := by
  unfold State.cmdBusy
  simp (maxDischargeDepth := 40) [*]

@[simp] theorem cmdOk_ok (s : State) (hs : s.memoriesOk) : (cmdOk s).2.memoriesOk := by
  unfold cmdOk
  simp (maxDischargeDepth := 40) [*]

@[simp] theorem cmdBad_ok (s : State) (status : Nat) (hs : s.memoriesOk) : (cmdBad s status).2.memoriesOk := by
  unfold cmdBad
  simp (maxDischargeDepth := 40) [*]

@[simp] theorem State.runCommand_ok (s : State) (fn op : Nat) (k : State → CmdResult) (hk : ∀ x, x.memoriesOk → (k x).2.memoriesOk) (hs : s.memoriesOk) : (State.runCommand s fn op k).memoriesOk := by
  unfold State.runCommand
  have h : (s.updFunc fn fun f => { f with done := false }).memoriesOk := by simp [*]
  have h' := hk _ h
  dsimp only
  repeat' first
    | with_reducible apply ite_ok
    | with_reducible apply State.cmdBusy_ok
    | with_reducible apply State.cmdDone_ok
    | with_reducible assumption
  split
  · rename_i e
    rw [e] at h'
    exact State.cmdDone_ok _ _ _ _ h'
  · rename_i e
    rw [e] at h'
    exact State.updFunc_ok _ _ _ h'


@[simp] theorem State.command_ok (s : State) (fn : Nat) (op : Nat) (ops : List W64) (k : State → CmdResult) (hs : s.memoriesOk) (hk : ∀ x0, x0.memoriesOk → (k x0).2.memoriesOk) : (State.command s fn op ops k).memoriesOk := by
  unfold State.command
  try dsimp only
  repeat' first
    | split | intro _ | with_reducible assumption | with_reducible refine (Out.memoriesOk_next _).2 ?_
    | with_reducible apply foldl_ok | with_reducible apply foldl_pair_ok | with_reducible apply State.onIssuer_ok
    | with_reducible apply State.vec_ok | with_reducible apply State.mems_ok | with_reducible apply State.taskOp_ok
    | with_reducible apply State.strataOp_ok | with_reducible apply State.asyncOp_ok | with_reducible apply State.mtxOp_ok
    | with_reducible apply State.partOp_ok | with_reducible apply State.barAccess_ok
    | with_reducible apply State.runCommand_ok | with_reducible apply State.updFunc_ok
  all_goals try simp (maxDischargeDepth := 40) [*]

@[simp] theorem State.onSlot_ok (s : State) (vf : Nat) (slot : W64) (k : Context → CmdResult) (hs : s.memoriesOk) (hk : ∀ x0, (k x0).2.memoriesOk) : (State.onSlot s vf slot k).2.memoriesOk := by
  unfold State.onSlot
  try dsimp only
  repeat' split
  all_goals simp (maxDischargeDepth := 40) [*]

@[simp] theorem State.doPartcreate_ok (s : State) (hs : s.memoriesOk) : (State.doPartcreate s).2.memoriesOk := by
  unfold State.doPartcreate
  try dsimp only
  repeat' split
  all_goals simp (maxDischargeDepth := 40) [*]

@[simp] theorem State.doPartdestroy_ok (s : State) (vf : Nat) (hs : s.memoriesOk) : (State.doPartdestroy s vf).2.memoriesOk := by
  unfold State.doPartdestroy
  try dsimp only
  repeat' split
  all_goals simp (maxDischargeDepth := 40) [*]

@[simp] theorem execPartcreate_ok (s : State) (hs : s.memoriesOk) : Out.memoriesOk (execPartcreate s) := by
  unfold execPartcreate
  try dsimp only
  repeat' first
    | split | intro _ | with_reducible assumption | with_reducible refine (Out.memoriesOk_next _).2 ?_
    | with_reducible apply foldl_ok | with_reducible apply foldl_pair_ok | with_reducible apply State.onIssuer_ok
    | with_reducible apply State.vec_ok | with_reducible apply State.mems_ok | with_reducible apply State.taskOp_ok
    | with_reducible apply State.strataOp_ok | with_reducible apply State.asyncOp_ok | with_reducible apply State.mtxOp_ok
    | with_reducible apply State.partOp_ok | with_reducible apply State.barAccess_ok
    | with_reducible apply State.runCommand_ok | with_reducible apply State.command_ok | with_reducible apply State.onSlot_ok
    | with_reducible apply State.doPartcreate_ok
  all_goals try simp (maxDischargeDepth := 40) [*]

@[simp] theorem execPartdestroy_ok (vf : W64) (s : State) (hs : s.memoriesOk) : Out.memoriesOk (execPartdestroy vf s) := by
  unfold execPartdestroy
  try dsimp only
  repeat' first
    | split | intro _ | with_reducible assumption | with_reducible refine (Out.memoriesOk_next _).2 ?_
    | with_reducible apply foldl_ok | with_reducible apply foldl_pair_ok | with_reducible apply State.onIssuer_ok
    | with_reducible apply State.vec_ok | with_reducible apply State.mems_ok | with_reducible apply State.taskOp_ok
    | with_reducible apply State.strataOp_ok | with_reducible apply State.asyncOp_ok | with_reducible apply State.mtxOp_ok
    | with_reducible apply State.partOp_ok | with_reducible apply State.barAccess_ok
    | with_reducible apply State.runCommand_ok | with_reducible apply State.command_ok | with_reducible apply State.onSlot_ok
    | with_reducible apply State.doPartdestroy_ok
  all_goals try simp (maxDischargeDepth := 40) [*]

@[simp] theorem State.refill_ok (s : State) (core : Nat) (hs : s.memoriesOk) : (State.refill s core).memoriesOk := by
  unfold State.refill
  try dsimp only
  repeat' first
    | split | intro _ | with_reducible assumption | with_reducible refine (Out.memoriesOk_next _).2 ?_
    | with_reducible apply foldl_ok | with_reducible apply foldl_pair_ok | with_reducible apply ite_ok | with_reducible apply ite2_ok
  all_goals try simp (maxDischargeDepth := 40) [*]

@[simp] theorem execWindowRefill_ok (core : Nat) (s : State) (hs : s.memoriesOk) : Out.memoriesOk (execWindowRefill core s) := by
  unfold execWindowRefill
  try dsimp only
  repeat' split
  all_goals simp (maxDischargeDepth := 40) [*]

@[simp] theorem State.beginWindow_ok (s : State) (hs : s.memoriesOk) : (State.beginWindow s).memoriesOk := by
  unfold State.beginWindow
  try dsimp only
  repeat' first
    | split | intro _ | with_reducible assumption | with_reducible refine (Out.memoriesOk_next _).2 ?_
    | with_reducible apply foldl_ok | with_reducible apply foldl_pair_ok | with_reducible apply ite_ok | with_reducible apply ite2_ok
    | with_reducible apply State.refill_ok
  all_goals try simp (maxDischargeDepth := 40) [*]

@[simp] theorem State.countGrant_ok (s : State) (t : Transfer) (hs : s.memoriesOk) : (State.countGrant s t).memoriesOk := by
  unfold State.countGrant
  try dsimp only
  repeat' split
  all_goals simp (maxDischargeDepth := 40) [*]

@[simp] theorem State.grantAt_ok (port n left : Nat) (s : State) (hs : s.memoriesOk) : (State.grantAt port n left s).memoriesOk := by
  induction n generalizing left s with
  | zero => simpa [State.grantAt] using hs
  | succ n ih =>
    unfold State.grantAt
    dsimp only
    split
    · exact memoriesOk_of hs rfl rfl rfl
    · refine ite_ok (memoriesOk_of hs rfl rfl rfl) (ih _ _ ?_)
      simp [*]


@[simp] theorem execPortGrant_ok (core : Nat) (s : State) (hs : s.memoriesOk) : Out.memoriesOk (execPortGrant core s) := by
  unfold execPortGrant
  try dsimp only
  repeat' split
  all_goals simp (maxDischargeDepth := 40) [*]

@[simp] theorem State.doCtxcreate_ok (s : State) (vf : Nat) (slot : Nat) (addr : Nat) (hs : s.memoriesOk) : (State.doCtxcreate s vf slot addr).2.memoriesOk := by
  unfold State.doCtxcreate
  try dsimp only
  repeat' split
  all_goals simp (maxDischargeDepth := 40) [*]

@[simp] theorem State.dropCtx_ok (s : State) (cid : Nat) (hs : s.memoriesOk) : (State.dropCtx s cid).memoriesOk := by
  unfold State.dropCtx
  simp (maxDischargeDepth := 40) [*]

@[simp] theorem State.doCtxdestroy_ok (s : State) (vf : Nat) (slot : W64) (hs : s.memoriesOk) : (State.doCtxdestroy s vf slot).2.memoriesOk := by
  unfold State.doCtxdestroy
  try dsimp only
  repeat' first
    | split | intro _ | with_reducible assumption | with_reducible refine (Out.memoriesOk_next _).2 ?_
    | with_reducible apply foldl_ok | with_reducible apply foldl_pair_ok | with_reducible apply State.onIssuer_ok
    | with_reducible apply State.vec_ok | with_reducible apply State.mems_ok | with_reducible apply State.taskOp_ok
    | with_reducible apply State.strataOp_ok | with_reducible apply State.asyncOp_ok | with_reducible apply State.mtxOp_ok
    | with_reducible apply State.partOp_ok | with_reducible apply State.barAccess_ok
    | with_reducible apply State.runCommand_ok | with_reducible apply State.command_ok | with_reducible apply State.onSlot_ok
    | with_reducible apply State.dropCtx_ok
  all_goals try simp (maxDischargeDepth := 40) [*]

@[simp] theorem execCtxcreate_ok (vf : Nat) (slot : W64) (record : W64) (s : State) (hs : s.memoriesOk) : Out.memoriesOk (execCtxcreate vf slot record s) := by
  unfold execCtxcreate
  try dsimp only
  repeat' first
    | split | intro _ | with_reducible assumption | with_reducible refine (Out.memoriesOk_next _).2 ?_
    | with_reducible apply foldl_ok | with_reducible apply foldl_pair_ok | with_reducible apply State.onIssuer_ok
    | with_reducible apply State.vec_ok | with_reducible apply State.mems_ok | with_reducible apply State.taskOp_ok
    | with_reducible apply State.strataOp_ok | with_reducible apply State.asyncOp_ok | with_reducible apply State.mtxOp_ok
    | with_reducible apply State.partOp_ok | with_reducible apply State.barAccess_ok
    | with_reducible apply State.runCommand_ok | with_reducible apply State.command_ok | with_reducible apply State.onSlot_ok
    | with_reducible apply State.doCtxcreate_ok
  all_goals try simp (maxDischargeDepth := 40) [*]

@[simp] theorem execCtxdestroy_ok (vf : Nat) (slot : W64) (s : State) (hs : s.memoriesOk) : Out.memoriesOk (execCtxdestroy vf slot s) := by
  unfold execCtxdestroy
  try dsimp only
  repeat' first
    | split | intro _ | with_reducible assumption | with_reducible refine (Out.memoriesOk_next _).2 ?_
    | with_reducible apply foldl_ok | with_reducible apply foldl_pair_ok | with_reducible apply State.onIssuer_ok
    | with_reducible apply State.vec_ok | with_reducible apply State.mems_ok | with_reducible apply State.taskOp_ok
    | with_reducible apply State.strataOp_ok | with_reducible apply State.asyncOp_ok | with_reducible apply State.mtxOp_ok
    | with_reducible apply State.partOp_ok | with_reducible apply State.barAccess_ok
    | with_reducible apply State.runCommand_ok | with_reducible apply State.command_ok | with_reducible apply State.onSlot_ok
    | with_reducible apply State.doCtxdestroy_ok
  all_goals try simp (maxDischargeDepth := 40) [*]

@[simp] theorem State.doInvalidate_ok (s : State) (vf : Nat) (slot : W64) (base : W64) (len : W64) (hs : s.memoriesOk) : (State.doInvalidate s vf slot base len).2.memoriesOk := by
  unfold State.doInvalidate
  try dsimp only
  repeat' first
    | split | intro _ | with_reducible assumption | with_reducible refine (Out.memoriesOk_next _).2 ?_
    | with_reducible apply foldl_ok | with_reducible apply foldl_pair_ok | with_reducible apply ite_ok | with_reducible apply ite2_ok
    | with_reducible apply State.onSlot_ok | with_reducible apply cmdOk_ok
  all_goals try simp (maxDischargeDepth := 40) [*]

@[simp] theorem execInvalidate_ok (vf : Nat) (slot : W64) (base : W64) (len : W64) (s : State) (hs : s.memoriesOk) : Out.memoriesOk (execInvalidate vf slot base len s) := by
  unfold execInvalidate
  try dsimp only
  repeat' first
    | split | intro _ | with_reducible assumption | with_reducible refine (Out.memoriesOk_next _).2 ?_
    | with_reducible apply foldl_ok | with_reducible apply foldl_pair_ok | with_reducible apply ite_ok | with_reducible apply ite2_ok
    | with_reducible apply State.command_ok | with_reducible apply State.doInvalidate_ok
  all_goals try simp (maxDischargeDepth := 40) [*]

@[simp] theorem State.doClearmark_ok (s : State) (vf : Nat) (slot : W64) (obj : W64) (hs : s.memoriesOk) : (State.doClearmark s vf slot obj).2.memoriesOk := by
  unfold State.doClearmark
  try dsimp only
  repeat' first
    | split | intro _ | with_reducible assumption | with_reducible refine (Out.memoriesOk_next _).2 ?_
    | with_reducible apply foldl_ok | with_reducible apply foldl_pair_ok | with_reducible apply State.onIssuer_ok
    | with_reducible apply State.vec_ok | with_reducible apply State.mems_ok | with_reducible apply State.taskOp_ok
    | with_reducible apply State.strataOp_ok | with_reducible apply State.asyncOp_ok | with_reducible apply State.mtxOp_ok
    | with_reducible apply State.partOp_ok | with_reducible apply State.barAccess_ok
    | with_reducible apply State.runCommand_ok | with_reducible apply State.command_ok | with_reducible apply State.onSlot_ok
  all_goals try simp (maxDischargeDepth := 40) [*]

@[simp] theorem execClearmark_ok (vf : Nat) (slot : W64) (obj : W64) (s : State) (hs : s.memoriesOk) : Out.memoriesOk (execClearmark vf slot obj s) := by
  unfold execClearmark
  try dsimp only
  repeat' first
    | split | intro _ | with_reducible assumption | with_reducible refine (Out.memoriesOk_next _).2 ?_
    | with_reducible apply foldl_ok | with_reducible apply foldl_pair_ok | with_reducible apply State.onIssuer_ok
    | with_reducible apply State.vec_ok | with_reducible apply State.mems_ok | with_reducible apply State.taskOp_ok
    | with_reducible apply State.strataOp_ok | with_reducible apply State.asyncOp_ok | with_reducible apply State.mtxOp_ok
    | with_reducible apply State.partOp_ok | with_reducible apply State.barAccess_ok
    | with_reducible apply State.runCommand_ok | with_reducible apply State.command_ok | with_reducible apply State.onSlot_ok
    | with_reducible apply State.doClearmark_ok
  all_goals try simp (maxDischargeDepth := 40) [*]

theorem State.strataResume_ok (s : State) (cid : Nat) (t : State) (hs : s.memoriesOk) (e : s.strataResume cid = some t) : t.memoriesOk := by
  unfold State.strataResume at e
  dsimp only at e
  repeat' split at e
  all_goals cases e
  all_goals simp [*]


@[simp] theorem State.doQresume_ok (s : State) (vf : Nat) (slot engine die queue : W64) (hs : s.memoriesOk) : (State.doQresume s vf slot engine die queue).2.memoriesOk := by
  unfold State.doQresume
  apply State.onSlot_ok _ _ _ _ hs
  intro c
  dsimp only
  refine ite2_ok (cmdBad_ok _ _ hs) ?_
  split
  · rename_i e
    refine cmdOk_ok _ ?_
    split at e
    · exact State.slipResume_ok _ _ _ _ _ hs e
    · exact State.sieveResume_ok _ _ _ _ hs e
    · exact State.strataResume_ok _ _ _ hs e
    · cases e
  · exact cmdBad_ok _ _ hs


@[simp] theorem execQresume_ok (vf : Nat) (slot : W64) (engine : W64) (die : W64) (queue : W64) (s : State) (hs : s.memoriesOk) : Out.memoriesOk (execQresume vf slot engine die queue s) := by
  unfold execQresume
  try dsimp only
  repeat' first
    | split | intro _ | with_reducible assumption | with_reducible refine (Out.memoriesOk_next _).2 ?_
    | with_reducible apply foldl_ok | with_reducible apply foldl_pair_ok | with_reducible apply State.onIssuer_ok
    | with_reducible apply State.vec_ok | with_reducible apply State.mems_ok | with_reducible apply State.taskOp_ok
    | with_reducible apply State.strataOp_ok | with_reducible apply State.asyncOp_ok | with_reducible apply State.mtxOp_ok
    | with_reducible apply State.partOp_ok | with_reducible apply State.barAccess_ok
    | with_reducible apply State.runCommand_ok | with_reducible apply State.command_ok | with_reducible apply State.onSlot_ok
    | with_reducible apply State.doQresume_ok
  all_goals try simp (maxDischargeDepth := 40) [*]

@[simp] theorem State.addGrid_ok (s : State) (g : Grid) (hs : s.memoriesOk) : (State.addGrid s g).memoriesOk := by
  unfold State.addGrid
  try dsimp only
  repeat' split
  all_goals simp (maxDischargeDepth := 40) [*]

@[simp] theorem execGlaunch_ok (a : BitVec 6) (b : BitVec 6) (m : BitVec 2) (s : State) (hs : s.memoriesOk) : Out.memoriesOk (execGlaunch a b m s) := by
  unfold execGlaunch
  try dsimp only
  repeat' first
    | split | intro _ | with_reducible assumption | with_reducible refine (Out.memoriesOk_next _).2 ?_
    | with_reducible apply foldl_ok | with_reducible apply foldl_pair_ok | with_reducible apply State.onIssuer_ok
    | with_reducible apply State.vec_ok | with_reducible apply State.mems_ok | with_reducible apply State.taskOp_ok
    | with_reducible apply State.strataOp_ok | with_reducible apply State.asyncOp_ok | with_reducible apply State.mtxOp_ok
    | with_reducible apply State.partOp_ok | with_reducible apply State.barAccess_ok
    | with_reducible apply State.runCommand_ok | with_reducible apply State.command_ok | with_reducible apply State.onSlot_ok
    | with_reducible apply State.addGrid_ok | with_reducible apply State.again_ok | with_reducible apply State.fresh_ok
    | with_reducible apply State.raise_ok | with_reducible apply State.report_ok | with_reducible apply State.retire_ok
    | with_reducible apply State.sendCombiner_ok
  all_goals try simp (maxDischargeDepth := 40) [*]

@[simp] theorem State.launchNext_ok (s : State) (c : Context) (hs : s.memoriesOk) : (State.launchNext s c).memoriesOk := by
  unfold State.launchNext
  simp (maxDischargeDepth := 40) [*]

@[simp] theorem State.launchRefuse_ok (s : State) (c : Context) (code : Nat) (addr : Nat) (hs : s.memoriesOk) : (State.launchRefuse s c code addr).memoriesOk := by
  unfold State.launchRefuse
  try dsimp only
  repeat' first
    | split | intro _ | with_reducible assumption | with_reducible refine (Out.memoriesOk_next _).2 ?_
    | with_reducible apply foldl_ok | with_reducible apply foldl_pair_ok | with_reducible apply ite_ok | with_reducible apply ite2_ok
    | with_reducible apply State.free_ok | with_reducible apply State.report_ok | with_reducible apply State.interrupt_ok
    | with_reducible apply State.launchNext_ok
  all_goals try simp (maxDischargeDepth := 40) [*]

@[simp] theorem execLaunchPacketStart_ok (ctx : Nat) (s : State) (hs : s.memoriesOk) : Out.memoriesOk (execLaunchPacketStart ctx s) := by
  unfold execLaunchPacketStart
  try dsimp only
  repeat' first
    | split | intro _ | with_reducible assumption | with_reducible refine (Out.memoriesOk_next _).2 ?_
    | with_reducible apply foldl_ok | with_reducible apply foldl_pair_ok | with_reducible apply ite_ok | with_reducible apply ite2_ok
    | with_reducible apply State.launchRefuse_ok | with_reducible apply State.fresh_ok | with_reducible apply State.acquireIf_ok
    | with_reducible apply State.acquirePhase_ok | with_reducible apply State.addGrid_ok | with_reducible apply State.launchNext_ok
  all_goals try simp (maxDischargeDepth := 40) [*]

@[simp] theorem State.inherit_ok (s : State) (cid : Nat) (gid : Nat) (wid : Nat) (hs : s.memoriesOk) : (State.inherit s cid gid wid).memoriesOk := by
  unfold State.inherit
  simp (maxDischargeDepth := 40) [*]

theorem State.startGroup_ok (s : State) (g : Grid) (p : Partition) (index core : Nat) (t : State) (hs : s.memoriesOk)
    (e : s.startGroup g p index core = some t) : t.memoriesOk := by
  unfold State.startGroup at e
  dsimp only at e
  repeat' split at e
  all_goals cases e
  refine foldl_ok _ (fun s x h => ?_) _ _ ?_
  · simp (maxDischargeDepth := 40) [*]
  · simp (maxDischargeDepth := 40) [*]


theorem State.startOnCores_ok (s : State) (g : Grid) (p : Partition) (taken : List Nat) (t : State) (hs : s.memoriesOk)
    (e : s.startOnCores g p taken = some t) : t.memoriesOk := by
  unfold State.startOnCores at e
  dsimp only at e
  obtain ⟨x, _, hx⟩ := List.exists_of_findSome?_eq_some e
  exact State.startGroup_ok _ _ _ _ _ _ hs hx


theorem State.startSet_ok (g : Grid) (p : Partition) (l : List Nat) (i : Nat) (s t : State) (hs : s.memoriesOk)
    (e : s.startSet g p l i = some t) : t.memoriesOk := by
  induction l generalizing i s with
  | nil =>
    cases e
    exact hs
  | cons c l ih =>
    unfold State.startSet at e
    split at e
    · cases e
      exact hs
    · split at e
      · cases e
      · rename_i h
        exact ih _ _ (State.startGroup_ok _ _ _ _ _ _ hs h) e


theorem State.startOnClusters_ok (s : State) (g : Grid) (p : Partition) (cs : List (List Nat)) (taken : List Nat) (t : State)
    (hs : s.memoriesOk) (e : s.startOnClusters g p cs taken = some t) : t.memoriesOk := by
  unfold State.startOnClusters at e
  dsimp only at e
  obtain ⟨x, _, hx⟩ := List.exists_of_findSome?_eq_some e
  exact State.startSet_ok _ _ _ _ _ _ hs hx


theorem State.placeRsv_ok (wid quadrant : Nat) (l : List Reservation) (s t : State) (hs : s.memoriesOk)
    (e : s.placeRsv wid quadrant l = some t) : t.memoriesOk := by
  induction l generalizing s with
  | nil =>
    cases e
    exact hs
  | cons r l ih =>
    unfold State.placeRsv at e
    split at e
    · cases e
    · exact ih _ (by simp [*]) e


theorem State.placeWave_ok (s : State) (core : Nat) (w : Wave) (place : Nat × Nat) (t : State) (hs : s.memoriesOk)
    (e : s.placeWave core w place = some t) : t.memoriesOk := by
  unfold State.placeWave at e
  split at e
  · exact State.placeRsv_ok _ _ _ _ _ (by exact memoriesOk_of hs rfl rfl rfl) e
  · cases e


theorem State.placeWaves_ok (p : Partition) (core : Nat) (l : List Wave) (s t : State) (hs : s.memoriesOk)
    (e : State.placeWaves p core l s = some t) : t.memoriesOk := by
  induction l generalizing s with
  | nil =>
    cases e
    exact hs
  | cons w l ih =>
    unfold State.placeWaves at e
    split at e
    · cases e
    · rename_i h
      obtain ⟨x, _, hx⟩ := List.exists_of_findSome?_eq_some h
      exact ih _ (State.placeWave_ok _ _ _ _ _ hs hx) e


@[simp] theorem State.rebase_ok (s : State) (cid : Nat) (f : Nat → Nat) (hs : s.memoriesOk) : (State.rebase s cid f).memoriesOk := by
  unfold State.rebase
  simp (maxDischargeDepth := 40) [*]

@[simp] theorem State.rebaseFlight_ok (s : State) (cid : Nat) (f : Nat → Nat) (hs : s.memoriesOk) : (State.rebaseFlight s cid f).memoriesOk := by
  unfold State.rebaseFlight
  simp (maxDischargeDepth := 40) [*]

@[simp] theorem State.restoreSlip_ok (s : State) (core : Nat) (os : List SlipOp) (hs : s.memoriesOk) : (State.restoreSlip s core os).memoriesOk := by
  unfold State.restoreSlip
  try dsimp only
  repeat' first
    | split | intro _ | with_reducible assumption | with_reducible refine (Out.memoriesOk_next _).2 ?_
    | with_reducible apply foldl_ok | with_reducible apply foldl_pair_ok | with_reducible apply State.onIssuer_ok
    | with_reducible apply State.vec_ok | with_reducible apply State.mems_ok | with_reducible apply State.taskOp_ok
    | with_reducible apply State.strataOp_ok | with_reducible apply State.asyncOp_ok | with_reducible apply State.mtxOp_ok
    | with_reducible apply State.partOp_ok | with_reducible apply State.barAccess_ok
    | with_reducible apply State.runCommand_ok | with_reducible apply State.command_ok | with_reducible apply State.onSlot_ok
    | with_reducible apply State.askSectors_ok
  all_goals try simp (maxDischargeDepth := 40) [*]

@[simp] theorem State.restoreRed_ok (s : State) (core : Nat) (es : List RedEntry) (hs : s.memoriesOk) : (State.restoreRed s core es).memoriesOk := by
  unfold State.restoreRed
  simp (maxDischargeDepth := 40) [*]

@[simp] theorem State.restoreRequests_ok (s : State) (core : Nat) (os : List SieveOp) (rs : List Request) (hs : s.memoriesOk) : (State.restoreRequests s core os rs).memoriesOk := by
  unfold State.restoreRequests
  simp (maxDischargeDepth := 40) [*]

@[simp] theorem State.recheck_ok (s : State) (w : Wave) (hs : s.memoriesOk) : (State.recheck s w).memoriesOk := by
  unfold State.recheck
  try dsimp only
  repeat' first
    | split | intro _ | with_reducible assumption | with_reducible refine (Out.memoriesOk_next _).2 ?_
    | with_reducible apply foldl_ok | with_reducible apply foldl_pair_ok | with_reducible apply State.onIssuer_ok
    | with_reducible apply State.vec_ok | with_reducible apply State.mems_ok | with_reducible apply State.taskOp_ok
    | with_reducible apply State.strataOp_ok | with_reducible apply State.asyncOp_ok | with_reducible apply State.mtxOp_ok
    | with_reducible apply State.partOp_ok | with_reducible apply State.barAccess_ok
    | with_reducible apply State.runCommand_ok | with_reducible apply State.command_ok | with_reducible apply State.onSlot_ok
    | with_reducible apply State.faultWaiter_ok | with_reducible apply State.wakeWaiters_ok
  all_goals try simp (maxDischargeDepth := 40) [*]

@[simp] theorem State.restoreLimbo_ok (s : State) (core : Nat) (l : Limbo) (hs : s.memoriesOk) : (State.restoreLimbo s core l).memoriesOk := by
  unfold State.restoreLimbo
  try dsimp only
  repeat' first
    | split | intro _ | with_reducible assumption | with_reducible refine (Out.memoriesOk_next _).2 ?_
    | with_reducible apply foldl_ok | with_reducible apply foldl_pair_ok | with_reducible apply State.onIssuer_ok
    | with_reducible apply State.vec_ok | with_reducible apply State.mems_ok | with_reducible apply State.taskOp_ok
    | with_reducible apply State.strataOp_ok | with_reducible apply State.asyncOp_ok | with_reducible apply State.mtxOp_ok
    | with_reducible apply State.partOp_ok | with_reducible apply State.barAccess_ok
    | with_reducible apply State.runCommand_ok | with_reducible apply State.command_ok | with_reducible apply State.onSlot_ok
    | with_reducible apply State.recheck_ok | with_reducible apply State.restoreRed_ok
    | with_reducible apply State.restoreRequests_ok | with_reducible apply State.restoreSlip_ok
  all_goals try simp (maxDischargeDepth := 40) [*]

theorem State.placeLimbo_ok (s : State) (p : Partition) (cluster : Bool) (l : Limbo) (t : State) (hs : s.memoriesOk)
    (e : s.placeLimbo p cluster l = some t) : t.memoriesOk := by
  unfold State.placeLimbo at e
  dsimp only at e
  split at e
  · obtain ⟨u, hu, rfl⟩ := Option.map_eq_some_iff.1 e
    have := State.placeWaves_ok _ _ _ _ _ (by exact memoriesOk_of hs rfl rfl rfl) hu
    simp [*]
  · split at e
    · cases e
    · obtain ⟨u, hu, rfl⟩ := Option.map_eq_some_iff.1 e
      have := State.placeWaves_ok _ _ _ _ _ (by simp (maxDischargeDepth := 40) [*]) hu
      simp [*]


theorem State.placeAll_ok (p : Partition) (cluster : Bool) (l : List Nat) (s t : State) (hs : s.memoriesOk)
    (e : State.placeAll p cluster l s = some t) : t.memoriesOk := by
  induction l generalizing s with
  | nil =>
    cases e
    exact hs
  | cons i l ih =>
    unfold State.placeAll at e
    split at e
    · cases e
    · split at e
      · cases e
      · rename_i h
        exact ih _ (State.placeLimbo_ok _ _ _ _ _ hs h) e


@[simp] theorem State.placeTaskWave_ok (s : State) (id : Nat) (hs : s.memoriesOk) : (State.placeTaskWave s id).memoriesOk := by
  unfold State.placeTaskWave
  split
  · exact hs
  dsimp only
  refine ite_ok hs ?_
  split
  · exact hs
  · exact getD_ok _ _ hs fun t e => State.placeLimbo_ok _ _ _ _ _ hs e


theorem State.startNext_ok (s : State) (g : Grid) (p : Partition) (t : State) (hs : s.memoriesOk)
    (e : s.startNext g p = some t) : t.memoriesOk := by
  unfold State.startNext at e
  dsimp only at e
  split at e
  · rename_i u h
    cases e
    obtain ⟨x, _, hx⟩ := List.exists_of_findSome?_eq_some h
    exact State.placeAll_ok _ _ _ _ _ hs hx
  · split at e
    · exact State.startOnClusters_ok _ _ _ _ _ _ hs e
    · exact State.startOnCores_ok _ _ _ _ _ hs e


@[simp] theorem execGroupStart_ok (grid : Nat) (s : State) (hs : s.memoriesOk) : Out.memoriesOk (execGroupStart grid s) := by
  unfold execGroupStart
  dsimp only
  refine (Out.memoriesOk_next _).2 ?_
  split
  · simp [*]
  split
  · exact hs
  refine ite_ok hs (ite_ok hs ?_)
  split
  · refine ite_ok ?_ hs
    simp [*]
  · exact getD_ok _ _ hs fun t e => State.startNext_ok _ _ _ _ hs e


@[simp] theorem State.ringWrite_ok (s : State) (fn : Nat) (r : RingRec) (hs : s.memoriesOk) : (State.ringWrite s fn r).memoriesOk := by
  unfold State.ringWrite
  try dsimp only
  repeat' split
  all_goals simp (maxDischargeDepth := 40) [*]

@[simp] theorem execBkpt_ok (i : BitVec 16) (s : State) (hs : s.memoriesOk) : Out.memoriesOk (execBkpt i s) := by
  unfold execBkpt
  try dsimp only
  repeat' first
    | split | intro _ | with_reducible assumption | with_reducible refine (Out.memoriesOk_next _).2 ?_
    | with_reducible apply foldl_ok | with_reducible apply foldl_pair_ok | with_reducible apply State.onIssuer_ok
    | with_reducible apply State.vec_ok | with_reducible apply State.mems_ok | with_reducible apply State.taskOp_ok
    | with_reducible apply State.strataOp_ok | with_reducible apply State.asyncOp_ok | with_reducible apply State.mtxOp_ok
    | with_reducible apply State.partOp_ok | with_reducible apply State.barAccess_ok
    | with_reducible apply State.runCommand_ok | with_reducible apply State.command_ok | with_reducible apply State.onSlot_ok
    | with_reducible apply State.retire_ok | with_reducible apply State.ringWrite_ok
  all_goals try simp (maxDischargeDepth := 40) [*]

@[simp] theorem State.release_ok (s : State) (fn : Nat) (v : W64) (hs : s.memoriesOk) : (State.release s fn v).memoriesOk := by
  unfold State.release
  simp (maxDischargeDepth := 40) [*]

@[simp] theorem execBrelease_ok (fn : Nat) (val : W64) (s : State) (hs : s.memoriesOk) : Out.memoriesOk (execBrelease fn val s) := by
  unfold execBrelease
  try dsimp only
  repeat' first
    | split | intro _ | with_reducible assumption | with_reducible refine (Out.memoriesOk_next _).2 ?_
    | with_reducible apply foldl_ok | with_reducible apply foldl_pair_ok | with_reducible apply State.onIssuer_ok
    | with_reducible apply State.vec_ok | with_reducible apply State.mems_ok | with_reducible apply State.taskOp_ok
    | with_reducible apply State.strataOp_ok | with_reducible apply State.asyncOp_ok | with_reducible apply State.mtxOp_ok
    | with_reducible apply State.partOp_ok | with_reducible apply State.barAccess_ok
    | with_reducible apply State.runCommand_ok | with_reducible apply State.command_ok | with_reducible apply State.onSlot_ok
    | with_reducible apply State.release_ok
  all_goals try simp (maxDischargeDepth := 40) [*]

@[simp] theorem State.writeCount_ok (s : State) (x : Session) (hs : s.memoriesOk) : (State.writeCount s x).memoriesOk := by
  unfold State.writeCount
  try dsimp only
  repeat' first
    | split | intro _ | with_reducible assumption | with_reducible refine (Out.memoriesOk_next _).2 ?_
    | with_reducible apply foldl_ok | with_reducible apply foldl_pair_ok | with_reducible apply ite_ok | with_reducible apply ite2_ok
  all_goals try simp (maxDischargeDepth := 40) [*]

@[simp] theorem State.writeCounts_ok (s : State) (c : Context) (hs : s.memoriesOk) : (State.writeCounts s c).memoriesOk := by
  unfold State.writeCounts
  try dsimp only
  repeat' first
    | split | intro _ | with_reducible assumption | with_reducible refine (Out.memoriesOk_next _).2 ?_
    | with_reducible apply foldl_ok | with_reducible apply foldl_pair_ok | with_reducible apply State.onIssuer_ok
    | with_reducible apply State.vec_ok | with_reducible apply State.mems_ok | with_reducible apply State.taskOp_ok
    | with_reducible apply State.strataOp_ok | with_reducible apply State.asyncOp_ok | with_reducible apply State.mtxOp_ok
    | with_reducible apply State.partOp_ok | with_reducible apply State.barAccess_ok
    | with_reducible apply State.runCommand_ok | with_reducible apply State.command_ok | with_reducible apply State.onSlot_ok
  all_goals try simp (maxDischargeDepth := 40) [*]

@[simp] theorem State.openSession_ok (s : State) (f : Func) (hs : s.memoriesOk) : (State.openSession s f).memoriesOk := by
  unfold State.openSession
  try dsimp only
  repeat' first
    | split | intro _ | with_reducible assumption | with_reducible refine (Out.memoriesOk_next _).2 ?_
    | with_reducible apply foldl_ok | with_reducible apply foldl_pair_ok | with_reducible apply State.onIssuer_ok
    | with_reducible apply State.vec_ok | with_reducible apply State.mems_ok | with_reducible apply State.taskOp_ok
    | with_reducible apply State.strataOp_ok | with_reducible apply State.asyncOp_ok | with_reducible apply State.mtxOp_ok
    | with_reducible apply State.partOp_ok | with_reducible apply State.barAccess_ok
    | with_reducible apply State.runCommand_ok | with_reducible apply State.command_ok | with_reducible apply State.onSlot_ok
    | with_reducible apply State.updCtx_ok
  all_goals try simp (maxDischargeDepth := 40) [*]

@[simp] theorem State.closeSession_ok (s : State) (f : Func) (hs : s.memoriesOk) : (State.closeSession s f).memoriesOk := by
  unfold State.closeSession
  refine memoriesOk_of (foldl_ok _ (fun s c h => State.updCtx_ok _ _ _ (foldl_ok _ (fun s x h => ?_) _ _ h)) s.ctxs s hs) rfl rfl rfl
  exact State.writeCount_ok s x h


@[simp] theorem State.writeback_ok (s : State) (fn : Nat) (hs : s.memoriesOk) : (State.writeback s fn).memoriesOk := by
  unfold State.writeback
  try dsimp only
  repeat' first
    | split | intro _ | with_reducible assumption | with_reducible refine (Out.memoriesOk_next _).2 ?_
    | with_reducible apply foldl_ok | with_reducible apply foldl_pair_ok | with_reducible apply ite_ok | with_reducible apply ite2_ok
    | with_reducible apply State.writeCount_ok
  all_goals try simp (maxDischargeDepth := 40) [*]

@[simp] theorem execSessionWriteback_ok (fn : Nat) (s : State) (hs : s.memoriesOk) : Out.memoriesOk (execSessionWriteback fn s) := by
  unfold execSessionWriteback
  try dsimp only
  repeat' first
    | split | intro _ | with_reducible assumption | with_reducible refine (Out.memoriesOk_next _).2 ?_
    | with_reducible apply foldl_ok | with_reducible apply foldl_pair_ok | with_reducible apply State.onIssuer_ok
    | with_reducible apply State.vec_ok | with_reducible apply State.mems_ok | with_reducible apply State.taskOp_ok
    | with_reducible apply State.strataOp_ok | with_reducible apply State.asyncOp_ok | with_reducible apply State.mtxOp_ok
    | with_reducible apply State.partOp_ok | with_reducible apply State.barAccess_ok
    | with_reducible apply State.runCommand_ok | with_reducible apply State.command_ok | with_reducible apply State.onSlot_ok
    | with_reducible apply State.writeCounts_ok
  all_goals try simp (maxDischargeDepth := 40) [*]

@[simp] theorem State.putSampling_ok (s : State) (fn : Nat) (on : Bool) (hs : s.memoriesOk) : (State.putSampling s fn on).memoriesOk := by
  unfold State.putSampling
  try dsimp only
  repeat' split
  all_goals simp (maxDischargeDepth := 40) [*]

@[simp] theorem State.putSession_ok (s : State) (fn : Nat) (on : Bool) (hs : s.memoriesOk) : (State.putSession s fn on).memoriesOk := by
  unfold State.putSession
  try dsimp only
  repeat' split
  all_goals simp (maxDischargeDepth := 40) [*]

@[simp] theorem State.putFreeze_ok (s : State) (fn : Nat) (on : Bool) (hs : s.memoriesOk) : (State.putFreeze s fn on).2.memoriesOk := by
  unfold State.putFreeze
  try dsimp only
  repeat' split
  all_goals simp (maxDischargeDepth := 40) [*]

@[simp] theorem State.putDctl_ok (s : State) (fn : Nat) (v : W64) (hs : s.memoriesOk) : (State.putDctl s fn v).memoriesOk := by
  unfold State.putDctl
  simp (maxDischargeDepth := 40) [*]

@[simp] theorem State.writeBit_ok (s : State) (fn : Nat) (b : Nat) (on : Bool) (hs : s.memoriesOk) : (State.writeBit s fn b on).memoriesOk := by
  unfold State.writeBit
  try dsimp only
  repeat' first
    | split | intro _ | with_reducible assumption | with_reducible refine (Out.memoriesOk_next _).2 ?_
    | with_reducible apply foldl_ok | with_reducible apply foldl_pair_ok | with_reducible apply State.onIssuer_ok
    | with_reducible apply State.vec_ok | with_reducible apply State.mems_ok | with_reducible apply State.taskOp_ok
    | with_reducible apply State.strataOp_ok | with_reducible apply State.asyncOp_ok | with_reducible apply State.mtxOp_ok
    | with_reducible apply State.partOp_ok | with_reducible apply State.barAccess_ok
    | with_reducible apply State.runCommand_ok | with_reducible apply State.command_ok | with_reducible apply State.onSlot_ok
    | with_reducible apply State.putDctl_ok
  all_goals try simp (maxDischargeDepth := 40) [*]

@[simp] theorem execBreakpointArm_ok (fn : Nat) (on : Bool) (s : State) (hs : s.memoriesOk) : Out.memoriesOk (execBreakpointArm fn on s) := by
  unfold execBreakpointArm
  simp (maxDischargeDepth := 40) [*]

@[simp] theorem execSamplingEnable_ok (fn : Nat) (on : Bool) (s : State) (hs : s.memoriesOk) : Out.memoriesOk (execSamplingEnable fn on s) := by
  unfold execSamplingEnable
  simp (maxDischargeDepth := 40) [*]

@[simp] theorem execSessionOpen_ok (fn : Nat) (s : State) (hs : s.memoriesOk) : Out.memoriesOk (execSessionOpen fn s) := by
  unfold execSessionOpen
  simp (maxDischargeDepth := 40) [*]

@[simp] theorem execSessionClose_ok (fn : Nat) (s : State) (hs : s.memoriesOk) : Out.memoriesOk (execSessionClose fn s) := by
  unfold execSessionClose
  simp (maxDischargeDepth := 40) [*]

@[simp] theorem execFreezeArm_ok (s : State) (hs : s.memoriesOk) : Out.memoriesOk (execFreezeArm s) := by
  unfold execFreezeArm
  simp (maxDischargeDepth := 40) [*]

@[simp] theorem execFreeze_ok (s : State) (hs : s.memoriesOk) : Out.memoriesOk (execFreeze s) := by
  unfold execFreeze
  try dsimp only
  repeat' split
  all_goals simp (maxDischargeDepth := 40) [*]

@[simp] theorem State.takeSample_ok (s : State) (fn : Nat) (quad : Nat) (hs : s.memoriesOk) : (State.takeSample s fn quad).memoriesOk := by
  unfold State.takeSample
  try dsimp only
  repeat' first
    | split | intro _ | with_reducible assumption | with_reducible refine (Out.memoriesOk_next _).2 ?_
    | with_reducible apply foldl_ok | with_reducible apply foldl_pair_ok | with_reducible apply ite_ok | with_reducible apply ite2_ok
    | with_reducible apply State.ringWrite_ok | with_reducible apply State.updFunc_ok | with_reducible apply State.count_ok
  all_goals try simp (maxDischargeDepth := 40) [*]

@[simp] theorem execStallSample_ok (fn : Nat) (quad : Nat) (s : State) (hs : s.memoriesOk) : Out.memoriesOk (execStallSample fn quad s) := by
  unfold execStallSample
  try dsimp only
  repeat' split
  all_goals simp (maxDischargeDepth := 40) [*]

@[simp] theorem State.takeSamples_ok (s : State) (hs : s.memoriesOk) : (State.takeSamples s).memoriesOk := by
  unfold State.takeSamples
  try dsimp only
  repeat' first
    | split | intro _ | with_reducible assumption | with_reducible refine (Out.memoriesOk_next _).2 ?_
    | with_reducible apply foldl_ok | with_reducible apply foldl_pair_ok | with_reducible apply ite_ok | with_reducible apply ite2_ok
    | with_reducible apply State.takeSample_ok
  all_goals try simp (maxDischargeDepth := 40) [*]

@[simp] theorem State.watchOne_ok (s : State) (fn : Nat) (k : Nat) (x : Watch) (t : Touch) (hs : s.memoriesOk) : (State.watchOne s fn k x t).memoriesOk := by
  unfold State.watchOne
  try dsimp only
  repeat' split
  all_goals simp (maxDischargeDepth := 40) [*]

@[simp] theorem State.watch_ok (s : State) (t : Touch) (hs : s.memoriesOk) : (State.watch s t).memoriesOk := by
  unfold State.watch
  try dsimp only
  repeat' first
    | split | intro _ | with_reducible assumption | with_reducible refine (Out.memoriesOk_next _).2 ?_
    | with_reducible apply foldl_ok | with_reducible apply foldl_pair_ok | with_reducible apply State.onIssuer_ok
    | with_reducible apply State.vec_ok | with_reducible apply State.mems_ok | with_reducible apply State.taskOp_ok
    | with_reducible apply State.strataOp_ok | with_reducible apply State.asyncOp_ok | with_reducible apply State.mtxOp_ok
    | with_reducible apply State.partOp_ok | with_reducible apply State.barAccess_ok
    | with_reducible apply State.runCommand_ok | with_reducible apply State.command_ok | with_reducible apply State.onSlot_ok
    | with_reducible apply State.watchOne_ok
  all_goals try simp (maxDischargeDepth := 40) [*]

@[simp] theorem State.correctWord_ok (s : State) (a : Nat) (hs : s.memoriesOk) : (State.correctWord s a).memoriesOk := by
  unfold State.correctWord
  try dsimp only
  repeat' first
    | split | intro _ | with_reducible assumption | with_reducible refine (Out.memoriesOk_next _).2 ?_
    | with_reducible apply foldl_ok | with_reducible apply foldl_pair_ok | with_reducible apply ite_ok | with_reducible apply ite2_ok
    | with_reducible apply State.count_ok
  all_goals try simp (maxDischargeDepth := 40) [*]

@[simp] theorem State.correctRegs_ok (s : State) (wid : Nat) (hit : Nat × Nat × Nat → Bool) (hs : s.memoriesOk) : (State.correctRegs s wid hit).memoriesOk := by
  unfold State.correctRegs
  try dsimp only
  repeat' first
    | split | intro _ | with_reducible assumption | with_reducible refine (Out.memoriesOk_next _).2 ?_
    | with_reducible apply foldl_ok | with_reducible apply foldl_pair_ok | with_reducible apply ite_ok | with_reducible apply ite2_ok
    | with_reducible apply State.count_ok | with_reducible apply State.updWave_ok
  all_goals try simp (maxDischargeDepth := 40) [*]

@[simp] theorem State.correctTouch_ok (s : State) (t : State) (y : Touch) (hs : s.memoriesOk) (ht : t.memoriesOk) : (State.correctTouch s t y).memoriesOk := by
  unfold State.correctTouch
  try dsimp only
  repeat' first
    | split | intro _ | with_reducible assumption | with_reducible refine (Out.memoriesOk_next _).2 ?_
    | with_reducible apply foldl_ok | with_reducible apply foldl_pair_ok | with_reducible apply ite_ok | with_reducible apply ite2_ok
    | with_reducible apply State.correctWord_ok | with_reducible apply State.correctRegs_ok
  all_goals try simp (maxDischargeDepth := 40) [*]

@[simp] theorem State.corrected_ok (s : State) (t : State) (x : Acted) (hs : s.memoriesOk) (ht : t.memoriesOk) : (State.corrected s t x).memoriesOk := by
  unfold State.corrected
  try dsimp only
  repeat' first
    | split | intro _ | with_reducible assumption | with_reducible refine (Out.memoriesOk_next _).2 ?_
    | with_reducible apply foldl_ok | with_reducible apply foldl_pair_ok | with_reducible apply ite_ok | with_reducible apply ite2_ok
    | with_reducible apply State.correctRegs_ok | with_reducible apply State.correctTouch_ok
  all_goals try simp (maxDischargeDepth := 40) [*]

@[simp] theorem State.watched_ok (s : State) (t : State) (x : Acted) (hs : s.memoriesOk) (ht : t.memoriesOk) : (State.watched s t x).memoriesOk := by
  unfold State.watched
  try dsimp only
  repeat' first
    | split | intro _ | with_reducible assumption | with_reducible refine (Out.memoriesOk_next _).2 ?_
    | with_reducible apply foldl_ok | with_reducible apply foldl_pair_ok | with_reducible apply State.onIssuer_ok
    | with_reducible apply State.vec_ok | with_reducible apply State.mems_ok | with_reducible apply State.taskOp_ok
    | with_reducible apply State.strataOp_ok | with_reducible apply State.asyncOp_ok | with_reducible apply State.mtxOp_ok
    | with_reducible apply State.partOp_ok | with_reducible apply State.barAccess_ok
    | with_reducible apply State.runCommand_ok | with_reducible apply State.command_ok | with_reducible apply State.onSlot_ok
    | with_reducible apply State.watch_ok
  all_goals try simp (maxDischargeDepth := 40) [*]

@[simp] theorem State.dropMoves_ok (s : State) (cid : Nat) (hs : s.memoriesOk) : (State.dropMoves s cid).memoriesOk := by
  unfold State.dropMoves
  try dsimp only
  repeat' split
  all_goals simp (maxDischargeDepth := 40) [*]

@[simp] theorem State.killCtx_ok (s : State) (c : Context) (value : Option Nat) (hs : s.memoriesOk) : (State.killCtx s c value).memoriesOk := by
  unfold State.killCtx
  simp (maxDischargeDepth := 40) [*]

@[simp] theorem State.killed_ok (s : State) (c : Context) (value : Option Nat) (hs : s.memoriesOk) : (State.killed s c value).memoriesOk := by
  unfold State.killed
  simp (maxDischargeDepth := 40) [*]

@[simp] theorem State.doKill_ok (s : State) (vf : Nat) (slot : W64) (hs : s.memoriesOk) : (State.doKill s vf slot).2.memoriesOk := by
  unfold State.doKill
  simp (maxDischargeDepth := 40) [*]

@[simp] theorem execKill_ok (vf : Nat) (slot : W64) (s : State) (hs : s.memoriesOk) : Out.memoriesOk (execKill vf slot s) := by
  unfold execKill
  try dsimp only
  repeat' first
    | split | intro _ | with_reducible assumption | with_reducible refine (Out.memoriesOk_next _).2 ?_
    | with_reducible apply foldl_ok | with_reducible apply foldl_pair_ok | with_reducible apply State.onIssuer_ok
    | with_reducible apply State.vec_ok | with_reducible apply State.mems_ok | with_reducible apply State.taskOp_ok
    | with_reducible apply State.strataOp_ok | with_reducible apply State.asyncOp_ok | with_reducible apply State.mtxOp_ok
    | with_reducible apply State.partOp_ok | with_reducible apply State.barAccess_ok
    | with_reducible apply State.runCommand_ok | with_reducible apply State.command_ok | with_reducible apply State.onSlot_ok
    | with_reducible apply State.doKill_ok
  all_goals try simp (maxDischargeDepth := 40) [*]

@[simp] theorem execKillTimerExpiry_ok (ctx : Nat) (s : State) (hs : s.memoriesOk) : Out.memoriesOk (execKillTimerExpiry ctx s) := by
  unfold execKillTimerExpiry
  try dsimp only
  repeat' split
  all_goals simp (maxDischargeDepth := 40) [*]

@[simp] theorem State.doPreempt_ok (s : State) (vf : Nat) (slot : W64) (hs : s.memoriesOk) : (State.doPreempt s vf slot).2.memoriesOk := by
  unfold State.doPreempt
  try dsimp only
  repeat' first
    | split | intro _ | with_reducible assumption | with_reducible refine (Out.memoriesOk_next _).2 ?_
    | with_reducible apply foldl_ok | with_reducible apply foldl_pair_ok | with_reducible apply State.onIssuer_ok
    | with_reducible apply State.vec_ok | with_reducible apply State.mems_ok | with_reducible apply State.taskOp_ok
    | with_reducible apply State.strataOp_ok | with_reducible apply State.asyncOp_ok | with_reducible apply State.mtxOp_ok
    | with_reducible apply State.partOp_ok | with_reducible apply State.barAccess_ok
    | with_reducible apply State.runCommand_ok | with_reducible apply State.command_ok | with_reducible apply State.onSlot_ok
    | with_reducible apply State.updCtx_ok
  all_goals try simp (maxDischargeDepth := 40) [*]

@[simp] theorem execPreempt_ok (vf : Nat) (slot : W64) (s : State) (hs : s.memoriesOk) : Out.memoriesOk (execPreempt vf slot s) := by
  unfold execPreempt
  try dsimp only
  repeat' first
    | split | intro _ | with_reducible assumption | with_reducible refine (Out.memoriesOk_next _).2 ?_
    | with_reducible apply foldl_ok | with_reducible apply foldl_pair_ok | with_reducible apply State.onIssuer_ok
    | with_reducible apply State.vec_ok | with_reducible apply State.mems_ok | with_reducible apply State.taskOp_ok
    | with_reducible apply State.strataOp_ok | with_reducible apply State.asyncOp_ok | with_reducible apply State.mtxOp_ok
    | with_reducible apply State.partOp_ok | with_reducible apply State.barAccess_ok
    | with_reducible apply State.runCommand_ok | with_reducible apply State.command_ok | with_reducible apply State.onSlot_ok
    | with_reducible apply State.doPreempt_ok
  all_goals try simp (maxDischargeDepth := 40) [*]

@[simp] theorem State.breakEntered_ok (s : State) (ids : List Nat) (hs : s.memoriesOk) : (State.breakEntered s ids).memoriesOk := by
  unfold State.breakEntered
  try dsimp only
  repeat' first
    | split | intro _ | with_reducible assumption | with_reducible refine (Out.memoriesOk_next _).2 ?_
    | with_reducible apply foldl_ok | with_reducible apply foldl_pair_ok | with_reducible apply ite_ok | with_reducible apply ite2_ok
    | with_reducible apply State.free_ok | with_reducible apply State.faultOne_ok
  all_goals try simp (maxDischargeDepth := 40) [*]

@[simp] theorem State.withdrawChecks_ok (s : State) (ids : List Nat) (hs : s.memoriesOk) : (State.withdrawChecks s ids).memoriesOk := by
  unfold State.withdrawChecks
  try dsimp only
  repeat' first
    | split | intro _ | with_reducible assumption | with_reducible refine (Out.memoriesOk_next _).2 ?_
    | with_reducible apply foldl_ok | with_reducible apply foldl_pair_ok | with_reducible apply ite_ok | with_reducible apply ite2_ok
  all_goals try simp (maxDischargeDepth := 40) [*]

@[simp] theorem State.withdrawPasses_ok (s : State) (ids : List Nat) (hs : s.memoriesOk) : (State.withdrawPasses s ids).memoriesOk := by
  unfold State.withdrawPasses
  try dsimp only
  repeat' first
    | split | intro _ | with_reducible assumption | with_reducible refine (Out.memoriesOk_next _).2 ?_
    | with_reducible apply foldl_ok | with_reducible apply foldl_pair_ok | with_reducible apply ite_ok | with_reducible apply ite2_ok
    | with_reducible apply State.free_ok
  all_goals try simp (maxDischargeDepth := 40) [*]

@[simp] theorem State.haltWaves_ok (s : State) (ids : List Nat) (hs : s.memoriesOk) : (State.haltWaves s ids).memoriesOk := by
  unfold State.haltWaves
  simp (maxDischargeDepth := 40) [*]

@[simp] theorem execGraceTimerExpiry_ok (ctx : Nat) (s : State) (hs : s.memoriesOk) : Out.memoriesOk (execGraceTimerExpiry ctx s) := by
  unfold execGraceTimerExpiry
  try dsimp only
  repeat' split
  all_goals simp (maxDischargeDepth := 40) [*]

@[simp] theorem State.haltSlip_ok (s : State) (cid : Nat) (hs : s.memoriesOk) : (State.haltSlip s cid).memoriesOk := by
  unfold State.haltSlip
  try dsimp only
  repeat' first
    | split | intro _ | with_reducible assumption | with_reducible refine (Out.memoriesOk_next _).2 ?_
    | with_reducible apply foldl_ok | with_reducible apply foldl_pair_ok | with_reducible apply State.onIssuer_ok
    | with_reducible apply State.vec_ok | with_reducible apply State.mems_ok | with_reducible apply State.taskOp_ok
    | with_reducible apply State.strataOp_ok | with_reducible apply State.asyncOp_ok | with_reducible apply State.mtxOp_ok
    | with_reducible apply State.partOp_ok | with_reducible apply State.barAccess_ok
    | with_reducible apply State.runCommand_ok | with_reducible apply State.command_ok | with_reducible apply State.onSlot_ok
    | with_reducible apply State.setSlip_ok | with_reducible apply State.writeProgress_ok
  all_goals try simp (maxDischargeDepth := 40) [*]

@[simp] theorem State.number_ok {α : Type} (s : State) (l : List α) (hs : s.memoriesOk) : (s.number l).2.memoriesOk :=
  memoriesOk_of hs rfl rfl rfl


@[simp] theorem State.savedOf_ok (s : State) (c : Context) (len : Nat) (hs : s.memoriesOk) : (s.savedOf c len).2.memoriesOk :=
  memoriesOk_of hs rfl rfl rfl


@[simp] theorem execContextSaveComplete_ok (ctx : Nat) (s : State) (hs : s.memoriesOk) : Out.memoriesOk (execContextSaveComplete ctx s) := by
  unfold execContextSaveComplete
  try dsimp only
  repeat' split
  all_goals simp (maxDischargeDepth := 40) [*]

theorem State.resumeTask_ok (s : State) (x : Saved) (cores : List Nat) (i : Nat) (k : Task) (t : State) (hs : s.memoriesOk)
    (e : s.resumeTask x cores i k = some t) : t.memoriesOk := by
  unfold State.resumeTask at e
  dsimp only at e
  split at e
  all_goals
    obtain ⟨u, -, rfl⟩ := Option.map_eq_some_iff.1 e
    simp [*]


theorem State.resumeTasks_ok (x : Saved) (cores : List Nat) (i : Nat) (l : List Task) (s t : State) (hs : s.memoriesOk)
    (e : State.resumeTasks x cores i l s = some t) : t.memoriesOk := by
  induction l generalizing i s with
  | nil =>
    cases e
    exact hs
  | cons k l ih =>
    unfold State.resumeTasks at e
    split at e
    · cases e
    · rename_i h
      exact ih _ _ (State.resumeTask_ok _ _ _ _ _ _ hs h) e


@[simp] theorem State.reregister_ok (s : State) (c : Context) (ts : List Task) (hs : s.memoriesOk) : (State.reregister s c ts).memoriesOk := by
  unfold State.reregister
  try dsimp only
  repeat' first
    | split | intro _ | with_reducible assumption | with_reducible refine (Out.memoriesOk_next _).2 ?_
    | with_reducible apply foldl_ok | with_reducible apply foldl_pair_ok | with_reducible apply ite_ok | with_reducible apply ite2_ok
    | with_reducible apply State.releaseHeld_ok
  all_goals try simp (maxDischargeDepth := 40) [*]

@[simp] theorem State.resumeBase_ok (s : State) (x : Saved) (c : Context) (cores : List Nat) (to_ : Nat → Nat) (hs : s.memoriesOk) : (State.resumeBase s x c cores to_).memoriesOk := by
  unfold State.resumeBase
  try dsimp only
  repeat' first
    | split | intro _ | with_reducible assumption | with_reducible refine (Out.memoriesOk_next _).2 ?_
    | with_reducible apply foldl_ok | with_reducible apply foldl_pair_ok | with_reducible apply ite_ok | with_reducible apply ite2_ok
  all_goals try simp (maxDischargeDepth := 40) [*]

@[simp] theorem State.resumeQueues_ok (s : State) (x : Saved) (to_ : Nat → Nat) (hs : s.memoriesOk) : (State.resumeQueues s x to_).memoriesOk := by
  unfold State.resumeQueues
  try dsimp only
  repeat' first
    | split | intro _ | with_reducible assumption | with_reducible refine (Out.memoriesOk_next _).2 ?_
    | with_reducible apply foldl_ok | with_reducible apply foldl_pair_ok | with_reducible apply ite_ok | with_reducible apply ite2_ok
    | with_reducible apply State.restoreSlip_ok | with_reducible apply State.restoreRed_ok | with_reducible apply State.restoreRequests_ok
  all_goals try simp (maxDischargeDepth := 40) [*]

@[simp] theorem State.doResume_ok (s : State) (vf slot save len : Nat) (hs : s.memoriesOk) : (State.doResume s vf slot save len).2.memoriesOk := by
  unfold State.doResume
  dsimp only
  refine ite2_ok (cmdBad_ok _ _ hs) (ite2_ok (cmdBad_ok _ _ hs) ?_)
  split
  · split
    · exact cmdBad_ok _ _ hs
    · split
      · exact cmdBad_ok _ _ hs
      · rename_i e
        have := State.resumeTasks_ok _ _ _ _ _ _ (State.resumeBase_ok _ _ _ _ _ hs) e
        refine cmdOk_ok _ (State.updFunc_ok _ _ _ ?_)
        exact foldl_ok _ (fun s x h => State.syncPool_ok _ _ _ h) _ _
          (foldl_ok _ (fun s x h => State.linkFrames_ok _ _ h) _ _ (by simp [*]))
  · exact cmdBad_ok _ _ hs


@[simp] theorem execResume_ok (vf : Nat) (slot : W64) (save : W64) (len : W64) (s : State) (hs : s.memoriesOk) : Out.memoriesOk (execResume vf slot save len s) := by
  unfold execResume
  try dsimp only
  repeat' first
    | split | intro _ | with_reducible assumption | with_reducible refine (Out.memoriesOk_next _).2 ?_
    | with_reducible apply foldl_ok | with_reducible apply foldl_pair_ok | with_reducible apply State.onIssuer_ok
    | with_reducible apply State.vec_ok | with_reducible apply State.mems_ok | with_reducible apply State.taskOp_ok
    | with_reducible apply State.strataOp_ok | with_reducible apply State.asyncOp_ok | with_reducible apply State.mtxOp_ok
    | with_reducible apply State.partOp_ok | with_reducible apply State.barAccess_ok
    | with_reducible apply State.runCommand_ok | with_reducible apply State.command_ok | with_reducible apply State.onSlot_ok
    | with_reducible apply State.doResume_ok
  all_goals try simp (maxDischargeDepth := 40) [*]

@[simp] theorem State.resetEntry_ok (vf : Nat) (s : State) (o : SlipOp) (hs : s.memoriesOk) : (State.resetEntry vf s o).memoriesOk := by
  unfold State.resetEntry
  try dsimp only
  repeat' split
  all_goals simp (maxDischargeDepth := 40) [*]

@[simp] theorem execVfReset_ok (vf : Nat) (s : State) (hs : s.memoriesOk) : Out.memoriesOk (execVfReset vf s) := by
  unfold execVfReset
  dsimp only
  refine (Out.memoriesOk_next _).2 (State.dropFlits_ok _ _ (memoriesOk_of (foldl_ok _ (fun s x h => ?_) _ s hs) rfl rfl rfl))
  exact State.resetEntry_ok _ _ _ h


@[simp] theorem State.doMigrate_ok (s : State) (vf : Nat) (slot : W64) (group : W64) (core : W64) (hs : s.memoriesOk) : (State.doMigrate s vf slot group core).2.memoriesOk := by
  unfold State.doMigrate
  try dsimp only
  repeat' first
    | split | intro _ | with_reducible assumption | with_reducible refine (Out.memoriesOk_next _).2 ?_
    | with_reducible apply foldl_ok | with_reducible apply foldl_pair_ok | with_reducible apply State.onIssuer_ok
    | with_reducible apply State.vec_ok | with_reducible apply State.mems_ok | with_reducible apply State.taskOp_ok
    | with_reducible apply State.strataOp_ok | with_reducible apply State.asyncOp_ok | with_reducible apply State.mtxOp_ok
    | with_reducible apply State.partOp_ok | with_reducible apply State.barAccess_ok
    | with_reducible apply State.runCommand_ok | with_reducible apply State.command_ok | with_reducible apply State.onSlot_ok
    | with_reducible apply State.fresh_ok
  all_goals try simp (maxDischargeDepth := 40) [*]

@[simp] theorem execMigrate_ok (vf : Nat) (slot : W64) (group : W64) (core : W64) (s : State) (hs : s.memoriesOk) : Out.memoriesOk (execMigrate vf slot group core s) := by
  unfold execMigrate
  try dsimp only
  repeat' first
    | split | intro _ | with_reducible assumption | with_reducible refine (Out.memoriesOk_next _).2 ?_
    | with_reducible apply foldl_ok | with_reducible apply foldl_pair_ok | with_reducible apply State.onIssuer_ok
    | with_reducible apply State.vec_ok | with_reducible apply State.mems_ok | with_reducible apply State.taskOp_ok
    | with_reducible apply State.strataOp_ok | with_reducible apply State.asyncOp_ok | with_reducible apply State.mtxOp_ok
    | with_reducible apply State.partOp_ok | with_reducible apply State.barAccess_ok
    | with_reducible apply State.runCommand_ok | with_reducible apply State.command_ok | with_reducible apply State.onSlot_ok
    | with_reducible apply State.doMigrate_ok
  all_goals try simp (maxDischargeDepth := 40) [*]

@[simp] theorem State.setMove_ok (s : State) (m : Move) (hs : s.memoriesOk) : (State.setMove s m).memoriesOk := by
  unfold State.setMove
  simp (maxDischargeDepth := 40) [*]

theorem State.waveMoved_ok (s : State) (p : Partition) (m : Move) (t : State) (hs : s.memoriesOk)
    (e : s.waveMoved p m = some t) : t.memoriesOk := by
  unfold State.waveMoved at e
  exact State.placeWaves_ok _ _ _ _ _ (by exact memoriesOk_of hs rfl rfl rfl) e


@[simp] theorem State.moveHalt_ok (s : State) (m : Move) (g : Group) (p : Partition) (hs : s.memoriesOk) : (State.moveHalt s m g p).memoriesOk := by
  unfold State.moveHalt
  try dsimp only
  repeat' split
  all_goals simp (maxDischargeDepth := 40) [*]

@[simp] theorem State.moveGroup_ok (s : State) (m : Move) (g : Group) (p : Partition) (hs : s.memoriesOk) : (State.moveGroup s m g p).memoriesOk := by
  unfold State.moveGroup
  dsimp only
  refine ite_ok hs ?_
  split
  · exact hs
  · rename_i e
    have := State.waveMoved_ok _ _ _ _ hs e
    simp (maxDischargeDepth := 40) [*]


@[simp] theorem execMigrationMoveComplete_ok (msg : Nat) (s : State) (hs : s.memoriesOk) : Out.memoriesOk (execMigrationMoveComplete msg s) := by
  unfold execMigrationMoveComplete
  try dsimp only
  repeat' split
  all_goals simp (maxDischargeDepth := 40) [*]

@[simp] theorem execMigrationForward_ok (msg : Nat) (s : State) (hs : s.memoriesOk) : Out.memoriesOk (execMigrationForward msg s) := by
  unfold execMigrationForward
  simp (maxDischargeDepth := 40) [*]

@[simp] theorem State.updLink_ok (s : State) (n : Nat) (f : Link → Link) (hs : s.memoriesOk) : (State.updLink s n f).memoriesOk := by
  unfold State.updLink
  simp (maxDischargeDepth := 40) [*]

@[simp] theorem execFlitCrcFailure_ok (link : Nat) (seq : Nat) (s : State) (hs : s.memoriesOk) : Out.memoriesOk (execFlitCrcFailure link seq s) := by
  unfold execFlitCrcFailure
  simp (maxDischargeDepth := 40) [*]

@[simp] theorem execLinkAckTimeout_ok (link : Nat) (s : State) (hs : s.memoriesOk) : Out.memoriesOk (execLinkAckTimeout link s) := by
  unfold execLinkAckTimeout
  simp (maxDischargeDepth := 40) [*]

@[simp] theorem execLinkRetrained_ok (link : Nat) (s : State) (hs : s.memoriesOk) : Out.memoriesOk (execLinkRetrained link s) := by
  unfold execLinkRetrained
  simp (maxDischargeDepth := 40) [*]

@[simp] theorem execRetrainFailure_ok (link : Nat) (s : State) (hs : s.memoriesOk) : Out.memoriesOk (execRetrainFailure link s) := by
  unfold execRetrainFailure
  try dsimp only
  repeat' first
    | split | intro _ | with_reducible assumption | with_reducible refine (Out.memoriesOk_next _).2 ?_
    | with_reducible apply foldl_ok | with_reducible apply foldl_pair_ok | with_reducible apply State.onIssuer_ok
    | with_reducible apply State.vec_ok | with_reducible apply State.mems_ok | with_reducible apply State.taskOp_ok
    | with_reducible apply State.strataOp_ok | with_reducible apply State.asyncOp_ok | with_reducible apply State.mtxOp_ok
    | with_reducible apply State.partOp_ok | with_reducible apply State.barAccess_ok
    | with_reducible apply State.runCommand_ok | with_reducible apply State.command_ok | with_reducible apply State.onSlot_ok
    | with_reducible apply State.interrupt_ok | with_reducible apply State.slipRefuse_ok
    | with_reducible apply State.updLink_ok
  all_goals try simp (maxDischargeDepth := 40) [*]

@[simp] theorem State.doFabfence_ok (s : State) (vf : Nat) (slot : W64) (hs : s.memoriesOk) : (State.doFabfence s vf slot).2.memoriesOk := by
  unfold State.doFabfence
  simp (maxDischargeDepth := 40) [*]

@[simp] theorem execFabfence_ok (vf : Nat) (slot : W64) (s : State) (hs : s.memoriesOk) : Out.memoriesOk (execFabfence vf slot s) := by
  unfold execFabfence
  try dsimp only
  repeat' first
    | split | intro _ | with_reducible assumption | with_reducible refine (Out.memoriesOk_next _).2 ?_
    | with_reducible apply foldl_ok | with_reducible apply foldl_pair_ok | with_reducible apply State.onIssuer_ok
    | with_reducible apply State.vec_ok | with_reducible apply State.mems_ok | with_reducible apply State.taskOp_ok
    | with_reducible apply State.strataOp_ok | with_reducible apply State.asyncOp_ok | with_reducible apply State.mtxOp_ok
    | with_reducible apply State.partOp_ok | with_reducible apply State.barAccess_ok
    | with_reducible apply State.runCommand_ok | with_reducible apply State.command_ok | with_reducible apply State.onSlot_ok
    | with_reducible apply State.doFabfence_ok
  all_goals try simp (maxDischargeDepth := 40) [*]

@[simp] theorem State.doLinkworld_ok (s : State) (link : W64) (world : W64) (hs : s.memoriesOk) : (State.doLinkworld s link world).2.memoriesOk := by
  unfold State.doLinkworld
  try dsimp only
  repeat' split
  all_goals simp (maxDischargeDepth := 40) [*]

@[simp] theorem execLinkworld_ok (link : W64) (world : W64) (s : State) (hs : s.memoriesOk) : Out.memoriesOk (execLinkworld link world s) := by
  unfold execLinkworld
  try dsimp only
  repeat' first
    | split | intro _ | with_reducible assumption | with_reducible refine (Out.memoriesOk_next _).2 ?_
    | with_reducible apply foldl_ok | with_reducible apply foldl_pair_ok | with_reducible apply State.onIssuer_ok
    | with_reducible apply State.vec_ok | with_reducible apply State.mems_ok | with_reducible apply State.taskOp_ok
    | with_reducible apply State.strataOp_ok | with_reducible apply State.asyncOp_ok | with_reducible apply State.mtxOp_ok
    | with_reducible apply State.partOp_ok | with_reducible apply State.barAccess_ok
    | with_reducible apply State.runCommand_ok | with_reducible apply State.command_ok | with_reducible apply State.onSlot_ok
    | with_reducible apply State.doLinkworld_ok
  all_goals try simp (maxDischargeDepth := 40) [*]

@[simp] theorem State.doFwstage_ok (s : State) (addr : Nat) (len : Nat) (hs : s.memoriesOk) : (State.doFwstage s addr len).2.memoriesOk := by
  unfold State.doFwstage
  try dsimp only
  repeat' split
  all_goals simp (maxDischargeDepth := 40) [*]

@[simp] theorem execFwstage_ok (addr : W64) (len : W64) (s : State) (hs : s.memoriesOk) : Out.memoriesOk (execFwstage addr len s) := by
  unfold execFwstage
  try dsimp only
  repeat' first
    | split | intro _ | with_reducible assumption | with_reducible refine (Out.memoriesOk_next _).2 ?_
    | with_reducible apply foldl_ok | with_reducible apply foldl_pair_ok | with_reducible apply State.onIssuer_ok
    | with_reducible apply State.vec_ok | with_reducible apply State.mems_ok | with_reducible apply State.taskOp_ok
    | with_reducible apply State.strataOp_ok | with_reducible apply State.asyncOp_ok | with_reducible apply State.mtxOp_ok
    | with_reducible apply State.partOp_ok | with_reducible apply State.barAccess_ok
    | with_reducible apply State.runCommand_ok | with_reducible apply State.command_ok | with_reducible apply State.onSlot_ok
    | with_reducible apply State.doFwstage_ok
  all_goals try simp (maxDischargeDepth := 40) [*]

@[simp] theorem State.doAttest_ok (s : State) (fn : Nat) (nonce : Nat) (out : Nat) (hs : s.memoriesOk) : (State.doAttest s fn nonce out).2.memoriesOk := by
  unfold State.doAttest
  simp (maxDischargeDepth := 40) [*]

@[simp] theorem execAttest_ok (fn : Nat) (nonce : W64) (out : W64) (s : State) (hs : s.memoriesOk) : Out.memoriesOk (execAttest fn nonce out s) := by
  unfold execAttest
  try dsimp only
  repeat' first
    | split | intro _ | with_reducible assumption | with_reducible refine (Out.memoriesOk_next _).2 ?_
    | with_reducible apply foldl_ok | with_reducible apply foldl_pair_ok | with_reducible apply State.onIssuer_ok
    | with_reducible apply State.vec_ok | with_reducible apply State.mems_ok | with_reducible apply State.taskOp_ok
    | with_reducible apply State.strataOp_ok | with_reducible apply State.asyncOp_ok | with_reducible apply State.mtxOp_ok
    | with_reducible apply State.partOp_ok | with_reducible apply State.barAccess_ok
    | with_reducible apply State.runCommand_ok | with_reducible apply State.command_ok | with_reducible apply State.onSlot_ok
    | with_reducible apply State.doAttest_ok
  all_goals try simp (maxDischargeDepth := 40) [*]

@[simp] theorem State.resetAll_ok (s : State) (hs : s.memoriesOk) : (State.resetAll s).memoriesOk := by
  unfold State.resetAll
  exact ⟨wf_nil, wf_nil, hs.2.2⟩


@[simp] theorem execModuleReset_ok (s : State) (hs : s.memoriesOk) : Out.memoriesOk (execModuleReset s) := by
  unfold execModuleReset
  simp (maxDischargeDepth := 40) [*]

@[simp] theorem State.bringUp_ok (s : State) (hs : s.memoriesOk) : (State.bringUp s).memoriesOk := by
  unfold State.bringUp
  try dsimp only
  repeat' split
  all_goals simp (maxDischargeDepth := 40) [*]

@[simp] theorem execPowerGood_ok (s : State) (hs : s.memoriesOk) : Out.memoriesOk (execPowerGood s) := by
  unfold execPowerGood
  try dsimp only
  repeat' split
  all_goals simp (maxDischargeDepth := 40) [*]

@[simp] theorem State.doPowercap_ok (s : State) (watts : Nat) (hs : s.memoriesOk) : (State.doPowercap s watts).2.memoriesOk := by
  unfold State.doPowercap
  try dsimp only
  repeat' split
  all_goals simp (maxDischargeDepth := 40) [*]

@[simp] theorem execPowercap_ok (watts : W64) (s : State) (hs : s.memoriesOk) : Out.memoriesOk (execPowercap watts s) := by
  unfold execPowercap
  try dsimp only
  repeat' first
    | split | intro _ | with_reducible assumption | with_reducible refine (Out.memoriesOk_next _).2 ?_
    | with_reducible apply foldl_ok | with_reducible apply foldl_pair_ok | with_reducible apply State.onIssuer_ok
    | with_reducible apply State.vec_ok | with_reducible apply State.mems_ok | with_reducible apply State.taskOp_ok
    | with_reducible apply State.strataOp_ok | with_reducible apply State.asyncOp_ok | with_reducible apply State.mtxOp_ok
    | with_reducible apply State.partOp_ok | with_reducible apply State.barAccess_ok
    | with_reducible apply State.runCommand_ok | with_reducible apply State.command_ok | with_reducible apply State.onSlot_ok
    | with_reducible apply State.doPowercap_ok
  all_goals try simp (maxDischargeDepth := 40) [*]

@[simp] theorem execThermalThrottle_ok (mhz : Nat) (s : State) (hs : s.memoriesOk) : Out.memoriesOk (execThermalThrottle mhz s) := by
  unfold execThermalThrottle
  try dsimp only
  repeat' split
  all_goals simp (maxDischargeDepth := 40) [*]

@[simp] theorem execThermalTrip_ok (s : State) (hs : s.memoriesOk) : Out.memoriesOk (execThermalTrip s) := by
  unfold execThermalTrip
  try dsimp only
  repeat' split
  all_goals simp (maxDischargeDepth := 40) [*]

@[simp] theorem execTripPowerOff_ok (s : State) (hs : s.memoriesOk) : Out.memoriesOk (execTripPowerOff s) := by
  unfold execTripPowerOff
  try dsimp only
  repeat' split
  all_goals simp (maxDischargeDepth := 40) [*]

@[simp] theorem execPatrolScrub_ok (addr : Nat) (s : State) (hs : s.memoriesOk) : Out.memoriesOk (execPatrolScrub addr s) := by
  unfold execPatrolScrub
  try dsimp only
  repeat' first
    | split | intro _ | with_reducible assumption | with_reducible refine (Out.memoriesOk_next _).2 ?_
    | with_reducible apply foldl_ok | with_reducible apply foldl_pair_ok | with_reducible apply State.onIssuer_ok
    | with_reducible apply State.vec_ok | with_reducible apply State.mems_ok | with_reducible apply State.taskOp_ok
    | with_reducible apply State.strataOp_ok | with_reducible apply State.asyncOp_ok | with_reducible apply State.mtxOp_ok
    | with_reducible apply State.partOp_ok | with_reducible apply State.barAccess_ok
    | with_reducible apply State.runCommand_ok | with_reducible apply State.command_ok | with_reducible apply State.onSlot_ok
    | with_reducible apply State.count_ok
  all_goals try simp (maxDischargeDepth := 40) [*]

@[simp] theorem State.bar0Read_ok (s : State) (fn : Nat) (off : Nat) (hs : s.memoriesOk) : (State.bar0Read s fn off).2.memoriesOk := by
  unfold State.bar0Read
  try dsimp only
  repeat' first
    | split | intro _ | with_reducible assumption | with_reducible refine (Out.memoriesOk_next _).2 ?_
    | with_reducible apply foldl_ok | with_reducible apply foldl_pair_ok | with_reducible apply ite_ok | with_reducible apply ite2_ok
    | with_reducible apply State.hostRefuse_ok
  all_goals try simp (maxDischargeDepth := 40) [*]

@[simp] theorem State.blockCommand_ok (s : State) (fn : Nat) (hs : s.memoriesOk) : (State.blockCommand s fn).2.memoriesOk := by
  unfold State.blockCommand
  try dsimp only
  repeat' first
    | split | intro _ | with_reducible assumption | with_reducible refine (Out.memoriesOk_next _).2 ?_
    | with_reducible apply foldl_ok | with_reducible apply foldl_pair_ok | with_reducible apply ite_ok | with_reducible apply ite2_ok
    | with_reducible apply State.doCtxcreate_ok | with_reducible apply State.doCtxdestroy_ok | with_reducible apply State.doPreempt_ok
    | with_reducible apply State.doKill_ok | with_reducible apply State.doResume_ok | with_reducible apply State.doInvalidate_ok
    | with_reducible apply State.doQresume_ok | with_reducible apply State.doClearmark_ok | with_reducible apply State.doMigrate_ok
    | with_reducible apply State.doAttest_ok | with_reducible apply State.doFabfence_ok | with_reducible apply State.doPartcreate_ok
    | with_reducible apply State.doPartdestroy_ok | with_reducible apply State.doFwstage_ok | with_reducible apply State.doPowercap_ok
    | with_reducible apply State.doLinkworld_ok | with_reducible apply cmdBad_ok
  all_goals try simp (maxDischargeDepth := 40) [*]

@[simp] theorem State.doorbell_ok (s : State) (fn : Nat) (hs : s.memoriesOk) : (State.doorbell s fn).memoriesOk := by
  unfold State.doorbell
  try dsimp only
  repeat' first
    | split | intro _ | with_reducible assumption | with_reducible refine (Out.memoriesOk_next _).2 ?_
    | with_reducible apply foldl_ok | with_reducible apply foldl_pair_ok | with_reducible apply State.onIssuer_ok
    | with_reducible apply State.vec_ok | with_reducible apply State.mems_ok | with_reducible apply State.taskOp_ok
    | with_reducible apply State.strataOp_ok | with_reducible apply State.asyncOp_ok | with_reducible apply State.mtxOp_ok
    | with_reducible apply State.partOp_ok | with_reducible apply State.barAccess_ok
    | with_reducible apply State.runCommand_ok | with_reducible apply State.command_ok | with_reducible apply State.onSlot_ok
    | with_reducible apply State.blockCommand_ok
  all_goals try simp (maxDischargeDepth := 40) [*]

@[simp] theorem State.putLtail_ok (s : State) (fn : Nat) (slot : Nat) (tail : W64) (hs : s.memoriesOk) : (State.putLtail s fn slot tail).memoriesOk := by
  unfold State.putLtail
  simp (maxDischargeDepth := 40) [*]

@[simp] theorem State.putIcause_ok (s : State) (fn : Nat) (val : W64) (hs : s.memoriesOk) : (State.putIcause s fn val).memoriesOk := by
  unfold State.putIcause
  simp (maxDischargeDepth := 40) [*]

@[simp] theorem execLtail_ok (vf : Nat) (slot : Nat) (tail : W64) (s : State) (hs : s.memoriesOk) : Out.memoriesOk (execLtail vf slot tail s) := by
  unfold execLtail
  try dsimp only
  repeat' first
    | split | intro _ | with_reducible assumption | with_reducible refine (Out.memoriesOk_next _).2 ?_
    | with_reducible apply foldl_ok | with_reducible apply foldl_pair_ok | with_reducible apply State.onIssuer_ok
    | with_reducible apply State.vec_ok | with_reducible apply State.mems_ok | with_reducible apply State.taskOp_ok
    | with_reducible apply State.strataOp_ok | with_reducible apply State.asyncOp_ok | with_reducible apply State.mtxOp_ok
    | with_reducible apply State.partOp_ok | with_reducible apply State.barAccess_ok
    | with_reducible apply State.runCommand_ok | with_reducible apply State.command_ok | with_reducible apply State.onSlot_ok
    | with_reducible apply State.putLtail_ok
  all_goals try simp (maxDischargeDepth := 40) [*]

@[simp] theorem execIcause_ok (fn : Nat) (val : W64) (s : State) (hs : s.memoriesOk) : Out.memoriesOk (execIcause fn val s) := by
  unfold execIcause
  try dsimp only
  repeat' first
    | split | intro _ | with_reducible assumption | with_reducible refine (Out.memoriesOk_next _).2 ?_
    | with_reducible apply foldl_ok | with_reducible apply foldl_pair_ok | with_reducible apply State.onIssuer_ok
    | with_reducible apply State.vec_ok | with_reducible apply State.mems_ok | with_reducible apply State.taskOp_ok
    | with_reducible apply State.strataOp_ok | with_reducible apply State.asyncOp_ok | with_reducible apply State.mtxOp_ok
    | with_reducible apply State.partOp_ok | with_reducible apply State.barAccess_ok
    | with_reducible apply State.runCommand_ok | with_reducible apply State.command_ok | with_reducible apply State.onSlot_ok
    | with_reducible apply State.putIcause_ok
  all_goals try simp (maxDischargeDepth := 40) [*]

@[simp] theorem State.putIf_ok (s : State) (fn : Nat) (off : Nat) (ok : Bool) (f : Func → Func) (hs : s.memoriesOk) : (State.putIf s fn off ok f).memoriesOk := by
  unfold State.putIf
  try dsimp only
  repeat' split
  all_goals simp (maxDischargeDepth := 40) [*]

@[simp] theorem State.putReg_ok (s : State) (fn off : Nat) (v : W64) (hs : s.memoriesOk) : (State.putReg s fn off v).memoriesOk := by
  unfold State.putReg
  dsimp only
  repeat' first
    | with_reducible apply ite_ok
    | with_reducible assumption
    | with_reducible apply State.updFunc_ok
    | with_reducible apply State.doorbell_ok
    | with_reducible apply State.putIcause_ok
    | with_reducible apply State.putIf_ok
    | with_reducible apply State.putLtail_ok
    | with_reducible apply State.putDctl_ok
    | with_reducible apply State.hostRefuse_ok
    | with_reducible apply State.release_ok


@[simp] theorem execRegisterWrite_ok (fn : Nat) (off : Nat) (val : W64) (s : State) (hs : s.memoriesOk) : Out.memoriesOk (execRegisterWrite fn off val s) := by
  unfold execRegisterWrite
  try dsimp only
  repeat' first
    | split | intro _ | with_reducible assumption | with_reducible refine (Out.memoriesOk_next _).2 ?_
    | with_reducible apply foldl_ok | with_reducible apply foldl_pair_ok | with_reducible apply State.onIssuer_ok
    | with_reducible apply State.vec_ok | with_reducible apply State.mems_ok | with_reducible apply State.taskOp_ok
    | with_reducible apply State.strataOp_ok | with_reducible apply State.asyncOp_ok | with_reducible apply State.mtxOp_ok
    | with_reducible apply State.partOp_ok | with_reducible apply State.barAccess_ok
    | with_reducible apply State.runCommand_ok | with_reducible apply State.command_ok | with_reducible apply State.onSlot_ok
    | with_reducible apply State.putReg_ok
  all_goals try simp (maxDischargeDepth := 40) [*]

@[simp] theorem State.hostWrite_ok (s : State) (fn : Nat) (a : Nat) (bs : List Byte) (hs : s.memoriesOk) : (State.hostWrite s fn a bs).memoriesOk := by
  unfold State.hostWrite
  try dsimp only
  repeat' split
  all_goals simp (maxDischargeDepth := 40) [*]

@[simp] theorem State.hostData_ok (s : State) (fn : Nat) (v : W64) (hs : s.memoriesOk) : (State.hostData s fn v).memoriesOk := by
  unfold State.hostData
  simp (maxDischargeDepth := 40) [*]

@[simp] theorem execHostBar2Write_ok (fn : Nat) (off : Nat) (len : Nat) (val : W64) (s : State) (hs : s.memoriesOk) : Out.memoriesOk (execHostBar2Write fn off len val s) := by
  unfold execHostBar2Write
  try dsimp only
  repeat' split
  all_goals simp (maxDischargeDepth := 40) [*]

@[simp] theorem State.hostEcc_ok (s : State) (fn : Nat) (a : Nat) (len : Nat) (hs : s.memoriesOk) : (State.hostEcc s fn a len).memoriesOk := by
  unfold State.hostEcc
  try dsimp only
  repeat' first
    | split | intro _ | with_reducible assumption | with_reducible refine (Out.memoriesOk_next _).2 ?_
    | with_reducible apply foldl_ok | with_reducible apply foldl_pair_ok | with_reducible apply ite_ok | with_reducible apply ite2_ok
    | with_reducible apply State.report_ok
  all_goals try simp (maxDischargeDepth := 40) [*]

@[simp] theorem execHostBar2Read_ok (fn : Nat) (off : Nat) (len : Nat) (s : State) (hs : s.memoriesOk) : Out.memoriesOk (execHostBar2Read fn off len s) := by
  unfold execHostBar2Read
  try dsimp only
  repeat' split
  all_goals simp (maxDischargeDepth := 40) [*]

@[simp] theorem State.apertureKeep_ok (s : State) (fn : Nat) (off : Nat) (len : Nat) (hs : s.memoriesOk) : (State.apertureKeep s fn off len).memoriesOk := by
  unfold State.apertureKeep
  try dsimp only
  repeat' first
    | split | intro _ | with_reducible assumption | with_reducible refine (Out.memoriesOk_next _).2 ?_
    | with_reducible apply foldl_ok | with_reducible apply foldl_pair_ok | with_reducible apply ite_ok | with_reducible apply ite2_ok
    | with_reducible apply State.tlbFill_ok
  all_goals try simp (maxDischargeDepth := 40) [*]

@[simp] theorem execHostApertureWrite_ok (fn off len : Nat) (val : W64) (s : State) (hs : s.memoriesOk) : Out.memoriesOk (execHostApertureWrite fn off len val s) := by
  unfold execHostApertureWrite
  refine (Out.memoriesOk_next _).2 (ite_ok hs ?_)
  split
  · refine State.apertureKeep_ok _ _ _ _ ⟨hs.1, Memory.ok_foldl _ (fun m x h => ?_) _ _ hs.2.1, hs.2.2⟩
    exact Memory.ok_setByte _ _ _ h
  · simp [*]


@[simp] theorem execHostApertureRead_ok (fn : Nat) (off : Nat) (len : Nat) (s : State) (hs : s.memoriesOk) : Out.memoriesOk (execHostApertureRead fn off len s) := by
  unfold execHostApertureRead
  try dsimp only
  repeat' split
  all_goals simp (maxDischargeDepth := 40) [*]

/-- Every meaning keeps the canonical form of the memories. -/
theorem exec_ok (i : Instr) (s : State) (h : s.memoriesOk) : Out.memoriesOk (exec i s) := by
  cases i <;> unfold exec <;> simp [h]


@[simp] theorem State.noteReady_ok (s : State) (hs : s.memoriesOk) : s.noteReady.memoriesOk := memoriesOk_of hs rfl rfl rfl

@[simp] theorem State.clk_ok (s : State) (hs : s.memoriesOk) : s.clk.memoriesOk := by
  unfold State.clk
  dsimp only
  refine ite_ok hs (ite_ok ?_ (foldl_ok _ (fun s f h => State.writeback_ok _ _ h) _ _ ?_))
  · simp [*]
  · exact State.beginWindow_ok _ (memoriesOk_of (State.noteReady_ok _ (State.takeSamples_ok _ hs)) rfl rfl rfl)

@[simp] theorem State.pass_ok (s : State) (n : Nat) (hs : s.memoriesOk) : (s.pass n).memoriesOk := by
  induction n generalizing s with
  | zero => exact hs
  | succ n ih => exact ih _ (State.clk_ok s hs)


@[simp] theorem State.bring_ok (s : State) (wid : Nat) (quads : BitVec 8) (hs : s.memoriesOk) : (State.bring s wid quads).memoriesOk := by
  unfold State.bring
  try dsimp only
  repeat' split
  all_goals simp (maxDischargeDepth := 40) [*]

@[simp] theorem State.issued_ok (s : State) (wid : Nat) (cid : Nat) (hs : s.memoriesOk) : (State.issued s wid cid).memoriesOk := by
  unfold State.issued
  try dsimp only
  repeat' split
  all_goals simp (maxDischargeDepth := 40) [*]

end Sys2Proof.Machine
end

