-- ==== Sys2Proof/Laws/PerInstr.lean ====
section
/-! SUPPORT. Every instruction word decodes to what was encoded: the family RoundTrip, one lemma per constructor. -/

namespace Sys2Proof

/-- A field below the seam of two joined vectors. -/
theorem bits_low {n m lo len : Nat} (x : BitVec n) (y : BitVec m) (h : lo + len ≤ m) :
    (x ++ y).extractLsb' lo len = y.extractLsb' lo len := by
  ext i hi
  have : lo + i < m := by omega
  simp [BitVec.getLsbD_append, this]

/-- A field above the seam of two joined vectors. -/
theorem bits_high {n m lo len : Nat} (x : BitVec n) (y : BitVec m) (h : m ≤ lo) :
    (x ++ y).extractLsb' lo len = x.extractLsb' (lo - m) len := by
  ext i hi
  have h1 : ¬ lo + i < m := by omega
  have h2 : lo + i - m = lo - m + i := by omega
  simp [BitVec.getLsbD_append, h1, h2]

/-- The field that is all of a vector. -/
theorem bits_all {n lo : Nat} (x : BitVec n) (h : lo = 0) : x.extractLsb' lo n = x := by
  subst h
  ext i hi
  simp

/-- A word that its class reads as a well-formed instruction decodes to it (R97). -/
theorem decode_of_raw {w : W32} {i : Instr} (hd : decodeRaw w = some i) (hw : i.wellFormed = true) : decode w = some i := by
  unfold decode
  rw [hd]
  exact if_pos hw

/-- Class 0 is read by `decodeCtrl` (R85). -/
theorem raw_0 {w : W32} (h : bits w 28 4 = 0#4) : decodeRaw w = decodeCtrl w := by
  unfold decodeRaw
  rw [h]
  rfl

/-- Class 1 is read by `decodeBr` (R85). -/
theorem raw_1 {w : W32} (h : bits w 28 4 = 1#4) : decodeRaw w = decodeBr w := by
  unfold decodeRaw
  rw [h]
  rfl

/-- Class 2 is read by `decodeSalu` (R85). -/
theorem raw_2 {w : W32} (h : bits w 28 4 = 2#4) : decodeRaw w = decodeSalu w := by
  unfold decodeRaw
  rw [h]
  rfl

/-- Class 3 is read by `decodeSimm` (R85). -/
theorem raw_3 {w : W32} (h : bits w 28 4 = 3#4) : decodeRaw w = decodeSimm w := by
  unfold decodeRaw
  rw [h]
  rfl

/-- Class 4 is read by `decodeVint` (R85). -/
theorem raw_4 {w : W32} (h : bits w 28 4 = 4#4) : decodeRaw w = decodeVint w := by
  unfold decodeRaw
  rw [h]
  rfl

/-- Class 5 is read by `decodeVflt` (R85). -/
theorem raw_5 {w : W32} (h : bits w 28 4 = 5#4) : decodeRaw w = decodeVflt w := by
  unfold decodeRaw
  rw [h]
  rfl

/-- Class 6 is read by `decodeVxch` (R85). -/
theorem raw_6 {w : W32} (h : bits w 28 4 = 6#4) : decodeRaw w = decodeVxch w := by
  unfold decodeRaw
  rw [h]
  rfl

/-- Class 7 is read by `decodeVimm` (R85). -/
theorem raw_7 {w : W32} (h : bits w 28 4 = 7#4) : decodeRaw w = decodeVimm w := by
  unfold decodeRaw
  rw [h]
  rfl

/-- Class 8 is read by `decodeMemv` (R85). -/
theorem raw_8 {w : W32} (h : bits w 28 4 = 8#4) : decodeRaw w = decodeMemv w := by
  unfold decodeRaw
  rw [h]
  rfl

/-- Class 9 is read by `decodeMems` (R85). -/
theorem raw_9 {w : W32} (h : bits w 28 4 = 9#4) : decodeRaw w = decodeMems w := by
  unfold decodeRaw
  rw [h]
  rfl

/-- Class 10 is read by `decodeAtom` (R85). -/
theorem raw_10 {w : W32} (h : bits w 28 4 = 10#4) : decodeRaw w = decodeAtom w := by
  unfold decodeRaw
  rw [h]
  rfl

/-- Class 11 is read by `decodeMtx` (R85). -/
theorem raw_11 {w : W32} (h : bits w 28 4 = 11#4) : decodeRaw w = decodeMtx w := by
  unfold decodeRaw
  rw [h]
  rfl

/-- Class 12 is read by `decodeAsync` (R85). -/
theorem raw_12 {w : W32} (h : bits w 28 4 = 12#4) : decodeRaw w = decodeAsync w := by
  unfold decodeRaw
  rw [h]
  rfl

/-- Class 13 is read by `decodeTask` (R85). -/
theorem raw_13 {w : W32} (h : bits w 28 4 = 13#4) : decodeRaw w = decodeTask w := by
  unfold decodeRaw
  rw [h]
  rfl

/-- Class 14 is read by `decodeSieve` (R85). -/
theorem raw_14 {w : W32} (h : bits w 28 4 = 14#4) : decodeRaw w = decodeSieve w := by
  unfold decodeRaw
  rw [h]
  rfl

namespace Laws.RoundTrip

/-- A well-formed instruction word is what the decoder reads from its encoding. -/
def Statement (i : Instr) : Prop := i.isWord = true → i.wellFormed = true → decode (encode i) = some i

theorem nop : Statement (.nop) := by
  intro _ hw
  generalize hx : encode (.nop) = w
  have h (lo len : Nat) : bits w lo len = BitVec.extractLsb' lo len (0x0#32) := by rw [← hx]; rfl
  have f : bits w 28 4 = 0#4 ∧ bits w 20 8 = 0#8 ∧ bits w 0 20 = 0 := by
    refine ⟨?_, ?_, ?_⟩ <;> simp (disch := decide) only [h, bits_low, bits_high, bits_all] <;> rfl
  obtain ⟨k, c, f0⟩ := f
  refine decode_of_raw ?_ hw
  rw [raw_0 k]
  unfold decodeCtrl
  rw [c]
  show (if bits w 0 20 = 0 then some Instr.nop else none) = _
  rw [f0]
  rfl

theorem endq : Statement (.endq) := by
  intro _ hw
  generalize hx : encode (.endq) = w
  have h (lo len : Nat) : bits w lo len = BitVec.extractLsb' lo len (0x100000#32) := by rw [← hx]; rfl
  have f : bits w 28 4 = 0#4 ∧ bits w 20 8 = 1#8 ∧ bits w 0 20 = 0 := by
    refine ⟨?_, ?_, ?_⟩ <;> simp (disch := decide) only [h, bits_low, bits_high, bits_all] <;> rfl
  obtain ⟨k, c, f0⟩ := f
  refine decode_of_raw ?_ hw
  rw [raw_0 k]
  unfold decodeCtrl
  rw [c]
  show (if bits w 0 20 = 0 then some Instr.endq else none) = _
  rw [f0]
  rfl

theorem trap (x0 : BitVec 16) : Statement (.trap x0) := by
  intro _ hw
  generalize hx : encode (.trap x0) = w
  have h (lo len : Nat) : bits w lo len = BitVec.extractLsb' lo len (0x20#16 ++ x0) := by rw [← hx]; rfl
  have f : bits w 28 4 = 0#4 ∧ bits w 20 8 = 2#8 ∧ bits w 16 4 = 0 ∧ bits w 0 16 = x0 := by
    refine ⟨?_, ?_, ?_, ?_⟩ <;> simp (disch := decide) only [h, bits_low, bits_high, bits_all] <;> rfl
  obtain ⟨k, c, f0, f1⟩ := f
  refine decode_of_raw ?_ hw
  rw [raw_0 k]
  unfold decodeCtrl
  rw [c]
  show (if bits w 16 4 = 0 then some (Instr.trap (bits w 0 16)) else none) = _
  rw [f0, f1]
  rfl

theorem eret : Statement (.eret) := by
  intro _ hw
  generalize hx : encode (.eret) = w
  have h (lo len : Nat) : bits w lo len = BitVec.extractLsb' lo len (0x300000#32) := by rw [← hx]; rfl
  have f : bits w 28 4 = 0#4 ∧ bits w 20 8 = 3#8 ∧ bits w 0 20 = 0 := by
    refine ⟨?_, ?_, ?_⟩ <;> simp (disch := decide) only [h, bits_low, bits_high, bits_all] <;> rfl
  obtain ⟨k, c, f0⟩ := f
  refine decode_of_raw ?_ hw
  rw [raw_0 k]
  unfold decodeCtrl
  rw [c]
  show (if bits w 0 20 = 0 then some Instr.eret else none) = _
  rw [f0]
  rfl

theorem bkpt (x0 : BitVec 16) : Statement (.bkpt x0) := by
  intro _ hw
  generalize hx : encode (.bkpt x0) = w
  have h (lo len : Nat) : bits w lo len = BitVec.extractLsb' lo len (0x40#16 ++ x0) := by rw [← hx]; rfl
  have f : bits w 28 4 = 0#4 ∧ bits w 20 8 = 4#8 ∧ bits w 16 4 = 0 ∧ bits w 0 16 = x0 := by
    refine ⟨?_, ?_, ?_, ?_⟩ <;> simp (disch := decide) only [h, bits_low, bits_high, bits_all] <;> rfl
  obtain ⟨k, c, f0, f1⟩ := f
  refine decode_of_raw ?_ hw
  rw [raw_0 k]
  unfold decodeCtrl
  rw [c]
  show (if bits w 16 4 = 0 then some (Instr.bkpt (bits w 0 16)) else none) = _
  rw [f0, f1]
  rfl

theorem getk (x0 : BitVec 6) (x1 : BitVec 6) : Statement (.getk x0 x1) := by
  intro _ hw
  generalize hx : encode (.getk x0 x1) = w
  have h (lo len : Nat) : bits w lo len = BitVec.extractLsb' lo len (0x5#12 ++ x0 ++ x1 ++ 0x0#8) := by rw [← hx]; rfl
  have f : bits w 28 4 = 0#4 ∧ bits w 20 8 = 5#8 ∧ bits w 0 8 = 0 ∧ bits w 14 6 = x0 ∧ bits w 8 6 = x1 := by
    refine ⟨?_, ?_, ?_, ?_, ?_⟩ <;> simp (disch := decide) only [h, bits_low, bits_high, bits_all] <;> rfl
  obtain ⟨k, c, f0, f1, f2⟩ := f
  refine decode_of_raw ?_ hw
  rw [raw_0 k]
  unfold decodeCtrl
  rw [c]
  show (if bits w 0 8 = 0 then some (Instr.getk (bits w 14 6) (bits w 8 6)) else none) = _
  rw [f0, f1, f2]
  rfl

theorem setk (x0 : BitVec 6) (x1 : BitVec 6) : Statement (.setk x0 x1) := by
  intro _ hw
  generalize hx : encode (.setk x0 x1) = w
  have h (lo len : Nat) : bits w lo len = BitVec.extractLsb' lo len (0x6#12 ++ x0 ++ x1 ++ 0x0#8) := by rw [← hx]; rfl
  have f : bits w 28 4 = 0#4 ∧ bits w 20 8 = 6#8 ∧ bits w 0 8 = 0 ∧ bits w 14 6 = x0 ∧ bits w 8 6 = x1 := by
    refine ⟨?_, ?_, ?_, ?_, ?_⟩ <;> simp (disch := decide) only [h, bits_low, bits_high, bits_all] <;> rfl
  obtain ⟨k, c, f0, f1, f2⟩ := f
  refine decode_of_raw ?_ hw
  rw [raw_0 k]
  unfold decodeCtrl
  rw [c]
  show (if bits w 0 8 = 0 then some (Instr.setk (bits w 14 6) (bits w 8 6)) else none) = _
  rw [f0, f1, f2]
  rfl

theorem mode (x0 : BitVec 2) (x1 : BitVec 6) : Statement (.mode x0 x1) := by
  intro _ hw
  generalize hx : encode (.mode x0 x1) = w
  have h (lo len : Nat) : bits w lo len = BitVec.extractLsb' lo len (0x7#12 ++ x0 ++ x1 ++ 0x0#12) := by rw [← hx]; rfl
  have f : bits w 28 4 = 0#4 ∧ bits w 20 8 = 7#8 ∧ bits w 0 12 = 0 ∧ bits w 18 2 = x0 ∧ bits w 12 6 = x1 := by
    refine ⟨?_, ?_, ?_, ?_, ?_⟩ <;> simp (disch := decide) only [h, bits_low, bits_high, bits_all] <;> rfl
  obtain ⟨k, c, f0, f1, f2⟩ := f
  refine decode_of_raw ?_ hw
  rw [raw_0 k]
  unfold decodeCtrl
  rw [c]
  show (if bits w 0 12 = 0 then some (Instr.mode (bits w 18 2) (bits w 12 6)) else none) = _
  rw [f0, f1, f2]
  rfl

theorem modea (x0 : BitVec 2) (x1 : BitVec 6) (x2 : BitVec 6) : Statement (.modea x0 x1 x2) := by
  intro _ hw
  generalize hx : encode (.modea x0 x1 x2) = w
  have h (lo len : Nat) : bits w lo len = BitVec.extractLsb' lo len (0x8#12 ++ x0 ++ x1 ++ x2 ++ 0x0#6) := by rw [← hx]; rfl
  have f : bits w 28 4 = 0#4 ∧ bits w 20 8 = 8#8 ∧ bits w 0 6 = 0 ∧ bits w 18 2 = x0 ∧ bits w 12 6 = x1 ∧ bits w 6 6 = x2 := by
    refine ⟨?_, ?_, ?_, ?_, ?_, ?_⟩ <;> simp (disch := decide) only [h, bits_low, bits_high, bits_all] <;> rfl
  obtain ⟨k, c, f0, f1, f2, f3⟩ := f
  refine decode_of_raw ?_ hw
  rw [raw_0 k]
  unfold decodeCtrl
  rw [c]
  show (if bits w 0 6 = 0 then some (Instr.modea (bits w 18 2) (bits w 12 6) (bits w 6 6)) else none) = _
  rw [f0, f1, f2, f3]
  rfl

theorem modem (x0 : BitVec 2) (x1 : BitVec 6) (x2 : BitVec 6) : Statement (.modem x0 x1 x2) := by
  intro _ hw
  generalize hx : encode (.modem x0 x1 x2) = w
  have h (lo len : Nat) : bits w lo len = BitVec.extractLsb' lo len (0x9#12 ++ x0 ++ x1 ++ x2 ++ 0x0#6) := by rw [← hx]; rfl
  have f : bits w 28 4 = 0#4 ∧ bits w 20 8 = 9#8 ∧ bits w 0 6 = 0 ∧ bits w 18 2 = x0 ∧ bits w 12 6 = x1 ∧ bits w 6 6 = x2 := by
    refine ⟨?_, ?_, ?_, ?_, ?_, ?_⟩ <;> simp (disch := decide) only [h, bits_low, bits_high, bits_all] <;> rfl
  obtain ⟨k, c, f0, f1, f2, f3⟩ := f
  refine decode_of_raw ?_ hw
  rw [raw_0 k]
  unfold decodeCtrl
  rw [c]
  show (if bits w 0 6 = 0 then some (Instr.modem (bits w 18 2) (bits w 12 6) (bits w 6 6)) else none) = _
  rw [f0, f1, f2, f3]
  rfl

theorem xacq : Statement (.xacq) := by
  intro _ hw
  generalize hx : encode (.xacq) = w
  have h (lo len : Nat) : bits w lo len = BitVec.extractLsb' lo len (0xa00000#32) := by rw [← hx]; rfl
  have f : bits w 28 4 = 0#4 ∧ bits w 20 8 = 10#8 ∧ bits w 0 20 = 0 := by
    refine ⟨?_, ?_, ?_⟩ <;> simp (disch := decide) only [h, bits_low, bits_high, bits_all] <;> rfl
  obtain ⟨k, c, f0⟩ := f
  refine decode_of_raw ?_ hw
  rw [raw_0 k]
  unfold decodeCtrl
  rw [c]
  show (if bits w 0 20 = 0 then some Instr.xacq else none) = _
  rw [f0]
  rfl

theorem xrel : Statement (.xrel) := by
  intro _ hw
  generalize hx : encode (.xrel) = w
  have h (lo len : Nat) : bits w lo len = BitVec.extractLsb' lo len (0xb00000#32) := by rw [← hx]; rfl
  have f : bits w 28 4 = 0#4 ∧ bits w 20 8 = 11#8 ∧ bits w 0 20 = 0 := by
    refine ⟨?_, ?_, ?_⟩ <;> simp (disch := decide) only [h, bits_low, bits_high, bits_all] <;> rfl
  obtain ⟨k, c, f0⟩ := f
  refine decode_of_raw ?_ hw
  rw [raw_0 k]
  unfold decodeCtrl
  rw [c]
  show (if bits w 0 20 = 0 then some Instr.xrel else none) = _
  rw [f0]
  rfl

theorem yield : Statement (.yield) := by
  intro _ hw
  generalize hx : encode (.yield) = w
  have h (lo len : Nat) : bits w lo len = BitVec.extractLsb' lo len (0xc00000#32) := by rw [← hx]; rfl
  have f : bits w 28 4 = 0#4 ∧ bits w 20 8 = 12#8 ∧ bits w 0 20 = 0 := by
    refine ⟨?_, ?_, ?_⟩ <;> simp (disch := decide) only [h, bits_low, bits_high, bits_all] <;> rfl
  obtain ⟨k, c, f0⟩ := f
  refine decode_of_raw ?_ hw
  rw [raw_0 k]
  unfold decodeCtrl
  rw [c]
  show (if bits w 0 20 = 0 then some Instr.yield else none) = _
  rw [f0]
  rfl

theorem rejoin : Statement (.rejoin) := by
  intro _ hw
  generalize hx : encode (.rejoin) = w
  have h (lo len : Nat) : bits w lo len = BitVec.extractLsb' lo len (0xd00000#32) := by rw [← hx]; rfl
  have f : bits w 28 4 = 0#4 ∧ bits w 20 8 = 13#8 ∧ bits w 0 20 = 0 := by
    refine ⟨?_, ?_, ?_⟩ <;> simp (disch := decide) only [h, bits_low, bits_high, bits_all] <;> rfl
  obtain ⟨k, c, f0⟩ := f
  refine decode_of_raw ?_ hw
  rw [raw_0 k]
  unfold decodeCtrl
  rw [c]
  show (if bits w 0 20 = 0 then some Instr.rejoin else none) = _
  rw [f0]
  rfl

theorem fence (x0 : BitVec 4) (x1 : BitVec 4) : Statement (.fence x0 x1) := by
  intro _ hw
  generalize hx : encode (.fence x0 x1) = w
  have h (lo len : Nat) : bits w lo len = BitVec.extractLsb' lo len (0xe#12 ++ x0 ++ x1 ++ 0x0#12) := by rw [← hx]; rfl
  have f : bits w 28 4 = 0#4 ∧ bits w 20 8 = 14#8 ∧ bits w 0 12 = 0 ∧ bits w 16 4 = x0 ∧ bits w 12 4 = x1 := by
    refine ⟨?_, ?_, ?_, ?_, ?_⟩ <;> simp (disch := decide) only [h, bits_low, bits_high, bits_all] <;> rfl
  obtain ⟨k, c, f0, f1, f2⟩ := f
  refine decode_of_raw ?_ hw
  rw [raw_0 k]
  unfold decodeCtrl
  rw [c]
  show (if bits w 0 12 = 0 then some (Instr.fence (bits w 16 4) (bits w 12 4)) else none) = _
  rw [f0, f1, f2]
  rfl

theorem waitc (x0 : BitVec 4) (x1 : BitVec 4) (x2 : BitVec 4) (x3 : BitVec 4) : Statement (.waitc x0 x1 x2 x3) := by
  intro _ hw
  generalize hx : encode (.waitc x0 x1 x2 x3) = w
  have h (lo len : Nat) : bits w lo len = BitVec.extractLsb' lo len (0xf#12 ++ x0 ++ x1 ++ x2 ++ x3 ++ 0x0#4) := by rw [← hx]; rfl
  have f : bits w 28 4 = 0#4 ∧ bits w 20 8 = 15#8 ∧ bits w 0 4 = 0 ∧ bits w 16 4 = x0 ∧ bits w 12 4 = x1 ∧ bits w 8 4 = x2 ∧ bits w 4 4 = x3 := by
    refine ⟨?_, ?_, ?_, ?_, ?_, ?_, ?_⟩ <;> simp (disch := decide) only [h, bits_low, bits_high, bits_all] <;> rfl
  obtain ⟨k, c, f0, f1, f2, f3, f4⟩ := f
  refine decode_of_raw ?_ hw
  rw [raw_0 k]
  unfold decodeCtrl
  rw [c]
  show (if bits w 0 4 = 0 then some (Instr.waitc (bits w 16 4) (bits w 12 4) (bits w 8 4) (bits w 4 4)) else none) = _
  rw [f0, f1, f2, f3, f4]
  rfl

theorem tick (x0 : BitVec 6) : Statement (.tick x0) := by
  intro _ hw
  generalize hx : encode (.tick x0) = w
  have h (lo len : Nat) : bits w lo len = BitVec.extractLsb' lo len (0x10#12 ++ x0 ++ 0x0#14) := by rw [← hx]; rfl
  have f : bits w 28 4 = 0#4 ∧ bits w 20 8 = 16#8 ∧ bits w 0 14 = 0 ∧ bits w 14 6 = x0 := by
    refine ⟨?_, ?_, ?_, ?_⟩ <;> simp (disch := decide) only [h, bits_low, bits_high, bits_all] <;> rfl
  obtain ⟨k, c, f0, f1⟩ := f
  refine decode_of_raw ?_ hw
  rw [raw_0 k]
  unfold decodeCtrl
  rw [c]
  show (if bits w 0 14 = 0 then some (Instr.tick (bits w 14 6)) else none) = _
  rw [f0, f1]
  rfl

theorem jmp (x0 : BitVec 6) : Statement (.jmp x0) := by
  intro _ hw
  generalize hx : encode (.jmp x0) = w
  have h (lo len : Nat) : bits w lo len = BitVec.extractLsb' lo len (0x11#12 ++ x0 ++ 0x0#14) := by rw [← hx]; rfl
  have f : bits w 28 4 = 0#4 ∧ bits w 20 8 = 17#8 ∧ bits w 0 14 = 0 ∧ bits w 14 6 = x0 := by
    refine ⟨?_, ?_, ?_, ?_⟩ <;> simp (disch := decide) only [h, bits_low, bits_high, bits_all] <;> rfl
  obtain ⟨k, c, f0, f1⟩ := f
  refine decode_of_raw ?_ hw
  rw [raw_0 k]
  unfold decodeCtrl
  rw [c]
  show (if bits w 0 14 = 0 then some (Instr.jmp (bits w 14 6)) else none) = _
  rw [f0, f1]
  rfl

theorem callr (x0 : BitVec 6) : Statement (.callr x0) := by
  intro _ hw
  generalize hx : encode (.callr x0) = w
  have h (lo len : Nat) : bits w lo len = BitVec.extractLsb' lo len (0x12#12 ++ x0 ++ 0x0#14) := by rw [← hx]; rfl
  have f : bits w 28 4 = 0#4 ∧ bits w 20 8 = 18#8 ∧ bits w 0 14 = 0 ∧ bits w 14 6 = x0 := by
    refine ⟨?_, ?_, ?_, ?_⟩ <;> simp (disch := decide) only [h, bits_low, bits_high, bits_all] <;> rfl
  obtain ⟨k, c, f0, f1⟩ := f
  refine decode_of_raw ?_ hw
  rw [raw_0 k]
  unfold decodeCtrl
  rw [c]
  show (if bits w 0 14 = 0 then some (Instr.callr (bits w 14 6)) else none) = _
  rw [f0, f1]
  rfl

theorem bra (x0 : BitVec 19) : Statement (.bra x0) := by
  intro _ hw
  generalize hx : encode (.bra x0) = w
  have h (lo len : Nat) : bits w lo len = BitVec.extractLsb' lo len (0x200#13 ++ x0) := by rw [← hx]; rfl
  have f : bits w 28 4 = 1#4 ∧ bits w 25 3 = 0#3 ∧ bits w 19 6 = 0 ∧ bits w 0 19 = x0 := by
    refine ⟨?_, ?_, ?_, ?_⟩ <;> simp (disch := decide) only [h, bits_low, bits_high, bits_all] <;> rfl
  obtain ⟨k, c, f0, f1⟩ := f
  refine decode_of_raw ?_ hw
  rw [raw_1 k]
  unfold decodeBr
  rw [c]
  show (if bits w 19 6 = 0 then some (Instr.bra (bits w 0 19)) else none) = _
  rw [f0, f1]
  rfl

theorem brz (x0 : BitVec 6) (x1 : BitVec 19) : Statement (.brz x0 x1) := by
  intro _ hw
  generalize hx : encode (.brz x0 x1) = w
  have h (lo len : Nat) : bits w lo len = BitVec.extractLsb' lo len (0x9#7 ++ x0 ++ x1) := by rw [← hx]; rfl
  have f : bits w 28 4 = 1#4 ∧ bits w 25 3 = 1#3 ∧ bits w 19 6 = x0 ∧ bits w 0 19 = x1 := by
    refine ⟨?_, ?_, ?_, ?_⟩ <;> simp (disch := decide) only [h, bits_low, bits_high, bits_all] <;> rfl
  obtain ⟨k, c, f0, f1⟩ := f
  refine decode_of_raw ?_ hw
  rw [raw_1 k]
  unfold decodeBr
  rw [c]
  show (some (Instr.brz (bits w 19 6) (bits w 0 19))) = _
  rw [f0, f1]

theorem brnz (x0 : BitVec 6) (x1 : BitVec 19) : Statement (.brnz x0 x1) := by
  intro _ hw
  generalize hx : encode (.brnz x0 x1) = w
  have h (lo len : Nat) : bits w lo len = BitVec.extractLsb' lo len (0xa#7 ++ x0 ++ x1) := by rw [← hx]; rfl
  have f : bits w 28 4 = 1#4 ∧ bits w 25 3 = 2#3 ∧ bits w 19 6 = x0 ∧ bits w 0 19 = x1 := by
    refine ⟨?_, ?_, ?_, ?_⟩ <;> simp (disch := decide) only [h, bits_low, bits_high, bits_all] <;> rfl
  obtain ⟨k, c, f0, f1⟩ := f
  refine decode_of_raw ?_ hw
  rw [raw_1 k]
  unfold decodeBr
  rw [c]
  show (some (Instr.brnz (bits w 19 6) (bits w 0 19))) = _
  rw [f0, f1]

theorem brany (x0 : BitVec 6) (x1 : BitVec 19) : Statement (.brany x0 x1) := by
  intro _ hw
  generalize hx : encode (.brany x0 x1) = w
  have h (lo len : Nat) : bits w lo len = BitVec.extractLsb' lo len (0xb#7 ++ x0 ++ x1) := by rw [← hx]; rfl
  have f : bits w 28 4 = 1#4 ∧ bits w 25 3 = 3#3 ∧ bits w 19 6 = x0 ∧ bits w 0 19 = x1 := by
    refine ⟨?_, ?_, ?_, ?_⟩ <;> simp (disch := decide) only [h, bits_low, bits_high, bits_all] <;> rfl
  obtain ⟨k, c, f0, f1⟩ := f
  refine decode_of_raw ?_ hw
  rw [raw_1 k]
  unfold decodeBr
  rw [c]
  show (some (Instr.brany (bits w 19 6) (bits w 0 19))) = _
  rw [f0, f1]

theorem brnone (x0 : BitVec 6) (x1 : BitVec 19) : Statement (.brnone x0 x1) := by
  intro _ hw
  generalize hx : encode (.brnone x0 x1) = w
  have h (lo len : Nat) : bits w lo len = BitVec.extractLsb' lo len (0xc#7 ++ x0 ++ x1) := by rw [← hx]; rfl
  have f : bits w 28 4 = 1#4 ∧ bits w 25 3 = 4#3 ∧ bits w 19 6 = x0 ∧ bits w 0 19 = x1 := by
    refine ⟨?_, ?_, ?_, ?_⟩ <;> simp (disch := decide) only [h, bits_low, bits_high, bits_all] <;> rfl
  obtain ⟨k, c, f0, f1⟩ := f
  refine decode_of_raw ?_ hw
  rw [raw_1 k]
  unfold decodeBr
  rw [c]
  show (some (Instr.brnone (bits w 19 6) (bits w 0 19))) = _
  rw [f0, f1]

theorem brall (x0 : BitVec 6) (x1 : BitVec 19) : Statement (.brall x0 x1) := by
  intro _ hw
  generalize hx : encode (.brall x0 x1) = w
  have h (lo len : Nat) : bits w lo len = BitVec.extractLsb' lo len (0xd#7 ++ x0 ++ x1) := by rw [← hx]; rfl
  have f : bits w 28 4 = 1#4 ∧ bits w 25 3 = 5#3 ∧ bits w 19 6 = x0 ∧ bits w 0 19 = x1 := by
    refine ⟨?_, ?_, ?_, ?_⟩ <;> simp (disch := decide) only [h, bits_low, bits_high, bits_all] <;> rfl
  obtain ⟨k, c, f0, f1⟩ := f
  refine decode_of_raw ?_ hw
  rw [raw_1 k]
  unfold decodeBr
  rw [c]
  show (some (Instr.brall (bits w 19 6) (bits w 0 19))) = _
  rw [f0, f1]

theorem call (x0 : BitVec 19) : Statement (.call x0) := by
  intro _ hw
  generalize hx : encode (.call x0) = w
  have h (lo len : Nat) : bits w lo len = BitVec.extractLsb' lo len (0x380#13 ++ x0) := by rw [← hx]; rfl
  have f : bits w 28 4 = 1#4 ∧ bits w 25 3 = 6#3 ∧ bits w 19 6 = 0 ∧ bits w 0 19 = x0 := by
    refine ⟨?_, ?_, ?_, ?_⟩ <;> simp (disch := decide) only [h, bits_low, bits_high, bits_all] <;> rfl
  obtain ⟨k, c, f0, f1⟩ := f
  refine decode_of_raw ?_ hw
  rw [raw_1 k]
  unfold decodeBr
  rw [c]
  show (if bits w 19 6 = 0 then some (Instr.call (bits w 0 19)) else none) = _
  rw [f0, f1]
  rfl

theorem sadd (x0 : BitVec 6) (x1 : BitVec 6) (x2 : BitVec 6) : Statement (.sadd x0 x1 x2) := by
  intro _ hw
  generalize hx : encode (.sadd x0 x1 x2) = w
  have h (lo len : Nat) : bits w lo len = BitVec.extractLsb' lo len (0x80#10 ++ x0 ++ x1 ++ x2 ++ 0x0#4) := by rw [← hx]; rfl
  have f : bits w 28 4 = 2#4 ∧ bits w 22 6 = 0#6 ∧ bits w 0 4 = 0 ∧ bits w 16 6 = x0 ∧ bits w 10 6 = x1 ∧ bits w 4 6 = x2 := by
    refine ⟨?_, ?_, ?_, ?_, ?_, ?_⟩ <;> simp (disch := decide) only [h, bits_low, bits_high, bits_all] <;> rfl
  obtain ⟨k, c, f0, f1, f2, f3⟩ := f
  refine decode_of_raw ?_ hw
  rw [raw_2 k]
  unfold decodeSalu
  rw [c]
  show (if bits w 0 4 = 0 then some (Instr.sadd (bits w 16 6) (bits w 10 6) (bits w 4 6)) else none) = _
  rw [f0, f1, f2, f3]
  rfl

theorem ssub (x0 : BitVec 6) (x1 : BitVec 6) (x2 : BitVec 6) : Statement (.ssub x0 x1 x2) := by
  intro _ hw
  generalize hx : encode (.ssub x0 x1 x2) = w
  have h (lo len : Nat) : bits w lo len = BitVec.extractLsb' lo len (0x81#10 ++ x0 ++ x1 ++ x2 ++ 0x0#4) := by rw [← hx]; rfl
  have f : bits w 28 4 = 2#4 ∧ bits w 22 6 = 1#6 ∧ bits w 0 4 = 0 ∧ bits w 16 6 = x0 ∧ bits w 10 6 = x1 ∧ bits w 4 6 = x2 := by
    refine ⟨?_, ?_, ?_, ?_, ?_, ?_⟩ <;> simp (disch := decide) only [h, bits_low, bits_high, bits_all] <;> rfl
  obtain ⟨k, c, f0, f1, f2, f3⟩ := f
  refine decode_of_raw ?_ hw
  rw [raw_2 k]
  unfold decodeSalu
  rw [c]
  show (if bits w 0 4 = 0 then some (Instr.ssub (bits w 16 6) (bits w 10 6) (bits w 4 6)) else none) = _
  rw [f0, f1, f2, f3]
  rfl

theorem smul (x0 : BitVec 6) (x1 : BitVec 6) (x2 : BitVec 6) : Statement (.smul x0 x1 x2) := by
  intro _ hw
  generalize hx : encode (.smul x0 x1 x2) = w
  have h (lo len : Nat) : bits w lo len = BitVec.extractLsb' lo len (0x82#10 ++ x0 ++ x1 ++ x2 ++ 0x0#4) := by rw [← hx]; rfl
  have f : bits w 28 4 = 2#4 ∧ bits w 22 6 = 2#6 ∧ bits w 0 4 = 0 ∧ bits w 16 6 = x0 ∧ bits w 10 6 = x1 ∧ bits w 4 6 = x2 := by
    refine ⟨?_, ?_, ?_, ?_, ?_, ?_⟩ <;> simp (disch := decide) only [h, bits_low, bits_high, bits_all] <;> rfl
  obtain ⟨k, c, f0, f1, f2, f3⟩ := f
  refine decode_of_raw ?_ hw
  rw [raw_2 k]
  unfold decodeSalu
  rw [c]
  show (if bits w 0 4 = 0 then some (Instr.smul (bits w 16 6) (bits w 10 6) (bits w 4 6)) else none) = _
  rw [f0, f1, f2, f3]
  rfl

theorem smulh (x0 : BitVec 6) (x1 : BitVec 6) (x2 : BitVec 6) : Statement (.smulh x0 x1 x2) := by
  intro _ hw
  generalize hx : encode (.smulh x0 x1 x2) = w
  have h (lo len : Nat) : bits w lo len = BitVec.extractLsb' lo len (0x83#10 ++ x0 ++ x1 ++ x2 ++ 0x0#4) := by rw [← hx]; rfl
  have f : bits w 28 4 = 2#4 ∧ bits w 22 6 = 3#6 ∧ bits w 0 4 = 0 ∧ bits w 16 6 = x0 ∧ bits w 10 6 = x1 ∧ bits w 4 6 = x2 := by
    refine ⟨?_, ?_, ?_, ?_, ?_, ?_⟩ <;> simp (disch := decide) only [h, bits_low, bits_high, bits_all] <;> rfl
  obtain ⟨k, c, f0, f1, f2, f3⟩ := f
  refine decode_of_raw ?_ hw
  rw [raw_2 k]
  unfold decodeSalu
  rw [c]
  show (if bits w 0 4 = 0 then some (Instr.smulh (bits w 16 6) (bits w 10 6) (bits w 4 6)) else none) = _
  rw [f0, f1, f2, f3]
  rfl

theorem smulhn (x0 : BitVec 6) (x1 : BitVec 6) (x2 : BitVec 6) : Statement (.smulhn x0 x1 x2) := by
  intro _ hw
  generalize hx : encode (.smulhn x0 x1 x2) = w
  have h (lo len : Nat) : bits w lo len = BitVec.extractLsb' lo len (0x84#10 ++ x0 ++ x1 ++ x2 ++ 0x0#4) := by rw [← hx]; rfl
  have f : bits w 28 4 = 2#4 ∧ bits w 22 6 = 4#6 ∧ bits w 0 4 = 0 ∧ bits w 16 6 = x0 ∧ bits w 10 6 = x1 ∧ bits w 4 6 = x2 := by
    refine ⟨?_, ?_, ?_, ?_, ?_, ?_⟩ <;> simp (disch := decide) only [h, bits_low, bits_high, bits_all] <;> rfl
  obtain ⟨k, c, f0, f1, f2, f3⟩ := f
  refine decode_of_raw ?_ hw
  rw [raw_2 k]
  unfold decodeSalu
  rw [c]
  show (if bits w 0 4 = 0 then some (Instr.smulhn (bits w 16 6) (bits w 10 6) (bits w 4 6)) else none) = _
  rw [f0, f1, f2, f3]
  rfl

theorem sand (x0 : BitVec 6) (x1 : BitVec 6) (x2 : BitVec 6) : Statement (.sand x0 x1 x2) := by
  intro _ hw
  generalize hx : encode (.sand x0 x1 x2) = w
  have h (lo len : Nat) : bits w lo len = BitVec.extractLsb' lo len (0x85#10 ++ x0 ++ x1 ++ x2 ++ 0x0#4) := by rw [← hx]; rfl
  have f : bits w 28 4 = 2#4 ∧ bits w 22 6 = 5#6 ∧ bits w 0 4 = 0 ∧ bits w 16 6 = x0 ∧ bits w 10 6 = x1 ∧ bits w 4 6 = x2 := by
    refine ⟨?_, ?_, ?_, ?_, ?_, ?_⟩ <;> simp (disch := decide) only [h, bits_low, bits_high, bits_all] <;> rfl
  obtain ⟨k, c, f0, f1, f2, f3⟩ := f
  refine decode_of_raw ?_ hw
  rw [raw_2 k]
  unfold decodeSalu
  rw [c]
  show (if bits w 0 4 = 0 then some (Instr.sand (bits w 16 6) (bits w 10 6) (bits w 4 6)) else none) = _
  rw [f0, f1, f2, f3]
  rfl

theorem sor (x0 : BitVec 6) (x1 : BitVec 6) (x2 : BitVec 6) : Statement (.sor x0 x1 x2) := by
  intro _ hw
  generalize hx : encode (.sor x0 x1 x2) = w
  have h (lo len : Nat) : bits w lo len = BitVec.extractLsb' lo len (0x86#10 ++ x0 ++ x1 ++ x2 ++ 0x0#4) := by rw [← hx]; rfl
  have f : bits w 28 4 = 2#4 ∧ bits w 22 6 = 6#6 ∧ bits w 0 4 = 0 ∧ bits w 16 6 = x0 ∧ bits w 10 6 = x1 ∧ bits w 4 6 = x2 := by
    refine ⟨?_, ?_, ?_, ?_, ?_, ?_⟩ <;> simp (disch := decide) only [h, bits_low, bits_high, bits_all] <;> rfl
  obtain ⟨k, c, f0, f1, f2, f3⟩ := f
  refine decode_of_raw ?_ hw
  rw [raw_2 k]
  unfold decodeSalu
  rw [c]
  show (if bits w 0 4 = 0 then some (Instr.sor (bits w 16 6) (bits w 10 6) (bits w 4 6)) else none) = _
  rw [f0, f1, f2, f3]
  rfl

theorem sxor (x0 : BitVec 6) (x1 : BitVec 6) (x2 : BitVec 6) : Statement (.sxor x0 x1 x2) := by
  intro _ hw
  generalize hx : encode (.sxor x0 x1 x2) = w
  have h (lo len : Nat) : bits w lo len = BitVec.extractLsb' lo len (0x87#10 ++ x0 ++ x1 ++ x2 ++ 0x0#4) := by rw [← hx]; rfl
  have f : bits w 28 4 = 2#4 ∧ bits w 22 6 = 7#6 ∧ bits w 0 4 = 0 ∧ bits w 16 6 = x0 ∧ bits w 10 6 = x1 ∧ bits w 4 6 = x2 := by
    refine ⟨?_, ?_, ?_, ?_, ?_, ?_⟩ <;> simp (disch := decide) only [h, bits_low, bits_high, bits_all] <;> rfl
  obtain ⟨k, c, f0, f1, f2, f3⟩ := f
  refine decode_of_raw ?_ hw
  rw [raw_2 k]
  unfold decodeSalu
  rw [c]
  show (if bits w 0 4 = 0 then some (Instr.sxor (bits w 16 6) (bits w 10 6) (bits w 4 6)) else none) = _
  rw [f0, f1, f2, f3]
  rfl

theorem sandn (x0 : BitVec 6) (x1 : BitVec 6) (x2 : BitVec 6) : Statement (.sandn x0 x1 x2) := by
  intro _ hw
  generalize hx : encode (.sandn x0 x1 x2) = w
  have h (lo len : Nat) : bits w lo len = BitVec.extractLsb' lo len (0x88#10 ++ x0 ++ x1 ++ x2 ++ 0x0#4) := by rw [← hx]; rfl
  have f : bits w 28 4 = 2#4 ∧ bits w 22 6 = 8#6 ∧ bits w 0 4 = 0 ∧ bits w 16 6 = x0 ∧ bits w 10 6 = x1 ∧ bits w 4 6 = x2 := by
    refine ⟨?_, ?_, ?_, ?_, ?_, ?_⟩ <;> simp (disch := decide) only [h, bits_low, bits_high, bits_all] <;> rfl
  obtain ⟨k, c, f0, f1, f2, f3⟩ := f
  refine decode_of_raw ?_ hw
  rw [raw_2 k]
  unfold decodeSalu
  rw [c]
  show (if bits w 0 4 = 0 then some (Instr.sandn (bits w 16 6) (bits w 10 6) (bits w 4 6)) else none) = _
  rw [f0, f1, f2, f3]
  rfl

theorem sshl (x0 : BitVec 6) (x1 : BitVec 6) (x2 : BitVec 6) : Statement (.sshl x0 x1 x2) := by
  intro _ hw
  generalize hx : encode (.sshl x0 x1 x2) = w
  have h (lo len : Nat) : bits w lo len = BitVec.extractLsb' lo len (0x89#10 ++ x0 ++ x1 ++ x2 ++ 0x0#4) := by rw [← hx]; rfl
  have f : bits w 28 4 = 2#4 ∧ bits w 22 6 = 9#6 ∧ bits w 0 4 = 0 ∧ bits w 16 6 = x0 ∧ bits w 10 6 = x1 ∧ bits w 4 6 = x2 := by
    refine ⟨?_, ?_, ?_, ?_, ?_, ?_⟩ <;> simp (disch := decide) only [h, bits_low, bits_high, bits_all] <;> rfl
  obtain ⟨k, c, f0, f1, f2, f3⟩ := f
  refine decode_of_raw ?_ hw
  rw [raw_2 k]
  unfold decodeSalu
  rw [c]
  show (if bits w 0 4 = 0 then some (Instr.sshl (bits w 16 6) (bits w 10 6) (bits w 4 6)) else none) = _
  rw [f0, f1, f2, f3]
  rfl

theorem sshr (x0 : BitVec 6) (x1 : BitVec 6) (x2 : BitVec 6) : Statement (.sshr x0 x1 x2) := by
  intro _ hw
  generalize hx : encode (.sshr x0 x1 x2) = w
  have h (lo len : Nat) : bits w lo len = BitVec.extractLsb' lo len (0x8a#10 ++ x0 ++ x1 ++ x2 ++ 0x0#4) := by rw [← hx]; rfl
  have f : bits w 28 4 = 2#4 ∧ bits w 22 6 = 10#6 ∧ bits w 0 4 = 0 ∧ bits w 16 6 = x0 ∧ bits w 10 6 = x1 ∧ bits w 4 6 = x2 := by
    refine ⟨?_, ?_, ?_, ?_, ?_, ?_⟩ <;> simp (disch := decide) only [h, bits_low, bits_high, bits_all] <;> rfl
  obtain ⟨k, c, f0, f1, f2, f3⟩ := f
  refine decode_of_raw ?_ hw
  rw [raw_2 k]
  unfold decodeSalu
  rw [c]
  show (if bits w 0 4 = 0 then some (Instr.sshr (bits w 16 6) (bits w 10 6) (bits w 4 6)) else none) = _
  rw [f0, f1, f2, f3]
  rfl

theorem ssra (x0 : BitVec 6) (x1 : BitVec 6) (x2 : BitVec 6) : Statement (.ssra x0 x1 x2) := by
  intro _ hw
  generalize hx : encode (.ssra x0 x1 x2) = w
  have h (lo len : Nat) : bits w lo len = BitVec.extractLsb' lo len (0x8b#10 ++ x0 ++ x1 ++ x2 ++ 0x0#4) := by rw [← hx]; rfl
  have f : bits w 28 4 = 2#4 ∧ bits w 22 6 = 11#6 ∧ bits w 0 4 = 0 ∧ bits w 16 6 = x0 ∧ bits w 10 6 = x1 ∧ bits w 4 6 = x2 := by
    refine ⟨?_, ?_, ?_, ?_, ?_, ?_⟩ <;> simp (disch := decide) only [h, bits_low, bits_high, bits_all] <;> rfl
  obtain ⟨k, c, f0, f1, f2, f3⟩ := f
  refine decode_of_raw ?_ hw
  rw [raw_2 k]
  unfold decodeSalu
  rw [c]
  show (if bits w 0 4 = 0 then some (Instr.ssra (bits w 16 6) (bits w 10 6) (bits w 4 6)) else none) = _
  rw [f0, f1, f2, f3]
  rfl

theorem smin (x0 : BitVec 6) (x1 : BitVec 6) (x2 : BitVec 6) : Statement (.smin x0 x1 x2) := by
  intro _ hw
  generalize hx : encode (.smin x0 x1 x2) = w
  have h (lo len : Nat) : bits w lo len = BitVec.extractLsb' lo len (0x8c#10 ++ x0 ++ x1 ++ x2 ++ 0x0#4) := by rw [← hx]; rfl
  have f : bits w 28 4 = 2#4 ∧ bits w 22 6 = 12#6 ∧ bits w 0 4 = 0 ∧ bits w 16 6 = x0 ∧ bits w 10 6 = x1 ∧ bits w 4 6 = x2 := by
    refine ⟨?_, ?_, ?_, ?_, ?_, ?_⟩ <;> simp (disch := decide) only [h, bits_low, bits_high, bits_all] <;> rfl
  obtain ⟨k, c, f0, f1, f2, f3⟩ := f
  refine decode_of_raw ?_ hw
  rw [raw_2 k]
  unfold decodeSalu
  rw [c]
  show (if bits w 0 4 = 0 then some (Instr.smin (bits w 16 6) (bits w 10 6) (bits w 4 6)) else none) = _
  rw [f0, f1, f2, f3]
  rfl

theorem smax (x0 : BitVec 6) (x1 : BitVec 6) (x2 : BitVec 6) : Statement (.smax x0 x1 x2) := by
  intro _ hw
  generalize hx : encode (.smax x0 x1 x2) = w
  have h (lo len : Nat) : bits w lo len = BitVec.extractLsb' lo len (0x8d#10 ++ x0 ++ x1 ++ x2 ++ 0x0#4) := by rw [← hx]; rfl
  have f : bits w 28 4 = 2#4 ∧ bits w 22 6 = 13#6 ∧ bits w 0 4 = 0 ∧ bits w 16 6 = x0 ∧ bits w 10 6 = x1 ∧ bits w 4 6 = x2 := by
    refine ⟨?_, ?_, ?_, ?_, ?_, ?_⟩ <;> simp (disch := decide) only [h, bits_low, bits_high, bits_all] <;> rfl
  obtain ⟨k, c, f0, f1, f2, f3⟩ := f
  refine decode_of_raw ?_ hw
  rw [raw_2 k]
  unfold decodeSalu
  rw [c]
  show (if bits w 0 4 = 0 then some (Instr.smax (bits w 16 6) (bits w 10 6) (bits w 4 6)) else none) = _
  rw [f0, f1, f2, f3]
  rfl

theorem sminn (x0 : BitVec 6) (x1 : BitVec 6) (x2 : BitVec 6) : Statement (.sminn x0 x1 x2) := by
  intro _ hw
  generalize hx : encode (.sminn x0 x1 x2) = w
  have h (lo len : Nat) : bits w lo len = BitVec.extractLsb' lo len (0x8e#10 ++ x0 ++ x1 ++ x2 ++ 0x0#4) := by rw [← hx]; rfl
  have f : bits w 28 4 = 2#4 ∧ bits w 22 6 = 14#6 ∧ bits w 0 4 = 0 ∧ bits w 16 6 = x0 ∧ bits w 10 6 = x1 ∧ bits w 4 6 = x2 := by
    refine ⟨?_, ?_, ?_, ?_, ?_, ?_⟩ <;> simp (disch := decide) only [h, bits_low, bits_high, bits_all] <;> rfl
  obtain ⟨k, c, f0, f1, f2, f3⟩ := f
  refine decode_of_raw ?_ hw
  rw [raw_2 k]
  unfold decodeSalu
  rw [c]
  show (if bits w 0 4 = 0 then some (Instr.sminn (bits w 16 6) (bits w 10 6) (bits w 4 6)) else none) = _
  rw [f0, f1, f2, f3]
  rfl

theorem smaxn (x0 : BitVec 6) (x1 : BitVec 6) (x2 : BitVec 6) : Statement (.smaxn x0 x1 x2) := by
  intro _ hw
  generalize hx : encode (.smaxn x0 x1 x2) = w
  have h (lo len : Nat) : bits w lo len = BitVec.extractLsb' lo len (0x8f#10 ++ x0 ++ x1 ++ x2 ++ 0x0#4) := by rw [← hx]; rfl
  have f : bits w 28 4 = 2#4 ∧ bits w 22 6 = 15#6 ∧ bits w 0 4 = 0 ∧ bits w 16 6 = x0 ∧ bits w 10 6 = x1 ∧ bits w 4 6 = x2 := by
    refine ⟨?_, ?_, ?_, ?_, ?_, ?_⟩ <;> simp (disch := decide) only [h, bits_low, bits_high, bits_all] <;> rfl
  obtain ⟨k, c, f0, f1, f2, f3⟩ := f
  refine decode_of_raw ?_ hw
  rw [raw_2 k]
  unfold decodeSalu
  rw [c]
  show (if bits w 0 4 = 0 then some (Instr.smaxn (bits w 16 6) (bits w 10 6) (bits w 4 6)) else none) = _
  rw [f0, f1, f2, f3]
  rfl

theorem sseq (x0 : BitVec 6) (x1 : BitVec 6) (x2 : BitVec 6) : Statement (.sseq x0 x1 x2) := by
  intro _ hw
  generalize hx : encode (.sseq x0 x1 x2) = w
  have h (lo len : Nat) : bits w lo len = BitVec.extractLsb' lo len (0x90#10 ++ x0 ++ x1 ++ x2 ++ 0x0#4) := by rw [← hx]; rfl
  have f : bits w 28 4 = 2#4 ∧ bits w 22 6 = 16#6 ∧ bits w 0 4 = 0 ∧ bits w 16 6 = x0 ∧ bits w 10 6 = x1 ∧ bits w 4 6 = x2 := by
    refine ⟨?_, ?_, ?_, ?_, ?_, ?_⟩ <;> simp (disch := decide) only [h, bits_low, bits_high, bits_all] <;> rfl
  obtain ⟨k, c, f0, f1, f2, f3⟩ := f
  refine decode_of_raw ?_ hw
  rw [raw_2 k]
  unfold decodeSalu
  rw [c]
  show (if bits w 0 4 = 0 then some (Instr.sseq (bits w 16 6) (bits w 10 6) (bits w 4 6)) else none) = _
  rw [f0, f1, f2, f3]
  rfl

theorem ssne (x0 : BitVec 6) (x1 : BitVec 6) (x2 : BitVec 6) : Statement (.ssne x0 x1 x2) := by
  intro _ hw
  generalize hx : encode (.ssne x0 x1 x2) = w
  have h (lo len : Nat) : bits w lo len = BitVec.extractLsb' lo len (0x91#10 ++ x0 ++ x1 ++ x2 ++ 0x0#4) := by rw [← hx]; rfl
  have f : bits w 28 4 = 2#4 ∧ bits w 22 6 = 17#6 ∧ bits w 0 4 = 0 ∧ bits w 16 6 = x0 ∧ bits w 10 6 = x1 ∧ bits w 4 6 = x2 := by
    refine ⟨?_, ?_, ?_, ?_, ?_, ?_⟩ <;> simp (disch := decide) only [h, bits_low, bits_high, bits_all] <;> rfl
  obtain ⟨k, c, f0, f1, f2, f3⟩ := f
  refine decode_of_raw ?_ hw
  rw [raw_2 k]
  unfold decodeSalu
  rw [c]
  show (if bits w 0 4 = 0 then some (Instr.ssne (bits w 16 6) (bits w 10 6) (bits w 4 6)) else none) = _
  rw [f0, f1, f2, f3]
  rfl

theorem sslt (x0 : BitVec 6) (x1 : BitVec 6) (x2 : BitVec 6) : Statement (.sslt x0 x1 x2) := by
  intro _ hw
  generalize hx : encode (.sslt x0 x1 x2) = w
  have h (lo len : Nat) : bits w lo len = BitVec.extractLsb' lo len (0x92#10 ++ x0 ++ x1 ++ x2 ++ 0x0#4) := by rw [← hx]; rfl
  have f : bits w 28 4 = 2#4 ∧ bits w 22 6 = 18#6 ∧ bits w 0 4 = 0 ∧ bits w 16 6 = x0 ∧ bits w 10 6 = x1 ∧ bits w 4 6 = x2 := by
    refine ⟨?_, ?_, ?_, ?_, ?_, ?_⟩ <;> simp (disch := decide) only [h, bits_low, bits_high, bits_all] <;> rfl
  obtain ⟨k, c, f0, f1, f2, f3⟩ := f
  refine decode_of_raw ?_ hw
  rw [raw_2 k]
  unfold decodeSalu
  rw [c]
  show (if bits w 0 4 = 0 then some (Instr.sslt (bits w 16 6) (bits w 10 6) (bits w 4 6)) else none) = _
  rw [f0, f1, f2, f3]
  rfl

theorem ssle (x0 : BitVec 6) (x1 : BitVec 6) (x2 : BitVec 6) : Statement (.ssle x0 x1 x2) := by
  intro _ hw
  generalize hx : encode (.ssle x0 x1 x2) = w
  have h (lo len : Nat) : bits w lo len = BitVec.extractLsb' lo len (0x93#10 ++ x0 ++ x1 ++ x2 ++ 0x0#4) := by rw [← hx]; rfl
  have f : bits w 28 4 = 2#4 ∧ bits w 22 6 = 19#6 ∧ bits w 0 4 = 0 ∧ bits w 16 6 = x0 ∧ bits w 10 6 = x1 ∧ bits w 4 6 = x2 := by
    refine ⟨?_, ?_, ?_, ?_, ?_, ?_⟩ <;> simp (disch := decide) only [h, bits_low, bits_high, bits_all] <;> rfl
  obtain ⟨k, c, f0, f1, f2, f3⟩ := f
  refine decode_of_raw ?_ hw
  rw [raw_2 k]
  unfold decodeSalu
  rw [c]
  show (if bits w 0 4 = 0 then some (Instr.ssle (bits w 16 6) (bits w 10 6) (bits w 4 6)) else none) = _
  rw [f0, f1, f2, f3]
  rfl

theorem ssltn (x0 : BitVec 6) (x1 : BitVec 6) (x2 : BitVec 6) : Statement (.ssltn x0 x1 x2) := by
  intro _ hw
  generalize hx : encode (.ssltn x0 x1 x2) = w
  have h (lo len : Nat) : bits w lo len = BitVec.extractLsb' lo len (0x94#10 ++ x0 ++ x1 ++ x2 ++ 0x0#4) := by rw [← hx]; rfl
  have f : bits w 28 4 = 2#4 ∧ bits w 22 6 = 20#6 ∧ bits w 0 4 = 0 ∧ bits w 16 6 = x0 ∧ bits w 10 6 = x1 ∧ bits w 4 6 = x2 := by
    refine ⟨?_, ?_, ?_, ?_, ?_, ?_⟩ <;> simp (disch := decide) only [h, bits_low, bits_high, bits_all] <;> rfl
  obtain ⟨k, c, f0, f1, f2, f3⟩ := f
  refine decode_of_raw ?_ hw
  rw [raw_2 k]
  unfold decodeSalu
  rw [c]
  show (if bits w 0 4 = 0 then some (Instr.ssltn (bits w 16 6) (bits w 10 6) (bits w 4 6)) else none) = _
  rw [f0, f1, f2, f3]
  rfl

theorem sslen (x0 : BitVec 6) (x1 : BitVec 6) (x2 : BitVec 6) : Statement (.sslen x0 x1 x2) := by
  intro _ hw
  generalize hx : encode (.sslen x0 x1 x2) = w
  have h (lo len : Nat) : bits w lo len = BitVec.extractLsb' lo len (0x95#10 ++ x0 ++ x1 ++ x2 ++ 0x0#4) := by rw [← hx]; rfl
  have f : bits w 28 4 = 2#4 ∧ bits w 22 6 = 21#6 ∧ bits w 0 4 = 0 ∧ bits w 16 6 = x0 ∧ bits w 10 6 = x1 ∧ bits w 4 6 = x2 := by
    refine ⟨?_, ?_, ?_, ?_, ?_, ?_⟩ <;> simp (disch := decide) only [h, bits_low, bits_high, bits_all] <;> rfl
  obtain ⟨k, c, f0, f1, f2, f3⟩ := f
  refine decode_of_raw ?_ hw
  rw [raw_2 k]
  unfold decodeSalu
  rw [c]
  show (if bits w 0 4 = 0 then some (Instr.sslen (bits w 16 6) (bits w 10 6) (bits w 4 6)) else none) = _
  rw [f0, f1, f2, f3]
  rfl

theorem sclz (x0 : BitVec 6) (x1 : BitVec 6) : Statement (.sclz x0 x1) := by
  intro _ hw
  generalize hx : encode (.sclz x0 x1) = w
  have h (lo len : Nat) : bits w lo len = BitVec.extractLsb' lo len (0x96#10 ++ x0 ++ x1 ++ 0x0#10) := by rw [← hx]; rfl
  have f : bits w 28 4 = 2#4 ∧ bits w 22 6 = 22#6 ∧ bits w 0 10 = 0 ∧ bits w 16 6 = x0 ∧ bits w 10 6 = x1 := by
    refine ⟨?_, ?_, ?_, ?_, ?_⟩ <;> simp (disch := decide) only [h, bits_low, bits_high, bits_all] <;> rfl
  obtain ⟨k, c, f0, f1, f2⟩ := f
  refine decode_of_raw ?_ hw
  rw [raw_2 k]
  unfold decodeSalu
  rw [c]
  show (if bits w 0 10 = 0 then some (Instr.sclz (bits w 16 6) (bits w 10 6)) else none) = _
  rw [f0, f1, f2]
  rfl

theorem spopc (x0 : BitVec 6) (x1 : BitVec 6) : Statement (.spopc x0 x1) := by
  intro _ hw
  generalize hx : encode (.spopc x0 x1) = w
  have h (lo len : Nat) : bits w lo len = BitVec.extractLsb' lo len (0x97#10 ++ x0 ++ x1 ++ 0x0#10) := by rw [← hx]; rfl
  have f : bits w 28 4 = 2#4 ∧ bits w 22 6 = 23#6 ∧ bits w 0 10 = 0 ∧ bits w 16 6 = x0 ∧ bits w 10 6 = x1 := by
    refine ⟨?_, ?_, ?_, ?_, ?_⟩ <;> simp (disch := decide) only [h, bits_low, bits_high, bits_all] <;> rfl
  obtain ⟨k, c, f0, f1, f2⟩ := f
  refine decode_of_raw ?_ hw
  rw [raw_2 k]
  unfold decodeSalu
  rw [c]
  show (if bits w 0 10 = 0 then some (Instr.spopc (bits w 16 6) (bits w 10 6)) else none) = _
  rw [f0, f1, f2]
  rfl

theorem pand (x0 : BitVec 6) (x1 : BitVec 6) (x2 : BitVec 6) : Statement (.pand x0 x1 x2) := by
  intro _ hw
  generalize hx : encode (.pand x0 x1 x2) = w
  have h (lo len : Nat) : bits w lo len = BitVec.extractLsb' lo len (0x98#10 ++ x0 ++ x1 ++ x2 ++ 0x0#4) := by rw [← hx]; rfl
  have f : bits w 28 4 = 2#4 ∧ bits w 22 6 = 24#6 ∧ bits w 0 4 = 0 ∧ bits w 16 6 = x0 ∧ bits w 10 6 = x1 ∧ bits w 4 6 = x2 := by
    refine ⟨?_, ?_, ?_, ?_, ?_, ?_⟩ <;> simp (disch := decide) only [h, bits_low, bits_high, bits_all] <;> rfl
  obtain ⟨k, c, f0, f1, f2, f3⟩ := f
  refine decode_of_raw ?_ hw
  rw [raw_2 k]
  unfold decodeSalu
  rw [c]
  show (if bits w 0 4 = 0 then some (Instr.pand (bits w 16 6) (bits w 10 6) (bits w 4 6)) else none) = _
  rw [f0, f1, f2, f3]
  rfl

theorem por (x0 : BitVec 6) (x1 : BitVec 6) (x2 : BitVec 6) : Statement (.por x0 x1 x2) := by
  intro _ hw
  generalize hx : encode (.por x0 x1 x2) = w
  have h (lo len : Nat) : bits w lo len = BitVec.extractLsb' lo len (0x99#10 ++ x0 ++ x1 ++ x2 ++ 0x0#4) := by rw [← hx]; rfl
  have f : bits w 28 4 = 2#4 ∧ bits w 22 6 = 25#6 ∧ bits w 0 4 = 0 ∧ bits w 16 6 = x0 ∧ bits w 10 6 = x1 ∧ bits w 4 6 = x2 := by
    refine ⟨?_, ?_, ?_, ?_, ?_, ?_⟩ <;> simp (disch := decide) only [h, bits_low, bits_high, bits_all] <;> rfl
  obtain ⟨k, c, f0, f1, f2, f3⟩ := f
  refine decode_of_raw ?_ hw
  rw [raw_2 k]
  unfold decodeSalu
  rw [c]
  show (if bits w 0 4 = 0 then some (Instr.por (bits w 16 6) (bits w 10 6) (bits w 4 6)) else none) = _
  rw [f0, f1, f2, f3]
  rfl

theorem pxor (x0 : BitVec 6) (x1 : BitVec 6) (x2 : BitVec 6) : Statement (.pxor x0 x1 x2) := by
  intro _ hw
  generalize hx : encode (.pxor x0 x1 x2) = w
  have h (lo len : Nat) : bits w lo len = BitVec.extractLsb' lo len (0x9a#10 ++ x0 ++ x1 ++ x2 ++ 0x0#4) := by rw [← hx]; rfl
  have f : bits w 28 4 = 2#4 ∧ bits w 22 6 = 26#6 ∧ bits w 0 4 = 0 ∧ bits w 16 6 = x0 ∧ bits w 10 6 = x1 ∧ bits w 4 6 = x2 := by
    refine ⟨?_, ?_, ?_, ?_, ?_, ?_⟩ <;> simp (disch := decide) only [h, bits_low, bits_high, bits_all] <;> rfl
  obtain ⟨k, c, f0, f1, f2, f3⟩ := f
  refine decode_of_raw ?_ hw
  rw [raw_2 k]
  unfold decodeSalu
  rw [c]
  show (if bits w 0 4 = 0 then some (Instr.pxor (bits w 16 6) (bits w 10 6) (bits w 4 6)) else none) = _
  rw [f0, f1, f2, f3]
  rfl

theorem pandn (x0 : BitVec 6) (x1 : BitVec 6) (x2 : BitVec 6) : Statement (.pandn x0 x1 x2) := by
  intro _ hw
  generalize hx : encode (.pandn x0 x1 x2) = w
  have h (lo len : Nat) : bits w lo len = BitVec.extractLsb' lo len (0x9b#10 ++ x0 ++ x1 ++ x2 ++ 0x0#4) := by rw [← hx]; rfl
  have f : bits w 28 4 = 2#4 ∧ bits w 22 6 = 27#6 ∧ bits w 0 4 = 0 ∧ bits w 16 6 = x0 ∧ bits w 10 6 = x1 ∧ bits w 4 6 = x2 := by
    refine ⟨?_, ?_, ?_, ?_, ?_, ?_⟩ <;> simp (disch := decide) only [h, bits_low, bits_high, bits_all] <;> rfl
  obtain ⟨k, c, f0, f1, f2, f3⟩ := f
  refine decode_of_raw ?_ hw
  rw [raw_2 k]
  unfold decodeSalu
  rw [c]
  show (if bits w 0 4 = 0 then some (Instr.pandn (bits w 16 6) (bits w 10 6) (bits w 4 6)) else none) = _
  rw [f0, f1, f2, f3]
  rfl

theorem pnot (x0 : BitVec 6) (x1 : BitVec 6) : Statement (.pnot x0 x1) := by
  intro _ hw
  generalize hx : encode (.pnot x0 x1) = w
  have h (lo len : Nat) : bits w lo len = BitVec.extractLsb' lo len (0x9c#10 ++ x0 ++ x1 ++ 0x0#10) := by rw [← hx]; rfl
  have f : bits w 28 4 = 2#4 ∧ bits w 22 6 = 28#6 ∧ bits w 0 10 = 0 ∧ bits w 16 6 = x0 ∧ bits w 10 6 = x1 := by
    refine ⟨?_, ?_, ?_, ?_, ?_⟩ <;> simp (disch := decide) only [h, bits_low, bits_high, bits_all] <;> rfl
  obtain ⟨k, c, f0, f1, f2⟩ := f
  refine decode_of_raw ?_ hw
  rw [raw_2 k]
  unfold decodeSalu
  rw [c]
  show (if bits w 0 10 = 0 then some (Instr.pnot (bits w 16 6) (bits w 10 6)) else none) = _
  rw [f0, f1, f2]
  rfl

theorem pmovs (x0 : BitVec 6) (x1 : BitVec 6) : Statement (.pmovs x0 x1) := by
  intro _ hw
  generalize hx : encode (.pmovs x0 x1) = w
  have h (lo len : Nat) : bits w lo len = BitVec.extractLsb' lo len (0x9d#10 ++ x0 ++ x1 ++ 0x0#10) := by rw [← hx]; rfl
  have f : bits w 28 4 = 2#4 ∧ bits w 22 6 = 29#6 ∧ bits w 0 10 = 0 ∧ bits w 16 6 = x0 ∧ bits w 10 6 = x1 := by
    refine ⟨?_, ?_, ?_, ?_, ?_⟩ <;> simp (disch := decide) only [h, bits_low, bits_high, bits_all] <;> rfl
  obtain ⟨k, c, f0, f1, f2⟩ := f
  refine decode_of_raw ?_ hw
  rw [raw_2 k]
  unfold decodeSalu
  rw [c]
  show (if bits w 0 10 = 0 then some (Instr.pmovs (bits w 16 6) (bits w 10 6)) else none) = _
  rw [f0, f1, f2]
  rfl

theorem smovp (x0 : BitVec 6) (x1 : BitVec 6) : Statement (.smovp x0 x1) := by
  intro _ hw
  generalize hx : encode (.smovp x0 x1) = w
  have h (lo len : Nat) : bits w lo len = BitVec.extractLsb' lo len (0x9e#10 ++ x0 ++ x1 ++ 0x0#10) := by rw [← hx]; rfl
  have f : bits w 28 4 = 2#4 ∧ bits w 22 6 = 30#6 ∧ bits w 0 10 = 0 ∧ bits w 16 6 = x0 ∧ bits w 10 6 = x1 := by
    refine ⟨?_, ?_, ?_, ?_, ?_⟩ <;> simp (disch := decide) only [h, bits_low, bits_high, bits_all] <;> rfl
  obtain ⟨k, c, f0, f1, f2⟩ := f
  refine decode_of_raw ?_ hw
  rw [raw_2 k]
  unfold decodeSalu
  rw [c]
  show (if bits w 0 10 = 0 then some (Instr.smovp (bits w 16 6) (bits w 10 6)) else none) = _
  rw [f0, f1, f2]
  rfl

theorem pcnt (x0 : BitVec 6) (x1 : BitVec 6) (x2 : BitVec 6) : Statement (.pcnt x0 x1 x2) := by
  intro _ hw
  generalize hx : encode (.pcnt x0 x1 x2) = w
  have h (lo len : Nat) : bits w lo len = BitVec.extractLsb' lo len (0x9f#10 ++ x0 ++ x1 ++ x2 ++ 0x0#4) := by rw [← hx]; rfl
  have f : bits w 28 4 = 2#4 ∧ bits w 22 6 = 31#6 ∧ bits w 0 4 = 0 ∧ bits w 16 6 = x0 ∧ bits w 10 6 = x1 ∧ bits w 4 6 = x2 := by
    refine ⟨?_, ?_, ?_, ?_, ?_, ?_⟩ <;> simp (disch := decide) only [h, bits_low, bits_high, bits_all] <;> rfl
  obtain ⟨k, c, f0, f1, f2, f3⟩ := f
  refine decode_of_raw ?_ hw
  rw [raw_2 k]
  unfold decodeSalu
  rw [c]
  show (if bits w 0 4 = 0 then some (Instr.pcnt (bits w 16 6) (bits w 10 6) (bits w 4 6)) else none) = _
  rw [f0, f1, f2, f3]
  rfl

theorem pfirst (x0 : BitVec 6) (x1 : BitVec 6) (x2 : BitVec 6) : Statement (.pfirst x0 x1 x2) := by
  intro _ hw
  generalize hx : encode (.pfirst x0 x1 x2) = w
  have h (lo len : Nat) : bits w lo len = BitVec.extractLsb' lo len (0xa0#10 ++ x0 ++ x1 ++ x2 ++ 0x0#4) := by rw [← hx]; rfl
  have f : bits w 28 4 = 2#4 ∧ bits w 22 6 = 32#6 ∧ bits w 0 4 = 0 ∧ bits w 16 6 = x0 ∧ bits w 10 6 = x1 ∧ bits w 4 6 = x2 := by
    refine ⟨?_, ?_, ?_, ?_, ?_, ?_⟩ <;> simp (disch := decide) only [h, bits_low, bits_high, bits_all] <;> rfl
  obtain ⟨k, c, f0, f1, f2, f3⟩ := f
  refine decode_of_raw ?_ hw
  rw [raw_2 k]
  unfold decodeSalu
  rw [c]
  show (if bits w 0 4 = 0 then some (Instr.pfirst (bits w 16 6) (bits w 10 6) (bits w 4 6)) else none) = _
  rw [f0, f1, f2, f3]
  rfl

theorem saddi (x0 : BitVec 6) (x1 : BitVec 6) (x2 : BitVec 12) : Statement (.saddi x0 x1 x2) := by
  intro _ hw
  generalize hx : encode (.saddi x0 x1 x2) = w
  have h (lo len : Nat) : bits w lo len = BitVec.extractLsb' lo len (0x30#8 ++ x0 ++ x1 ++ x2) := by rw [← hx]; rfl
  have f : bits w 28 4 = 3#4 ∧ bits w 24 4 = 0#4 ∧ bits w 18 6 = x0 ∧ bits w 12 6 = x1 ∧ bits w 0 12 = x2 := by
    refine ⟨?_, ?_, ?_, ?_, ?_⟩ <;> simp (disch := decide) only [h, bits_low, bits_high, bits_all] <;> rfl
  obtain ⟨k, c, f0, f1, f2⟩ := f
  refine decode_of_raw ?_ hw
  rw [raw_3 k]
  unfold decodeSimm
  rw [c]
  show (some (Instr.saddi (bits w 18 6) (bits w 12 6) (bits w 0 12))) = _
  rw [f0, f1, f2]

theorem sandi (x0 : BitVec 6) (x1 : BitVec 6) (x2 : BitVec 12) : Statement (.sandi x0 x1 x2) := by
  intro _ hw
  generalize hx : encode (.sandi x0 x1 x2) = w
  have h (lo len : Nat) : bits w lo len = BitVec.extractLsb' lo len (0x31#8 ++ x0 ++ x1 ++ x2) := by rw [← hx]; rfl
  have f : bits w 28 4 = 3#4 ∧ bits w 24 4 = 1#4 ∧ bits w 18 6 = x0 ∧ bits w 12 6 = x1 ∧ bits w 0 12 = x2 := by
    refine ⟨?_, ?_, ?_, ?_, ?_⟩ <;> simp (disch := decide) only [h, bits_low, bits_high, bits_all] <;> rfl
  obtain ⟨k, c, f0, f1, f2⟩ := f
  refine decode_of_raw ?_ hw
  rw [raw_3 k]
  unfold decodeSimm
  rw [c]
  show (some (Instr.sandi (bits w 18 6) (bits w 12 6) (bits w 0 12))) = _
  rw [f0, f1, f2]

theorem sori (x0 : BitVec 6) (x1 : BitVec 6) (x2 : BitVec 12) : Statement (.sori x0 x1 x2) := by
  intro _ hw
  generalize hx : encode (.sori x0 x1 x2) = w
  have h (lo len : Nat) : bits w lo len = BitVec.extractLsb' lo len (0x32#8 ++ x0 ++ x1 ++ x2) := by rw [← hx]; rfl
  have f : bits w 28 4 = 3#4 ∧ bits w 24 4 = 2#4 ∧ bits w 18 6 = x0 ∧ bits w 12 6 = x1 ∧ bits w 0 12 = x2 := by
    refine ⟨?_, ?_, ?_, ?_, ?_⟩ <;> simp (disch := decide) only [h, bits_low, bits_high, bits_all] <;> rfl
  obtain ⟨k, c, f0, f1, f2⟩ := f
  refine decode_of_raw ?_ hw
  rw [raw_3 k]
  unfold decodeSimm
  rw [c]
  show (some (Instr.sori (bits w 18 6) (bits w 12 6) (bits w 0 12))) = _
  rw [f0, f1, f2]

theorem sxori (x0 : BitVec 6) (x1 : BitVec 6) (x2 : BitVec 12) : Statement (.sxori x0 x1 x2) := by
  intro _ hw
  generalize hx : encode (.sxori x0 x1 x2) = w
  have h (lo len : Nat) : bits w lo len = BitVec.extractLsb' lo len (0x33#8 ++ x0 ++ x1 ++ x2) := by rw [← hx]; rfl
  have f : bits w 28 4 = 3#4 ∧ bits w 24 4 = 3#4 ∧ bits w 18 6 = x0 ∧ bits w 12 6 = x1 ∧ bits w 0 12 = x2 := by
    refine ⟨?_, ?_, ?_, ?_, ?_⟩ <;> simp (disch := decide) only [h, bits_low, bits_high, bits_all] <;> rfl
  obtain ⟨k, c, f0, f1, f2⟩ := f
  refine decode_of_raw ?_ hw
  rw [raw_3 k]
  unfold decodeSimm
  rw [c]
  show (some (Instr.sxori (bits w 18 6) (bits w 12 6) (bits w 0 12))) = _
  rw [f0, f1, f2]

theorem sshli (x0 : BitVec 6) (x1 : BitVec 6) (x2 : BitVec 6) : Statement (.sshli x0 x1 x2) := by
  intro _ hw
  generalize hx : encode (.sshli x0 x1 x2) = w
  have h (lo len : Nat) : bits w lo len = BitVec.extractLsb' lo len (0x34#8 ++ x0 ++ x1 ++ 0x0#6 ++ x2) := by rw [← hx]; rfl
  have f : bits w 28 4 = 3#4 ∧ bits w 24 4 = 4#4 ∧ bits w 6 6 = 0 ∧ bits w 18 6 = x0 ∧ bits w 12 6 = x1 ∧ bits w 0 6 = x2 := by
    refine ⟨?_, ?_, ?_, ?_, ?_, ?_⟩ <;> simp (disch := decide) only [h, bits_low, bits_high, bits_all] <;> rfl
  obtain ⟨k, c, f0, f1, f2, f3⟩ := f
  refine decode_of_raw ?_ hw
  rw [raw_3 k]
  unfold decodeSimm
  rw [c]
  show (if bits w 6 6 = 0 then some (Instr.sshli (bits w 18 6) (bits w 12 6) (bits w 0 6)) else none) = _
  rw [f0, f1, f2, f3]
  rfl

theorem sshri (x0 : BitVec 6) (x1 : BitVec 6) (x2 : BitVec 6) : Statement (.sshri x0 x1 x2) := by
  intro _ hw
  generalize hx : encode (.sshri x0 x1 x2) = w
  have h (lo len : Nat) : bits w lo len = BitVec.extractLsb' lo len (0x35#8 ++ x0 ++ x1 ++ 0x0#6 ++ x2) := by rw [← hx]; rfl
  have f : bits w 28 4 = 3#4 ∧ bits w 24 4 = 5#4 ∧ bits w 6 6 = 0 ∧ bits w 18 6 = x0 ∧ bits w 12 6 = x1 ∧ bits w 0 6 = x2 := by
    refine ⟨?_, ?_, ?_, ?_, ?_, ?_⟩ <;> simp (disch := decide) only [h, bits_low, bits_high, bits_all] <;> rfl
  obtain ⟨k, c, f0, f1, f2, f3⟩ := f
  refine decode_of_raw ?_ hw
  rw [raw_3 k]
  unfold decodeSimm
  rw [c]
  show (if bits w 6 6 = 0 then some (Instr.sshri (bits w 18 6) (bits w 12 6) (bits w 0 6)) else none) = _
  rw [f0, f1, f2, f3]
  rfl

theorem ssrai (x0 : BitVec 6) (x1 : BitVec 6) (x2 : BitVec 6) : Statement (.ssrai x0 x1 x2) := by
  intro _ hw
  generalize hx : encode (.ssrai x0 x1 x2) = w
  have h (lo len : Nat) : bits w lo len = BitVec.extractLsb' lo len (0x36#8 ++ x0 ++ x1 ++ 0x0#6 ++ x2) := by rw [← hx]; rfl
  have f : bits w 28 4 = 3#4 ∧ bits w 24 4 = 6#4 ∧ bits w 6 6 = 0 ∧ bits w 18 6 = x0 ∧ bits w 12 6 = x1 ∧ bits w 0 6 = x2 := by
    refine ⟨?_, ?_, ?_, ?_, ?_, ?_⟩ <;> simp (disch := decide) only [h, bits_low, bits_high, bits_all] <;> rfl
  obtain ⟨k, c, f0, f1, f2, f3⟩ := f
  refine decode_of_raw ?_ hw
  rw [raw_3 k]
  unfold decodeSimm
  rw [c]
  show (if bits w 6 6 = 0 then some (Instr.ssrai (bits w 18 6) (bits w 12 6) (bits w 0 6)) else none) = _
  rw [f0, f1, f2, f3]
  rfl

theorem smovi (x0 : BitVec 6) (x1 : BitVec 2) (x2 : BitVec 16) : Statement (.smovi x0 x1 x2) := by
  intro _ hw
  generalize hx : encode (.smovi x0 x1 x2) = w
  have h (lo len : Nat) : bits w lo len = BitVec.extractLsb' lo len (0x37#8 ++ x0 ++ x1 ++ x2) := by rw [← hx]; rfl
  have f : bits w 28 4 = 3#4 ∧ bits w 24 4 = 7#4 ∧ bits w 18 6 = x0 ∧ bits w 16 2 = x1 ∧ bits w 0 16 = x2 := by
    refine ⟨?_, ?_, ?_, ?_, ?_⟩ <;> simp (disch := decide) only [h, bits_low, bits_high, bits_all] <;> rfl
  obtain ⟨k, c, f0, f1, f2⟩ := f
  refine decode_of_raw ?_ hw
  rw [raw_3 k]
  unfold decodeSimm
  rw [c]
  show (some (Instr.smovi (bits w 18 6) (bits w 16 2) (bits w 0 16))) = _
  rw [f0, f1, f2]

theorem sinsi (x0 : BitVec 6) (x1 : BitVec 2) (x2 : BitVec 16) : Statement (.sinsi x0 x1 x2) := by
  intro _ hw
  generalize hx : encode (.sinsi x0 x1 x2) = w
  have h (lo len : Nat) : bits w lo len = BitVec.extractLsb' lo len (0x38#8 ++ x0 ++ x1 ++ x2) := by rw [← hx]; rfl
  have f : bits w 28 4 = 3#4 ∧ bits w 24 4 = 8#4 ∧ bits w 18 6 = x0 ∧ bits w 16 2 = x1 ∧ bits w 0 16 = x2 := by
    refine ⟨?_, ?_, ?_, ?_, ?_⟩ <;> simp (disch := decide) only [h, bits_low, bits_high, bits_all] <;> rfl
  obtain ⟨k, c, f0, f1, f2⟩ := f
  refine decode_of_raw ?_ hw
  rw [raw_3 k]
  unfold decodeSimm
  rw [c]
  show (some (Instr.sinsi (bits w 18 6) (bits w 16 2) (bits w 0 16))) = _
  rw [f0, f1, f2]

theorem sseqi (x0 : BitVec 6) (x1 : BitVec 6) (x2 : BitVec 12) : Statement (.sseqi x0 x1 x2) := by
  intro _ hw
  generalize hx : encode (.sseqi x0 x1 x2) = w
  have h (lo len : Nat) : bits w lo len = BitVec.extractLsb' lo len (0x39#8 ++ x0 ++ x1 ++ x2) := by rw [← hx]; rfl
  have f : bits w 28 4 = 3#4 ∧ bits w 24 4 = 9#4 ∧ bits w 18 6 = x0 ∧ bits w 12 6 = x1 ∧ bits w 0 12 = x2 := by
    refine ⟨?_, ?_, ?_, ?_, ?_⟩ <;> simp (disch := decide) only [h, bits_low, bits_high, bits_all] <;> rfl
  obtain ⟨k, c, f0, f1, f2⟩ := f
  refine decode_of_raw ?_ hw
  rw [raw_3 k]
  unfold decodeSimm
  rw [c]
  show (some (Instr.sseqi (bits w 18 6) (bits w 12 6) (bits w 0 12))) = _
  rw [f0, f1, f2]

theorem sslti (x0 : BitVec 6) (x1 : BitVec 6) (x2 : BitVec 12) : Statement (.sslti x0 x1 x2) := by
  intro _ hw
  generalize hx : encode (.sslti x0 x1 x2) = w
  have h (lo len : Nat) : bits w lo len = BitVec.extractLsb' lo len (0x3a#8 ++ x0 ++ x1 ++ x2) := by rw [← hx]; rfl
  have f : bits w 28 4 = 3#4 ∧ bits w 24 4 = 10#4 ∧ bits w 18 6 = x0 ∧ bits w 12 6 = x1 ∧ bits w 0 12 = x2 := by
    refine ⟨?_, ?_, ?_, ?_, ?_⟩ <;> simp (disch := decide) only [h, bits_low, bits_high, bits_all] <;> rfl
  obtain ⟨k, c, f0, f1, f2⟩ := f
  refine decode_of_raw ?_ hw
  rw [raw_3 k]
  unfold decodeSimm
  rw [c]
  show (some (Instr.sslti (bits w 18 6) (bits w 12 6) (bits w 0 12))) = _
  rw [f0, f1, f2]

theorem ssltni (x0 : BitVec 6) (x1 : BitVec 6) (x2 : BitVec 12) : Statement (.ssltni x0 x1 x2) := by
  intro _ hw
  generalize hx : encode (.ssltni x0 x1 x2) = w
  have h (lo len : Nat) : bits w lo len = BitVec.extractLsb' lo len (0x3b#8 ++ x0 ++ x1 ++ x2) := by rw [← hx]; rfl
  have f : bits w 28 4 = 3#4 ∧ bits w 24 4 = 11#4 ∧ bits w 18 6 = x0 ∧ bits w 12 6 = x1 ∧ bits w 0 12 = x2 := by
    refine ⟨?_, ?_, ?_, ?_, ?_⟩ <;> simp (disch := decide) only [h, bits_low, bits_high, bits_all] <;> rfl
  obtain ⟨k, c, f0, f1, f2⟩ := f
  refine decode_of_raw ?_ hw
  rw [raw_3 k]
  unfold decodeSimm
  rw [c]
  show (some (Instr.ssltni (bits w 18 6) (bits w 12 6) (bits w 0 12))) = _
  rw [f0, f1, f2]

theorem vadd (x0 : BitVec 2) (x1 : BitVec 7) (x2 : BitVec 7) (x3 : BitVec 7) : Statement (.vadd x0 x1 x2 x3) := by
  intro _ hw
  generalize hx : encode (.vadd x0 x1 x2 x3) = w
  have h (lo len : Nat) : bits w lo len = BitVec.extractLsb' lo len (0x80#9 ++ x0 ++ x1 ++ x2 ++ x3) := by rw [← hx]; rfl
  have f : bits w 28 4 = 4#4 ∧ bits w 23 5 = 0#5 ∧ bits w 21 2 = x0 ∧ bits w 14 7 = x1 ∧ bits w 7 7 = x2 ∧ bits w 0 7 = x3 := by
    refine ⟨?_, ?_, ?_, ?_, ?_, ?_⟩ <;> simp (disch := decide) only [h, bits_low, bits_high, bits_all] <;> rfl
  obtain ⟨k, c, f0, f1, f2, f3⟩ := f
  refine decode_of_raw ?_ hw
  rw [raw_4 k]
  unfold decodeVint
  rw [c]
  show (some (Instr.vadd (bits w 21 2) (bits w 14 7) (bits w 7 7) (bits w 0 7))) = _
  rw [f0, f1, f2, f3]

theorem vsub (x0 : BitVec 2) (x1 : BitVec 7) (x2 : BitVec 7) (x3 : BitVec 7) : Statement (.vsub x0 x1 x2 x3) := by
  intro _ hw
  generalize hx : encode (.vsub x0 x1 x2 x3) = w
  have h (lo len : Nat) : bits w lo len = BitVec.extractLsb' lo len (0x81#9 ++ x0 ++ x1 ++ x2 ++ x3) := by rw [← hx]; rfl
  have f : bits w 28 4 = 4#4 ∧ bits w 23 5 = 1#5 ∧ bits w 21 2 = x0 ∧ bits w 14 7 = x1 ∧ bits w 7 7 = x2 ∧ bits w 0 7 = x3 := by
    refine ⟨?_, ?_, ?_, ?_, ?_, ?_⟩ <;> simp (disch := decide) only [h, bits_low, bits_high, bits_all] <;> rfl
  obtain ⟨k, c, f0, f1, f2, f3⟩ := f
  refine decode_of_raw ?_ hw
  rw [raw_4 k]
  unfold decodeVint
  rw [c]
  show (some (Instr.vsub (bits w 21 2) (bits w 14 7) (bits w 7 7) (bits w 0 7))) = _
  rw [f0, f1, f2, f3]

theorem vmul (x0 : BitVec 2) (x1 : BitVec 7) (x2 : BitVec 7) (x3 : BitVec 7) : Statement (.vmul x0 x1 x2 x3) := by
  intro _ hw
  generalize hx : encode (.vmul x0 x1 x2 x3) = w
  have h (lo len : Nat) : bits w lo len = BitVec.extractLsb' lo len (0x82#9 ++ x0 ++ x1 ++ x2 ++ x3) := by rw [← hx]; rfl
  have f : bits w 28 4 = 4#4 ∧ bits w 23 5 = 2#5 ∧ bits w 21 2 = x0 ∧ bits w 14 7 = x1 ∧ bits w 7 7 = x2 ∧ bits w 0 7 = x3 := by
    refine ⟨?_, ?_, ?_, ?_, ?_, ?_⟩ <;> simp (disch := decide) only [h, bits_low, bits_high, bits_all] <;> rfl
  obtain ⟨k, c, f0, f1, f2, f3⟩ := f
  refine decode_of_raw ?_ hw
  rw [raw_4 k]
  unfold decodeVint
  rw [c]
  show (some (Instr.vmul (bits w 21 2) (bits w 14 7) (bits w 7 7) (bits w 0 7))) = _
  rw [f0, f1, f2, f3]

theorem vmulh (x0 : BitVec 2) (x1 : BitVec 7) (x2 : BitVec 7) (x3 : BitVec 7) : Statement (.vmulh x0 x1 x2 x3) := by
  intro _ hw
  generalize hx : encode (.vmulh x0 x1 x2 x3) = w
  have h (lo len : Nat) : bits w lo len = BitVec.extractLsb' lo len (0x83#9 ++ x0 ++ x1 ++ x2 ++ x3) := by rw [← hx]; rfl
  have f : bits w 28 4 = 4#4 ∧ bits w 23 5 = 3#5 ∧ bits w 21 2 = x0 ∧ bits w 14 7 = x1 ∧ bits w 7 7 = x2 ∧ bits w 0 7 = x3 := by
    refine ⟨?_, ?_, ?_, ?_, ?_, ?_⟩ <;> simp (disch := decide) only [h, bits_low, bits_high, bits_all] <;> rfl
  obtain ⟨k, c, f0, f1, f2, f3⟩ := f
  refine decode_of_raw ?_ hw
  rw [raw_4 k]
  unfold decodeVint
  rw [c]
  show (some (Instr.vmulh (bits w 21 2) (bits w 14 7) (bits w 7 7) (bits w 0 7))) = _
  rw [f0, f1, f2, f3]

theorem vmad (x0 : BitVec 2) (x1 : BitVec 7) (x2 : BitVec 7) (x3 : BitVec 7) : Statement (.vmad x0 x1 x2 x3) := by
  intro _ hw
  generalize hx : encode (.vmad x0 x1 x2 x3) = w
  have h (lo len : Nat) : bits w lo len = BitVec.extractLsb' lo len (0x84#9 ++ x0 ++ x1 ++ x2 ++ x3) := by rw [← hx]; rfl
  have f : bits w 28 4 = 4#4 ∧ bits w 23 5 = 4#5 ∧ bits w 21 2 = x0 ∧ bits w 14 7 = x1 ∧ bits w 7 7 = x2 ∧ bits w 0 7 = x3 := by
    refine ⟨?_, ?_, ?_, ?_, ?_, ?_⟩ <;> simp (disch := decide) only [h, bits_low, bits_high, bits_all] <;> rfl
  obtain ⟨k, c, f0, f1, f2, f3⟩ := f
  refine decode_of_raw ?_ hw
  rw [raw_4 k]
  unfold decodeVint
  rw [c]
  show (some (Instr.vmad (bits w 21 2) (bits w 14 7) (bits w 7 7) (bits w 0 7))) = _
  rw [f0, f1, f2, f3]

theorem vand (x0 : BitVec 2) (x1 : BitVec 7) (x2 : BitVec 7) (x3 : BitVec 7) : Statement (.vand x0 x1 x2 x3) := by
  intro _ hw
  generalize hx : encode (.vand x0 x1 x2 x3) = w
  have h (lo len : Nat) : bits w lo len = BitVec.extractLsb' lo len (0x85#9 ++ x0 ++ x1 ++ x2 ++ x3) := by rw [← hx]; rfl
  have f : bits w 28 4 = 4#4 ∧ bits w 23 5 = 5#5 ∧ bits w 21 2 = x0 ∧ bits w 14 7 = x1 ∧ bits w 7 7 = x2 ∧ bits w 0 7 = x3 := by
    refine ⟨?_, ?_, ?_, ?_, ?_, ?_⟩ <;> simp (disch := decide) only [h, bits_low, bits_high, bits_all] <;> rfl
  obtain ⟨k, c, f0, f1, f2, f3⟩ := f
  refine decode_of_raw ?_ hw
  rw [raw_4 k]
  unfold decodeVint
  rw [c]
  show (some (Instr.vand (bits w 21 2) (bits w 14 7) (bits w 7 7) (bits w 0 7))) = _
  rw [f0, f1, f2, f3]

theorem vor (x0 : BitVec 2) (x1 : BitVec 7) (x2 : BitVec 7) (x3 : BitVec 7) : Statement (.vor x0 x1 x2 x3) := by
  intro _ hw
  generalize hx : encode (.vor x0 x1 x2 x3) = w
  have h (lo len : Nat) : bits w lo len = BitVec.extractLsb' lo len (0x86#9 ++ x0 ++ x1 ++ x2 ++ x3) := by rw [← hx]; rfl
  have f : bits w 28 4 = 4#4 ∧ bits w 23 5 = 6#5 ∧ bits w 21 2 = x0 ∧ bits w 14 7 = x1 ∧ bits w 7 7 = x2 ∧ bits w 0 7 = x3 := by
    refine ⟨?_, ?_, ?_, ?_, ?_, ?_⟩ <;> simp (disch := decide) only [h, bits_low, bits_high, bits_all] <;> rfl
  obtain ⟨k, c, f0, f1, f2, f3⟩ := f
  refine decode_of_raw ?_ hw
  rw [raw_4 k]
  unfold decodeVint
  rw [c]
  show (some (Instr.vor (bits w 21 2) (bits w 14 7) (bits w 7 7) (bits w 0 7))) = _
  rw [f0, f1, f2, f3]

theorem vxor (x0 : BitVec 2) (x1 : BitVec 7) (x2 : BitVec 7) (x3 : BitVec 7) : Statement (.vxor x0 x1 x2 x3) := by
  intro _ hw
  generalize hx : encode (.vxor x0 x1 x2 x3) = w
  have h (lo len : Nat) : bits w lo len = BitVec.extractLsb' lo len (0x87#9 ++ x0 ++ x1 ++ x2 ++ x3) := by rw [← hx]; rfl
  have f : bits w 28 4 = 4#4 ∧ bits w 23 5 = 7#5 ∧ bits w 21 2 = x0 ∧ bits w 14 7 = x1 ∧ bits w 7 7 = x2 ∧ bits w 0 7 = x3 := by
    refine ⟨?_, ?_, ?_, ?_, ?_, ?_⟩ <;> simp (disch := decide) only [h, bits_low, bits_high, bits_all] <;> rfl
  obtain ⟨k, c, f0, f1, f2, f3⟩ := f
  refine decode_of_raw ?_ hw
  rw [raw_4 k]
  unfold decodeVint
  rw [c]
  show (some (Instr.vxor (bits w 21 2) (bits w 14 7) (bits w 7 7) (bits w 0 7))) = _
  rw [f0, f1, f2, f3]

theorem vandn (x0 : BitVec 2) (x1 : BitVec 7) (x2 : BitVec 7) (x3 : BitVec 7) : Statement (.vandn x0 x1 x2 x3) := by
  intro _ hw
  generalize hx : encode (.vandn x0 x1 x2 x3) = w
  have h (lo len : Nat) : bits w lo len = BitVec.extractLsb' lo len (0x88#9 ++ x0 ++ x1 ++ x2 ++ x3) := by rw [← hx]; rfl
  have f : bits w 28 4 = 4#4 ∧ bits w 23 5 = 8#5 ∧ bits w 21 2 = x0 ∧ bits w 14 7 = x1 ∧ bits w 7 7 = x2 ∧ bits w 0 7 = x3 := by
    refine ⟨?_, ?_, ?_, ?_, ?_, ?_⟩ <;> simp (disch := decide) only [h, bits_low, bits_high, bits_all] <;> rfl
  obtain ⟨k, c, f0, f1, f2, f3⟩ := f
  refine decode_of_raw ?_ hw
  rw [raw_4 k]
  unfold decodeVint
  rw [c]
  show (some (Instr.vandn (bits w 21 2) (bits w 14 7) (bits w 7 7) (bits w 0 7))) = _
  rw [f0, f1, f2, f3]

theorem vshl (x0 : BitVec 2) (x1 : BitVec 7) (x2 : BitVec 7) (x3 : BitVec 7) : Statement (.vshl x0 x1 x2 x3) := by
  intro _ hw
  generalize hx : encode (.vshl x0 x1 x2 x3) = w
  have h (lo len : Nat) : bits w lo len = BitVec.extractLsb' lo len (0x89#9 ++ x0 ++ x1 ++ x2 ++ x3) := by rw [← hx]; rfl
  have f : bits w 28 4 = 4#4 ∧ bits w 23 5 = 9#5 ∧ bits w 21 2 = x0 ∧ bits w 14 7 = x1 ∧ bits w 7 7 = x2 ∧ bits w 0 7 = x3 := by
    refine ⟨?_, ?_, ?_, ?_, ?_, ?_⟩ <;> simp (disch := decide) only [h, bits_low, bits_high, bits_all] <;> rfl
  obtain ⟨k, c, f0, f1, f2, f3⟩ := f
  refine decode_of_raw ?_ hw
  rw [raw_4 k]
  unfold decodeVint
  rw [c]
  show (some (Instr.vshl (bits w 21 2) (bits w 14 7) (bits w 7 7) (bits w 0 7))) = _
  rw [f0, f1, f2, f3]

theorem vshr (x0 : BitVec 2) (x1 : BitVec 7) (x2 : BitVec 7) (x3 : BitVec 7) : Statement (.vshr x0 x1 x2 x3) := by
  intro _ hw
  generalize hx : encode (.vshr x0 x1 x2 x3) = w
  have h (lo len : Nat) : bits w lo len = BitVec.extractLsb' lo len (0x8a#9 ++ x0 ++ x1 ++ x2 ++ x3) := by rw [← hx]; rfl
  have f : bits w 28 4 = 4#4 ∧ bits w 23 5 = 10#5 ∧ bits w 21 2 = x0 ∧ bits w 14 7 = x1 ∧ bits w 7 7 = x2 ∧ bits w 0 7 = x3 := by
    refine ⟨?_, ?_, ?_, ?_, ?_, ?_⟩ <;> simp (disch := decide) only [h, bits_low, bits_high, bits_all] <;> rfl
  obtain ⟨k, c, f0, f1, f2, f3⟩ := f
  refine decode_of_raw ?_ hw
  rw [raw_4 k]
  unfold decodeVint
  rw [c]
  show (some (Instr.vshr (bits w 21 2) (bits w 14 7) (bits w 7 7) (bits w 0 7))) = _
  rw [f0, f1, f2, f3]

theorem vsra (x0 : BitVec 2) (x1 : BitVec 7) (x2 : BitVec 7) (x3 : BitVec 7) : Statement (.vsra x0 x1 x2 x3) := by
  intro _ hw
  generalize hx : encode (.vsra x0 x1 x2 x3) = w
  have h (lo len : Nat) : bits w lo len = BitVec.extractLsb' lo len (0x8b#9 ++ x0 ++ x1 ++ x2 ++ x3) := by rw [← hx]; rfl
  have f : bits w 28 4 = 4#4 ∧ bits w 23 5 = 11#5 ∧ bits w 21 2 = x0 ∧ bits w 14 7 = x1 ∧ bits w 7 7 = x2 ∧ bits w 0 7 = x3 := by
    refine ⟨?_, ?_, ?_, ?_, ?_, ?_⟩ <;> simp (disch := decide) only [h, bits_low, bits_high, bits_all] <;> rfl
  obtain ⟨k, c, f0, f1, f2, f3⟩ := f
  refine decode_of_raw ?_ hw
  rw [raw_4 k]
  unfold decodeVint
  rw [c]
  show (some (Instr.vsra (bits w 21 2) (bits w 14 7) (bits w 7 7) (bits w 0 7))) = _
  rw [f0, f1, f2, f3]

theorem vmin (x0 : BitVec 2) (x1 : BitVec 7) (x2 : BitVec 7) (x3 : BitVec 7) : Statement (.vmin x0 x1 x2 x3) := by
  intro _ hw
  generalize hx : encode (.vmin x0 x1 x2 x3) = w
  have h (lo len : Nat) : bits w lo len = BitVec.extractLsb' lo len (0x8c#9 ++ x0 ++ x1 ++ x2 ++ x3) := by rw [← hx]; rfl
  have f : bits w 28 4 = 4#4 ∧ bits w 23 5 = 12#5 ∧ bits w 21 2 = x0 ∧ bits w 14 7 = x1 ∧ bits w 7 7 = x2 ∧ bits w 0 7 = x3 := by
    refine ⟨?_, ?_, ?_, ?_, ?_, ?_⟩ <;> simp (disch := decide) only [h, bits_low, bits_high, bits_all] <;> rfl
  obtain ⟨k, c, f0, f1, f2, f3⟩ := f
  refine decode_of_raw ?_ hw
  rw [raw_4 k]
  unfold decodeVint
  rw [c]
  show (some (Instr.vmin (bits w 21 2) (bits w 14 7) (bits w 7 7) (bits w 0 7))) = _
  rw [f0, f1, f2, f3]

theorem vmax (x0 : BitVec 2) (x1 : BitVec 7) (x2 : BitVec 7) (x3 : BitVec 7) : Statement (.vmax x0 x1 x2 x3) := by
  intro _ hw
  generalize hx : encode (.vmax x0 x1 x2 x3) = w
  have h (lo len : Nat) : bits w lo len = BitVec.extractLsb' lo len (0x8d#9 ++ x0 ++ x1 ++ x2 ++ x3) := by rw [← hx]; rfl
  have f : bits w 28 4 = 4#4 ∧ bits w 23 5 = 13#5 ∧ bits w 21 2 = x0 ∧ bits w 14 7 = x1 ∧ bits w 7 7 = x2 ∧ bits w 0 7 = x3 := by
    refine ⟨?_, ?_, ?_, ?_, ?_, ?_⟩ <;> simp (disch := decide) only [h, bits_low, bits_high, bits_all] <;> rfl
  obtain ⟨k, c, f0, f1, f2, f3⟩ := f
  refine decode_of_raw ?_ hw
  rw [raw_4 k]
  unfold decodeVint
  rw [c]
  show (some (Instr.vmax (bits w 21 2) (bits w 14 7) (bits w 7 7) (bits w 0 7))) = _
  rw [f0, f1, f2, f3]

theorem vabs (x0 : BitVec 2) (x1 : BitVec 7) (x2 : BitVec 7) : Statement (.vabs x0 x1 x2) := by
  intro _ hw
  generalize hx : encode (.vabs x0 x1 x2) = w
  have h (lo len : Nat) : bits w lo len = BitVec.extractLsb' lo len (0x8e#9 ++ x0 ++ x1 ++ x2 ++ 0x0#7) := by rw [← hx]; rfl
  have f : bits w 28 4 = 4#4 ∧ bits w 23 5 = 14#5 ∧ bits w 0 7 = 0 ∧ bits w 21 2 = x0 ∧ bits w 14 7 = x1 ∧ bits w 7 7 = x2 := by
    refine ⟨?_, ?_, ?_, ?_, ?_, ?_⟩ <;> simp (disch := decide) only [h, bits_low, bits_high, bits_all] <;> rfl
  obtain ⟨k, c, f0, f1, f2, f3⟩ := f
  refine decode_of_raw ?_ hw
  rw [raw_4 k]
  unfold decodeVint
  rw [c]
  show (if bits w 0 7 = 0 then some (Instr.vabs (bits w 21 2) (bits w 14 7) (bits w 7 7)) else none) = _
  rw [f0, f1, f2, f3]
  rfl

theorem vclz (x0 : BitVec 2) (x1 : BitVec 7) (x2 : BitVec 7) : Statement (.vclz x0 x1 x2) := by
  intro _ hw
  generalize hx : encode (.vclz x0 x1 x2) = w
  have h (lo len : Nat) : bits w lo len = BitVec.extractLsb' lo len (0x8f#9 ++ x0 ++ x1 ++ x2 ++ 0x0#7) := by rw [← hx]; rfl
  have f : bits w 28 4 = 4#4 ∧ bits w 23 5 = 15#5 ∧ bits w 0 7 = 0 ∧ bits w 21 2 = x0 ∧ bits w 14 7 = x1 ∧ bits w 7 7 = x2 := by
    refine ⟨?_, ?_, ?_, ?_, ?_, ?_⟩ <;> simp (disch := decide) only [h, bits_low, bits_high, bits_all] <;> rfl
  obtain ⟨k, c, f0, f1, f2, f3⟩ := f
  refine decode_of_raw ?_ hw
  rw [raw_4 k]
  unfold decodeVint
  rw [c]
  show (if bits w 0 7 = 0 then some (Instr.vclz (bits w 21 2) (bits w 14 7) (bits w 7 7)) else none) = _
  rw [f0, f1, f2, f3]
  rfl

theorem vpopc (x0 : BitVec 2) (x1 : BitVec 7) (x2 : BitVec 7) : Statement (.vpopc x0 x1 x2) := by
  intro _ hw
  generalize hx : encode (.vpopc x0 x1 x2) = w
  have h (lo len : Nat) : bits w lo len = BitVec.extractLsb' lo len (0x90#9 ++ x0 ++ x1 ++ x2 ++ 0x0#7) := by rw [← hx]; rfl
  have f : bits w 28 4 = 4#4 ∧ bits w 23 5 = 16#5 ∧ bits w 0 7 = 0 ∧ bits w 21 2 = x0 ∧ bits w 14 7 = x1 ∧ bits w 7 7 = x2 := by
    refine ⟨?_, ?_, ?_, ?_, ?_, ?_⟩ <;> simp (disch := decide) only [h, bits_low, bits_high, bits_all] <;> rfl
  obtain ⟨k, c, f0, f1, f2, f3⟩ := f
  refine decode_of_raw ?_ hw
  rw [raw_4 k]
  unfold decodeVint
  rw [c]
  show (if bits w 0 7 = 0 then some (Instr.vpopc (bits w 21 2) (bits w 14 7) (bits w 7 7)) else none) = _
  rw [f0, f1, f2, f3]
  rfl

theorem vsel (x0 : BitVec 2) (x1 : BitVec 7) (x2 : BitVec 7) (x3 : BitVec 7) : Statement (.vsel x0 x1 x2 x3) := by
  intro _ hw
  generalize hx : encode (.vsel x0 x1 x2 x3) = w
  have h (lo len : Nat) : bits w lo len = BitVec.extractLsb' lo len (0x91#9 ++ x0 ++ x1 ++ x2 ++ x3) := by rw [← hx]; rfl
  have f : bits w 28 4 = 4#4 ∧ bits w 23 5 = 17#5 ∧ bits w 21 2 = x0 ∧ bits w 14 7 = x1 ∧ bits w 7 7 = x2 ∧ bits w 0 7 = x3 := by
    refine ⟨?_, ?_, ?_, ?_, ?_, ?_⟩ <;> simp (disch := decide) only [h, bits_low, bits_high, bits_all] <;> rfl
  obtain ⟨k, c, f0, f1, f2, f3⟩ := f
  refine decode_of_raw ?_ hw
  rw [raw_4 k]
  unfold decodeVint
  rw [c]
  show (some (Instr.vsel (bits w 21 2) (bits w 14 7) (bits w 7 7) (bits w 0 7))) = _
  rw [f0, f1, f2, f3]

theorem vcmpeq (x0 : BitVec 2) (x1 : BitVec 7) (x2 : BitVec 7) (x3 : BitVec 7) : Statement (.vcmpeq x0 x1 x2 x3) := by
  intro _ hw
  generalize hx : encode (.vcmpeq x0 x1 x2 x3) = w
  have h (lo len : Nat) : bits w lo len = BitVec.extractLsb' lo len (0x92#9 ++ x0 ++ x1 ++ x2 ++ x3) := by rw [← hx]; rfl
  have f : bits w 28 4 = 4#4 ∧ bits w 23 5 = 18#5 ∧ bits w 21 2 = x0 ∧ bits w 14 7 = x1 ∧ bits w 7 7 = x2 ∧ bits w 0 7 = x3 := by
    refine ⟨?_, ?_, ?_, ?_, ?_, ?_⟩ <;> simp (disch := decide) only [h, bits_low, bits_high, bits_all] <;> rfl
  obtain ⟨k, c, f0, f1, f2, f3⟩ := f
  refine decode_of_raw ?_ hw
  rw [raw_4 k]
  unfold decodeVint
  rw [c]
  show (some (Instr.vcmpeq (bits w 21 2) (bits w 14 7) (bits w 7 7) (bits w 0 7))) = _
  rw [f0, f1, f2, f3]

theorem vcmpne (x0 : BitVec 2) (x1 : BitVec 7) (x2 : BitVec 7) (x3 : BitVec 7) : Statement (.vcmpne x0 x1 x2 x3) := by
  intro _ hw
  generalize hx : encode (.vcmpne x0 x1 x2 x3) = w
  have h (lo len : Nat) : bits w lo len = BitVec.extractLsb' lo len (0x93#9 ++ x0 ++ x1 ++ x2 ++ x3) := by rw [← hx]; rfl
  have f : bits w 28 4 = 4#4 ∧ bits w 23 5 = 19#5 ∧ bits w 21 2 = x0 ∧ bits w 14 7 = x1 ∧ bits w 7 7 = x2 ∧ bits w 0 7 = x3 := by
    refine ⟨?_, ?_, ?_, ?_, ?_, ?_⟩ <;> simp (disch := decide) only [h, bits_low, bits_high, bits_all] <;> rfl
  obtain ⟨k, c, f0, f1, f2, f3⟩ := f
  refine decode_of_raw ?_ hw
  rw [raw_4 k]
  unfold decodeVint
  rw [c]
  show (some (Instr.vcmpne (bits w 21 2) (bits w 14 7) (bits w 7 7) (bits w 0 7))) = _
  rw [f0, f1, f2, f3]

theorem vcmplt (x0 : BitVec 2) (x1 : BitVec 7) (x2 : BitVec 7) (x3 : BitVec 7) : Statement (.vcmplt x0 x1 x2 x3) := by
  intro _ hw
  generalize hx : encode (.vcmplt x0 x1 x2 x3) = w
  have h (lo len : Nat) : bits w lo len = BitVec.extractLsb' lo len (0x94#9 ++ x0 ++ x1 ++ x2 ++ x3) := by rw [← hx]; rfl
  have f : bits w 28 4 = 4#4 ∧ bits w 23 5 = 20#5 ∧ bits w 21 2 = x0 ∧ bits w 14 7 = x1 ∧ bits w 7 7 = x2 ∧ bits w 0 7 = x3 := by
    refine ⟨?_, ?_, ?_, ?_, ?_, ?_⟩ <;> simp (disch := decide) only [h, bits_low, bits_high, bits_all] <;> rfl
  obtain ⟨k, c, f0, f1, f2, f3⟩ := f
  refine decode_of_raw ?_ hw
  rw [raw_4 k]
  unfold decodeVint
  rw [c]
  show (some (Instr.vcmplt (bits w 21 2) (bits w 14 7) (bits w 7 7) (bits w 0 7))) = _
  rw [f0, f1, f2, f3]

theorem vcmple (x0 : BitVec 2) (x1 : BitVec 7) (x2 : BitVec 7) (x3 : BitVec 7) : Statement (.vcmple x0 x1 x2 x3) := by
  intro _ hw
  generalize hx : encode (.vcmple x0 x1 x2 x3) = w
  have h (lo len : Nat) : bits w lo len = BitVec.extractLsb' lo len (0x95#9 ++ x0 ++ x1 ++ x2 ++ x3) := by rw [← hx]; rfl
  have f : bits w 28 4 = 4#4 ∧ bits w 23 5 = 21#5 ∧ bits w 21 2 = x0 ∧ bits w 14 7 = x1 ∧ bits w 7 7 = x2 ∧ bits w 0 7 = x3 := by
    refine ⟨?_, ?_, ?_, ?_, ?_, ?_⟩ <;> simp (disch := decide) only [h, bits_low, bits_high, bits_all] <;> rfl
  obtain ⟨k, c, f0, f1, f2, f3⟩ := f
  refine decode_of_raw ?_ hw
  rw [raw_4 k]
  unfold decodeVint
  rw [c]
  show (some (Instr.vcmple (bits w 21 2) (bits w 14 7) (bits w 7 7) (bits w 0 7))) = _
  rw [f0, f1, f2, f3]

theorem vadds (x0 : BitVec 2) (x1 : BitVec 7) (x2 : BitVec 7) (x3 : BitVec 7) : Statement (.vadds x0 x1 x2 x3) := by
  intro _ hw
  generalize hx : encode (.vadds x0 x1 x2 x3) = w
  have h (lo len : Nat) : bits w lo len = BitVec.extractLsb' lo len (0x96#9 ++ x0 ++ x1 ++ x2 ++ x3) := by rw [← hx]; rfl
  have f : bits w 28 4 = 4#4 ∧ bits w 23 5 = 22#5 ∧ bits w 21 2 = x0 ∧ bits w 14 7 = x1 ∧ bits w 7 7 = x2 ∧ bits w 0 7 = x3 := by
    refine ⟨?_, ?_, ?_, ?_, ?_, ?_⟩ <;> simp (disch := decide) only [h, bits_low, bits_high, bits_all] <;> rfl
  obtain ⟨k, c, f0, f1, f2, f3⟩ := f
  refine decode_of_raw ?_ hw
  rw [raw_4 k]
  unfold decodeVint
  rw [c]
  show (some (Instr.vadds (bits w 21 2) (bits w 14 7) (bits w 7 7) (bits w 0 7))) = _
  rw [f0, f1, f2, f3]

theorem vsubs (x0 : BitVec 2) (x1 : BitVec 7) (x2 : BitVec 7) (x3 : BitVec 7) : Statement (.vsubs x0 x1 x2 x3) := by
  intro _ hw
  generalize hx : encode (.vsubs x0 x1 x2 x3) = w
  have h (lo len : Nat) : bits w lo len = BitVec.extractLsb' lo len (0x97#9 ++ x0 ++ x1 ++ x2 ++ x3) := by rw [← hx]; rfl
  have f : bits w 28 4 = 4#4 ∧ bits w 23 5 = 23#5 ∧ bits w 21 2 = x0 ∧ bits w 14 7 = x1 ∧ bits w 7 7 = x2 ∧ bits w 0 7 = x3 := by
    refine ⟨?_, ?_, ?_, ?_, ?_, ?_⟩ <;> simp (disch := decide) only [h, bits_low, bits_high, bits_all] <;> rfl
  obtain ⟨k, c, f0, f1, f2, f3⟩ := f
  refine decode_of_raw ?_ hw
  rw [raw_4 k]
  unfold decodeVint
  rw [c]
  show (some (Instr.vsubs (bits w 21 2) (bits w 14 7) (bits w 7 7) (bits w 0 7))) = _
  rw [f0, f1, f2, f3]

theorem vdot4 (x0 : BitVec 2) (x1 : BitVec 7) (x2 : BitVec 7) (x3 : BitVec 7) : Statement (.vdot4 x0 x1 x2 x3) := by
  intro _ hw
  generalize hx : encode (.vdot4 x0 x1 x2 x3) = w
  have h (lo len : Nat) : bits w lo len = BitVec.extractLsb' lo len (0x98#9 ++ x0 ++ x1 ++ x2 ++ x3) := by rw [← hx]; rfl
  have f : bits w 28 4 = 4#4 ∧ bits w 23 5 = 24#5 ∧ bits w 21 2 = x0 ∧ bits w 14 7 = x1 ∧ bits w 7 7 = x2 ∧ bits w 0 7 = x3 := by
    refine ⟨?_, ?_, ?_, ?_, ?_, ?_⟩ <;> simp (disch := decide) only [h, bits_low, bits_high, bits_all] <;> rfl
  obtain ⟨k, c, f0, f1, f2, f3⟩ := f
  refine decode_of_raw ?_ hw
  rw [raw_4 k]
  unfold decodeVint
  rw [c]
  show (some (Instr.vdot4 (bits w 21 2) (bits w 14 7) (bits w 7 7) (bits w 0 7))) = _
  rw [f0, f1, f2, f3]

theorem vdot8 (x0 : BitVec 2) (x1 : BitVec 7) (x2 : BitVec 7) (x3 : BitVec 7) : Statement (.vdot8 x0 x1 x2 x3) := by
  intro _ hw
  generalize hx : encode (.vdot8 x0 x1 x2 x3) = w
  have h (lo len : Nat) : bits w lo len = BitVec.extractLsb' lo len (0x99#9 ++ x0 ++ x1 ++ x2 ++ x3) := by rw [← hx]; rfl
  have f : bits w 28 4 = 4#4 ∧ bits w 23 5 = 25#5 ∧ bits w 21 2 = x0 ∧ bits w 14 7 = x1 ∧ bits w 7 7 = x2 ∧ bits w 0 7 = x3 := by
    refine ⟨?_, ?_, ?_, ?_, ?_, ?_⟩ <;> simp (disch := decide) only [h, bits_low, bits_high, bits_all] <;> rfl
  obtain ⟨k, c, f0, f1, f2, f3⟩ := f
  refine decode_of_raw ?_ hw
  rw [raw_4 k]
  unfold decodeVint
  rw [c]
  show (some (Instr.vdot8 (bits w 21 2) (bits w 14 7) (bits w 7 7) (bits w 0 7))) = _
  rw [f0, f1, f2, f3]

theorem vbfe (x0 : BitVec 2) (x1 : BitVec 7) (x2 : BitVec 7) (x3 : BitVec 7) : Statement (.vbfe x0 x1 x2 x3) := by
  intro _ hw
  generalize hx : encode (.vbfe x0 x1 x2 x3) = w
  have h (lo len : Nat) : bits w lo len = BitVec.extractLsb' lo len (0x9a#9 ++ x0 ++ x1 ++ x2 ++ x3) := by rw [← hx]; rfl
  have f : bits w 28 4 = 4#4 ∧ bits w 23 5 = 26#5 ∧ bits w 21 2 = x0 ∧ bits w 14 7 = x1 ∧ bits w 7 7 = x2 ∧ bits w 0 7 = x3 := by
    refine ⟨?_, ?_, ?_, ?_, ?_, ?_⟩ <;> simp (disch := decide) only [h, bits_low, bits_high, bits_all] <;> rfl
  obtain ⟨k, c, f0, f1, f2, f3⟩ := f
  refine decode_of_raw ?_ hw
  rw [raw_4 k]
  unfold decodeVint
  rw [c]
  show (some (Instr.vbfe (bits w 21 2) (bits w 14 7) (bits w 7 7) (bits w 0 7))) = _
  rw [f0, f1, f2, f3]

theorem vbfi (x0 : BitVec 2) (x1 : BitVec 7) (x2 : BitVec 7) (x3 : BitVec 7) : Statement (.vbfi x0 x1 x2 x3) := by
  intro _ hw
  generalize hx : encode (.vbfi x0 x1 x2 x3) = w
  have h (lo len : Nat) : bits w lo len = BitVec.extractLsb' lo len (0x9b#9 ++ x0 ++ x1 ++ x2 ++ x3) := by rw [← hx]; rfl
  have f : bits w 28 4 = 4#4 ∧ bits w 23 5 = 27#5 ∧ bits w 21 2 = x0 ∧ bits w 14 7 = x1 ∧ bits w 7 7 = x2 ∧ bits w 0 7 = x3 := by
    refine ⟨?_, ?_, ?_, ?_, ?_, ?_⟩ <;> simp (disch := decide) only [h, bits_low, bits_high, bits_all] <;> rfl
  obtain ⟨k, c, f0, f1, f2, f3⟩ := f
  refine decode_of_raw ?_ hw
  rw [raw_4 k]
  unfold decodeVint
  rw [c]
  show (some (Instr.vbfi (bits w 21 2) (bits w 14 7) (bits w 7 7) (bits w 0 7))) = _
  rw [f0, f1, f2, f3]

theorem vfadd (x0 : BitVec 2) (x1 : BitVec 7) (x2 : BitVec 7) (x3 : BitVec 7) : Statement (.vfadd x0 x1 x2 x3) := by
  intro _ hw
  generalize hx : encode (.vfadd x0 x1 x2 x3) = w
  have h (lo len : Nat) : bits w lo len = BitVec.extractLsb' lo len (0xa0#9 ++ x0 ++ x1 ++ x2 ++ x3) := by rw [← hx]; rfl
  have f : bits w 28 4 = 5#4 ∧ bits w 23 5 = 0#5 ∧ bits w 21 2 = x0 ∧ bits w 14 7 = x1 ∧ bits w 7 7 = x2 ∧ bits w 0 7 = x3 := by
    refine ⟨?_, ?_, ?_, ?_, ?_, ?_⟩ <;> simp (disch := decide) only [h, bits_low, bits_high, bits_all] <;> rfl
  obtain ⟨k, c, f0, f1, f2, f3⟩ := f
  refine decode_of_raw ?_ hw
  rw [raw_5 k]
  unfold decodeVflt
  rw [c]
  show (some (Instr.vfadd (bits w 21 2) (bits w 14 7) (bits w 7 7) (bits w 0 7))) = _
  rw [f0, f1, f2, f3]

theorem vfsub (x0 : BitVec 2) (x1 : BitVec 7) (x2 : BitVec 7) (x3 : BitVec 7) : Statement (.vfsub x0 x1 x2 x3) := by
  intro _ hw
  generalize hx : encode (.vfsub x0 x1 x2 x3) = w
  have h (lo len : Nat) : bits w lo len = BitVec.extractLsb' lo len (0xa1#9 ++ x0 ++ x1 ++ x2 ++ x3) := by rw [← hx]; rfl
  have f : bits w 28 4 = 5#4 ∧ bits w 23 5 = 1#5 ∧ bits w 21 2 = x0 ∧ bits w 14 7 = x1 ∧ bits w 7 7 = x2 ∧ bits w 0 7 = x3 := by
    refine ⟨?_, ?_, ?_, ?_, ?_, ?_⟩ <;> simp (disch := decide) only [h, bits_low, bits_high, bits_all] <;> rfl
  obtain ⟨k, c, f0, f1, f2, f3⟩ := f
  refine decode_of_raw ?_ hw
  rw [raw_5 k]
  unfold decodeVflt
  rw [c]
  show (some (Instr.vfsub (bits w 21 2) (bits w 14 7) (bits w 7 7) (bits w 0 7))) = _
  rw [f0, f1, f2, f3]

theorem vfmul (x0 : BitVec 2) (x1 : BitVec 7) (x2 : BitVec 7) (x3 : BitVec 7) : Statement (.vfmul x0 x1 x2 x3) := by
  intro _ hw
  generalize hx : encode (.vfmul x0 x1 x2 x3) = w
  have h (lo len : Nat) : bits w lo len = BitVec.extractLsb' lo len (0xa2#9 ++ x0 ++ x1 ++ x2 ++ x3) := by rw [← hx]; rfl
  have f : bits w 28 4 = 5#4 ∧ bits w 23 5 = 2#5 ∧ bits w 21 2 = x0 ∧ bits w 14 7 = x1 ∧ bits w 7 7 = x2 ∧ bits w 0 7 = x3 := by
    refine ⟨?_, ?_, ?_, ?_, ?_, ?_⟩ <;> simp (disch := decide) only [h, bits_low, bits_high, bits_all] <;> rfl
  obtain ⟨k, c, f0, f1, f2, f3⟩ := f
  refine decode_of_raw ?_ hw
  rw [raw_5 k]
  unfold decodeVflt
  rw [c]
  show (some (Instr.vfmul (bits w 21 2) (bits w 14 7) (bits w 7 7) (bits w 0 7))) = _
  rw [f0, f1, f2, f3]

theorem vfma (x0 : BitVec 2) (x1 : BitVec 7) (x2 : BitVec 7) (x3 : BitVec 7) : Statement (.vfma x0 x1 x2 x3) := by
  intro _ hw
  generalize hx : encode (.vfma x0 x1 x2 x3) = w
  have h (lo len : Nat) : bits w lo len = BitVec.extractLsb' lo len (0xa3#9 ++ x0 ++ x1 ++ x2 ++ x3) := by rw [← hx]; rfl
  have f : bits w 28 4 = 5#4 ∧ bits w 23 5 = 3#5 ∧ bits w 21 2 = x0 ∧ bits w 14 7 = x1 ∧ bits w 7 7 = x2 ∧ bits w 0 7 = x3 := by
    refine ⟨?_, ?_, ?_, ?_, ?_, ?_⟩ <;> simp (disch := decide) only [h, bits_low, bits_high, bits_all] <;> rfl
  obtain ⟨k, c, f0, f1, f2, f3⟩ := f
  refine decode_of_raw ?_ hw
  rw [raw_5 k]
  unfold decodeVflt
  rw [c]
  show (some (Instr.vfma (bits w 21 2) (bits w 14 7) (bits w 7 7) (bits w 0 7))) = _
  rw [f0, f1, f2, f3]

theorem vfmin (x0 : BitVec 2) (x1 : BitVec 7) (x2 : BitVec 7) (x3 : BitVec 7) : Statement (.vfmin x0 x1 x2 x3) := by
  intro _ hw
  generalize hx : encode (.vfmin x0 x1 x2 x3) = w
  have h (lo len : Nat) : bits w lo len = BitVec.extractLsb' lo len (0xa4#9 ++ x0 ++ x1 ++ x2 ++ x3) := by rw [← hx]; rfl
  have f : bits w 28 4 = 5#4 ∧ bits w 23 5 = 4#5 ∧ bits w 21 2 = x0 ∧ bits w 14 7 = x1 ∧ bits w 7 7 = x2 ∧ bits w 0 7 = x3 := by
    refine ⟨?_, ?_, ?_, ?_, ?_, ?_⟩ <;> simp (disch := decide) only [h, bits_low, bits_high, bits_all] <;> rfl
  obtain ⟨k, c, f0, f1, f2, f3⟩ := f
  refine decode_of_raw ?_ hw
  rw [raw_5 k]
  unfold decodeVflt
  rw [c]
  show (some (Instr.vfmin (bits w 21 2) (bits w 14 7) (bits w 7 7) (bits w 0 7))) = _
  rw [f0, f1, f2, f3]

theorem vfmax (x0 : BitVec 2) (x1 : BitVec 7) (x2 : BitVec 7) (x3 : BitVec 7) : Statement (.vfmax x0 x1 x2 x3) := by
  intro _ hw
  generalize hx : encode (.vfmax x0 x1 x2 x3) = w
  have h (lo len : Nat) : bits w lo len = BitVec.extractLsb' lo len (0xa5#9 ++ x0 ++ x1 ++ x2 ++ x3) := by rw [← hx]; rfl
  have f : bits w 28 4 = 5#4 ∧ bits w 23 5 = 5#5 ∧ bits w 21 2 = x0 ∧ bits w 14 7 = x1 ∧ bits w 7 7 = x2 ∧ bits w 0 7 = x3 := by
    refine ⟨?_, ?_, ?_, ?_, ?_, ?_⟩ <;> simp (disch := decide) only [h, bits_low, bits_high, bits_all] <;> rfl
  obtain ⟨k, c, f0, f1, f2, f3⟩ := f
  refine decode_of_raw ?_ hw
  rw [raw_5 k]
  unfold decodeVflt
  rw [c]
  show (some (Instr.vfmax (bits w 21 2) (bits w 14 7) (bits w 7 7) (bits w 0 7))) = _
  rw [f0, f1, f2, f3]

theorem vfneg (x0 : BitVec 2) (x1 : BitVec 7) (x2 : BitVec 7) : Statement (.vfneg x0 x1 x2) := by
  intro _ hw
  generalize hx : encode (.vfneg x0 x1 x2) = w
  have h (lo len : Nat) : bits w lo len = BitVec.extractLsb' lo len (0xa6#9 ++ x0 ++ x1 ++ x2 ++ 0x0#7) := by rw [← hx]; rfl
  have f : bits w 28 4 = 5#4 ∧ bits w 23 5 = 6#5 ∧ bits w 0 7 = 0 ∧ bits w 21 2 = x0 ∧ bits w 14 7 = x1 ∧ bits w 7 7 = x2 := by
    refine ⟨?_, ?_, ?_, ?_, ?_, ?_⟩ <;> simp (disch := decide) only [h, bits_low, bits_high, bits_all] <;> rfl
  obtain ⟨k, c, f0, f1, f2, f3⟩ := f
  refine decode_of_raw ?_ hw
  rw [raw_5 k]
  unfold decodeVflt
  rw [c]
  show (if bits w 0 7 = 0 then some (Instr.vfneg (bits w 21 2) (bits w 14 7) (bits w 7 7)) else none) = _
  rw [f0, f1, f2, f3]
  rfl

theorem vfabs (x0 : BitVec 2) (x1 : BitVec 7) (x2 : BitVec 7) : Statement (.vfabs x0 x1 x2) := by
  intro _ hw
  generalize hx : encode (.vfabs x0 x1 x2) = w
  have h (lo len : Nat) : bits w lo len = BitVec.extractLsb' lo len (0xa7#9 ++ x0 ++ x1 ++ x2 ++ 0x0#7) := by rw [← hx]; rfl
  have f : bits w 28 4 = 5#4 ∧ bits w 23 5 = 7#5 ∧ bits w 0 7 = 0 ∧ bits w 21 2 = x0 ∧ bits w 14 7 = x1 ∧ bits w 7 7 = x2 := by
    refine ⟨?_, ?_, ?_, ?_, ?_, ?_⟩ <;> simp (disch := decide) only [h, bits_low, bits_high, bits_all] <;> rfl
  obtain ⟨k, c, f0, f1, f2, f3⟩ := f
  refine decode_of_raw ?_ hw
  rw [raw_5 k]
  unfold decodeVflt
  rw [c]
  show (if bits w 0 7 = 0 then some (Instr.vfabs (bits w 21 2) (bits w 14 7) (bits w 7 7)) else none) = _
  rw [f0, f1, f2, f3]
  rfl

theorem vfcmpeq (x0 : BitVec 2) (x1 : BitVec 7) (x2 : BitVec 7) (x3 : BitVec 7) : Statement (.vfcmpeq x0 x1 x2 x3) := by
  intro _ hw
  generalize hx : encode (.vfcmpeq x0 x1 x2 x3) = w
  have h (lo len : Nat) : bits w lo len = BitVec.extractLsb' lo len (0xa8#9 ++ x0 ++ x1 ++ x2 ++ x3) := by rw [← hx]; rfl
  have f : bits w 28 4 = 5#4 ∧ bits w 23 5 = 8#5 ∧ bits w 21 2 = x0 ∧ bits w 14 7 = x1 ∧ bits w 7 7 = x2 ∧ bits w 0 7 = x3 := by
    refine ⟨?_, ?_, ?_, ?_, ?_, ?_⟩ <;> simp (disch := decide) only [h, bits_low, bits_high, bits_all] <;> rfl
  obtain ⟨k, c, f0, f1, f2, f3⟩ := f
  refine decode_of_raw ?_ hw
  rw [raw_5 k]
  unfold decodeVflt
  rw [c]
  show (some (Instr.vfcmpeq (bits w 21 2) (bits w 14 7) (bits w 7 7) (bits w 0 7))) = _
  rw [f0, f1, f2, f3]

theorem vfcmplt (x0 : BitVec 2) (x1 : BitVec 7) (x2 : BitVec 7) (x3 : BitVec 7) : Statement (.vfcmplt x0 x1 x2 x3) := by
  intro _ hw
  generalize hx : encode (.vfcmplt x0 x1 x2 x3) = w
  have h (lo len : Nat) : bits w lo len = BitVec.extractLsb' lo len (0xa9#9 ++ x0 ++ x1 ++ x2 ++ x3) := by rw [← hx]; rfl
  have f : bits w 28 4 = 5#4 ∧ bits w 23 5 = 9#5 ∧ bits w 21 2 = x0 ∧ bits w 14 7 = x1 ∧ bits w 7 7 = x2 ∧ bits w 0 7 = x3 := by
    refine ⟨?_, ?_, ?_, ?_, ?_, ?_⟩ <;> simp (disch := decide) only [h, bits_low, bits_high, bits_all] <;> rfl
  obtain ⟨k, c, f0, f1, f2, f3⟩ := f
  refine decode_of_raw ?_ hw
  rw [raw_5 k]
  unfold decodeVflt
  rw [c]
  show (some (Instr.vfcmplt (bits w 21 2) (bits w 14 7) (bits w 7 7) (bits w 0 7))) = _
  rw [f0, f1, f2, f3]

theorem vfcmple (x0 : BitVec 2) (x1 : BitVec 7) (x2 : BitVec 7) (x3 : BitVec 7) : Statement (.vfcmple x0 x1 x2 x3) := by
  intro _ hw
  generalize hx : encode (.vfcmple x0 x1 x2 x3) = w
  have h (lo len : Nat) : bits w lo len = BitVec.extractLsb' lo len (0xaa#9 ++ x0 ++ x1 ++ x2 ++ x3) := by rw [← hx]; rfl
  have f : bits w 28 4 = 5#4 ∧ bits w 23 5 = 10#5 ∧ bits w 21 2 = x0 ∧ bits w 14 7 = x1 ∧ bits w 7 7 = x2 ∧ bits w 0 7 = x3 := by
    refine ⟨?_, ?_, ?_, ?_, ?_, ?_⟩ <;> simp (disch := decide) only [h, bits_low, bits_high, bits_all] <;> rfl
  obtain ⟨k, c, f0, f1, f2, f3⟩ := f
  refine decode_of_raw ?_ hw
  rw [raw_5 k]
  unfold decodeVflt
  rw [c]
  show (some (Instr.vfcmple (bits w 21 2) (bits w 14 7) (bits w 7 7) (bits w 0 7))) = _
  rw [f0, f1, f2, f3]

theorem vfcmpun (x0 : BitVec 2) (x1 : BitVec 7) (x2 : BitVec 7) (x3 : BitVec 7) : Statement (.vfcmpun x0 x1 x2 x3) := by
  intro _ hw
  generalize hx : encode (.vfcmpun x0 x1 x2 x3) = w
  have h (lo len : Nat) : bits w lo len = BitVec.extractLsb' lo len (0xab#9 ++ x0 ++ x1 ++ x2 ++ x3) := by rw [← hx]; rfl
  have f : bits w 28 4 = 5#4 ∧ bits w 23 5 = 11#5 ∧ bits w 21 2 = x0 ∧ bits w 14 7 = x1 ∧ bits w 7 7 = x2 ∧ bits w 0 7 = x3 := by
    refine ⟨?_, ?_, ?_, ?_, ?_, ?_⟩ <;> simp (disch := decide) only [h, bits_low, bits_high, bits_all] <;> rfl
  obtain ⟨k, c, f0, f1, f2, f3⟩ := f
  refine decode_of_raw ?_ hw
  rw [raw_5 k]
  unfold decodeVflt
  rw [c]
  show (some (Instr.vfcmpun (bits w 21 2) (bits w 14 7) (bits w 7 7) (bits w 0 7))) = _
  rw [f0, f1, f2, f3]

theorem vfrcp (x0 : BitVec 2) (x1 : BitVec 7) (x2 : BitVec 7) : Statement (.vfrcp x0 x1 x2) := by
  intro _ hw
  generalize hx : encode (.vfrcp x0 x1 x2) = w
  have h (lo len : Nat) : bits w lo len = BitVec.extractLsb' lo len (0xac#9 ++ x0 ++ x1 ++ x2 ++ 0x0#7) := by rw [← hx]; rfl
  have f : bits w 28 4 = 5#4 ∧ bits w 23 5 = 12#5 ∧ bits w 0 7 = 0 ∧ bits w 21 2 = x0 ∧ bits w 14 7 = x1 ∧ bits w 7 7 = x2 := by
    refine ⟨?_, ?_, ?_, ?_, ?_, ?_⟩ <;> simp (disch := decide) only [h, bits_low, bits_high, bits_all] <;> rfl
  obtain ⟨k, c, f0, f1, f2, f3⟩ := f
  refine decode_of_raw ?_ hw
  rw [raw_5 k]
  unfold decodeVflt
  rw [c]
  show (if bits w 0 7 = 0 then some (Instr.vfrcp (bits w 21 2) (bits w 14 7) (bits w 7 7)) else none) = _
  rw [f0, f1, f2, f3]
  rfl

theorem vfrsq (x0 : BitVec 2) (x1 : BitVec 7) (x2 : BitVec 7) : Statement (.vfrsq x0 x1 x2) := by
  intro _ hw
  generalize hx : encode (.vfrsq x0 x1 x2) = w
  have h (lo len : Nat) : bits w lo len = BitVec.extractLsb' lo len (0xad#9 ++ x0 ++ x1 ++ x2 ++ 0x0#7) := by rw [← hx]; rfl
  have f : bits w 28 4 = 5#4 ∧ bits w 23 5 = 13#5 ∧ bits w 0 7 = 0 ∧ bits w 21 2 = x0 ∧ bits w 14 7 = x1 ∧ bits w 7 7 = x2 := by
    refine ⟨?_, ?_, ?_, ?_, ?_, ?_⟩ <;> simp (disch := decide) only [h, bits_low, bits_high, bits_all] <;> rfl
  obtain ⟨k, c, f0, f1, f2, f3⟩ := f
  refine decode_of_raw ?_ hw
  rw [raw_5 k]
  unfold decodeVflt
  rw [c]
  show (if bits w 0 7 = 0 then some (Instr.vfrsq (bits w 21 2) (bits w 14 7) (bits w 7 7)) else none) = _
  rw [f0, f1, f2, f3]
  rfl

theorem vfexp2 (x0 : BitVec 2) (x1 : BitVec 7) (x2 : BitVec 7) : Statement (.vfexp2 x0 x1 x2) := by
  intro _ hw
  generalize hx : encode (.vfexp2 x0 x1 x2) = w
  have h (lo len : Nat) : bits w lo len = BitVec.extractLsb' lo len (0xae#9 ++ x0 ++ x1 ++ x2 ++ 0x0#7) := by rw [← hx]; rfl
  have f : bits w 28 4 = 5#4 ∧ bits w 23 5 = 14#5 ∧ bits w 0 7 = 0 ∧ bits w 21 2 = x0 ∧ bits w 14 7 = x1 ∧ bits w 7 7 = x2 := by
    refine ⟨?_, ?_, ?_, ?_, ?_, ?_⟩ <;> simp (disch := decide) only [h, bits_low, bits_high, bits_all] <;> rfl
  obtain ⟨k, c, f0, f1, f2, f3⟩ := f
  refine decode_of_raw ?_ hw
  rw [raw_5 k]
  unfold decodeVflt
  rw [c]
  show (if bits w 0 7 = 0 then some (Instr.vfexp2 (bits w 21 2) (bits w 14 7) (bits w 7 7)) else none) = _
  rw [f0, f1, f2, f3]
  rfl

theorem vflog2 (x0 : BitVec 2) (x1 : BitVec 7) (x2 : BitVec 7) : Statement (.vflog2 x0 x1 x2) := by
  intro _ hw
  generalize hx : encode (.vflog2 x0 x1 x2) = w
  have h (lo len : Nat) : bits w lo len = BitVec.extractLsb' lo len (0xaf#9 ++ x0 ++ x1 ++ x2 ++ 0x0#7) := by rw [← hx]; rfl
  have f : bits w 28 4 = 5#4 ∧ bits w 23 5 = 15#5 ∧ bits w 0 7 = 0 ∧ bits w 21 2 = x0 ∧ bits w 14 7 = x1 ∧ bits w 7 7 = x2 := by
    refine ⟨?_, ?_, ?_, ?_, ?_, ?_⟩ <;> simp (disch := decide) only [h, bits_low, bits_high, bits_all] <;> rfl
  obtain ⟨k, c, f0, f1, f2, f3⟩ := f
  refine decode_of_raw ?_ hw
  rw [raw_5 k]
  unfold decodeVflt
  rw [c]
  show (if bits w 0 7 = 0 then some (Instr.vflog2 (bits w 21 2) (bits w 14 7) (bits w 7 7)) else none) = _
  rw [f0, f1, f2, f3]
  rfl

theorem vfdot4 (x0 : BitVec 2) (x1 : BitVec 7) (x2 : BitVec 7) (x3 : BitVec 7) : Statement (.vfdot4 x0 x1 x2 x3) := by
  intro _ hw
  generalize hx : encode (.vfdot4 x0 x1 x2 x3) = w
  have h (lo len : Nat) : bits w lo len = BitVec.extractLsb' lo len (0xb0#9 ++ x0 ++ x1 ++ x2 ++ x3) := by rw [← hx]; rfl
  have f : bits w 28 4 = 5#4 ∧ bits w 23 5 = 16#5 ∧ bits w 21 2 = x0 ∧ bits w 14 7 = x1 ∧ bits w 7 7 = x2 ∧ bits w 0 7 = x3 := by
    refine ⟨?_, ?_, ?_, ?_, ?_, ?_⟩ <;> simp (disch := decide) only [h, bits_low, bits_high, bits_all] <;> rfl
  obtain ⟨k, c, f0, f1, f2, f3⟩ := f
  refine decode_of_raw ?_ hw
  rw [raw_5 k]
  unfold decodeVflt
  rw [c]
  show (some (Instr.vfdot4 (bits w 21 2) (bits w 14 7) (bits w 7 7) (bits w 0 7))) = _
  rw [f0, f1, f2, f3]

theorem vfdot8 (x0 : BitVec 2) (x1 : BitVec 7) (x2 : BitVec 7) (x3 : BitVec 7) : Statement (.vfdot8 x0 x1 x2 x3) := by
  intro _ hw
  generalize hx : encode (.vfdot8 x0 x1 x2 x3) = w
  have h (lo len : Nat) : bits w lo len = BitVec.extractLsb' lo len (0xb1#9 ++ x0 ++ x1 ++ x2 ++ x3) := by rw [← hx]; rfl
  have f : bits w 28 4 = 5#4 ∧ bits w 23 5 = 17#5 ∧ bits w 21 2 = x0 ∧ bits w 14 7 = x1 ∧ bits w 7 7 = x2 ∧ bits w 0 7 = x3 := by
    refine ⟨?_, ?_, ?_, ?_, ?_, ?_⟩ <;> simp (disch := decide) only [h, bits_low, bits_high, bits_all] <;> rfl
  obtain ⟨k, c, f0, f1, f2, f3⟩ := f
  refine decode_of_raw ?_ hw
  rw [raw_5 k]
  unfold decodeVflt
  rw [c]
  show (some (Instr.vfdot8 (bits w 21 2) (bits w 14 7) (bits w 7 7) (bits w 0 7))) = _
  rw [f0, f1, f2, f3]

theorem vfscl (x0 : BitVec 2) (x1 : BitVec 7) (x2 : BitVec 7) (x3 : BitVec 7) : Statement (.vfscl x0 x1 x2 x3) := by
  intro _ hw
  generalize hx : encode (.vfscl x0 x1 x2 x3) = w
  have h (lo len : Nat) : bits w lo len = BitVec.extractLsb' lo len (0xb2#9 ++ x0 ++ x1 ++ x2 ++ x3) := by rw [← hx]; rfl
  have f : bits w 28 4 = 5#4 ∧ bits w 23 5 = 18#5 ∧ bits w 21 2 = x0 ∧ bits w 14 7 = x1 ∧ bits w 7 7 = x2 ∧ bits w 0 7 = x3 := by
    refine ⟨?_, ?_, ?_, ?_, ?_, ?_⟩ <;> simp (disch := decide) only [h, bits_low, bits_high, bits_all] <;> rfl
  obtain ⟨k, c, f0, f1, f2, f3⟩ := f
  refine decode_of_raw ?_ hw
  rw [raw_5 k]
  unfold decodeVflt
  rw [c]
  show (some (Instr.vfscl (bits w 21 2) (bits w 14 7) (bits w 7 7) (bits w 0 7))) = _
  rw [f0, f1, f2, f3]

theorem vfcvt (x0 : BitVec 2) (x1 : BitVec 7) (x2 : BitVec 7) (x3 : BitVec 7) : Statement (.vfcvt x0 x1 x2 x3) := by
  intro _ hw
  generalize hx : encode (.vfcvt x0 x1 x2 x3) = w
  have h (lo len : Nat) : bits w lo len = BitVec.extractLsb' lo len (0xb3#9 ++ x0 ++ x1 ++ x2 ++ x3) := by rw [← hx]; rfl
  have f : bits w 28 4 = 5#4 ∧ bits w 23 5 = 19#5 ∧ bits w 21 2 = x0 ∧ bits w 14 7 = x1 ∧ bits w 7 7 = x2 ∧ bits w 0 7 = x3 := by
    refine ⟨?_, ?_, ?_, ?_, ?_, ?_⟩ <;> simp (disch := decide) only [h, bits_low, bits_high, bits_all] <;> rfl
  obtain ⟨k, c, f0, f1, f2, f3⟩ := f
  refine decode_of_raw ?_ hw
  rw [raw_5 k]
  unfold decodeVflt
  rw [c]
  show (some (Instr.vfcvt (bits w 21 2) (bits w 14 7) (bits w 7 7) (bits w 0 7))) = _
  rw [f0, f1, f2, f3]

theorem vfpk4 (x0 : BitVec 2) (x1 : BitVec 7) (x2 : BitVec 7) : Statement (.vfpk4 x0 x1 x2) := by
  intro _ hw
  generalize hx : encode (.vfpk4 x0 x1 x2) = w
  have h (lo len : Nat) : bits w lo len = BitVec.extractLsb' lo len (0xb4#9 ++ x0 ++ x1 ++ x2 ++ 0x0#7) := by rw [← hx]; rfl
  have f : bits w 28 4 = 5#4 ∧ bits w 23 5 = 20#5 ∧ bits w 0 7 = 0 ∧ bits w 21 2 = x0 ∧ bits w 14 7 = x1 ∧ bits w 7 7 = x2 := by
    refine ⟨?_, ?_, ?_, ?_, ?_, ?_⟩ <;> simp (disch := decide) only [h, bits_low, bits_high, bits_all] <;> rfl
  obtain ⟨k, c, f0, f1, f2, f3⟩ := f
  refine decode_of_raw ?_ hw
  rw [raw_5 k]
  unfold decodeVflt
  rw [c]
  show (if bits w 0 7 = 0 then some (Instr.vfpk4 (bits w 21 2) (bits w 14 7) (bits w 7 7)) else none) = _
  rw [f0, f1, f2, f3]
  rfl

theorem vfclass (x0 : BitVec 2) (x1 : BitVec 7) (x2 : BitVec 7) : Statement (.vfclass x0 x1 x2) := by
  intro _ hw
  generalize hx : encode (.vfclass x0 x1 x2) = w
  have h (lo len : Nat) : bits w lo len = BitVec.extractLsb' lo len (0xb5#9 ++ x0 ++ x1 ++ x2 ++ 0x0#7) := by rw [← hx]; rfl
  have f : bits w 28 4 = 5#4 ∧ bits w 23 5 = 21#5 ∧ bits w 0 7 = 0 ∧ bits w 21 2 = x0 ∧ bits w 14 7 = x1 ∧ bits w 7 7 = x2 := by
    refine ⟨?_, ?_, ?_, ?_, ?_, ?_⟩ <;> simp (disch := decide) only [h, bits_low, bits_high, bits_all] <;> rfl
  obtain ⟨k, c, f0, f1, f2, f3⟩ := f
  refine decode_of_raw ?_ hw
  rw [raw_5 k]
  unfold decodeVflt
  rw [c]
  show (if bits w 0 7 = 0 then some (Instr.vfclass (bits w 21 2) (bits w 14 7) (bits w 7 7)) else none) = _
  rw [f0, f1, f2, f3]
  rfl

theorem vfrnd (x0 : BitVec 2) (x1 : BitVec 7) (x2 : BitVec 7) : Statement (.vfrnd x0 x1 x2) := by
  intro _ hw
  generalize hx : encode (.vfrnd x0 x1 x2) = w
  have h (lo len : Nat) : bits w lo len = BitVec.extractLsb' lo len (0xb6#9 ++ x0 ++ x1 ++ x2 ++ 0x0#7) := by rw [← hx]; rfl
  have f : bits w 28 4 = 5#4 ∧ bits w 23 5 = 22#5 ∧ bits w 0 7 = 0 ∧ bits w 21 2 = x0 ∧ bits w 14 7 = x1 ∧ bits w 7 7 = x2 := by
    refine ⟨?_, ?_, ?_, ?_, ?_, ?_⟩ <;> simp (disch := decide) only [h, bits_low, bits_high, bits_all] <;> rfl
  obtain ⟨k, c, f0, f1, f2, f3⟩ := f
  refine decode_of_raw ?_ hw
  rw [raw_5 k]
  unfold decodeVflt
  rw [c]
  show (if bits w 0 7 = 0 then some (Instr.vfrnd (bits w 21 2) (bits w 14 7) (bits w 7 7)) else none) = _
  rw [f0, f1, f2, f3]
  rfl

theorem vmov (x0 : BitVec 2) (x1 : BitVec 7) (x2 : BitVec 7) : Statement (.vmov x0 x1 x2) := by
  intro _ hw
  generalize hx : encode (.vmov x0 x1 x2) = w
  have h (lo len : Nat) : bits w lo len = BitVec.extractLsb' lo len (0xc0#9 ++ x0 ++ x1 ++ x2 ++ 0x0#7) := by rw [← hx]; rfl
  have f : bits w 28 4 = 6#4 ∧ bits w 23 5 = 0#5 ∧ bits w 0 7 = 0 ∧ bits w 21 2 = x0 ∧ bits w 14 7 = x1 ∧ bits w 7 7 = x2 := by
    refine ⟨?_, ?_, ?_, ?_, ?_, ?_⟩ <;> simp (disch := decide) only [h, bits_low, bits_high, bits_all] <;> rfl
  obtain ⟨k, c, f0, f1, f2, f3⟩ := f
  refine decode_of_raw ?_ hw
  rw [raw_6 k]
  unfold decodeVxch
  rw [c]
  show (if bits w 0 7 = 0 then some (Instr.vmov (bits w 21 2) (bits w 14 7) (bits w 7 7)) else none) = _
  rw [f0, f1, f2, f3]
  rfl

theorem vmovs (x0 : BitVec 2) (x1 : BitVec 7) (x2 : BitVec 7) : Statement (.vmovs x0 x1 x2) := by
  intro _ hw
  generalize hx : encode (.vmovs x0 x1 x2) = w
  have h (lo len : Nat) : bits w lo len = BitVec.extractLsb' lo len (0xc1#9 ++ x0 ++ x1 ++ x2 ++ 0x0#7) := by rw [← hx]; rfl
  have f : bits w 28 4 = 6#4 ∧ bits w 23 5 = 1#5 ∧ bits w 0 7 = 0 ∧ bits w 21 2 = x0 ∧ bits w 14 7 = x1 ∧ bits w 7 7 = x2 := by
    refine ⟨?_, ?_, ?_, ?_, ?_, ?_⟩ <;> simp (disch := decide) only [h, bits_low, bits_high, bits_all] <;> rfl
  obtain ⟨k, c, f0, f1, f2, f3⟩ := f
  refine decode_of_raw ?_ hw
  rw [raw_6 k]
  unfold decodeVxch
  rw [c]
  show (if bits w 0 7 = 0 then some (Instr.vmovs (bits w 21 2) (bits w 14 7) (bits w 7 7)) else none) = _
  rw [f0, f1, f2, f3]
  rfl

theorem vrdlane (x0 : BitVec 2) (x1 : BitVec 7) (x2 : BitVec 7) (x3 : BitVec 7) : Statement (.vrdlane x0 x1 x2 x3) := by
  intro _ hw
  generalize hx : encode (.vrdlane x0 x1 x2 x3) = w
  have h (lo len : Nat) : bits w lo len = BitVec.extractLsb' lo len (0xc2#9 ++ x0 ++ x1 ++ x2 ++ x3) := by rw [← hx]; rfl
  have f : bits w 28 4 = 6#4 ∧ bits w 23 5 = 2#5 ∧ bits w 21 2 = x0 ∧ bits w 14 7 = x1 ∧ bits w 7 7 = x2 ∧ bits w 0 7 = x3 := by
    refine ⟨?_, ?_, ?_, ?_, ?_, ?_⟩ <;> simp (disch := decide) only [h, bits_low, bits_high, bits_all] <;> rfl
  obtain ⟨k, c, f0, f1, f2, f3⟩ := f
  refine decode_of_raw ?_ hw
  rw [raw_6 k]
  unfold decodeVxch
  rw [c]
  show (some (Instr.vrdlane (bits w 21 2) (bits w 14 7) (bits w 7 7) (bits w 0 7))) = _
  rw [f0, f1, f2, f3]

theorem vbcst (x0 : BitVec 2) (x1 : BitVec 7) (x2 : BitVec 7) (x3 : BitVec 7) : Statement (.vbcst x0 x1 x2 x3) := by
  intro _ hw
  generalize hx : encode (.vbcst x0 x1 x2 x3) = w
  have h (lo len : Nat) : bits w lo len = BitVec.extractLsb' lo len (0xc3#9 ++ x0 ++ x1 ++ x2 ++ x3) := by rw [← hx]; rfl
  have f : bits w 28 4 = 6#4 ∧ bits w 23 5 = 3#5 ∧ bits w 21 2 = x0 ∧ bits w 14 7 = x1 ∧ bits w 7 7 = x2 ∧ bits w 0 7 = x3 := by
    refine ⟨?_, ?_, ?_, ?_, ?_, ?_⟩ <;> simp (disch := decide) only [h, bits_low, bits_high, bits_all] <;> rfl
  obtain ⟨k, c, f0, f1, f2, f3⟩ := f
  refine decode_of_raw ?_ hw
  rw [raw_6 k]
  unfold decodeVxch
  rw [c]
  show (some (Instr.vbcst (bits w 21 2) (bits w 14 7) (bits w 7 7) (bits w 0 7))) = _
  rw [f0, f1, f2, f3]

theorem vshfl (x0 : BitVec 2) (x1 : BitVec 7) (x2 : BitVec 7) (x3 : BitVec 7) : Statement (.vshfl x0 x1 x2 x3) := by
  intro _ hw
  generalize hx : encode (.vshfl x0 x1 x2 x3) = w
  have h (lo len : Nat) : bits w lo len = BitVec.extractLsb' lo len (0xc4#9 ++ x0 ++ x1 ++ x2 ++ x3) := by rw [← hx]; rfl
  have f : bits w 28 4 = 6#4 ∧ bits w 23 5 = 4#5 ∧ bits w 21 2 = x0 ∧ bits w 14 7 = x1 ∧ bits w 7 7 = x2 ∧ bits w 0 7 = x3 := by
    refine ⟨?_, ?_, ?_, ?_, ?_, ?_⟩ <;> simp (disch := decide) only [h, bits_low, bits_high, bits_all] <;> rfl
  obtain ⟨k, c, f0, f1, f2, f3⟩ := f
  refine decode_of_raw ?_ hw
  rw [raw_6 k]
  unfold decodeVxch
  rw [c]
  show (some (Instr.vshfl (bits w 21 2) (bits w 14 7) (bits w 7 7) (bits w 0 7))) = _
  rw [f0, f1, f2, f3]

theorem vqswz (x0 : BitVec 2) (x1 : BitVec 7) (x2 : BitVec 7) (x3 : BitVec 7) : Statement (.vqswz x0 x1 x2 x3) := by
  intro _ hw
  generalize hx : encode (.vqswz x0 x1 x2 x3) = w
  have h (lo len : Nat) : bits w lo len = BitVec.extractLsb' lo len (0xc5#9 ++ x0 ++ x1 ++ x2 ++ x3) := by rw [← hx]; rfl
  have f : bits w 28 4 = 6#4 ∧ bits w 23 5 = 5#5 ∧ bits w 21 2 = x0 ∧ bits w 14 7 = x1 ∧ bits w 7 7 = x2 ∧ bits w 0 7 = x3 := by
    refine ⟨?_, ?_, ?_, ?_, ?_, ?_⟩ <;> simp (disch := decide) only [h, bits_low, bits_high, bits_all] <;> rfl
  obtain ⟨k, c, f0, f1, f2, f3⟩ := f
  refine decode_of_raw ?_ hw
  rw [raw_6 k]
  unfold decodeVxch
  rw [c]
  show (some (Instr.vqswz (bits w 21 2) (bits w 14 7) (bits w 7 7) (bits w 0 7))) = _
  rw [f0, f1, f2, f3]

theorem vqsum (x0 : BitVec 2) (x1 : BitVec 7) (x2 : BitVec 7) : Statement (.vqsum x0 x1 x2) := by
  intro _ hw
  generalize hx : encode (.vqsum x0 x1 x2) = w
  have h (lo len : Nat) : bits w lo len = BitVec.extractLsb' lo len (0xc6#9 ++ x0 ++ x1 ++ x2 ++ 0x0#7) := by rw [← hx]; rfl
  have f : bits w 28 4 = 6#4 ∧ bits w 23 5 = 6#5 ∧ bits w 0 7 = 0 ∧ bits w 21 2 = x0 ∧ bits w 14 7 = x1 ∧ bits w 7 7 = x2 := by
    refine ⟨?_, ?_, ?_, ?_, ?_, ?_⟩ <;> simp (disch := decide) only [h, bits_low, bits_high, bits_all] <;> rfl
  obtain ⟨k, c, f0, f1, f2, f3⟩ := f
  refine decode_of_raw ?_ hw
  rw [raw_6 k]
  unfold decodeVxch
  rw [c]
  show (if bits w 0 7 = 0 then some (Instr.vqsum (bits w 21 2) (bits w 14 7) (bits w 7 7)) else none) = _
  rw [f0, f1, f2, f3]
  rfl

theorem vprfx (x0 : BitVec 2) (x1 : BitVec 7) (x2 : BitVec 7) (x3 : BitVec 1) : Statement (.vprfx x0 x1 x2 x3) := by
  intro _ hw
  generalize hx : encode (.vprfx x0 x1 x2 x3) = w
  have h (lo len : Nat) : bits w lo len = BitVec.extractLsb' lo len (0xc7#9 ++ x0 ++ x1 ++ x2 ++ 0x0#6 ++ x3) := by rw [← hx]; rfl
  have f : bits w 28 4 = 6#4 ∧ bits w 23 5 = 7#5 ∧ bits w 1 6 = 0 ∧ bits w 21 2 = x0 ∧ bits w 14 7 = x1 ∧ bits w 7 7 = x2 ∧ bits w 0 1 = x3 := by
    refine ⟨?_, ?_, ?_, ?_, ?_, ?_, ?_⟩ <;> simp (disch := decide) only [h, bits_low, bits_high, bits_all] <;> rfl
  obtain ⟨k, c, f0, f1, f2, f3, f4⟩ := f
  refine decode_of_raw ?_ hw
  rw [raw_6 k]
  unfold decodeVxch
  rw [c]
  show (if bits w 1 6 = 0 then some (Instr.vprfx (bits w 21 2) (bits w 14 7) (bits w 7 7) (bits w 0 1)) else none) = _
  rw [f0, f1, f2, f3, f4]
  rfl

theorem vcmpct (x0 : BitVec 2) (x1 : BitVec 7) (x2 : BitVec 7) : Statement (.vcmpct x0 x1 x2) := by
  intro _ hw
  generalize hx : encode (.vcmpct x0 x1 x2) = w
  have h (lo len : Nat) : bits w lo len = BitVec.extractLsb' lo len (0xc8#9 ++ x0 ++ x1 ++ x2 ++ 0x0#7) := by rw [← hx]; rfl
  have f : bits w 28 4 = 6#4 ∧ bits w 23 5 = 8#5 ∧ bits w 0 7 = 0 ∧ bits w 21 2 = x0 ∧ bits w 14 7 = x1 ∧ bits w 7 7 = x2 := by
    refine ⟨?_, ?_, ?_, ?_, ?_, ?_⟩ <;> simp (disch := decide) only [h, bits_low, bits_high, bits_all] <;> rfl
  obtain ⟨k, c, f0, f1, f2, f3⟩ := f
  refine decode_of_raw ?_ hw
  rw [raw_6 k]
  unfold decodeVxch
  rw [c]
  show (if bits w 0 7 = 0 then some (Instr.vcmpct (bits w 21 2) (bits w 14 7) (bits w 7 7)) else none) = _
  rw [f0, f1, f2, f3]
  rfl

theorem vredadd (x0 : BitVec 2) (x1 : BitVec 7) (x2 : BitVec 7) : Statement (.vredadd x0 x1 x2) := by
  intro _ hw
  generalize hx : encode (.vredadd x0 x1 x2) = w
  have h (lo len : Nat) : bits w lo len = BitVec.extractLsb' lo len (0xc9#9 ++ x0 ++ x1 ++ x2 ++ 0x0#7) := by rw [← hx]; rfl
  have f : bits w 28 4 = 6#4 ∧ bits w 23 5 = 9#5 ∧ bits w 0 7 = 0 ∧ bits w 21 2 = x0 ∧ bits w 14 7 = x1 ∧ bits w 7 7 = x2 := by
    refine ⟨?_, ?_, ?_, ?_, ?_, ?_⟩ <;> simp (disch := decide) only [h, bits_low, bits_high, bits_all] <;> rfl
  obtain ⟨k, c, f0, f1, f2, f3⟩ := f
  refine decode_of_raw ?_ hw
  rw [raw_6 k]
  unfold decodeVxch
  rw [c]
  show (if bits w 0 7 = 0 then some (Instr.vredadd (bits w 21 2) (bits w 14 7) (bits w 7 7)) else none) = _
  rw [f0, f1, f2, f3]
  rfl

theorem vredmin (x0 : BitVec 2) (x1 : BitVec 7) (x2 : BitVec 7) : Statement (.vredmin x0 x1 x2) := by
  intro _ hw
  generalize hx : encode (.vredmin x0 x1 x2) = w
  have h (lo len : Nat) : bits w lo len = BitVec.extractLsb' lo len (0xca#9 ++ x0 ++ x1 ++ x2 ++ 0x0#7) := by rw [← hx]; rfl
  have f : bits w 28 4 = 6#4 ∧ bits w 23 5 = 10#5 ∧ bits w 0 7 = 0 ∧ bits w 21 2 = x0 ∧ bits w 14 7 = x1 ∧ bits w 7 7 = x2 := by
    refine ⟨?_, ?_, ?_, ?_, ?_, ?_⟩ <;> simp (disch := decide) only [h, bits_low, bits_high, bits_all] <;> rfl
  obtain ⟨k, c, f0, f1, f2, f3⟩ := f
  refine decode_of_raw ?_ hw
  rw [raw_6 k]
  unfold decodeVxch
  rw [c]
  show (if bits w 0 7 = 0 then some (Instr.vredmin (bits w 21 2) (bits w 14 7) (bits w 7 7)) else none) = _
  rw [f0, f1, f2, f3]
  rfl

theorem vredmax (x0 : BitVec 2) (x1 : BitVec 7) (x2 : BitVec 7) : Statement (.vredmax x0 x1 x2) := by
  intro _ hw
  generalize hx : encode (.vredmax x0 x1 x2) = w
  have h (lo len : Nat) : bits w lo len = BitVec.extractLsb' lo len (0xcb#9 ++ x0 ++ x1 ++ x2 ++ 0x0#7) := by rw [← hx]; rfl
  have f : bits w 28 4 = 6#4 ∧ bits w 23 5 = 11#5 ∧ bits w 0 7 = 0 ∧ bits w 21 2 = x0 ∧ bits w 14 7 = x1 ∧ bits w 7 7 = x2 := by
    refine ⟨?_, ?_, ?_, ?_, ?_, ?_⟩ <;> simp (disch := decide) only [h, bits_low, bits_high, bits_all] <;> rfl
  obtain ⟨k, c, f0, f1, f2, f3⟩ := f
  refine decode_of_raw ?_ hw
  rw [raw_6 k]
  unfold decodeVxch
  rw [c]
  show (if bits w 0 7 = 0 then some (Instr.vredmax (bits w 21 2) (bits w 14 7) (bits w 7 7)) else none) = _
  rw [f0, f1, f2, f3]
  rfl

theorem vlaneid (x0 : BitVec 2) (x1 : BitVec 7) : Statement (.vlaneid x0 x1) := by
  intro _ hw
  generalize hx : encode (.vlaneid x0 x1) = w
  have h (lo len : Nat) : bits w lo len = BitVec.extractLsb' lo len (0xcc#9 ++ x0 ++ x1 ++ 0x0#14) := by rw [← hx]; rfl
  have f : bits w 28 4 = 6#4 ∧ bits w 23 5 = 12#5 ∧ bits w 0 14 = 0 ∧ bits w 21 2 = x0 ∧ bits w 14 7 = x1 := by
    refine ⟨?_, ?_, ?_, ?_, ?_⟩ <;> simp (disch := decide) only [h, bits_low, bits_high, bits_all] <;> rfl
  obtain ⟨k, c, f0, f1, f2⟩ := f
  refine decode_of_raw ?_ hw
  rw [raw_6 k]
  unfold decodeVxch
  rw [c]
  show (if bits w 0 14 = 0 then some (Instr.vlaneid (bits w 21 2) (bits w 14 7)) else none) = _
  rw [f0, f1, f2]
  rfl

theorem vaddi (x0 : BitVec 2) (x1 : BitVec 7) (x2 : BitVec 7) (x3 : BitVec 9) : Statement (.vaddi x0 x1 x2 x3) := by
  intro _ hw
  generalize hx : encode (.vaddi x0 x1 x2 x3) = w
  have h (lo len : Nat) : bits w lo len = BitVec.extractLsb' lo len (0x38#7 ++ x0 ++ x1 ++ x2 ++ x3) := by rw [← hx]; rfl
  have f : bits w 28 4 = 7#4 ∧ bits w 25 3 = 0#3 ∧ bits w 23 2 = x0 ∧ bits w 16 7 = x1 ∧ bits w 9 7 = x2 ∧ bits w 0 9 = x3 := by
    refine ⟨?_, ?_, ?_, ?_, ?_, ?_⟩ <;> simp (disch := decide) only [h, bits_low, bits_high, bits_all] <;> rfl
  obtain ⟨k, c, f0, f1, f2, f3⟩ := f
  refine decode_of_raw ?_ hw
  rw [raw_7 k]
  unfold decodeVimm
  rw [c]
  show (some (Instr.vaddi (bits w 23 2) (bits w 16 7) (bits w 9 7) (bits w 0 9))) = _
  rw [f0, f1, f2, f3]

theorem vandi (x0 : BitVec 2) (x1 : BitVec 7) (x2 : BitVec 7) (x3 : BitVec 9) : Statement (.vandi x0 x1 x2 x3) := by
  intro _ hw
  generalize hx : encode (.vandi x0 x1 x2 x3) = w
  have h (lo len : Nat) : bits w lo len = BitVec.extractLsb' lo len (0x39#7 ++ x0 ++ x1 ++ x2 ++ x3) := by rw [← hx]; rfl
  have f : bits w 28 4 = 7#4 ∧ bits w 25 3 = 1#3 ∧ bits w 23 2 = x0 ∧ bits w 16 7 = x1 ∧ bits w 9 7 = x2 ∧ bits w 0 9 = x3 := by
    refine ⟨?_, ?_, ?_, ?_, ?_, ?_⟩ <;> simp (disch := decide) only [h, bits_low, bits_high, bits_all] <;> rfl
  obtain ⟨k, c, f0, f1, f2, f3⟩ := f
  refine decode_of_raw ?_ hw
  rw [raw_7 k]
  unfold decodeVimm
  rw [c]
  show (some (Instr.vandi (bits w 23 2) (bits w 16 7) (bits w 9 7) (bits w 0 9))) = _
  rw [f0, f1, f2, f3]

theorem vori (x0 : BitVec 2) (x1 : BitVec 7) (x2 : BitVec 7) (x3 : BitVec 9) : Statement (.vori x0 x1 x2 x3) := by
  intro _ hw
  generalize hx : encode (.vori x0 x1 x2 x3) = w
  have h (lo len : Nat) : bits w lo len = BitVec.extractLsb' lo len (0x3a#7 ++ x0 ++ x1 ++ x2 ++ x3) := by rw [← hx]; rfl
  have f : bits w 28 4 = 7#4 ∧ bits w 25 3 = 2#3 ∧ bits w 23 2 = x0 ∧ bits w 16 7 = x1 ∧ bits w 9 7 = x2 ∧ bits w 0 9 = x3 := by
    refine ⟨?_, ?_, ?_, ?_, ?_, ?_⟩ <;> simp (disch := decide) only [h, bits_low, bits_high, bits_all] <;> rfl
  obtain ⟨k, c, f0, f1, f2, f3⟩ := f
  refine decode_of_raw ?_ hw
  rw [raw_7 k]
  unfold decodeVimm
  rw [c]
  show (some (Instr.vori (bits w 23 2) (bits w 16 7) (bits w 9 7) (bits w 0 9))) = _
  rw [f0, f1, f2, f3]

theorem vxori (x0 : BitVec 2) (x1 : BitVec 7) (x2 : BitVec 7) (x3 : BitVec 9) : Statement (.vxori x0 x1 x2 x3) := by
  intro _ hw
  generalize hx : encode (.vxori x0 x1 x2 x3) = w
  have h (lo len : Nat) : bits w lo len = BitVec.extractLsb' lo len (0x3b#7 ++ x0 ++ x1 ++ x2 ++ x3) := by rw [← hx]; rfl
  have f : bits w 28 4 = 7#4 ∧ bits w 25 3 = 3#3 ∧ bits w 23 2 = x0 ∧ bits w 16 7 = x1 ∧ bits w 9 7 = x2 ∧ bits w 0 9 = x3 := by
    refine ⟨?_, ?_, ?_, ?_, ?_, ?_⟩ <;> simp (disch := decide) only [h, bits_low, bits_high, bits_all] <;> rfl
  obtain ⟨k, c, f0, f1, f2, f3⟩ := f
  refine decode_of_raw ?_ hw
  rw [raw_7 k]
  unfold decodeVimm
  rw [c]
  show (some (Instr.vxori (bits w 23 2) (bits w 16 7) (bits w 9 7) (bits w 0 9))) = _
  rw [f0, f1, f2, f3]

theorem vshli (x0 : BitVec 2) (x1 : BitVec 7) (x2 : BitVec 7) (x3 : BitVec 5) : Statement (.vshli x0 x1 x2 x3) := by
  intro _ hw
  generalize hx : encode (.vshli x0 x1 x2 x3) = w
  have h (lo len : Nat) : bits w lo len = BitVec.extractLsb' lo len (0x3c#7 ++ x0 ++ x1 ++ x2 ++ 0x0#4 ++ x3) := by rw [← hx]; rfl
  have f : bits w 28 4 = 7#4 ∧ bits w 25 3 = 4#3 ∧ bits w 5 4 = 0 ∧ bits w 23 2 = x0 ∧ bits w 16 7 = x1 ∧ bits w 9 7 = x2 ∧ bits w 0 5 = x3 := by
    refine ⟨?_, ?_, ?_, ?_, ?_, ?_, ?_⟩ <;> simp (disch := decide) only [h, bits_low, bits_high, bits_all] <;> rfl
  obtain ⟨k, c, f0, f1, f2, f3, f4⟩ := f
  refine decode_of_raw ?_ hw
  rw [raw_7 k]
  unfold decodeVimm
  rw [c]
  show (if bits w 5 4 = 0 then some (Instr.vshli (bits w 23 2) (bits w 16 7) (bits w 9 7) (bits w 0 5)) else none) = _
  rw [f0, f1, f2, f3, f4]
  rfl

theorem vshri (x0 : BitVec 2) (x1 : BitVec 7) (x2 : BitVec 7) (x3 : BitVec 5) : Statement (.vshri x0 x1 x2 x3) := by
  intro _ hw
  generalize hx : encode (.vshri x0 x1 x2 x3) = w
  have h (lo len : Nat) : bits w lo len = BitVec.extractLsb' lo len (0x3d#7 ++ x0 ++ x1 ++ x2 ++ 0x0#4 ++ x3) := by rw [← hx]; rfl
  have f : bits w 28 4 = 7#4 ∧ bits w 25 3 = 5#3 ∧ bits w 5 4 = 0 ∧ bits w 23 2 = x0 ∧ bits w 16 7 = x1 ∧ bits w 9 7 = x2 ∧ bits w 0 5 = x3 := by
    refine ⟨?_, ?_, ?_, ?_, ?_, ?_, ?_⟩ <;> simp (disch := decide) only [h, bits_low, bits_high, bits_all] <;> rfl
  obtain ⟨k, c, f0, f1, f2, f3, f4⟩ := f
  refine decode_of_raw ?_ hw
  rw [raw_7 k]
  unfold decodeVimm
  rw [c]
  show (if bits w 5 4 = 0 then some (Instr.vshri (bits w 23 2) (bits w 16 7) (bits w 9 7) (bits w 0 5)) else none) = _
  rw [f0, f1, f2, f3, f4]
  rfl

theorem vsrai (x0 : BitVec 2) (x1 : BitVec 7) (x2 : BitVec 7) (x3 : BitVec 5) : Statement (.vsrai x0 x1 x2 x3) := by
  intro _ hw
  generalize hx : encode (.vsrai x0 x1 x2 x3) = w
  have h (lo len : Nat) : bits w lo len = BitVec.extractLsb' lo len (0x3e#7 ++ x0 ++ x1 ++ x2 ++ 0x0#4 ++ x3) := by rw [← hx]; rfl
  have f : bits w 28 4 = 7#4 ∧ bits w 25 3 = 6#3 ∧ bits w 5 4 = 0 ∧ bits w 23 2 = x0 ∧ bits w 16 7 = x1 ∧ bits w 9 7 = x2 ∧ bits w 0 5 = x3 := by
    refine ⟨?_, ?_, ?_, ?_, ?_, ?_, ?_⟩ <;> simp (disch := decide) only [h, bits_low, bits_high, bits_all] <;> rfl
  obtain ⟨k, c, f0, f1, f2, f3, f4⟩ := f
  refine decode_of_raw ?_ hw
  rw [raw_7 k]
  unfold decodeVimm
  rw [c]
  show (if bits w 5 4 = 0 then some (Instr.vsrai (bits w 23 2) (bits w 16 7) (bits w 9 7) (bits w 0 5)) else none) = _
  rw [f0, f1, f2, f3, f4]
  rfl

theorem vmovi (x0 : BitVec 2) (x1 : BitVec 7) (x2 : BitVec 9) : Statement (.vmovi x0 x1 x2) := by
  intro _ hw
  generalize hx : encode (.vmovi x0 x1 x2) = w
  have h (lo len : Nat) : bits w lo len = BitVec.extractLsb' lo len (0x3f#7 ++ x0 ++ x1 ++ 0x0#7 ++ x2) := by rw [← hx]; rfl
  have f : bits w 28 4 = 7#4 ∧ bits w 25 3 = 7#3 ∧ bits w 9 7 = 0 ∧ bits w 23 2 = x0 ∧ bits w 16 7 = x1 ∧ bits w 0 9 = x2 := by
    refine ⟨?_, ?_, ?_, ?_, ?_, ?_⟩ <;> simp (disch := decide) only [h, bits_low, bits_high, bits_all] <;> rfl
  obtain ⟨k, c, f0, f1, f2, f3⟩ := f
  refine decode_of_raw ?_ hw
  rw [raw_7 k]
  unfold decodeVimm
  rw [c]
  show (if bits w 9 7 = 0 then some (Instr.vmovi (bits w 23 2) (bits w 16 7) (bits w 0 9)) else none) = _
  rw [f0, f1, f2, f3]
  rfl

theorem vld (x0 : BitVec 2) (x1 : BitVec 7) (x2 : BitVec 6) (x3 : BitVec 7) (x4 : BitVec 2) : Statement (.vld x0 x1 x2 x3 x4) := by
  intro _ hw
  generalize hx : encode (.vld x0 x1 x2 x3 x4) = w
  have h (lo len : Nat) : bits w lo len = BitVec.extractLsb' lo len (0x80#8 ++ x0 ++ x1 ++ x2 ++ x3 ++ x4) := by rw [← hx]; rfl
  have f : bits w 28 4 = 8#4 ∧ bits w 24 4 = 0#4 ∧ bits w 22 2 = x0 ∧ bits w 15 7 = x1 ∧ bits w 9 6 = x2 ∧ bits w 2 7 = x3 ∧ bits w 0 2 = x4 := by
    refine ⟨?_, ?_, ?_, ?_, ?_, ?_, ?_⟩ <;> simp (disch := decide) only [h, bits_low, bits_high, bits_all] <;> rfl
  obtain ⟨k, c, f0, f1, f2, f3, f4⟩ := f
  refine decode_of_raw ?_ hw
  rw [raw_8 k]
  unfold decodeMemv
  rw [c]
  show (some (Instr.vld (bits w 22 2) (bits w 15 7) (bits w 9 6) (bits w 2 7) (bits w 0 2))) = _
  rw [f0, f1, f2, f3, f4]

theorem vld8 (x0 : BitVec 2) (x1 : BitVec 7) (x2 : BitVec 6) (x3 : BitVec 7) (x4 : BitVec 2) : Statement (.vld8 x0 x1 x2 x3 x4) := by
  intro _ hw
  generalize hx : encode (.vld8 x0 x1 x2 x3 x4) = w
  have h (lo len : Nat) : bits w lo len = BitVec.extractLsb' lo len (0x81#8 ++ x0 ++ x1 ++ x2 ++ x3 ++ x4) := by rw [← hx]; rfl
  have f : bits w 28 4 = 8#4 ∧ bits w 24 4 = 1#4 ∧ bits w 22 2 = x0 ∧ bits w 15 7 = x1 ∧ bits w 9 6 = x2 ∧ bits w 2 7 = x3 ∧ bits w 0 2 = x4 := by
    refine ⟨?_, ?_, ?_, ?_, ?_, ?_, ?_⟩ <;> simp (disch := decide) only [h, bits_low, bits_high, bits_all] <;> rfl
  obtain ⟨k, c, f0, f1, f2, f3, f4⟩ := f
  refine decode_of_raw ?_ hw
  rw [raw_8 k]
  unfold decodeMemv
  rw [c]
  show (some (Instr.vld8 (bits w 22 2) (bits w 15 7) (bits w 9 6) (bits w 2 7) (bits w 0 2))) = _
  rw [f0, f1, f2, f3, f4]

theorem vld16 (x0 : BitVec 2) (x1 : BitVec 7) (x2 : BitVec 6) (x3 : BitVec 7) (x4 : BitVec 2) : Statement (.vld16 x0 x1 x2 x3 x4) := by
  intro _ hw
  generalize hx : encode (.vld16 x0 x1 x2 x3 x4) = w
  have h (lo len : Nat) : bits w lo len = BitVec.extractLsb' lo len (0x82#8 ++ x0 ++ x1 ++ x2 ++ x3 ++ x4) := by rw [← hx]; rfl
  have f : bits w 28 4 = 8#4 ∧ bits w 24 4 = 2#4 ∧ bits w 22 2 = x0 ∧ bits w 15 7 = x1 ∧ bits w 9 6 = x2 ∧ bits w 2 7 = x3 ∧ bits w 0 2 = x4 := by
    refine ⟨?_, ?_, ?_, ?_, ?_, ?_, ?_⟩ <;> simp (disch := decide) only [h, bits_low, bits_high, bits_all] <;> rfl
  obtain ⟨k, c, f0, f1, f2, f3, f4⟩ := f
  refine decode_of_raw ?_ hw
  rw [raw_8 k]
  unfold decodeMemv
  rw [c]
  show (some (Instr.vld16 (bits w 22 2) (bits w 15 7) (bits w 9 6) (bits w 2 7) (bits w 0 2))) = _
  rw [f0, f1, f2, f3, f4]

theorem vld64 (x0 : BitVec 2) (x1 : BitVec 7) (x2 : BitVec 6) (x3 : BitVec 7) (x4 : BitVec 2) : Statement (.vld64 x0 x1 x2 x3 x4) := by
  intro _ hw
  generalize hx : encode (.vld64 x0 x1 x2 x3 x4) = w
  have h (lo len : Nat) : bits w lo len = BitVec.extractLsb' lo len (0x83#8 ++ x0 ++ x1 ++ x2 ++ x3 ++ x4) := by rw [← hx]; rfl
  have f : bits w 28 4 = 8#4 ∧ bits w 24 4 = 3#4 ∧ bits w 22 2 = x0 ∧ bits w 15 7 = x1 ∧ bits w 9 6 = x2 ∧ bits w 2 7 = x3 ∧ bits w 0 2 = x4 := by
    refine ⟨?_, ?_, ?_, ?_, ?_, ?_, ?_⟩ <;> simp (disch := decide) only [h, bits_low, bits_high, bits_all] <;> rfl
  obtain ⟨k, c, f0, f1, f2, f3, f4⟩ := f
  refine decode_of_raw ?_ hw
  rw [raw_8 k]
  unfold decodeMemv
  rw [c]
  show (some (Instr.vld64 (bits w 22 2) (bits w 15 7) (bits w 9 6) (bits w 2 7) (bits w 0 2))) = _
  rw [f0, f1, f2, f3, f4]

theorem vld128 (x0 : BitVec 2) (x1 : BitVec 7) (x2 : BitVec 6) (x3 : BitVec 7) (x4 : BitVec 2) : Statement (.vld128 x0 x1 x2 x3 x4) := by
  intro _ hw
  generalize hx : encode (.vld128 x0 x1 x2 x3 x4) = w
  have h (lo len : Nat) : bits w lo len = BitVec.extractLsb' lo len (0x84#8 ++ x0 ++ x1 ++ x2 ++ x3 ++ x4) := by rw [← hx]; rfl
  have f : bits w 28 4 = 8#4 ∧ bits w 24 4 = 4#4 ∧ bits w 22 2 = x0 ∧ bits w 15 7 = x1 ∧ bits w 9 6 = x2 ∧ bits w 2 7 = x3 ∧ bits w 0 2 = x4 := by
    refine ⟨?_, ?_, ?_, ?_, ?_, ?_, ?_⟩ <;> simp (disch := decide) only [h, bits_low, bits_high, bits_all] <;> rfl
  obtain ⟨k, c, f0, f1, f2, f3, f4⟩ := f
  refine decode_of_raw ?_ hw
  rw [raw_8 k]
  unfold decodeMemv
  rw [c]
  show (some (Instr.vld128 (bits w 22 2) (bits w 15 7) (bits w 9 6) (bits w 2 7) (bits w 0 2))) = _
  rw [f0, f1, f2, f3, f4]

theorem vst (x0 : BitVec 2) (x1 : BitVec 7) (x2 : BitVec 6) (x3 : BitVec 7) (x4 : BitVec 2) : Statement (.vst x0 x1 x2 x3 x4) := by
  intro _ hw
  generalize hx : encode (.vst x0 x1 x2 x3 x4) = w
  have h (lo len : Nat) : bits w lo len = BitVec.extractLsb' lo len (0x85#8 ++ x0 ++ x1 ++ x2 ++ x3 ++ x4) := by rw [← hx]; rfl
  have f : bits w 28 4 = 8#4 ∧ bits w 24 4 = 5#4 ∧ bits w 22 2 = x0 ∧ bits w 15 7 = x1 ∧ bits w 9 6 = x2 ∧ bits w 2 7 = x3 ∧ bits w 0 2 = x4 := by
    refine ⟨?_, ?_, ?_, ?_, ?_, ?_, ?_⟩ <;> simp (disch := decide) only [h, bits_low, bits_high, bits_all] <;> rfl
  obtain ⟨k, c, f0, f1, f2, f3, f4⟩ := f
  refine decode_of_raw ?_ hw
  rw [raw_8 k]
  unfold decodeMemv
  rw [c]
  show (some (Instr.vst (bits w 22 2) (bits w 15 7) (bits w 9 6) (bits w 2 7) (bits w 0 2))) = _
  rw [f0, f1, f2, f3, f4]

theorem vst8 (x0 : BitVec 2) (x1 : BitVec 7) (x2 : BitVec 6) (x3 : BitVec 7) (x4 : BitVec 2) : Statement (.vst8 x0 x1 x2 x3 x4) := by
  intro _ hw
  generalize hx : encode (.vst8 x0 x1 x2 x3 x4) = w
  have h (lo len : Nat) : bits w lo len = BitVec.extractLsb' lo len (0x86#8 ++ x0 ++ x1 ++ x2 ++ x3 ++ x4) := by rw [← hx]; rfl
  have f : bits w 28 4 = 8#4 ∧ bits w 24 4 = 6#4 ∧ bits w 22 2 = x0 ∧ bits w 15 7 = x1 ∧ bits w 9 6 = x2 ∧ bits w 2 7 = x3 ∧ bits w 0 2 = x4 := by
    refine ⟨?_, ?_, ?_, ?_, ?_, ?_, ?_⟩ <;> simp (disch := decide) only [h, bits_low, bits_high, bits_all] <;> rfl
  obtain ⟨k, c, f0, f1, f2, f3, f4⟩ := f
  refine decode_of_raw ?_ hw
  rw [raw_8 k]
  unfold decodeMemv
  rw [c]
  show (some (Instr.vst8 (bits w 22 2) (bits w 15 7) (bits w 9 6) (bits w 2 7) (bits w 0 2))) = _
  rw [f0, f1, f2, f3, f4]

theorem vst16 (x0 : BitVec 2) (x1 : BitVec 7) (x2 : BitVec 6) (x3 : BitVec 7) (x4 : BitVec 2) : Statement (.vst16 x0 x1 x2 x3 x4) := by
  intro _ hw
  generalize hx : encode (.vst16 x0 x1 x2 x3 x4) = w
  have h (lo len : Nat) : bits w lo len = BitVec.extractLsb' lo len (0x87#8 ++ x0 ++ x1 ++ x2 ++ x3 ++ x4) := by rw [← hx]; rfl
  have f : bits w 28 4 = 8#4 ∧ bits w 24 4 = 7#4 ∧ bits w 22 2 = x0 ∧ bits w 15 7 = x1 ∧ bits w 9 6 = x2 ∧ bits w 2 7 = x3 ∧ bits w 0 2 = x4 := by
    refine ⟨?_, ?_, ?_, ?_, ?_, ?_, ?_⟩ <;> simp (disch := decide) only [h, bits_low, bits_high, bits_all] <;> rfl
  obtain ⟨k, c, f0, f1, f2, f3, f4⟩ := f
  refine decode_of_raw ?_ hw
  rw [raw_8 k]
  unfold decodeMemv
  rw [c]
  show (some (Instr.vst16 (bits w 22 2) (bits w 15 7) (bits w 9 6) (bits w 2 7) (bits w 0 2))) = _
  rw [f0, f1, f2, f3, f4]

theorem vst64 (x0 : BitVec 2) (x1 : BitVec 7) (x2 : BitVec 6) (x3 : BitVec 7) (x4 : BitVec 2) : Statement (.vst64 x0 x1 x2 x3 x4) := by
  intro _ hw
  generalize hx : encode (.vst64 x0 x1 x2 x3 x4) = w
  have h (lo len : Nat) : bits w lo len = BitVec.extractLsb' lo len (0x88#8 ++ x0 ++ x1 ++ x2 ++ x3 ++ x4) := by rw [← hx]; rfl
  have f : bits w 28 4 = 8#4 ∧ bits w 24 4 = 8#4 ∧ bits w 22 2 = x0 ∧ bits w 15 7 = x1 ∧ bits w 9 6 = x2 ∧ bits w 2 7 = x3 ∧ bits w 0 2 = x4 := by
    refine ⟨?_, ?_, ?_, ?_, ?_, ?_, ?_⟩ <;> simp (disch := decide) only [h, bits_low, bits_high, bits_all] <;> rfl
  obtain ⟨k, c, f0, f1, f2, f3, f4⟩ := f
  refine decode_of_raw ?_ hw
  rw [raw_8 k]
  unfold decodeMemv
  rw [c]
  show (some (Instr.vst64 (bits w 22 2) (bits w 15 7) (bits w 9 6) (bits w 2 7) (bits w 0 2))) = _
  rw [f0, f1, f2, f3, f4]

theorem vst128 (x0 : BitVec 2) (x1 : BitVec 7) (x2 : BitVec 6) (x3 : BitVec 7) (x4 : BitVec 2) : Statement (.vst128 x0 x1 x2 x3 x4) := by
  intro _ hw
  generalize hx : encode (.vst128 x0 x1 x2 x3 x4) = w
  have h (lo len : Nat) : bits w lo len = BitVec.extractLsb' lo len (0x89#8 ++ x0 ++ x1 ++ x2 ++ x3 ++ x4) := by rw [← hx]; rfl
  have f : bits w 28 4 = 8#4 ∧ bits w 24 4 = 9#4 ∧ bits w 22 2 = x0 ∧ bits w 15 7 = x1 ∧ bits w 9 6 = x2 ∧ bits w 2 7 = x3 ∧ bits w 0 2 = x4 := by
    refine ⟨?_, ?_, ?_, ?_, ?_, ?_, ?_⟩ <;> simp (disch := decide) only [h, bits_low, bits_high, bits_all] <;> rfl
  obtain ⟨k, c, f0, f1, f2, f3, f4⟩ := f
  refine decode_of_raw ?_ hw
  rw [raw_8 k]
  unfold decodeMemv
  rw [c]
  show (some (Instr.vst128 (bits w 22 2) (bits w 15 7) (bits w 9 6) (bits w 2 7) (bits w 0 2))) = _
  rw [f0, f1, f2, f3, f4]

theorem vldm (x0 : BitVec 2) (x1 : BitVec 7) (x2 : BitVec 6) (x3 : BitVec 7) (x4 : BitVec 2) : Statement (.vldm x0 x1 x2 x3 x4) := by
  intro _ hw
  generalize hx : encode (.vldm x0 x1 x2 x3 x4) = w
  have h (lo len : Nat) : bits w lo len = BitVec.extractLsb' lo len (0x8a#8 ++ x0 ++ x1 ++ x2 ++ x3 ++ x4) := by rw [← hx]; rfl
  have f : bits w 28 4 = 8#4 ∧ bits w 24 4 = 10#4 ∧ bits w 22 2 = x0 ∧ bits w 15 7 = x1 ∧ bits w 9 6 = x2 ∧ bits w 2 7 = x3 ∧ bits w 0 2 = x4 := by
    refine ⟨?_, ?_, ?_, ?_, ?_, ?_, ?_⟩ <;> simp (disch := decide) only [h, bits_low, bits_high, bits_all] <;> rfl
  obtain ⟨k, c, f0, f1, f2, f3, f4⟩ := f
  refine decode_of_raw ?_ hw
  rw [raw_8 k]
  unfold decodeMemv
  rw [c]
  show (some (Instr.vldm (bits w 22 2) (bits w 15 7) (bits w 9 6) (bits w 2 7) (bits w 0 2))) = _
  rw [f0, f1, f2, f3, f4]

theorem vstm (x0 : BitVec 2) (x1 : BitVec 7) (x2 : BitVec 6) (x3 : BitVec 7) (x4 : BitVec 2) : Statement (.vstm x0 x1 x2 x3 x4) := by
  intro _ hw
  generalize hx : encode (.vstm x0 x1 x2 x3 x4) = w
  have h (lo len : Nat) : bits w lo len = BitVec.extractLsb' lo len (0x8b#8 ++ x0 ++ x1 ++ x2 ++ x3 ++ x4) := by rw [← hx]; rfl
  have f : bits w 28 4 = 8#4 ∧ bits w 24 4 = 11#4 ∧ bits w 22 2 = x0 ∧ bits w 15 7 = x1 ∧ bits w 9 6 = x2 ∧ bits w 2 7 = x3 ∧ bits w 0 2 = x4 := by
    refine ⟨?_, ?_, ?_, ?_, ?_, ?_, ?_⟩ <;> simp (disch := decide) only [h, bits_low, bits_high, bits_all] <;> rfl
  obtain ⟨k, c, f0, f1, f2, f3, f4⟩ := f
  refine decode_of_raw ?_ hw
  rw [raw_8 k]
  unfold decodeMemv
  rw [c]
  show (some (Instr.vstm (bits w 22 2) (bits w 15 7) (bits w 9 6) (bits w 2 7) (bits w 0 2))) = _
  rw [f0, f1, f2, f3, f4]

theorem sld (x0 : BitVec 6) (x1 : BitVec 6) (x2 : BitVec 2) (x3 : BitVec 9) : Statement (.sld x0 x1 x2 x3) := by
  intro _ hw
  generalize hx : encode (.sld x0 x1 x2 x3) = w
  have h (lo len : Nat) : bits w lo len = BitVec.extractLsb' lo len (0x120#9 ++ x0 ++ x1 ++ x2 ++ x3) := by rw [← hx]; rfl
  have f : bits w 28 4 = 9#4 ∧ bits w 23 5 = 0#5 ∧ bits w 17 6 = x0 ∧ bits w 11 6 = x1 ∧ bits w 9 2 = x2 ∧ bits w 0 9 = x3 := by
    refine ⟨?_, ?_, ?_, ?_, ?_, ?_⟩ <;> simp (disch := decide) only [h, bits_low, bits_high, bits_all] <;> rfl
  obtain ⟨k, c, f0, f1, f2, f3⟩ := f
  refine decode_of_raw ?_ hw
  rw [raw_9 k]
  unfold decodeMems
  rw [c]
  show (some (Instr.sld (bits w 17 6) (bits w 11 6) (bits w 9 2) (bits w 0 9))) = _
  rw [f0, f1, f2, f3]

theorem sld32 (x0 : BitVec 6) (x1 : BitVec 6) (x2 : BitVec 2) (x3 : BitVec 9) : Statement (.sld32 x0 x1 x2 x3) := by
  intro _ hw
  generalize hx : encode (.sld32 x0 x1 x2 x3) = w
  have h (lo len : Nat) : bits w lo len = BitVec.extractLsb' lo len (0x121#9 ++ x0 ++ x1 ++ x2 ++ x3) := by rw [← hx]; rfl
  have f : bits w 28 4 = 9#4 ∧ bits w 23 5 = 1#5 ∧ bits w 17 6 = x0 ∧ bits w 11 6 = x1 ∧ bits w 9 2 = x2 ∧ bits w 0 9 = x3 := by
    refine ⟨?_, ?_, ?_, ?_, ?_, ?_⟩ <;> simp (disch := decide) only [h, bits_low, bits_high, bits_all] <;> rfl
  obtain ⟨k, c, f0, f1, f2, f3⟩ := f
  refine decode_of_raw ?_ hw
  rw [raw_9 k]
  unfold decodeMems
  rw [c]
  show (some (Instr.sld32 (bits w 17 6) (bits w 11 6) (bits w 9 2) (bits w 0 9))) = _
  rw [f0, f1, f2, f3]

theorem sst (x0 : BitVec 6) (x1 : BitVec 6) (x2 : BitVec 2) (x3 : BitVec 9) : Statement (.sst x0 x1 x2 x3) := by
  intro _ hw
  generalize hx : encode (.sst x0 x1 x2 x3) = w
  have h (lo len : Nat) : bits w lo len = BitVec.extractLsb' lo len (0x122#9 ++ x0 ++ x1 ++ x2 ++ x3) := by rw [← hx]; rfl
  have f : bits w 28 4 = 9#4 ∧ bits w 23 5 = 2#5 ∧ bits w 17 6 = x0 ∧ bits w 11 6 = x1 ∧ bits w 9 2 = x2 ∧ bits w 0 9 = x3 := by
    refine ⟨?_, ?_, ?_, ?_, ?_, ?_⟩ <;> simp (disch := decide) only [h, bits_low, bits_high, bits_all] <;> rfl
  obtain ⟨k, c, f0, f1, f2, f3⟩ := f
  refine decode_of_raw ?_ hw
  rw [raw_9 k]
  unfold decodeMems
  rw [c]
  show (some (Instr.sst (bits w 17 6) (bits w 11 6) (bits w 9 2) (bits w 0 9))) = _
  rw [f0, f1, f2, f3]

theorem sst32 (x0 : BitVec 6) (x1 : BitVec 6) (x2 : BitVec 2) (x3 : BitVec 9) : Statement (.sst32 x0 x1 x2 x3) := by
  intro _ hw
  generalize hx : encode (.sst32 x0 x1 x2 x3) = w
  have h (lo len : Nat) : bits w lo len = BitVec.extractLsb' lo len (0x123#9 ++ x0 ++ x1 ++ x2 ++ x3) := by rw [← hx]; rfl
  have f : bits w 28 4 = 9#4 ∧ bits w 23 5 = 3#5 ∧ bits w 17 6 = x0 ∧ bits w 11 6 = x1 ∧ bits w 9 2 = x2 ∧ bits w 0 9 = x3 := by
    refine ⟨?_, ?_, ?_, ?_, ?_, ?_⟩ <;> simp (disch := decide) only [h, bits_low, bits_high, bits_all] <;> rfl
  obtain ⟨k, c, f0, f1, f2, f3⟩ := f
  refine decode_of_raw ?_ hw
  rw [raw_9 k]
  unfold decodeMems
  rw [c]
  show (some (Instr.sst32 (bits w 17 6) (bits w 11 6) (bits w 9 2) (bits w 0 9))) = _
  rw [f0, f1, f2, f3]

theorem sldm (x0 : BitVec 6) (x1 : BitVec 6) (x2 : BitVec 2) (x3 : BitVec 9) : Statement (.sldm x0 x1 x2 x3) := by
  intro _ hw
  generalize hx : encode (.sldm x0 x1 x2 x3) = w
  have h (lo len : Nat) : bits w lo len = BitVec.extractLsb' lo len (0x124#9 ++ x0 ++ x1 ++ x2 ++ x3) := by rw [← hx]; rfl
  have f : bits w 28 4 = 9#4 ∧ bits w 23 5 = 4#5 ∧ bits w 17 6 = x0 ∧ bits w 11 6 = x1 ∧ bits w 9 2 = x2 ∧ bits w 0 9 = x3 := by
    refine ⟨?_, ?_, ?_, ?_, ?_, ?_⟩ <;> simp (disch := decide) only [h, bits_low, bits_high, bits_all] <;> rfl
  obtain ⟨k, c, f0, f1, f2, f3⟩ := f
  refine decode_of_raw ?_ hw
  rw [raw_9 k]
  unfold decodeMems
  rw [c]
  show (some (Instr.sldm (bits w 17 6) (bits w 11 6) (bits w 9 2) (bits w 0 9))) = _
  rw [f0, f1, f2, f3]

theorem sstm (x0 : BitVec 6) (x1 : BitVec 6) (x2 : BitVec 2) (x3 : BitVec 9) : Statement (.sstm x0 x1 x2 x3) := by
  intro _ hw
  generalize hx : encode (.sstm x0 x1 x2 x3) = w
  have h (lo len : Nat) : bits w lo len = BitVec.extractLsb' lo len (0x125#9 ++ x0 ++ x1 ++ x2 ++ x3) := by rw [← hx]; rfl
  have f : bits w 28 4 = 9#4 ∧ bits w 23 5 = 5#5 ∧ bits w 17 6 = x0 ∧ bits w 11 6 = x1 ∧ bits w 9 2 = x2 ∧ bits w 0 9 = x3 := by
    refine ⟨?_, ?_, ?_, ?_, ?_, ?_⟩ <;> simp (disch := decide) only [h, bits_low, bits_high, bits_all] <;> rfl
  obtain ⟨k, c, f0, f1, f2, f3⟩ := f
  refine decode_of_raw ?_ hw
  rw [raw_9 k]
  unfold decodeMems
  rw [c]
  show (some (Instr.sstm (bits w 17 6) (bits w 11 6) (bits w 9 2) (bits w 0 9))) = _
  rw [f0, f1, f2, f3]

theorem scas (x0 : BitVec 6) (x1 : BitVec 6) (x2 : BitVec 2) (x3 : BitVec 9) : Statement (.scas x0 x1 x2 x3) := by
  intro _ hw
  generalize hx : encode (.scas x0 x1 x2 x3) = w
  have h (lo len : Nat) : bits w lo len = BitVec.extractLsb' lo len (0x126#9 ++ x0 ++ x1 ++ x2 ++ x3) := by rw [← hx]; rfl
  have f : bits w 28 4 = 9#4 ∧ bits w 23 5 = 6#5 ∧ bits w 17 6 = x0 ∧ bits w 11 6 = x1 ∧ bits w 9 2 = x2 ∧ bits w 0 9 = x3 := by
    refine ⟨?_, ?_, ?_, ?_, ?_, ?_⟩ <;> simp (disch := decide) only [h, bits_low, bits_high, bits_all] <;> rfl
  obtain ⟨k, c, f0, f1, f2, f3⟩ := f
  refine decode_of_raw ?_ hw
  rw [raw_9 k]
  unfold decodeMems
  rw [c]
  show (some (Instr.scas (bits w 17 6) (bits w 11 6) (bits w 9 2) (bits w 0 9))) = _
  rw [f0, f1, f2, f3]

theorem samo (x0 : BitVec 6) (x1 : BitVec 6) (x2 : BitVec 2) (x3 : BitVec 9) : Statement (.samo x0 x1 x2 x3) := by
  intro _ hw
  generalize hx : encode (.samo x0 x1 x2 x3) = w
  have h (lo len : Nat) : bits w lo len = BitVec.extractLsb' lo len (0x127#9 ++ x0 ++ x1 ++ x2 ++ x3) := by rw [← hx]; rfl
  have f : bits w 28 4 = 9#4 ∧ bits w 23 5 = 7#5 ∧ bits w 17 6 = x0 ∧ bits w 11 6 = x1 ∧ bits w 9 2 = x2 ∧ bits w 0 9 = x3 := by
    refine ⟨?_, ?_, ?_, ?_, ?_, ?_⟩ <;> simp (disch := decide) only [h, bits_low, bits_high, bits_all] <;> rfl
  obtain ⟨k, c, f0, f1, f2, f3⟩ := f
  refine decode_of_raw ?_ hw
  rw [raw_9 k]
  unfold decodeMems
  rw [c]
  show (some (Instr.samo (bits w 17 6) (bits w 11 6) (bits w 9 2) (bits w 0 9))) = _
  rw [f0, f1, f2, f3]

theorem binit (x0 : BitVec 6) (x1 : BitVec 6) (x2 : BitVec 2) (x3 : BitVec 9) : Statement (.binit x0 x1 x2 x3) := by
  intro _ hw
  generalize hx : encode (.binit x0 x1 x2 x3) = w
  have h (lo len : Nat) : bits w lo len = BitVec.extractLsb' lo len (0x128#9 ++ x0 ++ x1 ++ x2 ++ x3) := by rw [← hx]; rfl
  have f : bits w 28 4 = 9#4 ∧ bits w 23 5 = 8#5 ∧ bits w 17 6 = x0 ∧ bits w 11 6 = x1 ∧ bits w 9 2 = x2 ∧ bits w 0 9 = x3 := by
    refine ⟨?_, ?_, ?_, ?_, ?_, ?_⟩ <;> simp (disch := decide) only [h, bits_low, bits_high, bits_all] <;> rfl
  obtain ⟨k, c, f0, f1, f2, f3⟩ := f
  refine decode_of_raw ?_ hw
  rw [raw_9 k]
  unfold decodeMems
  rw [c]
  show (some (Instr.binit (bits w 17 6) (bits w 11 6) (bits w 9 2) (bits w 0 9))) = _
  rw [f0, f1, f2, f3]

theorem barv (x0 : BitVec 6) (x1 : BitVec 6) (x2 : BitVec 2) (x3 : BitVec 9) : Statement (.barv x0 x1 x2 x3) := by
  intro _ hw
  generalize hx : encode (.barv x0 x1 x2 x3) = w
  have h (lo len : Nat) : bits w lo len = BitVec.extractLsb' lo len (0x129#9 ++ x0 ++ x1 ++ x2 ++ x3) := by rw [← hx]; rfl
  have f : bits w 28 4 = 9#4 ∧ bits w 23 5 = 9#5 ∧ bits w 17 6 = x0 ∧ bits w 11 6 = x1 ∧ bits w 9 2 = x2 ∧ bits w 0 9 = x3 := by
    refine ⟨?_, ?_, ?_, ?_, ?_, ?_⟩ <;> simp (disch := decide) only [h, bits_low, bits_high, bits_all] <;> rfl
  obtain ⟨k, c, f0, f1, f2, f3⟩ := f
  refine decode_of_raw ?_ hw
  rw [raw_9 k]
  unfold decodeMems
  rw [c]
  show (some (Instr.barv (bits w 17 6) (bits w 11 6) (bits w 9 2) (bits w 0 9))) = _
  rw [f0, f1, f2, f3]

theorem barb (x0 : BitVec 6) (x1 : BitVec 6) (x2 : BitVec 2) (x3 : BitVec 9) : Statement (.barb x0 x1 x2 x3) := by
  intro _ hw
  generalize hx : encode (.barb x0 x1 x2 x3) = w
  have h (lo len : Nat) : bits w lo len = BitVec.extractLsb' lo len (0x12a#9 ++ x0 ++ x1 ++ x2 ++ x3) := by rw [← hx]; rfl
  have f : bits w 28 4 = 9#4 ∧ bits w 23 5 = 10#5 ∧ bits w 17 6 = x0 ∧ bits w 11 6 = x1 ∧ bits w 9 2 = x2 ∧ bits w 0 9 = x3 := by
    refine ⟨?_, ?_, ?_, ?_, ?_, ?_⟩ <;> simp (disch := decide) only [h, bits_low, bits_high, bits_all] <;> rfl
  obtain ⟨k, c, f0, f1, f2, f3⟩ := f
  refine decode_of_raw ?_ hw
  rw [raw_9 k]
  unfold decodeMems
  rw [c]
  show (some (Instr.barb (bits w 17 6) (bits w 11 6) (bits w 9 2) (bits w 0 9))) = _
  rw [f0, f1, f2, f3]

theorem waitp (x0 : BitVec 6) (x1 : BitVec 6) (x2 : BitVec 2) (x3 : BitVec 9) : Statement (.waitp x0 x1 x2 x3) := by
  intro _ hw
  generalize hx : encode (.waitp x0 x1 x2 x3) = w
  have h (lo len : Nat) : bits w lo len = BitVec.extractLsb' lo len (0x12b#9 ++ x0 ++ x1 ++ x2 ++ x3) := by rw [← hx]; rfl
  have f : bits w 28 4 = 9#4 ∧ bits w 23 5 = 11#5 ∧ bits w 17 6 = x0 ∧ bits w 11 6 = x1 ∧ bits w 9 2 = x2 ∧ bits w 0 9 = x3 := by
    refine ⟨?_, ?_, ?_, ?_, ?_, ?_⟩ <;> simp (disch := decide) only [h, bits_low, bits_high, bits_all] <;> rfl
  obtain ⟨k, c, f0, f1, f2, f3⟩ := f
  refine decode_of_raw ?_ hw
  rw [raw_9 k]
  unfold decodeMems
  rw [c]
  show (some (Instr.waitp (bits w 17 6) (bits w 11 6) (bits w 9 2) (bits w 0 9))) = _
  rw [f0, f1, f2, f3]

theorem bphase (x0 : BitVec 6) (x1 : BitVec 6) (x2 : BitVec 2) (x3 : BitVec 9) : Statement (.bphase x0 x1 x2 x3) := by
  intro _ hw
  generalize hx : encode (.bphase x0 x1 x2 x3) = w
  have h (lo len : Nat) : bits w lo len = BitVec.extractLsb' lo len (0x12c#9 ++ x0 ++ x1 ++ x2 ++ x3) := by rw [← hx]; rfl
  have f : bits w 28 4 = 9#4 ∧ bits w 23 5 = 12#5 ∧ bits w 17 6 = x0 ∧ bits w 11 6 = x1 ∧ bits w 9 2 = x2 ∧ bits w 0 9 = x3 := by
    refine ⟨?_, ?_, ?_, ?_, ?_, ?_⟩ <;> simp (disch := decide) only [h, bits_low, bits_high, bits_all] <;> rfl
  obtain ⟨k, c, f0, f1, f2, f3⟩ := f
  refine decode_of_raw ?_ hw
  rw [raw_9 k]
  unfold decodeMems
  rw [c]
  show (some (Instr.bphase (bits w 17 6) (bits w 11 6) (bits w 9 2) (bits w 0 9))) = _
  rw [f0, f1, f2, f3]

theorem bind (x0 : BitVec 6) (x1 : BitVec 6) (x2 : BitVec 2) (x3 : BitVec 9) : Statement (.bind x0 x1 x2 x3) := by
  intro _ hw
  generalize hx : encode (.bind x0 x1 x2 x3) = w
  have h (lo len : Nat) : bits w lo len = BitVec.extractLsb' lo len (0x12d#9 ++ x0 ++ x1 ++ x2 ++ x3) := by rw [← hx]; rfl
  have f : bits w 28 4 = 9#4 ∧ bits w 23 5 = 13#5 ∧ bits w 17 6 = x0 ∧ bits w 11 6 = x1 ∧ bits w 9 2 = x2 ∧ bits w 0 9 = x3 := by
    refine ⟨?_, ?_, ?_, ?_, ?_, ?_⟩ <;> simp (disch := decide) only [h, bits_low, bits_high, bits_all] <;> rfl
  obtain ⟨k, c, f0, f1, f2, f3⟩ := f
  refine decode_of_raw ?_ hw
  rw [raw_9 k]
  unfold decodeMems
  rw [c]
  show (some (Instr.bind (bits w 17 6) (bits w 11 6) (bits w 9 2) (bits w 0 9))) = _
  rw [f0, f1, f2, f3]

theorem unbind (x0 : BitVec 6) (x1 : BitVec 6) (x2 : BitVec 2) (x3 : BitVec 9) : Statement (.unbind x0 x1 x2 x3) := by
  intro _ hw
  generalize hx : encode (.unbind x0 x1 x2 x3) = w
  have h (lo len : Nat) : bits w lo len = BitVec.extractLsb' lo len (0x12e#9 ++ x0 ++ x1 ++ x2 ++ x3) := by rw [← hx]; rfl
  have f : bits w 28 4 = 9#4 ∧ bits w 23 5 = 14#5 ∧ bits w 17 6 = x0 ∧ bits w 11 6 = x1 ∧ bits w 9 2 = x2 ∧ bits w 0 9 = x3 := by
    refine ⟨?_, ?_, ?_, ?_, ?_, ?_⟩ <;> simp (disch := decide) only [h, bits_low, bits_high, bits_all] <;> rfl
  obtain ⟨k, c, f0, f1, f2, f3⟩ := f
  refine decode_of_raw ?_ hw
  rw [raw_9 k]
  unfold decodeMems
  rw [c]
  show (some (Instr.unbind (bits w 17 6) (bits w 11 6) (bits w 9 2) (bits w 0 9))) = _
  rw [f0, f1, f2, f3]

theorem rgacq (x0 : BitVec 6) (x1 : BitVec 6) (x2 : BitVec 2) (x3 : BitVec 9) : Statement (.rgacq x0 x1 x2 x3) := by
  intro _ hw
  generalize hx : encode (.rgacq x0 x1 x2 x3) = w
  have h (lo len : Nat) : bits w lo len = BitVec.extractLsb' lo len (0x12f#9 ++ x0 ++ x1 ++ x2 ++ x3) := by rw [← hx]; rfl
  have f : bits w 28 4 = 9#4 ∧ bits w 23 5 = 15#5 ∧ bits w 17 6 = x0 ∧ bits w 11 6 = x1 ∧ bits w 9 2 = x2 ∧ bits w 0 9 = x3 := by
    refine ⟨?_, ?_, ?_, ?_, ?_, ?_⟩ <;> simp (disch := decide) only [h, bits_low, bits_high, bits_all] <;> rfl
  obtain ⟨k, c, f0, f1, f2, f3⟩ := f
  refine decode_of_raw ?_ hw
  rw [raw_9 k]
  unfold decodeMems
  rw [c]
  show (some (Instr.rgacq (bits w 17 6) (bits w 11 6) (bits w 9 2) (bits w 0 9))) = _
  rw [f0, f1, f2, f3]

theorem rgrel (x0 : BitVec 6) (x1 : BitVec 2) (x2 : BitVec 9) : Statement (.rgrel x0 x1 x2) := by
  intro _ hw
  generalize hx : encode (.rgrel x0 x1 x2) = w
  have h (lo len : Nat) : bits w lo len = BitVec.extractLsb' lo len (0x4c00#15 ++ x0 ++ x1 ++ x2) := by rw [← hx]; rfl
  have f : bits w 28 4 = 9#4 ∧ bits w 23 5 = 16#5 ∧ bits w 17 6 = 0 ∧ bits w 11 6 = x0 ∧ bits w 9 2 = x1 ∧ bits w 0 9 = x2 := by
    refine ⟨?_, ?_, ?_, ?_, ?_, ?_⟩ <;> simp (disch := decide) only [h, bits_low, bits_high, bits_all] <;> rfl
  obtain ⟨k, c, f0, f1, f2, f3⟩ := f
  refine decode_of_raw ?_ hw
  rw [raw_9 k]
  unfold decodeMems
  rw [c]
  show (if bits w 17 6 = 0 then some (Instr.rgrel (bits w 11 6) (bits w 9 2) (bits w 0 9)) else none) = _
  rw [f0, f1, f2, f3]
  rfl

theorem tkwait (x0 : BitVec 6) (x1 : BitVec 2) (x2 : BitVec 9) : Statement (.tkwait x0 x1 x2) := by
  intro _ hw
  generalize hx : encode (.tkwait x0 x1 x2) = w
  have h (lo len : Nat) : bits w lo len = BitVec.extractLsb' lo len (0x4c40#15 ++ x0 ++ x1 ++ x2) := by rw [← hx]; rfl
  have f : bits w 28 4 = 9#4 ∧ bits w 23 5 = 17#5 ∧ bits w 17 6 = 0 ∧ bits w 11 6 = x0 ∧ bits w 9 2 = x1 ∧ bits w 0 9 = x2 := by
    refine ⟨?_, ?_, ?_, ?_, ?_, ?_⟩ <;> simp (disch := decide) only [h, bits_low, bits_high, bits_all] <;> rfl
  obtain ⟨k, c, f0, f1, f2, f3⟩ := f
  refine decode_of_raw ?_ hw
  rw [raw_9 k]
  unfold decodeMems
  rw [c]
  show (if bits w 17 6 = 0 then some (Instr.tkwait (bits w 11 6) (bits w 9 2) (bits w 0 9)) else none) = _
  rw [f0, f1, f2, f3]
  rfl

theorem tkpass (x0 : BitVec 6) (x1 : BitVec 2) (x2 : BitVec 9) : Statement (.tkpass x0 x1 x2) := by
  intro _ hw
  generalize hx : encode (.tkpass x0 x1 x2) = w
  have h (lo len : Nat) : bits w lo len = BitVec.extractLsb' lo len (0x4c80#15 ++ x0 ++ x1 ++ x2) := by rw [← hx]; rfl
  have f : bits w 28 4 = 9#4 ∧ bits w 23 5 = 18#5 ∧ bits w 17 6 = 0 ∧ bits w 11 6 = x0 ∧ bits w 9 2 = x1 ∧ bits w 0 9 = x2 := by
    refine ⟨?_, ?_, ?_, ?_, ?_, ?_⟩ <;> simp (disch := decide) only [h, bits_low, bits_high, bits_all] <;> rfl
  obtain ⟨k, c, f0, f1, f2, f3⟩ := f
  refine decode_of_raw ?_ hw
  rw [raw_9 k]
  unfold decodeMems
  rw [c]
  show (if bits w 17 6 = 0 then some (Instr.tkpass (bits w 11 6) (bits w 9 2) (bits w 0 9)) else none) = _
  rw [f0, f1, f2, f3]
  rfl

theorem vaadd (x0 : BitVec 2) (x1 : BitVec 7) (x2 : BitVec 7) (x3 : BitVec 7) : Statement (.vaadd x0 x1 x2 x3) := by
  intro _ hw
  generalize hx : encode (.vaadd x0 x1 x2 x3) = w
  have h (lo len : Nat) : bits w lo len = BitVec.extractLsb' lo len (0x140#9 ++ x0 ++ x1 ++ x2 ++ x3) := by rw [← hx]; rfl
  have f : bits w 28 4 = 10#4 ∧ bits w 23 5 = 0#5 ∧ bits w 21 2 = x0 ∧ bits w 14 7 = x1 ∧ bits w 7 7 = x2 ∧ bits w 0 7 = x3 := by
    refine ⟨?_, ?_, ?_, ?_, ?_, ?_⟩ <;> simp (disch := decide) only [h, bits_low, bits_high, bits_all] <;> rfl
  obtain ⟨k, c, f0, f1, f2, f3⟩ := f
  refine decode_of_raw ?_ hw
  rw [raw_10 k]
  unfold decodeAtom
  rw [c]
  show (some (Instr.vaadd (bits w 21 2) (bits w 14 7) (bits w 7 7) (bits w 0 7))) = _
  rw [f0, f1, f2, f3]

theorem vamin (x0 : BitVec 2) (x1 : BitVec 7) (x2 : BitVec 7) (x3 : BitVec 7) : Statement (.vamin x0 x1 x2 x3) := by
  intro _ hw
  generalize hx : encode (.vamin x0 x1 x2 x3) = w
  have h (lo len : Nat) : bits w lo len = BitVec.extractLsb' lo len (0x141#9 ++ x0 ++ x1 ++ x2 ++ x3) := by rw [← hx]; rfl
  have f : bits w 28 4 = 10#4 ∧ bits w 23 5 = 1#5 ∧ bits w 21 2 = x0 ∧ bits w 14 7 = x1 ∧ bits w 7 7 = x2 ∧ bits w 0 7 = x3 := by
    refine ⟨?_, ?_, ?_, ?_, ?_, ?_⟩ <;> simp (disch := decide) only [h, bits_low, bits_high, bits_all] <;> rfl
  obtain ⟨k, c, f0, f1, f2, f3⟩ := f
  refine decode_of_raw ?_ hw
  rw [raw_10 k]
  unfold decodeAtom
  rw [c]
  show (some (Instr.vamin (bits w 21 2) (bits w 14 7) (bits w 7 7) (bits w 0 7))) = _
  rw [f0, f1, f2, f3]

theorem vamax (x0 : BitVec 2) (x1 : BitVec 7) (x2 : BitVec 7) (x3 : BitVec 7) : Statement (.vamax x0 x1 x2 x3) := by
  intro _ hw
  generalize hx : encode (.vamax x0 x1 x2 x3) = w
  have h (lo len : Nat) : bits w lo len = BitVec.extractLsb' lo len (0x142#9 ++ x0 ++ x1 ++ x2 ++ x3) := by rw [← hx]; rfl
  have f : bits w 28 4 = 10#4 ∧ bits w 23 5 = 2#5 ∧ bits w 21 2 = x0 ∧ bits w 14 7 = x1 ∧ bits w 7 7 = x2 ∧ bits w 0 7 = x3 := by
    refine ⟨?_, ?_, ?_, ?_, ?_, ?_⟩ <;> simp (disch := decide) only [h, bits_low, bits_high, bits_all] <;> rfl
  obtain ⟨k, c, f0, f1, f2, f3⟩ := f
  refine decode_of_raw ?_ hw
  rw [raw_10 k]
  unfold decodeAtom
  rw [c]
  show (some (Instr.vamax (bits w 21 2) (bits w 14 7) (bits w 7 7) (bits w 0 7))) = _
  rw [f0, f1, f2, f3]

theorem vaand (x0 : BitVec 2) (x1 : BitVec 7) (x2 : BitVec 7) (x3 : BitVec 7) : Statement (.vaand x0 x1 x2 x3) := by
  intro _ hw
  generalize hx : encode (.vaand x0 x1 x2 x3) = w
  have h (lo len : Nat) : bits w lo len = BitVec.extractLsb' lo len (0x143#9 ++ x0 ++ x1 ++ x2 ++ x3) := by rw [← hx]; rfl
  have f : bits w 28 4 = 10#4 ∧ bits w 23 5 = 3#5 ∧ bits w 21 2 = x0 ∧ bits w 14 7 = x1 ∧ bits w 7 7 = x2 ∧ bits w 0 7 = x3 := by
    refine ⟨?_, ?_, ?_, ?_, ?_, ?_⟩ <;> simp (disch := decide) only [h, bits_low, bits_high, bits_all] <;> rfl
  obtain ⟨k, c, f0, f1, f2, f3⟩ := f
  refine decode_of_raw ?_ hw
  rw [raw_10 k]
  unfold decodeAtom
  rw [c]
  show (some (Instr.vaand (bits w 21 2) (bits w 14 7) (bits w 7 7) (bits w 0 7))) = _
  rw [f0, f1, f2, f3]

theorem vaor (x0 : BitVec 2) (x1 : BitVec 7) (x2 : BitVec 7) (x3 : BitVec 7) : Statement (.vaor x0 x1 x2 x3) := by
  intro _ hw
  generalize hx : encode (.vaor x0 x1 x2 x3) = w
  have h (lo len : Nat) : bits w lo len = BitVec.extractLsb' lo len (0x144#9 ++ x0 ++ x1 ++ x2 ++ x3) := by rw [← hx]; rfl
  have f : bits w 28 4 = 10#4 ∧ bits w 23 5 = 4#5 ∧ bits w 21 2 = x0 ∧ bits w 14 7 = x1 ∧ bits w 7 7 = x2 ∧ bits w 0 7 = x3 := by
    refine ⟨?_, ?_, ?_, ?_, ?_, ?_⟩ <;> simp (disch := decide) only [h, bits_low, bits_high, bits_all] <;> rfl
  obtain ⟨k, c, f0, f1, f2, f3⟩ := f
  refine decode_of_raw ?_ hw
  rw [raw_10 k]
  unfold decodeAtom
  rw [c]
  show (some (Instr.vaor (bits w 21 2) (bits w 14 7) (bits w 7 7) (bits w 0 7))) = _
  rw [f0, f1, f2, f3]

theorem vaxor (x0 : BitVec 2) (x1 : BitVec 7) (x2 : BitVec 7) (x3 : BitVec 7) : Statement (.vaxor x0 x1 x2 x3) := by
  intro _ hw
  generalize hx : encode (.vaxor x0 x1 x2 x3) = w
  have h (lo len : Nat) : bits w lo len = BitVec.extractLsb' lo len (0x145#9 ++ x0 ++ x1 ++ x2 ++ x3) := by rw [← hx]; rfl
  have f : bits w 28 4 = 10#4 ∧ bits w 23 5 = 5#5 ∧ bits w 21 2 = x0 ∧ bits w 14 7 = x1 ∧ bits w 7 7 = x2 ∧ bits w 0 7 = x3 := by
    refine ⟨?_, ?_, ?_, ?_, ?_, ?_⟩ <;> simp (disch := decide) only [h, bits_low, bits_high, bits_all] <;> rfl
  obtain ⟨k, c, f0, f1, f2, f3⟩ := f
  refine decode_of_raw ?_ hw
  rw [raw_10 k]
  unfold decodeAtom
  rw [c]
  show (some (Instr.vaxor (bits w 21 2) (bits w 14 7) (bits w 7 7) (bits w 0 7))) = _
  rw [f0, f1, f2, f3]

theorem vaxch (x0 : BitVec 2) (x1 : BitVec 7) (x2 : BitVec 7) (x3 : BitVec 7) : Statement (.vaxch x0 x1 x2 x3) := by
  intro _ hw
  generalize hx : encode (.vaxch x0 x1 x2 x3) = w
  have h (lo len : Nat) : bits w lo len = BitVec.extractLsb' lo len (0x146#9 ++ x0 ++ x1 ++ x2 ++ x3) := by rw [← hx]; rfl
  have f : bits w 28 4 = 10#4 ∧ bits w 23 5 = 6#5 ∧ bits w 21 2 = x0 ∧ bits w 14 7 = x1 ∧ bits w 7 7 = x2 ∧ bits w 0 7 = x3 := by
    refine ⟨?_, ?_, ?_, ?_, ?_, ?_⟩ <;> simp (disch := decide) only [h, bits_low, bits_high, bits_all] <;> rfl
  obtain ⟨k, c, f0, f1, f2, f3⟩ := f
  refine decode_of_raw ?_ hw
  rw [raw_10 k]
  unfold decodeAtom
  rw [c]
  show (some (Instr.vaxch (bits w 21 2) (bits w 14 7) (bits w 7 7) (bits w 0 7))) = _
  rw [f0, f1, f2, f3]

theorem vacas (x0 : BitVec 2) (x1 : BitVec 7) (x2 : BitVec 7) (x3 : BitVec 7) : Statement (.vacas x0 x1 x2 x3) := by
  intro _ hw
  generalize hx : encode (.vacas x0 x1 x2 x3) = w
  have h (lo len : Nat) : bits w lo len = BitVec.extractLsb' lo len (0x147#9 ++ x0 ++ x1 ++ x2 ++ x3) := by rw [← hx]; rfl
  have f : bits w 28 4 = 10#4 ∧ bits w 23 5 = 7#5 ∧ bits w 21 2 = x0 ∧ bits w 14 7 = x1 ∧ bits w 7 7 = x2 ∧ bits w 0 7 = x3 := by
    refine ⟨?_, ?_, ?_, ?_, ?_, ?_⟩ <;> simp (disch := decide) only [h, bits_low, bits_high, bits_all] <;> rfl
  obtain ⟨k, c, f0, f1, f2, f3⟩ := f
  refine decode_of_raw ?_ hw
  rw [raw_10 k]
  unfold decodeAtom
  rw [c]
  show (some (Instr.vacas (bits w 21 2) (bits w 14 7) (bits w 7 7) (bits w 0 7))) = _
  rw [f0, f1, f2, f3]

theorem vafadd (x0 : BitVec 2) (x1 : BitVec 7) (x2 : BitVec 7) (x3 : BitVec 7) : Statement (.vafadd x0 x1 x2 x3) := by
  intro _ hw
  generalize hx : encode (.vafadd x0 x1 x2 x3) = w
  have h (lo len : Nat) : bits w lo len = BitVec.extractLsb' lo len (0x148#9 ++ x0 ++ x1 ++ x2 ++ x3) := by rw [← hx]; rfl
  have f : bits w 28 4 = 10#4 ∧ bits w 23 5 = 8#5 ∧ bits w 21 2 = x0 ∧ bits w 14 7 = x1 ∧ bits w 7 7 = x2 ∧ bits w 0 7 = x3 := by
    refine ⟨?_, ?_, ?_, ?_, ?_, ?_⟩ <;> simp (disch := decide) only [h, bits_low, bits_high, bits_all] <;> rfl
  obtain ⟨k, c, f0, f1, f2, f3⟩ := f
  refine decode_of_raw ?_ hw
  rw [raw_10 k]
  unfold decodeAtom
  rw [c]
  show (some (Instr.vafadd (bits w 21 2) (bits w 14 7) (bits w 7 7) (bits w 0 7))) = _
  rw [f0, f1, f2, f3]

theorem vradd (x0 : BitVec 2) (x1 : BitVec 7) (x2 : BitVec 7) : Statement (.vradd x0 x1 x2) := by
  intro _ hw
  generalize hx : encode (.vradd x0 x1 x2) = w
  have h (lo len : Nat) : bits w lo len = BitVec.extractLsb' lo len (0x149#9 ++ x0 ++ 0x0#7 ++ x1 ++ x2) := by rw [← hx]; rfl
  have f : bits w 28 4 = 10#4 ∧ bits w 23 5 = 9#5 ∧ bits w 14 7 = 0 ∧ bits w 21 2 = x0 ∧ bits w 7 7 = x1 ∧ bits w 0 7 = x2 := by
    refine ⟨?_, ?_, ?_, ?_, ?_, ?_⟩ <;> simp (disch := decide) only [h, bits_low, bits_high, bits_all] <;> rfl
  obtain ⟨k, c, f0, f1, f2, f3⟩ := f
  refine decode_of_raw ?_ hw
  rw [raw_10 k]
  unfold decodeAtom
  rw [c]
  show (if bits w 14 7 = 0 then some (Instr.vradd (bits w 21 2) (bits w 7 7) (bits w 0 7)) else none) = _
  rw [f0, f1, f2, f3]
  rfl

theorem vrfadd (x0 : BitVec 2) (x1 : BitVec 7) (x2 : BitVec 7) : Statement (.vrfadd x0 x1 x2) := by
  intro _ hw
  generalize hx : encode (.vrfadd x0 x1 x2) = w
  have h (lo len : Nat) : bits w lo len = BitVec.extractLsb' lo len (0x14a#9 ++ x0 ++ 0x0#7 ++ x1 ++ x2) := by rw [← hx]; rfl
  have f : bits w 28 4 = 10#4 ∧ bits w 23 5 = 10#5 ∧ bits w 14 7 = 0 ∧ bits w 21 2 = x0 ∧ bits w 7 7 = x1 ∧ bits w 0 7 = x2 := by
    refine ⟨?_, ?_, ?_, ?_, ?_, ?_⟩ <;> simp (disch := decide) only [h, bits_low, bits_high, bits_all] <;> rfl
  obtain ⟨k, c, f0, f1, f2, f3⟩ := f
  refine decode_of_raw ?_ hw
  rw [raw_10 k]
  unfold decodeAtom
  rw [c]
  show (if bits w 14 7 = 0 then some (Instr.vrfadd (bits w 21 2) (bits w 7 7) (bits w 0 7)) else none) = _
  rw [f0, f1, f2, f3]
  rfl

theorem vrmin (x0 : BitVec 2) (x1 : BitVec 7) (x2 : BitVec 7) : Statement (.vrmin x0 x1 x2) := by
  intro _ hw
  generalize hx : encode (.vrmin x0 x1 x2) = w
  have h (lo len : Nat) : bits w lo len = BitVec.extractLsb' lo len (0x14b#9 ++ x0 ++ 0x0#7 ++ x1 ++ x2) := by rw [← hx]; rfl
  have f : bits w 28 4 = 10#4 ∧ bits w 23 5 = 11#5 ∧ bits w 14 7 = 0 ∧ bits w 21 2 = x0 ∧ bits w 7 7 = x1 ∧ bits w 0 7 = x2 := by
    refine ⟨?_, ?_, ?_, ?_, ?_, ?_⟩ <;> simp (disch := decide) only [h, bits_low, bits_high, bits_all] <;> rfl
  obtain ⟨k, c, f0, f1, f2, f3⟩ := f
  refine decode_of_raw ?_ hw
  rw [raw_10 k]
  unfold decodeAtom
  rw [c]
  show (if bits w 14 7 = 0 then some (Instr.vrmin (bits w 21 2) (bits w 7 7) (bits w 0 7)) else none) = _
  rw [f0, f1, f2, f3]
  rfl

theorem vrmax (x0 : BitVec 2) (x1 : BitVec 7) (x2 : BitVec 7) : Statement (.vrmax x0 x1 x2) := by
  intro _ hw
  generalize hx : encode (.vrmax x0 x1 x2) = w
  have h (lo len : Nat) : bits w lo len = BitVec.extractLsb' lo len (0x14c#9 ++ x0 ++ 0x0#7 ++ x1 ++ x2) := by rw [← hx]; rfl
  have f : bits w 28 4 = 10#4 ∧ bits w 23 5 = 12#5 ∧ bits w 14 7 = 0 ∧ bits w 21 2 = x0 ∧ bits w 7 7 = x1 ∧ bits w 0 7 = x2 := by
    refine ⟨?_, ?_, ?_, ?_, ?_, ?_⟩ <;> simp (disch := decide) only [h, bits_low, bits_high, bits_all] <;> rfl
  obtain ⟨k, c, f0, f1, f2, f3⟩ := f
  refine decode_of_raw ?_ hw
  rw [raw_10 k]
  unfold decodeAtom
  rw [c]
  show (if bits w 14 7 = 0 then some (Instr.vrmax (bits w 21 2) (bits w 7 7) (bits w 0 7)) else none) = _
  rw [f0, f1, f2, f3]
  rfl

theorem vrx96 (x0 : BitVec 2) (x1 : BitVec 7) (x2 : BitVec 7) : Statement (.vrx96 x0 x1 x2) := by
  intro _ hw
  generalize hx : encode (.vrx96 x0 x1 x2) = w
  have h (lo len : Nat) : bits w lo len = BitVec.extractLsb' lo len (0x14d#9 ++ x0 ++ 0x0#7 ++ x1 ++ x2) := by rw [← hx]; rfl
  have f : bits w 28 4 = 10#4 ∧ bits w 23 5 = 13#5 ∧ bits w 14 7 = 0 ∧ bits w 21 2 = x0 ∧ bits w 7 7 = x1 ∧ bits w 0 7 = x2 := by
    refine ⟨?_, ?_, ?_, ?_, ?_, ?_⟩ <;> simp (disch := decide) only [h, bits_low, bits_high, bits_all] <;> rfl
  obtain ⟨k, c, f0, f1, f2, f3⟩ := f
  refine decode_of_raw ?_ hw
  rw [raw_10 k]
  unfold decodeAtom
  rw [c]
  show (if bits w 14 7 = 0 then some (Instr.vrx96 (bits w 21 2) (bits w 7 7) (bits w 0 7)) else none) = _
  rw [f0, f1, f2, f3]
  rfl

theorem accz (x0 : BitVec 3) (x1 : BitVec 2) (x2 : BitVec 6) (x3 : BitVec 1) : Statement (.accz x0 x1 x2 x3) := by
  intro _ hw
  generalize hx : encode (.accz x0 x1 x2 x3) = w
  have h (lo len : Nat) : bits w lo len = BitVec.extractLsb' lo len (0x160#9 ++ x0 ++ 0x0#8 ++ x1 ++ x2 ++ 0x0#3 ++ x3) := by rw [← hx]; rfl
  have f : bits w 28 4 = 11#4 ∧ bits w 23 5 = 0#5 ∧ bits w 12 8 = 0 ∧ bits w 1 3 = 0 ∧ bits w 20 3 = x0 ∧ bits w 10 2 = x1 ∧ bits w 4 6 = x2 ∧ bits w 0 1 = x3 := by
    refine ⟨?_, ?_, ?_, ?_, ?_, ?_, ?_, ?_⟩ <;> simp (disch := decide) only [h, bits_low, bits_high, bits_all] <;> rfl
  obtain ⟨k, c, f0, f1, f2, f3, f4, f5⟩ := f
  refine decode_of_raw ?_ hw
  rw [raw_11 k]
  unfold decodeMtx
  rw [c]
  show (if bits w 12 8 = 0 ∧ bits w 1 3 = 0 then some (Instr.accz (bits w 20 3) (bits w 10 2) (bits w 4 6) (bits w 0 1)) else none) = _
  rw [f0, f1, f2, f3, f4, f5]
  rfl

theorem accza (x0 : BitVec 3) (x1 : BitVec 2) : Statement (.accza x0 x1) := by
  intro _ hw
  generalize hx : encode (.accza x0 x1) = w
  have h (lo len : Nat) : bits w lo len = BitVec.extractLsb' lo len (0x161#9 ++ x0 ++ 0x0#8 ++ x1 ++ 0x0#10) := by rw [← hx]; rfl
  have f : bits w 28 4 = 11#4 ∧ bits w 23 5 = 1#5 ∧ bits w 12 8 = 0 ∧ bits w 0 10 = 0 ∧ bits w 20 3 = x0 ∧ bits w 10 2 = x1 := by
    refine ⟨?_, ?_, ?_, ?_, ?_, ?_⟩ <;> simp (disch := decide) only [h, bits_low, bits_high, bits_all] <;> rfl
  obtain ⟨k, c, f0, f1, f2, f3⟩ := f
  refine decode_of_raw ?_ hw
  rw [raw_11 k]
  unfold decodeMtx
  rw [c]
  show (if bits w 12 8 = 0 ∧ bits w 0 10 = 0 then some (Instr.accza (bits w 20 3) (bits w 10 2)) else none) = _
  rw [f0, f1, f2, f3]
  rfl

theorem obres (x0 : BitVec 4) (x1 : BitVec 2) (x2 : BitVec 6) : Statement (.obres x0 x1 x2) := by
  intro _ hw
  generalize hx : encode (.obres x0 x1 x2) = w
  have h (lo len : Nat) : bits w lo len = BitVec.extractLsb' lo len (0xb10#12 ++ x0 ++ 0x0#4 ++ x1 ++ x2 ++ 0x0#4) := by rw [← hx]; rfl
  have f : bits w 28 4 = 11#4 ∧ bits w 23 5 = 2#5 ∧ bits w 20 3 = 0 ∧ bits w 12 4 = 0 ∧ bits w 0 4 = 0 ∧ bits w 16 4 = x0 ∧ bits w 10 2 = x1 ∧ bits w 4 6 = x2 := by
    refine ⟨?_, ?_, ?_, ?_, ?_, ?_, ?_, ?_⟩ <;> simp (disch := decide) only [h, bits_low, bits_high, bits_all] <;> rfl
  obtain ⟨k, c, f0, f1, f2, f3, f4, f5⟩ := f
  refine decode_of_raw ?_ hw
  rw [raw_11 k]
  unfold decodeMtx
  rw [c]
  show (if bits w 20 3 = 0 ∧ bits w 12 4 = 0 ∧ bits w 0 4 = 0 then some (Instr.obres (bits w 16 4) (bits w 10 2) (bits w 4 6)) else none) = _
  rw [f0, f1, f2, f3, f4, f5]
  rfl

theorem obrel (x0 : BitVec 4) (x1 : BitVec 2) : Statement (.obrel x0 x1) := by
  intro _ hw
  generalize hx : encode (.obrel x0 x1) = w
  have h (lo len : Nat) : bits w lo len = BitVec.extractLsb' lo len (0xb18#12 ++ x0 ++ 0x0#4 ++ x1 ++ 0x0#10) := by rw [← hx]; rfl
  have f : bits w 28 4 = 11#4 ∧ bits w 23 5 = 3#5 ∧ bits w 20 3 = 0 ∧ bits w 12 4 = 0 ∧ bits w 0 10 = 0 ∧ bits w 16 4 = x0 ∧ bits w 10 2 = x1 := by
    refine ⟨?_, ?_, ?_, ?_, ?_, ?_, ?_⟩ <;> simp (disch := decide) only [h, bits_low, bits_high, bits_all] <;> rfl
  obtain ⟨k, c, f0, f1, f2, f3, f4⟩ := f
  refine decode_of_raw ?_ hw
  rw [raw_11 k]
  unfold decodeMtx
  rw [c]
  show (if bits w 20 3 = 0 ∧ bits w 12 4 = 0 ∧ bits w 0 10 = 0 then some (Instr.obrel (bits w 16 4) (bits w 10 2)) else none) = _
  rw [f0, f1, f2, f3, f4]
  rfl

theorem obld (x0 : BitVec 4) (x1 : BitVec 4) (x2 : BitVec 2) (x3 : BitVec 6) (x4 : BitVec 1) : Statement (.obld x0 x1 x2 x3 x4) := by
  intro _ hw
  generalize hx : encode (.obld x0 x1 x2 x3 x4) = w
  have h (lo len : Nat) : bits w lo len = BitVec.extractLsb' lo len (0xb20#12 ++ x0 ++ x1 ++ x2 ++ x3 ++ 0x0#3 ++ x4) := by rw [← hx]; rfl
  have f : bits w 28 4 = 11#4 ∧ bits w 23 5 = 4#5 ∧ bits w 20 3 = 0 ∧ bits w 1 3 = 0 ∧ bits w 16 4 = x0 ∧ bits w 12 4 = x1 ∧ bits w 10 2 = x2 ∧ bits w 4 6 = x3 ∧ bits w 0 1 = x4 := by
    refine ⟨?_, ?_, ?_, ?_, ?_, ?_, ?_, ?_, ?_⟩ <;> simp (disch := decide) only [h, bits_low, bits_high, bits_all] <;> rfl
  obtain ⟨k, c, f0, f1, f2, f3, f4, f5, f6⟩ := f
  refine decode_of_raw ?_ hw
  rw [raw_11 k]
  unfold decodeMtx
  rw [c]
  show (if bits w 20 3 = 0 ∧ bits w 1 3 = 0 then some (Instr.obld (bits w 16 4) (bits w 12 4) (bits w 10 2) (bits w 4 6) (bits w 0 1)) else none) = _
  rw [f0, f1, f2, f3, f4, f5, f6]
  rfl

theorem obwin (x0 : BitVec 4) (x1 : BitVec 2) (x2 : BitVec 6) : Statement (.obwin x0 x1 x2) := by
  intro _ hw
  generalize hx : encode (.obwin x0 x1 x2) = w
  have h (lo len : Nat) : bits w lo len = BitVec.extractLsb' lo len (0xb28#12 ++ x0 ++ 0x0#4 ++ x1 ++ x2 ++ 0x0#4) := by rw [← hx]; rfl
  have f : bits w 28 4 = 11#4 ∧ bits w 23 5 = 5#5 ∧ bits w 20 3 = 0 ∧ bits w 12 4 = 0 ∧ bits w 0 4 = 0 ∧ bits w 16 4 = x0 ∧ bits w 10 2 = x1 ∧ bits w 4 6 = x2 := by
    refine ⟨?_, ?_, ?_, ?_, ?_, ?_, ?_, ?_⟩ <;> simp (disch := decide) only [h, bits_low, bits_high, bits_all] <;> rfl
  obtain ⟨k, c, f0, f1, f2, f3, f4, f5⟩ := f
  refine decode_of_raw ?_ hw
  rw [raw_11 k]
  unfold decodeMtx
  rw [c]
  show (if bits w 20 3 = 0 ∧ bits w 12 4 = 0 ∧ bits w 0 4 = 0 then some (Instr.obwin (bits w 16 4) (bits w 10 2) (bits w 4 6)) else none) = _
  rw [f0, f1, f2, f3, f4, f5]
  rfl

theorem mma (x0 : BitVec 3) (x1 : BitVec 4) (x2 : BitVec 4) (x3 : BitVec 2) (x4 : BitVec 3) (x5 : BitVec 4) (x6 : BitVec 1) (x7 : BitVec 1) (x8 : BitVec 1) : Statement (.mma x0 x1 x2 x3 x4 x5 x6 x7 x8) := by
  intro _ hw
  generalize hx : encode (.mma x0 x1 x2 x3 x4 x5 x6 x7 x8) = w
  have h (lo len : Nat) : bits w lo len = BitVec.extractLsb' lo len (0x166#9 ++ x0 ++ x1 ++ x2 ++ x3 ++ x4 ++ x5 ++ x6 ++ x7 ++ x8) := by rw [← hx]; rfl
  have f : bits w 28 4 = 11#4 ∧ bits w 23 5 = 6#5 ∧ bits w 20 3 = x0 ∧ bits w 16 4 = x1 ∧ bits w 12 4 = x2 ∧ bits w 10 2 = x3 ∧ bits w 7 3 = x4 ∧ bits w 3 4 = x5 ∧ bits w 2 1 = x6 ∧ bits w 1 1 = x7 ∧ bits w 0 1 = x8 := by
    refine ⟨?_, ?_, ?_, ?_, ?_, ?_, ?_, ?_, ?_, ?_, ?_⟩ <;> simp (disch := decide) only [h, bits_low, bits_high, bits_all] <;> rfl
  obtain ⟨k, c, f0, f1, f2, f3, f4, f5, f6, f7, f8⟩ := f
  refine decode_of_raw ?_ hw
  rw [raw_11 k]
  unfold decodeMtx
  rw [c]
  show (some (Instr.mma (bits w 20 3) (bits w 16 4) (bits w 12 4) (bits w 10 2) (bits w 7 3) (bits w 3 4) (bits w 2 1) (bits w 1 1) (bits w 0 1))) = _
  rw [f0, f1, f2, f3, f4, f5, f6, f7, f8]

theorem mmac (x0 : BitVec 3) (x1 : BitVec 4) (x2 : BitVec 4) (x3 : BitVec 2) (x4 : BitVec 3) (x5 : BitVec 1) (x6 : BitVec 1) (x7 : BitVec 1) : Statement (.mmac x0 x1 x2 x3 x4 x5 x6 x7) := by
  intro _ hw
  generalize hx : encode (.mmac x0 x1 x2 x3 x4 x5 x6 x7) = w
  have h (lo len : Nat) : bits w lo len = BitVec.extractLsb' lo len (0x167#9 ++ x0 ++ x1 ++ x2 ++ x3 ++ x4 ++ 0x0#4 ++ x5 ++ x6 ++ x7) := by rw [← hx]; rfl
  have f : bits w 28 4 = 11#4 ∧ bits w 23 5 = 7#5 ∧ bits w 3 4 = 0 ∧ bits w 20 3 = x0 ∧ bits w 16 4 = x1 ∧ bits w 12 4 = x2 ∧ bits w 10 2 = x3 ∧ bits w 7 3 = x4 ∧ bits w 2 1 = x5 ∧ bits w 1 1 = x6 ∧ bits w 0 1 = x7 := by
    refine ⟨?_, ?_, ?_, ?_, ?_, ?_, ?_, ?_, ?_, ?_, ?_⟩ <;> simp (disch := decide) only [h, bits_low, bits_high, bits_all] <;> rfl
  obtain ⟨k, c, f0, f1, f2, f3, f4, f5, f6, f7, f8⟩ := f
  refine decode_of_raw ?_ hw
  rw [raw_11 k]
  unfold decodeMtx
  rw [c]
  show (if bits w 3 4 = 0 then some (Instr.mmac (bits w 20 3) (bits w 16 4) (bits w 12 4) (bits w 10 2) (bits w 7 3) (bits w 2 1) (bits w 1 1) (bits w 0 1)) else none) = _
  rw [f0, f1, f2, f3, f4, f5, f6, f7, f8]
  rfl

theorem jset (x0 : BitVec 2) (x1 : BitVec 6) : Statement (.jset x0 x1) := by
  intro _ hw
  generalize hx : encode (.jset x0 x1) = w
  have h (lo len : Nat) : bits w lo len = BitVec.extractLsb' lo len (0xb4000#20 ++ x0 ++ x1 ++ 0x0#4) := by rw [← hx]; rfl
  have f : bits w 28 4 = 11#4 ∧ bits w 23 5 = 8#5 ∧ bits w 12 11 = 0 ∧ bits w 0 4 = 0 ∧ bits w 10 2 = x0 ∧ bits w 4 6 = x1 := by
    refine ⟨?_, ?_, ?_, ?_, ?_, ?_⟩ <;> simp (disch := decide) only [h, bits_low, bits_high, bits_all] <;> rfl
  obtain ⟨k, c, f0, f1, f2, f3⟩ := f
  refine decode_of_raw ?_ hw
  rw [raw_11 k]
  unfold decodeMtx
  rw [c]
  show (if bits w 12 11 = 0 ∧ bits w 0 4 = 0 then some (Instr.jset (bits w 10 2) (bits w 4 6)) else none) = _
  rw [f0, f1, f2, f3]
  rfl

theorem accrd (x0 : BitVec 3) (x1 : BitVec 7) (x2 : BitVec 2) (x3 : BitVec 3) : Statement (.accrd x0 x1 x2 x3) := by
  intro _ hw
  generalize hx : encode (.accrd x0 x1 x2 x3) = w
  have h (lo len : Nat) : bits w lo len = BitVec.extractLsb' lo len (0x169#9 ++ x0 ++ 0x0#1 ++ x1 ++ x2 ++ x3 ++ 0x0#7) := by rw [← hx]; rfl
  have f : bits w 28 4 = 11#4 ∧ bits w 23 5 = 9#5 ∧ bits w 19 1 = 0 ∧ bits w 0 7 = 0 ∧ bits w 20 3 = x0 ∧ bits w 12 7 = x1 ∧ bits w 10 2 = x2 ∧ bits w 7 3 = x3 := by
    refine ⟨?_, ?_, ?_, ?_, ?_, ?_, ?_, ?_⟩ <;> simp (disch := decide) only [h, bits_low, bits_high, bits_all] <;> rfl
  obtain ⟨k, c, f0, f1, f2, f3, f4, f5⟩ := f
  refine decode_of_raw ?_ hw
  rw [raw_11 k]
  unfold decodeMtx
  rw [c]
  show (if bits w 19 1 = 0 ∧ bits w 0 7 = 0 then some (Instr.accrd (bits w 20 3) (bits w 12 7) (bits w 10 2) (bits w 7 3)) else none) = _
  rw [f0, f1, f2, f3, f4, f5]
  rfl

theorem accwr (x0 : BitVec 3) (x1 : BitVec 7) (x2 : BitVec 2) (x3 : BitVec 3) : Statement (.accwr x0 x1 x2 x3) := by
  intro _ hw
  generalize hx : encode (.accwr x0 x1 x2 x3) = w
  have h (lo len : Nat) : bits w lo len = BitVec.extractLsb' lo len (0x16a#9 ++ x0 ++ 0x0#1 ++ x1 ++ x2 ++ x3 ++ 0x0#7) := by rw [← hx]; rfl
  have f : bits w 28 4 = 11#4 ∧ bits w 23 5 = 10#5 ∧ bits w 19 1 = 0 ∧ bits w 0 7 = 0 ∧ bits w 20 3 = x0 ∧ bits w 12 7 = x1 ∧ bits w 10 2 = x2 ∧ bits w 7 3 = x3 := by
    refine ⟨?_, ?_, ?_, ?_, ?_, ?_, ?_, ?_⟩ <;> simp (disch := decide) only [h, bits_low, bits_high, bits_all] <;> rfl
  obtain ⟨k, c, f0, f1, f2, f3, f4, f5⟩ := f
  refine decode_of_raw ?_ hw
  rw [raw_11 k]
  unfold decodeMtx
  rw [c]
  show (if bits w 19 1 = 0 ∧ bits w 0 7 = 0 then some (Instr.accwr (bits w 20 3) (bits w 12 7) (bits w 10 2) (bits w 7 3)) else none) = _
  rw [f0, f1, f2, f3, f4, f5]
  rfl

theorem accst (x0 : BitVec 3) (x1 : BitVec 1) (x2 : BitVec 2) (x3 : BitVec 4) (x4 : BitVec 2) (x5 : BitVec 6) (x6 : BitVec 1) : Statement (.accst x0 x1 x2 x3 x4 x5 x6) := by
  intro _ hw
  generalize hx : encode (.accst x0 x1 x2 x3 x4 x5 x6) = w
  have h (lo len : Nat) : bits w lo len = BitVec.extractLsb' lo len (0x16b#9 ++ x0 ++ 0x0#1 ++ x1 ++ x2 ++ x3 ++ x4 ++ x5 ++ x6 ++ 0x0#3) := by rw [← hx]; rfl
  have f : bits w 28 4 = 11#4 ∧ bits w 23 5 = 11#5 ∧ bits w 19 1 = 0 ∧ bits w 0 3 = 0 ∧ bits w 20 3 = x0 ∧ bits w 18 1 = x1 ∧ bits w 16 2 = x2 ∧ bits w 12 4 = x3 ∧ bits w 10 2 = x4 ∧ bits w 4 6 = x5 ∧ bits w 3 1 = x6 := by
    refine ⟨?_, ?_, ?_, ?_, ?_, ?_, ?_, ?_, ?_, ?_, ?_⟩ <;> simp (disch := decide) only [h, bits_low, bits_high, bits_all] <;> rfl
  obtain ⟨k, c, f0, f1, f2, f3, f4, f5, f6, f7, f8⟩ := f
  refine decode_of_raw ?_ hw
  rw [raw_11 k]
  unfold decodeMtx
  rw [c]
  show (if bits w 19 1 = 0 ∧ bits w 0 3 = 0 then some (Instr.accst (bits w 20 3) (bits w 18 1) (bits w 16 2) (bits w 12 4) (bits w 10 2) (bits w 4 6) (bits w 3 1)) else none) = _
  rw [f0, f1, f2, f3, f4, f5, f6, f7, f8]
  rfl

theorem accadd (x0 : BitVec 3) (x1 : BitVec 3) (x2 : BitVec 2) : Statement (.accadd x0 x1 x2) := by
  intro _ hw
  generalize hx : encode (.accadd x0 x1 x2) = w
  have h (lo len : Nat) : bits w lo len = BitVec.extractLsb' lo len (0x16c#9 ++ x0 ++ 0x0#1 ++ x1 ++ 0x0#4 ++ x2 ++ 0x0#10) := by rw [← hx]; rfl
  have f : bits w 28 4 = 11#4 ∧ bits w 23 5 = 12#5 ∧ bits w 19 1 = 0 ∧ bits w 12 4 = 0 ∧ bits w 0 10 = 0 ∧ bits w 20 3 = x0 ∧ bits w 16 3 = x1 ∧ bits w 10 2 = x2 := by
    refine ⟨?_, ?_, ?_, ?_, ?_, ?_, ?_, ?_⟩ <;> simp (disch := decide) only [h, bits_low, bits_high, bits_all] <;> rfl
  obtain ⟨k, c, f0, f1, f2, f3, f4, f5⟩ := f
  refine decode_of_raw ?_ hw
  rw [raw_11 k]
  unfold decodeMtx
  rw [c]
  show (if bits w 19 1 = 0 ∧ bits w 12 4 = 0 ∧ bits w 0 10 = 0 then some (Instr.accadd (bits w 20 3) (bits w 16 3) (bits w 10 2)) else none) = _
  rw [f0, f1, f2, f3, f4, f5]
  rfl

theorem sealm (x0 : BitVec 2) (x1 : BitVec 6) : Statement (.sealm x0 x1) := by
  intro _ hw
  generalize hx : encode (.sealm x0 x1) = w
  have h (lo len : Nat) : bits w lo len = BitVec.extractLsb' lo len (0xb6800#20 ++ x0 ++ x1 ++ 0x0#4) := by rw [← hx]; rfl
  have f : bits w 28 4 = 11#4 ∧ bits w 23 5 = 13#5 ∧ bits w 12 11 = 0 ∧ bits w 0 4 = 0 ∧ bits w 10 2 = x0 ∧ bits w 4 6 = x1 := by
    refine ⟨?_, ?_, ?_, ?_, ?_, ?_⟩ <;> simp (disch := decide) only [h, bits_low, bits_high, bits_all] <;> rfl
  obtain ⟨k, c, f0, f1, f2, f3⟩ := f
  refine decode_of_raw ?_ hw
  rw [raw_11 k]
  unfold decodeMtx
  rw [c]
  show (if bits w 12 11 = 0 ∧ bits w 0 4 = 0 then some (Instr.sealm (bits w 10 2) (bits w 4 6)) else none) = _
  rw [f0, f1, f2, f3]
  rfl

theorem cpt (x0 : BitVec 6) (x1 : BitVec 6) (x2 : BitVec 6) (x3 : BitVec 2) (x4 : BitVec 1) (x5 : BitVec 2) : Statement (.cpt x0 x1 x2 x3 x4 x5) := by
  intro _ hw
  generalize hx : encode (.cpt x0 x1 x2 x3 x4 x5) = w
  have h (lo len : Nat) : bits w lo len = BitVec.extractLsb' lo len (0x180#9 ++ x0 ++ x1 ++ x2 ++ x3 ++ x4 ++ x5) := by rw [← hx]; rfl
  have f : bits w 28 4 = 12#4 ∧ bits w 23 5 = 0#5 ∧ bits w 17 6 = x0 ∧ bits w 11 6 = x1 ∧ bits w 5 6 = x2 ∧ bits w 3 2 = x3 ∧ bits w 2 1 = x4 ∧ bits w 0 2 = x5 := by
    refine ⟨?_, ?_, ?_, ?_, ?_, ?_, ?_, ?_⟩ <;> simp (disch := decide) only [h, bits_low, bits_high, bits_all] <;> rfl
  obtain ⟨k, c, f0, f1, f2, f3, f4, f5⟩ := f
  refine decode_of_raw ?_ hw
  rw [raw_12 k]
  unfold decodeAsync
  rw [c]
  show (some (Instr.cpt (bits w 17 6) (bits w 11 6) (bits w 5 6) (bits w 3 2) (bits w 2 1) (bits w 0 2))) = _
  rw [f0, f1, f2, f3, f4, f5]

theorem cptt (x0 : BitVec 6) (x1 : BitVec 6) (x2 : BitVec 6) (x3 : BitVec 2) (x4 : BitVec 1) (x5 : BitVec 2) : Statement (.cptt x0 x1 x2 x3 x4 x5) := by
  intro _ hw
  generalize hx : encode (.cptt x0 x1 x2 x3 x4 x5) = w
  have h (lo len : Nat) : bits w lo len = BitVec.extractLsb' lo len (0x181#9 ++ x0 ++ x1 ++ x2 ++ x3 ++ x4 ++ x5) := by rw [← hx]; rfl
  have f : bits w 28 4 = 12#4 ∧ bits w 23 5 = 1#5 ∧ bits w 17 6 = x0 ∧ bits w 11 6 = x1 ∧ bits w 5 6 = x2 ∧ bits w 3 2 = x3 ∧ bits w 2 1 = x4 ∧ bits w 0 2 = x5 := by
    refine ⟨?_, ?_, ?_, ?_, ?_, ?_, ?_, ?_⟩ <;> simp (disch := decide) only [h, bits_low, bits_high, bits_all] <;> rfl
  obtain ⟨k, c, f0, f1, f2, f3, f4, f5⟩ := f
  refine decode_of_raw ?_ hw
  rw [raw_12 k]
  unfold decodeAsync
  rw [c]
  show (some (Instr.cptt (bits w 17 6) (bits w 11 6) (bits w 5 6) (bits w 3 2) (bits w 2 1) (bits w 0 2))) = _
  rw [f0, f1, f2, f3, f4, f5]

theorem cpl (x0 : BitVec 6) (x1 : BitVec 6) (x2 : BitVec 6) (x3 : BitVec 2) (x4 : BitVec 2) : Statement (.cpl x0 x1 x2 x3 x4) := by
  intro _ hw
  generalize hx : encode (.cpl x0 x1 x2 x3 x4) = w
  have h (lo len : Nat) : bits w lo len = BitVec.extractLsb' lo len (0x182#9 ++ x0 ++ x1 ++ x2 ++ x3 ++ 0x0#1 ++ x4) := by rw [← hx]; rfl
  have f : bits w 28 4 = 12#4 ∧ bits w 23 5 = 2#5 ∧ bits w 2 1 = 0 ∧ bits w 17 6 = x0 ∧ bits w 11 6 = x1 ∧ bits w 5 6 = x2 ∧ bits w 3 2 = x3 ∧ bits w 0 2 = x4 := by
    refine ⟨?_, ?_, ?_, ?_, ?_, ?_, ?_, ?_⟩ <;> simp (disch := decide) only [h, bits_low, bits_high, bits_all] <;> rfl
  obtain ⟨k, c, f0, f1, f2, f3, f4, f5⟩ := f
  refine decode_of_raw ?_ hw
  rw [raw_12 k]
  unfold decodeAsync
  rw [c]
  show (if bits w 2 1 = 0 then some (Instr.cpl (bits w 17 6) (bits w 11 6) (bits w 5 6) (bits w 3 2) (bits w 0 2)) else none) = _
  rw [f0, f1, f2, f3, f4, f5]
  rfl

theorem cpg (x0 : BitVec 6) (x1 : BitVec 6) (x2 : BitVec 6) (x3 : BitVec 2) (x4 : BitVec 2) : Statement (.cpg x0 x1 x2 x3 x4) := by
  intro _ hw
  generalize hx : encode (.cpg x0 x1 x2 x3 x4) = w
  have h (lo len : Nat) : bits w lo len = BitVec.extractLsb' lo len (0x183#9 ++ x0 ++ x1 ++ x2 ++ x3 ++ 0x0#1 ++ x4) := by rw [← hx]; rfl
  have f : bits w 28 4 = 12#4 ∧ bits w 23 5 = 3#5 ∧ bits w 2 1 = 0 ∧ bits w 17 6 = x0 ∧ bits w 11 6 = x1 ∧ bits w 5 6 = x2 ∧ bits w 3 2 = x3 ∧ bits w 0 2 = x4 := by
    refine ⟨?_, ?_, ?_, ?_, ?_, ?_, ?_, ?_⟩ <;> simp (disch := decide) only [h, bits_low, bits_high, bits_all] <;> rfl
  obtain ⟨k, c, f0, f1, f2, f3, f4, f5⟩ := f
  refine decode_of_raw ?_ hw
  rw [raw_12 k]
  unfold decodeAsync
  rw [c]
  show (if bits w 2 1 = 0 then some (Instr.cpg (bits w 17 6) (bits w 11 6) (bits w 5 6) (bits w 3 2) (bits w 0 2)) else none) = _
  rw [f0, f1, f2, f3, f4, f5]
  rfl

theorem cps (x0 : BitVec 6) (x1 : BitVec 6) (x2 : BitVec 6) (x3 : BitVec 2) (x4 : BitVec 1) (x5 : BitVec 2) : Statement (.cps x0 x1 x2 x3 x4 x5) := by
  intro _ hw
  generalize hx : encode (.cps x0 x1 x2 x3 x4 x5) = w
  have h (lo len : Nat) : bits w lo len = BitVec.extractLsb' lo len (0x184#9 ++ x0 ++ x1 ++ x2 ++ x3 ++ x4 ++ x5) := by rw [← hx]; rfl
  have f : bits w 28 4 = 12#4 ∧ bits w 23 5 = 4#5 ∧ bits w 17 6 = x0 ∧ bits w 11 6 = x1 ∧ bits w 5 6 = x2 ∧ bits w 3 2 = x3 ∧ bits w 2 1 = x4 ∧ bits w 0 2 = x5 := by
    refine ⟨?_, ?_, ?_, ?_, ?_, ?_, ?_, ?_⟩ <;> simp (disch := decide) only [h, bits_low, bits_high, bits_all] <;> rfl
  obtain ⟨k, c, f0, f1, f2, f3, f4, f5⟩ := f
  refine decode_of_raw ?_ hw
  rw [raw_12 k]
  unfold decodeAsync
  rw [c]
  show (some (Instr.cps (bits w 17 6) (bits w 11 6) (bits w 5 6) (bits w 3 2) (bits w 2 1) (bits w 0 2))) = _
  rw [f0, f1, f2, f3, f4, f5]

theorem wsig (x0 : BitVec 6) (x1 : BitVec 6) (x2 : BitVec 6) (x3 : BitVec 2) (x4 : BitVec 1) (x5 : BitVec 2) : Statement (.wsig x0 x1 x2 x3 x4 x5) := by
  intro _ hw
  generalize hx : encode (.wsig x0 x1 x2 x3 x4 x5) = w
  have h (lo len : Nat) : bits w lo len = BitVec.extractLsb' lo len (0x185#9 ++ x0 ++ x1 ++ x2 ++ x3 ++ x4 ++ x5) := by rw [← hx]; rfl
  have f : bits w 28 4 = 12#4 ∧ bits w 23 5 = 5#5 ∧ bits w 17 6 = x0 ∧ bits w 11 6 = x1 ∧ bits w 5 6 = x2 ∧ bits w 3 2 = x3 ∧ bits w 2 1 = x4 ∧ bits w 0 2 = x5 := by
    refine ⟨?_, ?_, ?_, ?_, ?_, ?_, ?_, ?_⟩ <;> simp (disch := decide) only [h, bits_low, bits_high, bits_all] <;> rfl
  obtain ⟨k, c, f0, f1, f2, f3, f4, f5⟩ := f
  refine decode_of_raw ?_ hw
  rw [raw_12 k]
  unfold decodeAsync
  rw [c]
  show (some (Instr.wsig (bits w 17 6) (bits w 11 6) (bits w 5 6) (bits w 3 2) (bits w 2 1) (bits w 0 2))) = _
  rw [f0, f1, f2, f3, f4, f5]

theorem lrfl (x0 : BitVec 6) (x1 : BitVec 2) : Statement (.lrfl x0 x1) := by
  intro _ hw
  generalize hx : encode (.lrfl x0 x1) = w
  have h (lo len : Nat) : bits w lo len = BitVec.extractLsb' lo len (0x186#9 ++ x0 ++ 0x0#12 ++ x1 ++ 0x0#3) := by rw [← hx]; rfl
  have f : bits w 28 4 = 12#4 ∧ bits w 23 5 = 6#5 ∧ bits w 5 12 = 0 ∧ bits w 0 3 = 0 ∧ bits w 17 6 = x0 ∧ bits w 3 2 = x1 := by
    refine ⟨?_, ?_, ?_, ?_, ?_, ?_⟩ <;> simp (disch := decide) only [h, bits_low, bits_high, bits_all] <;> rfl
  obtain ⟨k, c, f0, f1, f2, f3⟩ := f
  refine decode_of_raw ?_ hw
  rw [raw_12 k]
  unfold decodeAsync
  rw [c]
  show (if bits w 5 12 = 0 ∧ bits w 0 3 = 0 then some (Instr.lrfl (bits w 17 6) (bits w 3 2)) else none) = _
  rw [f0, f1, f2, f3]
  rfl

theorem lrins (x0 : BitVec 6) (x1 : BitVec 2) : Statement (.lrins x0 x1) := by
  intro _ hw
  generalize hx : encode (.lrins x0 x1) = w
  have h (lo len : Nat) : bits w lo len = BitVec.extractLsb' lo len (0x187#9 ++ x0 ++ 0x0#12 ++ x1 ++ 0x0#3) := by rw [← hx]; rfl
  have f : bits w 28 4 = 12#4 ∧ bits w 23 5 = 7#5 ∧ bits w 5 12 = 0 ∧ bits w 0 3 = 0 ∧ bits w 17 6 = x0 ∧ bits w 3 2 = x1 := by
    refine ⟨?_, ?_, ?_, ?_, ?_, ?_⟩ <;> simp (disch := decide) only [h, bits_low, bits_high, bits_all] <;> rfl
  obtain ⟨k, c, f0, f1, f2, f3⟩ := f
  refine decode_of_raw ?_ hw
  rw [raw_12 k]
  unfold decodeAsync
  rw [c]
  show (if bits w 5 12 = 0 ∧ bits w 0 3 = 0 then some (Instr.lrins (bits w 17 6) (bits w 3 2)) else none) = _
  rw [f0, f1, f2, f3]
  rfl

theorem sealc (x0 : BitVec 6) (x1 : BitVec 2) : Statement (.sealc x0 x1) := by
  intro _ hw
  generalize hx : encode (.sealc x0 x1) = w
  have h (lo len : Nat) : bits w lo len = BitVec.extractLsb' lo len (0x188#9 ++ x0 ++ 0x0#12 ++ x1 ++ 0x0#3) := by rw [← hx]; rfl
  have f : bits w 28 4 = 12#4 ∧ bits w 23 5 = 8#5 ∧ bits w 5 12 = 0 ∧ bits w 0 3 = 0 ∧ bits w 17 6 = x0 ∧ bits w 3 2 = x1 := by
    refine ⟨?_, ?_, ?_, ?_, ?_, ?_⟩ <;> simp (disch := decide) only [h, bits_low, bits_high, bits_all] <;> rfl
  obtain ⟨k, c, f0, f1, f2, f3⟩ := f
  refine decode_of_raw ?_ hw
  rw [raw_12 k]
  unfold decodeAsync
  rw [c]
  show (if bits w 5 12 = 0 ∧ bits w 0 3 = 0 then some (Instr.sealc (bits w 17 6) (bits w 3 2)) else none) = _
  rw [f0, f1, f2, f3]
  rfl

theorem qfence (x0 : BitVec 4) (x1 : BitVec 2) : Statement (.qfence x0 x1) := by
  intro _ hw
  generalize hx : encode (.qfence x0 x1) = w
  have h (lo len : Nat) : bits w lo len = BitVec.extractLsb' lo len (0x624#11 ++ x0 ++ 0x0#12 ++ x1 ++ 0x0#3) := by rw [← hx]; rfl
  have f : bits w 28 4 = 12#4 ∧ bits w 23 5 = 9#5 ∧ bits w 21 2 = 0 ∧ bits w 5 12 = 0 ∧ bits w 0 3 = 0 ∧ bits w 17 4 = x0 ∧ bits w 3 2 = x1 := by
    refine ⟨?_, ?_, ?_, ?_, ?_, ?_, ?_⟩ <;> simp (disch := decide) only [h, bits_low, bits_high, bits_all] <;> rfl
  obtain ⟨k, c, f0, f1, f2, f3, f4⟩ := f
  refine decode_of_raw ?_ hw
  rw [raw_12 k]
  unfold decodeAsync
  rw [c]
  show (if bits w 21 2 = 0 ∧ bits w 5 12 = 0 ∧ bits w 0 3 = 0 then some (Instr.qfence (bits w 17 4) (bits w 3 2)) else none) = _
  rw [f0, f1, f2, f3, f4]
  rfl

theorem hgrd (x0 : BitVec 6) (x1 : BitVec 6) (x2 : BitVec 6) (x3 : BitVec 2) (x4 : BitVec 2) : Statement (.hgrd x0 x1 x2 x3 x4) := by
  intro _ hw
  generalize hx : encode (.hgrd x0 x1 x2 x3 x4) = w
  have h (lo len : Nat) : bits w lo len = BitVec.extractLsb' lo len (0x18a#9 ++ x0 ++ x1 ++ x2 ++ x3 ++ 0x0#1 ++ x4) := by rw [← hx]; rfl
  have f : bits w 28 4 = 12#4 ∧ bits w 23 5 = 10#5 ∧ bits w 2 1 = 0 ∧ bits w 17 6 = x0 ∧ bits w 11 6 = x1 ∧ bits w 5 6 = x2 ∧ bits w 3 2 = x3 ∧ bits w 0 2 = x4 := by
    refine ⟨?_, ?_, ?_, ?_, ?_, ?_, ?_, ?_⟩ <;> simp (disch := decide) only [h, bits_low, bits_high, bits_all] <;> rfl
  obtain ⟨k, c, f0, f1, f2, f3, f4, f5⟩ := f
  refine decode_of_raw ?_ hw
  rw [raw_12 k]
  unfold decodeAsync
  rw [c]
  show (if bits w 2 1 = 0 then some (Instr.hgrd (bits w 17 6) (bits w 11 6) (bits w 5 6) (bits w 3 2) (bits w 0 2)) else none) = _
  rw [f0, f1, f2, f3, f4, f5]
  rfl

theorem spawn (x0 : BitVec 6) (x1 : BitVec 6) (x2 : BitVec 2) (x3 : BitVec 2) : Statement (.spawn x0 x1 x2 x3) := by
  intro _ hw
  generalize hx : encode (.spawn x0 x1 x2 x3) = w
  have h (lo len : Nat) : bits w lo len = BitVec.extractLsb' lo len (0x1a0#9 ++ x0 ++ x1 ++ 0x0#6 ++ x2 ++ 0x0#1 ++ x3) := by rw [← hx]; rfl
  have f : bits w 28 4 = 13#4 ∧ bits w 23 5 = 0#5 ∧ bits w 5 6 = 0 ∧ bits w 2 1 = 0 ∧ bits w 17 6 = x0 ∧ bits w 11 6 = x1 ∧ bits w 3 2 = x2 ∧ bits w 0 2 = x3 := by
    refine ⟨?_, ?_, ?_, ?_, ?_, ?_, ?_, ?_⟩ <;> simp (disch := decide) only [h, bits_low, bits_high, bits_all] <;> rfl
  obtain ⟨k, c, f0, f1, f2, f3, f4, f5⟩ := f
  refine decode_of_raw ?_ hw
  rw [raw_13 k]
  unfold decodeTask
  rw [c]
  show (if bits w 5 6 = 0 ∧ bits w 2 1 = 0 then some (Instr.spawn (bits w 17 6) (bits w 11 6) (bits w 3 2) (bits w 0 2)) else none) = _
  rw [f0, f1, f2, f3, f4, f5]
  rfl

theorem spawnd (x0 : BitVec 6) (x1 : BitVec 6) (x2 : BitVec 2) (x3 : BitVec 2) : Statement (.spawnd x0 x1 x2 x3) := by
  intro _ hw
  generalize hx : encode (.spawnd x0 x1 x2 x3) = w
  have h (lo len : Nat) : bits w lo len = BitVec.extractLsb' lo len (0x1a1#9 ++ x0 ++ x1 ++ 0x0#6 ++ x2 ++ 0x0#1 ++ x3) := by rw [← hx]; rfl
  have f : bits w 28 4 = 13#4 ∧ bits w 23 5 = 1#5 ∧ bits w 5 6 = 0 ∧ bits w 2 1 = 0 ∧ bits w 17 6 = x0 ∧ bits w 11 6 = x1 ∧ bits w 3 2 = x2 ∧ bits w 0 2 = x3 := by
    refine ⟨?_, ?_, ?_, ?_, ?_, ?_, ?_, ?_⟩ <;> simp (disch := decide) only [h, bits_low, bits_high, bits_all] <;> rfl
  obtain ⟨k, c, f0, f1, f2, f3, f4, f5⟩ := f
  refine decode_of_raw ?_ hw
  rw [raw_13 k]
  unfold decodeTask
  rw [c]
  show (if bits w 5 6 = 0 ∧ bits w 2 1 = 0 then some (Instr.spawnd (bits w 17 6) (bits w 11 6) (bits w 3 2) (bits w 0 2)) else none) = _
  rw [f0, f1, f2, f3, f4, f5]
  rfl

theorem dcinit (x0 : BitVec 6) (x1 : BitVec 2) : Statement (.dcinit x0 x1) := by
  intro _ hw
  generalize hx : encode (.dcinit x0 x1) = w
  have h (lo len : Nat) : bits w lo len = BitVec.extractLsb' lo len (0x1a2#9 ++ x0 ++ 0x0#12 ++ x1 ++ 0x0#3) := by rw [← hx]; rfl
  have f : bits w 28 4 = 13#4 ∧ bits w 23 5 = 2#5 ∧ bits w 5 12 = 0 ∧ bits w 0 3 = 0 ∧ bits w 17 6 = x0 ∧ bits w 3 2 = x1 := by
    refine ⟨?_, ?_, ?_, ?_, ?_, ?_⟩ <;> simp (disch := decide) only [h, bits_low, bits_high, bits_all] <;> rfl
  obtain ⟨k, c, f0, f1, f2, f3⟩ := f
  refine decode_of_raw ?_ hw
  rw [raw_13 k]
  unfold decodeTask
  rw [c]
  show (if bits w 5 12 = 0 ∧ bits w 0 3 = 0 then some (Instr.dcinit (bits w 17 6) (bits w 3 2)) else none) = _
  rw [f0, f1, f2, f3]
  rfl

theorem dcdec (x0 : BitVec 6) (x1 : BitVec 2) : Statement (.dcdec x0 x1) := by
  intro _ hw
  generalize hx : encode (.dcdec x0 x1) = w
  have h (lo len : Nat) : bits w lo len = BitVec.extractLsb' lo len (0x1a3#9 ++ x0 ++ 0x0#12 ++ x1 ++ 0x0#3) := by rw [← hx]; rfl
  have f : bits w 28 4 = 13#4 ∧ bits w 23 5 = 3#5 ∧ bits w 5 12 = 0 ∧ bits w 0 3 = 0 ∧ bits w 17 6 = x0 ∧ bits w 3 2 = x1 := by
    refine ⟨?_, ?_, ?_, ?_, ?_, ?_⟩ <;> simp (disch := decide) only [h, bits_low, bits_high, bits_all] <;> rfl
  obtain ⟨k, c, f0, f1, f2, f3⟩ := f
  refine decode_of_raw ?_ hw
  rw [raw_13 k]
  unfold decodeTask
  rw [c]
  show (if bits w 5 12 = 0 ∧ bits w 0 3 = 0 then some (Instr.dcdec (bits w 17 6) (bits w 3 2)) else none) = _
  rw [f0, f1, f2, f3]
  rfl

theorem wlpush (x0 : BitVec 6) (x1 : BitVec 6) (x2 : BitVec 2) : Statement (.wlpush x0 x1 x2) := by
  intro _ hw
  generalize hx : encode (.wlpush x0 x1 x2) = w
  have h (lo len : Nat) : bits w lo len = BitVec.extractLsb' lo len (0x1a4#9 ++ x0 ++ x1 ++ 0x0#6 ++ x2 ++ 0x0#3) := by rw [← hx]; rfl
  have f : bits w 28 4 = 13#4 ∧ bits w 23 5 = 4#5 ∧ bits w 5 6 = 0 ∧ bits w 0 3 = 0 ∧ bits w 17 6 = x0 ∧ bits w 11 6 = x1 ∧ bits w 3 2 = x2 := by
    refine ⟨?_, ?_, ?_, ?_, ?_, ?_, ?_⟩ <;> simp (disch := decide) only [h, bits_low, bits_high, bits_all] <;> rfl
  obtain ⟨k, c, f0, f1, f2, f3, f4⟩ := f
  refine decode_of_raw ?_ hw
  rw [raw_13 k]
  unfold decodeTask
  rw [c]
  show (if bits w 5 6 = 0 ∧ bits w 0 3 = 0 then some (Instr.wlpush (bits w 17 6) (bits w 11 6) (bits w 3 2)) else none) = _
  rw [f0, f1, f2, f3, f4]
  rfl

theorem wlpull (x0 : BitVec 6) (x1 : BitVec 6) (x2 : BitVec 6) (x3 : BitVec 2) : Statement (.wlpull x0 x1 x2 x3) := by
  intro _ hw
  generalize hx : encode (.wlpull x0 x1 x2 x3) = w
  have h (lo len : Nat) : bits w lo len = BitVec.extractLsb' lo len (0x1a5#9 ++ x0 ++ x1 ++ x2 ++ x3 ++ 0x0#3) := by rw [← hx]; rfl
  have f : bits w 28 4 = 13#4 ∧ bits w 23 5 = 5#5 ∧ bits w 0 3 = 0 ∧ bits w 17 6 = x0 ∧ bits w 11 6 = x1 ∧ bits w 5 6 = x2 ∧ bits w 3 2 = x3 := by
    refine ⟨?_, ?_, ?_, ?_, ?_, ?_, ?_⟩ <;> simp (disch := decide) only [h, bits_low, bits_high, bits_all] <;> rfl
  obtain ⟨k, c, f0, f1, f2, f3, f4⟩ := f
  refine decode_of_raw ?_ hw
  rw [raw_13 k]
  unfold decodeTask
  rw [c]
  show (if bits w 0 3 = 0 then some (Instr.wlpull (bits w 17 6) (bits w 11 6) (bits w 5 6) (bits w 3 2)) else none) = _
  rw [f0, f1, f2, f3, f4]
  rfl

theorem quiesce (x0 : BitVec 6) (x1 : BitVec 2) : Statement (.quiesce x0 x1) := by
  intro _ hw
  generalize hx : encode (.quiesce x0 x1) = w
  have h (lo len : Nat) : bits w lo len = BitVec.extractLsb' lo len (0x1a6#9 ++ x0 ++ 0x0#12 ++ x1 ++ 0x0#3) := by rw [← hx]; rfl
  have f : bits w 28 4 = 13#4 ∧ bits w 23 5 = 6#5 ∧ bits w 5 12 = 0 ∧ bits w 0 3 = 0 ∧ bits w 17 6 = x0 ∧ bits w 3 2 = x1 := by
    refine ⟨?_, ?_, ?_, ?_, ?_, ?_⟩ <;> simp (disch := decide) only [h, bits_low, bits_high, bits_all] <;> rfl
  obtain ⟨k, c, f0, f1, f2, f3⟩ := f
  refine decode_of_raw ?_ hw
  rw [raw_13 k]
  unfold decodeTask
  rw [c]
  show (if bits w 5 12 = 0 ∧ bits w 0 3 = 0 then some (Instr.quiesce (bits w 17 6) (bits w 3 2)) else none) = _
  rw [f0, f1, f2, f3]
  rfl

theorem glaunch (x0 : BitVec 6) (x1 : BitVec 6) (x2 : BitVec 2) : Statement (.glaunch x0 x1 x2) := by
  intro _ hw
  generalize hx : encode (.glaunch x0 x1 x2) = w
  have h (lo len : Nat) : bits w lo len = BitVec.extractLsb' lo len (0x1a7#9 ++ x0 ++ x1 ++ 0x0#6 ++ x2 ++ 0x0#3) := by rw [← hx]; rfl
  have f : bits w 28 4 = 13#4 ∧ bits w 23 5 = 7#5 ∧ bits w 5 6 = 0 ∧ bits w 0 3 = 0 ∧ bits w 17 6 = x0 ∧ bits w 11 6 = x1 ∧ bits w 3 2 = x2 := by
    refine ⟨?_, ?_, ?_, ?_, ?_, ?_, ?_⟩ <;> simp (disch := decide) only [h, bits_low, bits_high, bits_all] <;> rfl
  obtain ⟨k, c, f0, f1, f2, f3, f4⟩ := f
  refine decode_of_raw ?_ hw
  rw [raw_13 k]
  unfold decodeTask
  rw [c]
  show (if bits w 5 6 = 0 ∧ bits w 0 3 = 0 then some (Instr.glaunch (bits w 17 6) (bits w 11 6) (bits w 3 2)) else none) = _
  rw [f0, f1, f2, f3, f4]
  rfl

theorem trrec (x0 : BitVec 6) (x1 : BitVec 6) (x2 : BitVec 2) : Statement (.trrec x0 x1 x2) := by
  intro _ hw
  generalize hx : encode (.trrec x0 x1 x2) = w
  have h (lo len : Nat) : bits w lo len = BitVec.extractLsb' lo len (0x1a8#9 ++ x0 ++ x1 ++ 0x0#6 ++ x2 ++ 0x0#3) := by rw [← hx]; rfl
  have f : bits w 28 4 = 13#4 ∧ bits w 23 5 = 8#5 ∧ bits w 5 6 = 0 ∧ bits w 0 3 = 0 ∧ bits w 17 6 = x0 ∧ bits w 11 6 = x1 ∧ bits w 3 2 = x2 := by
    refine ⟨?_, ?_, ?_, ?_, ?_, ?_, ?_⟩ <;> simp (disch := decide) only [h, bits_low, bits_high, bits_all] <;> rfl
  obtain ⟨k, c, f0, f1, f2, f3, f4⟩ := f
  refine decode_of_raw ?_ hw
  rw [raw_13 k]
  unfold decodeTask
  rw [c]
  show (if bits w 5 6 = 0 ∧ bits w 0 3 = 0 then some (Instr.trrec (bits w 17 6) (bits w 11 6) (bits w 3 2)) else none) = _
  rw [f0, f1, f2, f3, f4]
  rfl

theorem trstop (x0 : BitVec 6) (x1 : BitVec 2) : Statement (.trstop x0 x1) := by
  intro _ hw
  generalize hx : encode (.trstop x0 x1) = w
  have h (lo len : Nat) : bits w lo len = BitVec.extractLsb' lo len (0x1a9#9 ++ x0 ++ 0x0#12 ++ x1 ++ 0x0#3) := by rw [← hx]; rfl
  have f : bits w 28 4 = 13#4 ∧ bits w 23 5 = 9#5 ∧ bits w 5 12 = 0 ∧ bits w 0 3 = 0 ∧ bits w 17 6 = x0 ∧ bits w 3 2 = x1 := by
    refine ⟨?_, ?_, ?_, ?_, ?_, ?_⟩ <;> simp (disch := decide) only [h, bits_low, bits_high, bits_all] <;> rfl
  obtain ⟨k, c, f0, f1, f2, f3⟩ := f
  refine decode_of_raw ?_ hw
  rw [raw_13 k]
  unfold decodeTask
  rw [c]
  show (if bits w 5 12 = 0 ∧ bits w 0 3 = 0 then some (Instr.trstop (bits w 17 6) (bits w 3 2)) else none) = _
  rw [f0, f1, f2, f3]
  rfl

theorem propagate (x0 : BitVec 6) (x1 : BitVec 6) (x2 : BitVec 2) : Statement (.propagate x0 x1 x2) := by
  intro _ hw
  generalize hx : encode (.propagate x0 x1 x2) = w
  have h (lo len : Nat) : bits w lo len = BitVec.extractLsb' lo len (0x1aa#9 ++ x0 ++ x1 ++ 0x0#6 ++ x2 ++ 0x0#3) := by rw [← hx]; rfl
  have f : bits w 28 4 = 13#4 ∧ bits w 23 5 = 10#5 ∧ bits w 5 6 = 0 ∧ bits w 0 3 = 0 ∧ bits w 17 6 = x0 ∧ bits w 11 6 = x1 ∧ bits w 3 2 = x2 := by
    refine ⟨?_, ?_, ?_, ?_, ?_, ?_, ?_⟩ <;> simp (disch := decide) only [h, bits_low, bits_high, bits_all] <;> rfl
  obtain ⟨k, c, f0, f1, f2, f3, f4⟩ := f
  refine decode_of_raw ?_ hw
  rw [raw_13 k]
  unfold decodeTask
  rw [c]
  show (if bits w 5 6 = 0 ∧ bits w 0 3 = 0 then some (Instr.propagate (bits w 17 6) (bits w 11 6) (bits w 3 2)) else none) = _
  rw [f0, f1, f2, f3, f4]
  rfl

theorem mdecl (x0 : BitVec 6) (x1 : BitVec 6) (x2 : BitVec 2) : Statement (.mdecl x0 x1 x2) := by
  intro _ hw
  generalize hx : encode (.mdecl x0 x1 x2) = w
  have h (lo len : Nat) : bits w lo len = BitVec.extractLsb' lo len (0x1ab#9 ++ x0 ++ x1 ++ 0x0#6 ++ x2 ++ 0x0#3) := by rw [← hx]; rfl
  have f : bits w 28 4 = 13#4 ∧ bits w 23 5 = 11#5 ∧ bits w 5 6 = 0 ∧ bits w 0 3 = 0 ∧ bits w 17 6 = x0 ∧ bits w 11 6 = x1 ∧ bits w 3 2 = x2 := by
    refine ⟨?_, ?_, ?_, ?_, ?_, ?_, ?_⟩ <;> simp (disch := decide) only [h, bits_low, bits_high, bits_all] <;> rfl
  obtain ⟨k, c, f0, f1, f2, f3, f4⟩ := f
  refine decode_of_raw ?_ hw
  rw [raw_13 k]
  unfold decodeTask
  rw [c]
  show (if bits w 5 6 = 0 ∧ bits w 0 3 = 0 then some (Instr.mdecl (bits w 17 6) (bits w 11 6) (bits w 3 2)) else none) = _
  rw [f0, f1, f2, f3, f4]
  rfl

theorem trdrop (x0 : BitVec 2) : Statement (.trdrop x0) := by
  intro _ hw
  generalize hx : encode (.trdrop x0) = w
  have h (lo len : Nat) : bits w lo len = BitVec.extractLsb' lo len (0x6b00000#27 ++ x0 ++ 0x0#3) := by rw [← hx]; rfl
  have f : bits w 28 4 = 13#4 ∧ bits w 23 5 = 12#5 ∧ bits w 5 18 = 0 ∧ bits w 0 3 = 0 ∧ bits w 3 2 = x0 := by
    refine ⟨?_, ?_, ?_, ?_, ?_⟩ <;> simp (disch := decide) only [h, bits_low, bits_high, bits_all] <;> rfl
  obtain ⟨k, c, f0, f1, f2⟩ := f
  refine decode_of_raw ?_ hw
  rw [raw_13 k]
  unfold decodeTask
  rw [c]
  show (if bits w 5 18 = 0 ∧ bits w 0 3 = 0 then some (Instr.trdrop (bits w 3 2)) else none) = _
  rw [f0, f1, f2]
  rfl

theorem trstat (x0 : BitVec 6) (x1 : BitVec 6) (x2 : BitVec 2) : Statement (.trstat x0 x1 x2) := by
  intro _ hw
  generalize hx : encode (.trstat x0 x1 x2) = w
  have h (lo len : Nat) : bits w lo len = BitVec.extractLsb' lo len (0x1ad#9 ++ x0 ++ x1 ++ 0x0#6 ++ x2 ++ 0x0#3) := by rw [← hx]; rfl
  have f : bits w 28 4 = 13#4 ∧ bits w 23 5 = 13#5 ∧ bits w 5 6 = 0 ∧ bits w 0 3 = 0 ∧ bits w 17 6 = x0 ∧ bits w 11 6 = x1 ∧ bits w 3 2 = x2 := by
    refine ⟨?_, ?_, ?_, ?_, ?_, ?_, ?_⟩ <;> simp (disch := decide) only [h, bits_low, bits_high, bits_all] <;> rfl
  obtain ⟨k, c, f0, f1, f2, f3, f4⟩ := f
  refine decode_of_raw ?_ hw
  rw [raw_13 k]
  unfold decodeTask
  rw [c]
  show (if bits w 5 6 = 0 ∧ bits w 0 3 = 0 then some (Instr.trstat (bits w 17 6) (bits w 11 6) (bits w 3 2)) else none) = _
  rw [f0, f1, f2, f3, f4]
  rfl

theorem svgrid (x0 : BitVec 6) (x1 : BitVec 6) (x2 : BitVec 2) : Statement (.svgrid x0 x1 x2) := by
  intro _ hw
  generalize hx : encode (.svgrid x0 x1 x2) = w
  have h (lo len : Nat) : bits w lo len = BitVec.extractLsb' lo len (0xe0#8 ++ x0 ++ x1 ++ 0x0#6 ++ x2 ++ 0x0#4) := by rw [← hx]; rfl
  have f : bits w 28 4 = 14#4 ∧ bits w 24 4 = 0#4 ∧ bits w 6 6 = 0 ∧ bits w 0 4 = 0 ∧ bits w 18 6 = x0 ∧ bits w 12 6 = x1 ∧ bits w 4 2 = x2 := by
    refine ⟨?_, ?_, ?_, ?_, ?_, ?_, ?_⟩ <;> simp (disch := decide) only [h, bits_low, bits_high, bits_all] <;> rfl
  obtain ⟨k, c, f0, f1, f2, f3, f4⟩ := f
  refine decode_of_raw ?_ hw
  rw [raw_14 k]
  unfold decodeSieve
  rw [c]
  show (if bits w 6 6 = 0 ∧ bits w 0 4 = 0 then some (Instr.svgrid (bits w 18 6) (bits w 12 6) (bits w 4 2)) else none) = _
  rw [f0, f1, f2, f3, f4]
  rfl

theorem svbin (x0 : BitVec 6) (x1 : BitVec 6) (x2 : BitVec 2) : Statement (.svbin x0 x1 x2) := by
  intro _ hw
  generalize hx : encode (.svbin x0 x1 x2) = w
  have h (lo len : Nat) : bits w lo len = BitVec.extractLsb' lo len (0xe1#8 ++ x0 ++ x1 ++ 0x0#6 ++ x2 ++ 0x0#4) := by rw [← hx]; rfl
  have f : bits w 28 4 = 14#4 ∧ bits w 24 4 = 1#4 ∧ bits w 6 6 = 0 ∧ bits w 0 4 = 0 ∧ bits w 18 6 = x0 ∧ bits w 12 6 = x1 ∧ bits w 4 2 = x2 := by
    refine ⟨?_, ?_, ?_, ?_, ?_, ?_, ?_⟩ <;> simp (disch := decide) only [h, bits_low, bits_high, bits_all] <;> rfl
  obtain ⟨k, c, f0, f1, f2, f3, f4⟩ := f
  refine decode_of_raw ?_ hw
  rw [raw_14 k]
  unfold decodeSieve
  rw [c]
  show (if bits w 6 6 = 0 ∧ bits w 0 4 = 0 then some (Instr.svbin (bits w 18 6) (bits w 12 6) (bits w 4 2)) else none) = _
  rw [f0, f1, f2, f3, f4]
  rfl

theorem svpair (x0 : BitVec 6) (x1 : BitVec 6) (x2 : BitVec 6) (x3 : BitVec 2) (x4 : BitVec 1) : Statement (.svpair x0 x1 x2 x3 x4) := by
  intro _ hw
  generalize hx : encode (.svpair x0 x1 x2 x3 x4) = w
  have h (lo len : Nat) : bits w lo len = BitVec.extractLsb' lo len (0xe2#8 ++ x0 ++ x1 ++ x2 ++ x3 ++ 0x0#3 ++ x4) := by rw [← hx]; rfl
  have f : bits w 28 4 = 14#4 ∧ bits w 24 4 = 2#4 ∧ bits w 1 3 = 0 ∧ bits w 18 6 = x0 ∧ bits w 12 6 = x1 ∧ bits w 6 6 = x2 ∧ bits w 4 2 = x3 ∧ bits w 0 1 = x4 := by
    refine ⟨?_, ?_, ?_, ?_, ?_, ?_, ?_, ?_⟩ <;> simp (disch := decide) only [h, bits_low, bits_high, bits_all] <;> rfl
  obtain ⟨k, c, f0, f1, f2, f3, f4, f5⟩ := f
  refine decode_of_raw ?_ hw
  rw [raw_14 k]
  unfold decodeSieve
  rw [c]
  show (if bits w 1 3 = 0 then some (Instr.svpair (bits w 18 6) (bits w 12 6) (bits w 6 6) (bits w 4 2) (bits w 0 1)) else none) = _
  rw [f0, f1, f2, f3, f4, f5]
  rfl

theorem svpull (x0 : BitVec 6) (x1 : BitVec 6) (x2 : BitVec 6) (x3 : BitVec 2) : Statement (.svpull x0 x1 x2 x3) := by
  intro _ hw
  generalize hx : encode (.svpull x0 x1 x2 x3) = w
  have h (lo len : Nat) : bits w lo len = BitVec.extractLsb' lo len (0xe3#8 ++ x0 ++ x1 ++ x2 ++ x3 ++ 0x0#4) := by rw [← hx]; rfl
  have f : bits w 28 4 = 14#4 ∧ bits w 24 4 = 3#4 ∧ bits w 0 4 = 0 ∧ bits w 18 6 = x0 ∧ bits w 12 6 = x1 ∧ bits w 6 6 = x2 ∧ bits w 4 2 = x3 := by
    refine ⟨?_, ?_, ?_, ?_, ?_, ?_, ?_⟩ <;> simp (disch := decide) only [h, bits_low, bits_high, bits_all] <;> rfl
  obtain ⟨k, c, f0, f1, f2, f3, f4⟩ := f
  refine decode_of_raw ?_ hw
  rw [raw_14 k]
  unfold decodeSieve
  rw [c]
  show (if bits w 0 4 = 0 then some (Instr.svpull (bits w 18 6) (bits w 12 6) (bits w 6 6) (bits w 4 2)) else none) = _
  rw [f0, f1, f2, f3, f4]
  rfl

theorem svstat (x0 : BitVec 6) (x1 : BitVec 6) (x2 : BitVec 2) : Statement (.svstat x0 x1 x2) := by
  intro _ hw
  generalize hx : encode (.svstat x0 x1 x2) = w
  have h (lo len : Nat) : bits w lo len = BitVec.extractLsb' lo len (0xe4#8 ++ x0 ++ x1 ++ 0x0#6 ++ x2 ++ 0x0#4) := by rw [← hx]; rfl
  have f : bits w 28 4 = 14#4 ∧ bits w 24 4 = 4#4 ∧ bits w 6 6 = 0 ∧ bits w 0 4 = 0 ∧ bits w 18 6 = x0 ∧ bits w 12 6 = x1 ∧ bits w 4 2 = x2 := by
    refine ⟨?_, ?_, ?_, ?_, ?_, ?_, ?_⟩ <;> simp (disch := decide) only [h, bits_low, bits_high, bits_all] <;> rfl
  obtain ⟨k, c, f0, f1, f2, f3, f4⟩ := f
  refine decode_of_raw ?_ hw
  rw [raw_14 k]
  unfold decodeSieve
  rw [c]
  show (if bits w 6 6 = 0 ∧ bits w 0 4 = 0 then some (Instr.svstat (bits w 18 6) (bits w 12 6) (bits w 4 2)) else none) = _
  rw [f0, f1, f2, f3, f4]
  rfl

theorem svcheck (x0 : BitVec 6) (x1 : BitVec 6) (x2 : BitVec 2) : Statement (.svcheck x0 x1 x2) := by
  intro _ hw
  generalize hx : encode (.svcheck x0 x1 x2) = w
  have h (lo len : Nat) : bits w lo len = BitVec.extractLsb' lo len (0xe5#8 ++ x0 ++ x1 ++ 0x0#6 ++ x2 ++ 0x0#4) := by rw [← hx]; rfl
  have f : bits w 28 4 = 14#4 ∧ bits w 24 4 = 5#4 ∧ bits w 6 6 = 0 ∧ bits w 0 4 = 0 ∧ bits w 18 6 = x0 ∧ bits w 12 6 = x1 ∧ bits w 4 2 = x2 := by
    refine ⟨?_, ?_, ?_, ?_, ?_, ?_, ?_⟩ <;> simp (disch := decide) only [h, bits_low, bits_high, bits_all] <;> rfl
  obtain ⟨k, c, f0, f1, f2, f3, f4⟩ := f
  refine decode_of_raw ?_ hw
  rw [raw_14 k]
  unfold decodeSieve
  rw [c]
  show (if bits w 6 6 = 0 ∧ bits w 0 4 = 0 then some (Instr.svcheck (bits w 18 6) (bits w 12 6) (bits w 4 2)) else none) = _
  rw [f0, f1, f2, f3, f4]
  rfl

theorem svclr (x0 : BitVec 6) (x1 : BitVec 2) : Statement (.svclr x0 x1) := by
  intro _ hw
  generalize hx : encode (.svclr x0 x1) = w
  have h (lo len : Nat) : bits w lo len = BitVec.extractLsb' lo len (0xe6#8 ++ x0 ++ 0x0#12 ++ x1 ++ 0x0#4) := by rw [← hx]; rfl
  have f : bits w 28 4 = 14#4 ∧ bits w 24 4 = 6#4 ∧ bits w 6 12 = 0 ∧ bits w 0 4 = 0 ∧ bits w 18 6 = x0 ∧ bits w 4 2 = x1 := by
    refine ⟨?_, ?_, ?_, ?_, ?_, ?_⟩ <;> simp (disch := decide) only [h, bits_low, bits_high, bits_all] <;> rfl
  obtain ⟨k, c, f0, f1, f2, f3⟩ := f
  refine decode_of_raw ?_ hw
  rw [raw_14 k]
  unfold decodeSieve
  rw [c]
  show (if bits w 6 12 = 0 ∧ bits w 0 4 = 0 then some (Instr.svclr (bits w 18 6) (bits w 4 2)) else none) = _
  rw [f0, f1, f2, f3]
  rfl

theorem queueAccept (x0 : Nat) : Statement (.queueAccept x0) := by
  intro h
  exact absurd h Bool.false_ne_true

theorem loadDataReturn (x0 : Nat) (x1 : Nat) (x2 : Nat) : Statement (.loadDataReturn x0 x1 x2) := by
  intro h
  exact absurd h Bool.false_ne_true

theorem writePerformed (x0 : Nat) (x1 : Nat) : Statement (.writePerformed x0 x1) := by
  intro h
  exact absurd h Bool.false_ne_true

theorem atomicAtHome (x0 : Nat) (x1 : Nat) : Statement (.atomicAtHome x0 x1) := by
  intro h
  exact absurd h Bool.false_ne_true

theorem combinerHoldTimeout (x0 : Nat) : Statement (.combinerHoldTimeout x0) := by
  intro h
  exact absurd h Bool.false_ne_true

theorem combinerPacketApply (x0 : Nat) : Statement (.combinerPacketApply x0) := by
  intro h
  exact absurd h Bool.false_ne_true

theorem barrierArrivalApply (x0 : Nat) : Statement (.barrierArrivalApply x0) := by
  intro h
  exact absurd h Bool.false_ne_true

theorem landedBytesApply (x0 : Nat) : Statement (.landedBytesApply x0) := by
  intro h
  exact absurd h Bool.false_ne_true

theorem waitpCheck (x0 : Nat) : Statement (.waitpCheck x0) := by
  intro h
  exact absurd h Bool.false_ne_true

theorem continuationEnqueue (x0 : Nat) : Statement (.continuationEnqueue x0) := by
  intro h
  exact absurd h Bool.false_ne_true

theorem extendedBlockGrant (x0 : Nat) : Statement (.extendedBlockGrant x0) := by
  intro h
  exact absurd h Bool.false_ne_true

theorem operandBufferGrant (x0 : Nat) : Statement (.operandBufferGrant x0) := by
  intro h
  exact absurd h Bool.false_ne_true

theorem accumulatorTileGrant (x0 : Nat) : Statement (.accumulatorTileGrant x0) := by
  intro h
  exact absurd h Bool.false_ne_true

theorem drainPass (x0 : Nat) : Statement (.drainPass x0) := by
  intro h
  exact absurd h Bool.false_ne_true

theorem groupExitPass (x0 : Nat) : Statement (.groupExitPass x0) := by
  intro h
  exact absurd h Bool.false_ne_true

theorem ticketHandover (x0 : Nat) : Statement (.ticketHandover x0) := by
  intro h
  exact absurd h Bool.false_ne_true

theorem vfReset (x0 : Nat) : Statement (.vfReset x0) := by
  intro h
  exact absurd h Bool.false_ne_true

theorem copyBegin (x0 : Nat) : Statement (.copyBegin x0) := by
  intro h
  exact absurd h Bool.false_ne_true

theorem copySectorPerform (x0 : Nat) (x1 : Nat) : Statement (.copySectorPerform x0 x1) := by
  intro h
  exact absurd h Bool.false_ne_true

theorem matrixOpPerform (x0 : Nat) : Statement (.matrixOpPerform x0) := by
  intro h
  exact absurd h Bool.false_ne_true

theorem operandFillLand (x0 : Nat) (x1 : Nat) : Statement (.operandFillLand x0 x1) := by
  intro h
  exact absurd h Bool.false_ne_true

theorem taskRegistration (x0 : Nat) : Statement (.taskRegistration x0) := by
  intro h
  exact absurd h Bool.false_ne_true

theorem counterDecrement (x0 : Nat) : Statement (.counterDecrement x0) := by
  intro h
  exact absurd h Bool.false_ne_true

theorem taskDispatch (x0 : Nat) (x1 : Nat) : Statement (.taskDispatch x0 x1) := by
  intro h
  exact absurd h Bool.false_ne_true

theorem binTimerExpiry (x0 : Nat) : Statement (.binTimerExpiry x0) := by
  intro h
  exact absurd h Bool.false_ne_true

theorem taskWaveLaunch (x0 : Nat) (x1 : Nat) : Statement (.taskWaveLaunch x0 x1) := by
  intro h
  exact absurd h Bool.false_ne_true

theorem compactionTimeout (x0 : Nat) : Statement (.compactionTimeout x0) := by
  intro h
  exact absurd h Bool.false_ne_true

theorem workListPacketWrite (x0 : Nat) : Statement (.workListPacketWrite x0) := by
  intro h
  exact absurd h Bool.false_ne_true

theorem terminationReport (x0 : Nat) : Statement (.terminationReport x0) := by
  intro h
  exact absurd h Bool.false_ne_true

theorem groupStart (x0 : Nat) : Statement (.groupStart x0) := by
  intro h
  exact absurd h Bool.false_ne_true

theorem launchPacketStart (x0 : Nat) : Statement (.launchPacketStart x0) := by
  intro h
  exact absurd h Bool.false_ne_true

theorem tracedAccessStep (x0 : Nat) (x1 : Nat) : Statement (.tracedAccessStep x0 x1) := by
  intro h
  exact absurd h Bool.false_ne_true

theorem rerunLaunch (x0 : Nat) : Statement (.rerunLaunch x0) := by
  intro h
  exact absurd h Bool.false_ne_true

theorem rerunEnd (x0 : Nat) : Statement (.rerunEnd x0) := by
  intro h
  exact absurd h Bool.false_ne_true

theorem sieveOpBegin (x0 : Nat) : Statement (.sieveOpBegin x0) := by
  intro h
  exact absurd h Bool.false_ne_true

theorem pairRecordWrite (x0 : Nat) : Statement (.pairRecordWrite x0) := by
  intro h
  exact absurd h Bool.false_ne_true

theorem sieveOpComplete (x0 : Nat) : Statement (.sieveOpComplete x0) := by
  intro h
  exact absurd h Bool.false_ne_true

theorem graceTimerExpiry (x0 : Nat) : Statement (.graceTimerExpiry x0) := by
  intro h
  exact absurd h Bool.false_ne_true

theorem killTimerExpiry (x0 : Nat) : Statement (.killTimerExpiry x0) := by
  intro h
  exact absurd h Bool.false_ne_true

theorem windowRefill (x0 : Nat) : Statement (.windowRefill x0) := by
  intro h
  exact absurd h Bool.false_ne_true

theorem portGrant (x0 : Nat) : Statement (.portGrant x0) := by
  intro h
  exact absurd h Bool.false_ne_true

theorem migrationForward (x0 : Nat) : Statement (.migrationForward x0) := by
  intro h
  exact absurd h Bool.false_ne_true

theorem ctxcreate (x0 : Nat) (x1 : W64) (x2 : W64) : Statement (.ctxcreate x0 x1 x2) := by
  intro h
  exact absurd h Bool.false_ne_true

theorem ctxdestroy (x0 : Nat) (x1 : W64) : Statement (.ctxdestroy x0 x1) := by
  intro h
  exact absurd h Bool.false_ne_true

theorem preempt (x0 : Nat) (x1 : W64) : Statement (.preempt x0 x1) := by
  intro h
  exact absurd h Bool.false_ne_true

theorem kill (x0 : Nat) (x1 : W64) : Statement (.kill x0 x1) := by
  intro h
  exact absurd h Bool.false_ne_true

theorem resume (x0 : Nat) (x1 : W64) (x2 : W64) (x3 : W64) : Statement (.resume x0 x1 x2 x3) := by
  intro h
  exact absurd h Bool.false_ne_true

theorem invalidate (x0 : Nat) (x1 : W64) (x2 : W64) (x3 : W64) : Statement (.invalidate x0 x1 x2 x3) := by
  intro h
  exact absurd h Bool.false_ne_true

theorem qresume (x0 : Nat) (x1 : W64) (x2 : W64) (x3 : W64) (x4 : W64) : Statement (.qresume x0 x1 x2 x3 x4) := by
  intro h
  exact absurd h Bool.false_ne_true

theorem clearmark (x0 : Nat) (x1 : W64) (x2 : W64) : Statement (.clearmark x0 x1 x2) := by
  intro h
  exact absurd h Bool.false_ne_true

theorem migrate (x0 : Nat) (x1 : W64) (x2 : W64) (x3 : W64) : Statement (.migrate x0 x1 x2 x3) := by
  intro h
  exact absurd h Bool.false_ne_true

theorem attest (x0 : Nat) (x1 : W64) (x2 : W64) : Statement (.attest x0 x1 x2) := by
  intro h
  exact absurd h Bool.false_ne_true

theorem fabfence (x0 : Nat) (x1 : W64) : Statement (.fabfence x0 x1) := by
  intro h
  exact absurd h Bool.false_ne_true

theorem partcreate : Statement (.partcreate) := by
  intro h
  exact absurd h Bool.false_ne_true

theorem partdestroy (x0 : W64) : Statement (.partdestroy x0) := by
  intro h
  exact absurd h Bool.false_ne_true

theorem fwstage (x0 : W64) (x1 : W64) : Statement (.fwstage x0 x1) := by
  intro h
  exact absurd h Bool.false_ne_true

theorem powercap (x0 : W64) : Statement (.powercap x0) := by
  intro h
  exact absurd h Bool.false_ne_true

theorem linkworld (x0 : W64) (x1 : W64) : Statement (.linkworld x0 x1) := by
  intro h
  exact absurd h Bool.false_ne_true

theorem ltail (x0 : Nat) (x1 : Nat) (x2 : W64) : Statement (.ltail x0 x1 x2) := by
  intro h
  exact absurd h Bool.false_ne_true

theorem icause (x0 : Nat) (x1 : W64) : Statement (.icause x0 x1) := by
  intro h
  exact absurd h Bool.false_ne_true

theorem brelease (x0 : Nat) (x1 : W64) : Statement (.brelease x0 x1) := by
  intro h
  exact absurd h Bool.false_ne_true

theorem breakpointArm (x0 : Nat) (x1 : Bool) : Statement (.breakpointArm x0 x1) := by
  intro h
  exact absurd h Bool.false_ne_true

theorem samplingEnable (x0 : Nat) (x1 : Bool) : Statement (.samplingEnable x0 x1) := by
  intro h
  exact absurd h Bool.false_ne_true

theorem sessionOpen (x0 : Nat) : Statement (.sessionOpen x0) := by
  intro h
  exact absurd h Bool.false_ne_true

theorem sessionClose (x0 : Nat) : Statement (.sessionClose x0) := by
  intro h
  exact absurd h Bool.false_ne_true

theorem freezeArm : Statement (.freezeArm) := by
  intro h
  exact absurd h Bool.false_ne_true

theorem registerWrite (x0 : Nat) (x1 : Nat) (x2 : W64) : Statement (.registerWrite x0 x1 x2) := by
  intro h
  exact absurd h Bool.false_ne_true

theorem hostBar2Write (x0 : Nat) (x1 : Nat) (x2 : Nat) (x3 : W64) : Statement (.hostBar2Write x0 x1 x2 x3) := by
  intro h
  exact absurd h Bool.false_ne_true

theorem hostBar2Read (x0 : Nat) (x1 : Nat) (x2 : Nat) : Statement (.hostBar2Read x0 x1 x2) := by
  intro h
  exact absurd h Bool.false_ne_true

theorem hostApertureWrite (x0 : Nat) (x1 : Nat) (x2 : Nat) (x3 : W64) : Statement (.hostApertureWrite x0 x1 x2 x3) := by
  intro h
  exact absurd h Bool.false_ne_true

theorem hostApertureRead (x0 : Nat) (x1 : Nat) (x2 : Nat) : Statement (.hostApertureRead x0 x1 x2) := by
  intro h
  exact absurd h Bool.false_ne_true

theorem stallSample (x0 : Nat) (x1 : Nat) : Statement (.stallSample x0 x1) := by
  intro h
  exact absurd h Bool.false_ne_true

theorem sessionWriteback (x0 : Nat) : Statement (.sessionWriteback x0) := by
  intro h
  exact absurd h Bool.false_ne_true

theorem freeze : Statement (.freeze) := by
  intro h
  exact absurd h Bool.false_ne_true

theorem powerGood : Statement (.powerGood) := by
  intro h
  exact absurd h Bool.false_ne_true

theorem moduleReset : Statement (.moduleReset) := by
  intro h
  exact absurd h Bool.false_ne_true

theorem thermalThrottle (x0 : Nat) : Statement (.thermalThrottle x0) := by
  intro h
  exact absurd h Bool.false_ne_true

theorem thermalTrip : Statement (.thermalTrip) := by
  intro h
  exact absurd h Bool.false_ne_true

theorem tripPowerOff : Statement (.tripPowerOff) := by
  intro h
  exact absurd h Bool.false_ne_true

theorem flitCrcFailure (x0 : Nat) (x1 : Nat) : Statement (.flitCrcFailure x0 x1) := by
  intro h
  exact absurd h Bool.false_ne_true

theorem linkAckTimeout (x0 : Nat) : Statement (.linkAckTimeout x0) := by
  intro h
  exact absurd h Bool.false_ne_true

theorem retrainFailure (x0 : Nat) : Statement (.retrainFailure x0) := by
  intro h
  exact absurd h Bool.false_ne_true

theorem patrolScrub (x0 : Nat) : Statement (.patrolScrub x0) := by
  intro h
  exact absurd h Bool.false_ne_true

theorem illegalInstruction (x0 : W32) : Statement (.illegalInstruction x0) := by
  intro h
  exact absurd h Bool.false_ne_true

theorem codeFetchFault (x0 : W64) : Statement (.codeFetchFault x0) := by
  intro h
  exact absurd h Bool.false_ne_true

theorem strataRequestPerform (x0 : Nat) : Statement (.strataRequestPerform x0) := by
  intro h
  exact absurd h Bool.false_ne_true

theorem recordCacheComplete (x0 : Nat) : Statement (.recordCacheComplete x0) := by
  intro h
  exact absurd h Bool.false_ne_true

theorem bindingInstalled (x0 : Nat) : Statement (.bindingInstalled x0) := by
  intro h
  exact absurd h Bool.false_ne_true

theorem linkRetrained (x0 : Nat) : Statement (.linkRetrained x0) := by
  intro h
  exact absurd h Bool.false_ne_true

theorem contextSaveComplete (x0 : Nat) : Statement (.contextSaveComplete x0) := by
  intro h
  exact absurd h Bool.false_ne_true

theorem migrationMoveComplete (x0 : Nat) : Statement (.migrationMoveComplete x0) := by
  intro h
  exact absurd h Bool.false_ne_true

end Laws.RoundTrip

end Sys2Proof
end

