-- ==== Sys2Proof/Laws/State.lean ====
section
/-! SUPPORT. What each small update of a state or a wave leaves: one lemma for each field, true by unfolding. -/

namespace Sys2Proof.Machine

/-! ### `State.withIssuer` -/

@[simp] theorem State.withIssuer_tick (s : State) (w : Wave) : (s.withIssuer w).tick = s.tick := rfl
@[simp] theorem State.withIssuer_elapsed (s : State) (w : Wave) : (s.withIssuer w).elapsed = s.elapsed := rfl
@[simp] theorem State.withIssuer_powered (s : State) (w : Wave) : (s.withIssuer w).powered = s.powered := rfl
@[simp] theorem State.withIssuer_ready (s : State) (w : Wave) : (s.withIssuer w).ready = s.ready := rfl
@[simp] theorem State.withIssuer_recovery (s : State) (w : Wave) : (s.withIssuer w).recovery = s.recovery := rfl
@[simp] theorem State.withIssuer_bringup (s : State) (w : Wave) : (s.withIssuer w).bringup = s.bringup := rfl
@[simp] theorem State.withIssuer_powerCap (s : State) (w : Wave) : (s.withIssuer w).powerCap = s.powerCap := rfl
@[simp] theorem State.withIssuer_clockMhz (s : State) (w : Wave) : (s.withIssuer w).clockMhz = s.clockMhz := rfl
@[simp] theorem State.withIssuer_tripAt (s : State) (w : Wave) : (s.withIssuer w).tripAt = s.tripAt := rfl
@[simp] theorem State.withIssuer_fwActive (s : State) (w : Wave) : (s.withIssuer w).fwActive = s.fwActive := rfl
@[simp] theorem State.withIssuer_fwStaged (s : State) (w : Wave) : (s.withIssuer w).fwStaged = s.fwStaged := rfl
@[simp] theorem State.withIssuer_svnFuse (s : State) (w : Wave) : (s.withIssuer w).svnFuse = s.svnFuse := rfl
@[simp] theorem State.withIssuer_frozen (s : State) (w : Wave) : (s.withIssuer w).frozen = s.frozen := rfl
@[simp] theorem State.withIssuer_freezeRefused (s : State) (w : Wave) : (s.withIssuer w).freezeRefused = s.freezeRefused := rfl
@[simp] theorem State.withIssuer_links (s : State) (w : Wave) : (s.withIssuer w).links = s.links := rfl
@[simp] theorem State.withIssuer_slice (s : State) (w : Wave) : (s.withIssuer w).slice = s.slice := rfl
@[simp] theorem State.withIssuer_ext (s : State) (w : Wave) : (s.withIssuer w).ext = s.ext := rfl
@[simp] theorem State.withIssuer_tlb (s : State) (w : Wave) : (s.withIssuer w).tlb = s.tlb := rfl
@[simp] theorem State.withIssuer_hostMem (s : State) (w : Wave) : (s.withIssuer w).hostMem = s.hostMem := rfl
@[simp] theorem State.withIssuer_eccBad (s : State) (w : Wave) : (s.withIssuer w).eccBad = s.eccBad := rfl
@[simp] theorem State.withIssuer_eccSoft (s : State) (w : Wave) : (s.withIssuer w).eccSoft = s.eccSoft := rfl
@[simp] theorem State.withIssuer_eccCount (s : State) (w : Wave) : (s.withIssuer w).eccCount = s.eccCount := rfl
@[simp] theorem State.withIssuer_irqs (s : State) (w : Wave) : (s.withIssuer w).irqs = s.irqs := rfl
@[simp] theorem State.withIssuer_funcs (s : State) (w : Wave) : (s.withIssuer w).funcs = s.funcs := rfl
@[simp] theorem State.withIssuer_parts (s : State) (w : Wave) : (s.withIssuer w).parts = s.parts := rfl
@[simp] theorem State.withIssuer_ctxs (s : State) (w : Wave) : (s.withIssuer w).ctxs = s.ctxs := rfl
@[simp] theorem State.withIssuer_grids (s : State) (w : Wave) : (s.withIssuer w).grids = s.grids := rfl
@[simp] theorem State.withIssuer_groups (s : State) (w : Wave) : (s.withIssuer w).groups = s.groups := rfl
@[simp] theorem State.withIssuer_waves (s : State) (w : Wave) : (s.withIssuer w).waves = w :: s.waves.tail := rfl
@[simp] theorem State.withIssuer_flight (s : State) (w : Wave) : (s.withIssuer w).flight = s.flight := rfl
@[simp] theorem State.withIssuer_red (s : State) (w : Wave) : (s.withIssuer w).red = s.red := rfl
@[simp] theorem State.withIssuer_slip (s : State) (w : Wave) : (s.withIssuer w).slip = s.slip := rfl
@[simp] theorem State.withIssuer_cache (s : State) (w : Wave) : (s.withIssuer w).cache = s.cache := rfl
@[simp] theorem State.withIssuer_landings (s : State) (w : Wave) : (s.withIssuer w).landings = s.landings := rfl
@[simp] theorem State.withIssuer_mats (s : State) (w : Wave) : (s.withIssuer w).mats = s.mats := rfl
@[simp] theorem State.withIssuer_tasks (s : State) (w : Wave) : (s.withIssuer w).tasks = s.tasks := rfl
@[simp] theorem State.withIssuer_bins (s : State) (w : Wave) : (s.withIssuer w).bins = s.bins := rfl
@[simp] theorem State.withIssuer_dispatched (s : State) (w : Wave) : (s.withIssuer w).dispatched = s.dispatched := rfl
@[simp] theorem State.withIssuer_ctrMsgs (s : State) (w : Wave) : (s.withIssuer w).ctrMsgs = s.ctrMsgs := rfl
@[simp] theorem State.withIssuer_packets (s : State) (w : Wave) : (s.withIssuer w).packets = s.packets := rfl
@[simp] theorem State.withIssuer_sieve (s : State) (w : Wave) : (s.withIssuer w).sieve = s.sieve := rfl
@[simp] theorem State.withIssuer_requests (s : State) (w : Wave) : (s.withIssuer w).requests = s.requests := rfl
@[simp] theorem State.withIssuer_waitList (s : State) (w : Wave) : (s.withIssuer w).waitList = s.waitList := rfl
@[simp] theorem State.withIssuer_saved (s : State) (w : Wave) : (s.withIssuer w).saved = s.saved := rfl
@[simp] theorem State.withIssuer_limbo (s : State) (w : Wave) : (s.withIssuer w).limbo = s.limbo := rfl
@[simp] theorem State.withIssuer_moves (s : State) (w : Wave) : (s.withIssuer w).moves = s.moves := rfl
@[simp] theorem State.withIssuer_transfers (s : State) (w : Wave) : (s.withIssuer w).transfers = s.transfers := rfl
@[simp] theorem State.withIssuer_buckets (s : State) (w : Wave) : (s.withIssuer w).buckets = s.buckets := rfl
@[simp] theorem State.withIssuer_portClk (s : State) (w : Wave) : (s.withIssuer w).portClk = s.portClk := rfl
@[simp] theorem State.withIssuer_nextId (s : State) (w : Wave) : (s.withIssuer w).nextId = s.nextId := rfl
@[simp] theorem State.withIssuer_freeCtr (s : State) (w : Wave) : (s.withIssuer w).freeCtr = s.freeCtr := rfl
@[simp] theorem State.withIssuer_agenda (s : State) (w : Wave) : (s.withIssuer w).agenda = s.agenda := rfl

/-! ### `State.put` -/

@[simp] theorem State.put_tick (s : State) (w : Wave) : (s.put w).tick = s.tick := rfl
@[simp] theorem State.put_elapsed (s : State) (w : Wave) : (s.put w).elapsed = s.elapsed := rfl
@[simp] theorem State.put_powered (s : State) (w : Wave) : (s.put w).powered = s.powered := rfl
@[simp] theorem State.put_ready (s : State) (w : Wave) : (s.put w).ready = s.ready := rfl
@[simp] theorem State.put_recovery (s : State) (w : Wave) : (s.put w).recovery = s.recovery := rfl
@[simp] theorem State.put_bringup (s : State) (w : Wave) : (s.put w).bringup = s.bringup := rfl
@[simp] theorem State.put_powerCap (s : State) (w : Wave) : (s.put w).powerCap = s.powerCap := rfl
@[simp] theorem State.put_clockMhz (s : State) (w : Wave) : (s.put w).clockMhz = s.clockMhz := rfl
@[simp] theorem State.put_tripAt (s : State) (w : Wave) : (s.put w).tripAt = s.tripAt := rfl
@[simp] theorem State.put_fwActive (s : State) (w : Wave) : (s.put w).fwActive = s.fwActive := rfl
@[simp] theorem State.put_fwStaged (s : State) (w : Wave) : (s.put w).fwStaged = s.fwStaged := rfl
@[simp] theorem State.put_svnFuse (s : State) (w : Wave) : (s.put w).svnFuse = s.svnFuse := rfl
@[simp] theorem State.put_frozen (s : State) (w : Wave) : (s.put w).frozen = s.frozen := rfl
@[simp] theorem State.put_freezeRefused (s : State) (w : Wave) : (s.put w).freezeRefused = s.freezeRefused := rfl
@[simp] theorem State.put_links (s : State) (w : Wave) : (s.put w).links = s.links := rfl
@[simp] theorem State.put_slice (s : State) (w : Wave) : (s.put w).slice = s.slice := rfl
@[simp] theorem State.put_ext (s : State) (w : Wave) : (s.put w).ext = s.ext := rfl
@[simp] theorem State.put_tlb (s : State) (w : Wave) : (s.put w).tlb = s.tlb := rfl
@[simp] theorem State.put_hostMem (s : State) (w : Wave) : (s.put w).hostMem = s.hostMem := rfl
@[simp] theorem State.put_eccBad (s : State) (w : Wave) : (s.put w).eccBad = s.eccBad := rfl
@[simp] theorem State.put_eccSoft (s : State) (w : Wave) : (s.put w).eccSoft = s.eccSoft := rfl
@[simp] theorem State.put_eccCount (s : State) (w : Wave) : (s.put w).eccCount = s.eccCount := rfl
@[simp] theorem State.put_irqs (s : State) (w : Wave) : (s.put w).irqs = s.irqs := rfl
@[simp] theorem State.put_funcs (s : State) (w : Wave) : (s.put w).funcs = s.funcs := rfl
@[simp] theorem State.put_parts (s : State) (w : Wave) : (s.put w).parts = s.parts := rfl
@[simp] theorem State.put_ctxs (s : State) (w : Wave) : (s.put w).ctxs = s.ctxs := rfl
@[simp] theorem State.put_grids (s : State) (w : Wave) : (s.put w).grids = s.grids := rfl
@[simp] theorem State.put_groups (s : State) (w : Wave) : (s.put w).groups = s.groups := rfl
@[simp] theorem State.put_waves (s : State) (w : Wave) : (s.put w).waves = w :: s.waves.tail := rfl
@[simp] theorem State.put_flight (s : State) (w : Wave) : (s.put w).flight = s.flight := rfl
@[simp] theorem State.put_red (s : State) (w : Wave) : (s.put w).red = s.red := rfl
@[simp] theorem State.put_slip (s : State) (w : Wave) : (s.put w).slip = s.slip := rfl
@[simp] theorem State.put_cache (s : State) (w : Wave) : (s.put w).cache = s.cache := rfl
@[simp] theorem State.put_landings (s : State) (w : Wave) : (s.put w).landings = s.landings := rfl
@[simp] theorem State.put_mats (s : State) (w : Wave) : (s.put w).mats = s.mats := rfl
@[simp] theorem State.put_tasks (s : State) (w : Wave) : (s.put w).tasks = s.tasks := rfl
@[simp] theorem State.put_bins (s : State) (w : Wave) : (s.put w).bins = s.bins := rfl
@[simp] theorem State.put_dispatched (s : State) (w : Wave) : (s.put w).dispatched = s.dispatched := rfl
@[simp] theorem State.put_ctrMsgs (s : State) (w : Wave) : (s.put w).ctrMsgs = s.ctrMsgs := rfl
@[simp] theorem State.put_packets (s : State) (w : Wave) : (s.put w).packets = s.packets := rfl
@[simp] theorem State.put_sieve (s : State) (w : Wave) : (s.put w).sieve = s.sieve := rfl
@[simp] theorem State.put_requests (s : State) (w : Wave) : (s.put w).requests = s.requests := rfl
@[simp] theorem State.put_waitList (s : State) (w : Wave) : (s.put w).waitList = s.waitList := rfl
@[simp] theorem State.put_saved (s : State) (w : Wave) : (s.put w).saved = s.saved := rfl
@[simp] theorem State.put_limbo (s : State) (w : Wave) : (s.put w).limbo = s.limbo := rfl
@[simp] theorem State.put_moves (s : State) (w : Wave) : (s.put w).moves = s.moves := rfl
@[simp] theorem State.put_transfers (s : State) (w : Wave) : (s.put w).transfers = s.transfers := rfl
@[simp] theorem State.put_buckets (s : State) (w : Wave) : (s.put w).buckets = s.buckets := rfl
@[simp] theorem State.put_portClk (s : State) (w : Wave) : (s.put w).portClk = s.portClk := rfl
@[simp] theorem State.put_nextId (s : State) (w : Wave) : (s.put w).nextId = s.nextId := rfl
@[simp] theorem State.put_freeCtr (s : State) (w : Wave) : (s.put w).freeCtr = s.freeCtr := rfl
@[simp] theorem State.put_agenda (s : State) (w : Wave) : (s.put w).agenda = s.agenda := rfl

/-! ### `State.retire` -/

@[simp] theorem State.retire_tick (s : State) (w : Wave) : (s.retire w).tick = s.tick := rfl
@[simp] theorem State.retire_elapsed (s : State) (w : Wave) : (s.retire w).elapsed = s.elapsed := rfl
@[simp] theorem State.retire_powered (s : State) (w : Wave) : (s.retire w).powered = s.powered := rfl
@[simp] theorem State.retire_ready (s : State) (w : Wave) : (s.retire w).ready = s.ready := rfl
@[simp] theorem State.retire_recovery (s : State) (w : Wave) : (s.retire w).recovery = s.recovery := rfl
@[simp] theorem State.retire_bringup (s : State) (w : Wave) : (s.retire w).bringup = s.bringup := rfl
@[simp] theorem State.retire_powerCap (s : State) (w : Wave) : (s.retire w).powerCap = s.powerCap := rfl
@[simp] theorem State.retire_clockMhz (s : State) (w : Wave) : (s.retire w).clockMhz = s.clockMhz := rfl
@[simp] theorem State.retire_tripAt (s : State) (w : Wave) : (s.retire w).tripAt = s.tripAt := rfl
@[simp] theorem State.retire_fwActive (s : State) (w : Wave) : (s.retire w).fwActive = s.fwActive := rfl
@[simp] theorem State.retire_fwStaged (s : State) (w : Wave) : (s.retire w).fwStaged = s.fwStaged := rfl
@[simp] theorem State.retire_svnFuse (s : State) (w : Wave) : (s.retire w).svnFuse = s.svnFuse := rfl
@[simp] theorem State.retire_frozen (s : State) (w : Wave) : (s.retire w).frozen = s.frozen := rfl
@[simp] theorem State.retire_freezeRefused (s : State) (w : Wave) : (s.retire w).freezeRefused = s.freezeRefused := rfl
@[simp] theorem State.retire_links (s : State) (w : Wave) : (s.retire w).links = s.links := rfl
@[simp] theorem State.retire_slice (s : State) (w : Wave) : (s.retire w).slice = s.slice := rfl
@[simp] theorem State.retire_ext (s : State) (w : Wave) : (s.retire w).ext = s.ext := rfl
@[simp] theorem State.retire_tlb (s : State) (w : Wave) : (s.retire w).tlb = s.tlb := rfl
@[simp] theorem State.retire_hostMem (s : State) (w : Wave) : (s.retire w).hostMem = s.hostMem := rfl
@[simp] theorem State.retire_eccBad (s : State) (w : Wave) : (s.retire w).eccBad = s.eccBad := rfl
@[simp] theorem State.retire_eccSoft (s : State) (w : Wave) : (s.retire w).eccSoft = s.eccSoft := rfl
@[simp] theorem State.retire_eccCount (s : State) (w : Wave) : (s.retire w).eccCount = s.eccCount := rfl
@[simp] theorem State.retire_irqs (s : State) (w : Wave) : (s.retire w).irqs = s.irqs := rfl
@[simp] theorem State.retire_funcs (s : State) (w : Wave) : (s.retire w).funcs = s.funcs := rfl
@[simp] theorem State.retire_parts (s : State) (w : Wave) : (s.retire w).parts = s.parts := rfl
@[simp] theorem State.retire_ctxs (s : State) (w : Wave) : (s.retire w).ctxs = s.ctxs := rfl
@[simp] theorem State.retire_grids (s : State) (w : Wave) : (s.retire w).grids = s.grids := rfl
@[simp] theorem State.retire_groups (s : State) (w : Wave) : (s.retire w).groups = s.groups := rfl
@[simp] theorem State.retire_waves (s : State) (w : Wave) : (s.retire w).waves = w.next s.tick :: s.waves.tail := rfl
@[simp] theorem State.retire_flight (s : State) (w : Wave) : (s.retire w).flight = s.flight := rfl
@[simp] theorem State.retire_red (s : State) (w : Wave) : (s.retire w).red = s.red := rfl
@[simp] theorem State.retire_slip (s : State) (w : Wave) : (s.retire w).slip = s.slip := rfl
@[simp] theorem State.retire_cache (s : State) (w : Wave) : (s.retire w).cache = s.cache := rfl
@[simp] theorem State.retire_landings (s : State) (w : Wave) : (s.retire w).landings = s.landings := rfl
@[simp] theorem State.retire_mats (s : State) (w : Wave) : (s.retire w).mats = s.mats := rfl
@[simp] theorem State.retire_tasks (s : State) (w : Wave) : (s.retire w).tasks = s.tasks := rfl
@[simp] theorem State.retire_bins (s : State) (w : Wave) : (s.retire w).bins = s.bins := rfl
@[simp] theorem State.retire_dispatched (s : State) (w : Wave) : (s.retire w).dispatched = s.dispatched := rfl
@[simp] theorem State.retire_ctrMsgs (s : State) (w : Wave) : (s.retire w).ctrMsgs = s.ctrMsgs := rfl
@[simp] theorem State.retire_packets (s : State) (w : Wave) : (s.retire w).packets = s.packets := rfl
@[simp] theorem State.retire_sieve (s : State) (w : Wave) : (s.retire w).sieve = s.sieve := rfl
@[simp] theorem State.retire_requests (s : State) (w : Wave) : (s.retire w).requests = s.requests := rfl
@[simp] theorem State.retire_waitList (s : State) (w : Wave) : (s.retire w).waitList = s.waitList := rfl
@[simp] theorem State.retire_saved (s : State) (w : Wave) : (s.retire w).saved = s.saved := rfl
@[simp] theorem State.retire_limbo (s : State) (w : Wave) : (s.retire w).limbo = s.limbo := rfl
@[simp] theorem State.retire_moves (s : State) (w : Wave) : (s.retire w).moves = s.moves := rfl
@[simp] theorem State.retire_transfers (s : State) (w : Wave) : (s.retire w).transfers = s.transfers := rfl
@[simp] theorem State.retire_buckets (s : State) (w : Wave) : (s.retire w).buckets = s.buckets := rfl
@[simp] theorem State.retire_portClk (s : State) (w : Wave) : (s.retire w).portClk = s.portClk := rfl
@[simp] theorem State.retire_nextId (s : State) (w : Wave) : (s.retire w).nextId = s.nextId := rfl
@[simp] theorem State.retire_freeCtr (s : State) (w : Wave) : (s.retire w).freeCtr = s.freeCtr := rfl
@[simp] theorem State.retire_agenda (s : State) (w : Wave) : (s.retire w).agenda = s.agenda := rfl

/-! ### `State.again` -/

@[simp] theorem State.again_tick (s : State) (w : Wave) (q : SubWave) : (s.again w q).tick = s.tick := rfl
@[simp] theorem State.again_elapsed (s : State) (w : Wave) (q : SubWave) : (s.again w q).elapsed = s.elapsed := rfl
@[simp] theorem State.again_powered (s : State) (w : Wave) (q : SubWave) : (s.again w q).powered = s.powered := rfl
@[simp] theorem State.again_ready (s : State) (w : Wave) (q : SubWave) : (s.again w q).ready = s.ready := rfl
@[simp] theorem State.again_recovery (s : State) (w : Wave) (q : SubWave) : (s.again w q).recovery = s.recovery := rfl
@[simp] theorem State.again_bringup (s : State) (w : Wave) (q : SubWave) : (s.again w q).bringup = s.bringup := rfl
@[simp] theorem State.again_powerCap (s : State) (w : Wave) (q : SubWave) : (s.again w q).powerCap = s.powerCap := rfl
@[simp] theorem State.again_clockMhz (s : State) (w : Wave) (q : SubWave) : (s.again w q).clockMhz = s.clockMhz := rfl
@[simp] theorem State.again_tripAt (s : State) (w : Wave) (q : SubWave) : (s.again w q).tripAt = s.tripAt := rfl
@[simp] theorem State.again_fwActive (s : State) (w : Wave) (q : SubWave) : (s.again w q).fwActive = s.fwActive := rfl
@[simp] theorem State.again_fwStaged (s : State) (w : Wave) (q : SubWave) : (s.again w q).fwStaged = s.fwStaged := rfl
@[simp] theorem State.again_svnFuse (s : State) (w : Wave) (q : SubWave) : (s.again w q).svnFuse = s.svnFuse := rfl
@[simp] theorem State.again_frozen (s : State) (w : Wave) (q : SubWave) : (s.again w q).frozen = s.frozen := rfl
@[simp] theorem State.again_freezeRefused (s : State) (w : Wave) (q : SubWave) : (s.again w q).freezeRefused = s.freezeRefused := rfl
@[simp] theorem State.again_links (s : State) (w : Wave) (q : SubWave) : (s.again w q).links = s.links := rfl
@[simp] theorem State.again_slice (s : State) (w : Wave) (q : SubWave) : (s.again w q).slice = s.slice := rfl
@[simp] theorem State.again_ext (s : State) (w : Wave) (q : SubWave) : (s.again w q).ext = s.ext := rfl
@[simp] theorem State.again_tlb (s : State) (w : Wave) (q : SubWave) : (s.again w q).tlb = s.tlb := rfl
@[simp] theorem State.again_hostMem (s : State) (w : Wave) (q : SubWave) : (s.again w q).hostMem = s.hostMem := rfl
@[simp] theorem State.again_eccBad (s : State) (w : Wave) (q : SubWave) : (s.again w q).eccBad = s.eccBad := rfl
@[simp] theorem State.again_eccSoft (s : State) (w : Wave) (q : SubWave) : (s.again w q).eccSoft = s.eccSoft := rfl
@[simp] theorem State.again_eccCount (s : State) (w : Wave) (q : SubWave) : (s.again w q).eccCount = s.eccCount := rfl
@[simp] theorem State.again_irqs (s : State) (w : Wave) (q : SubWave) : (s.again w q).irqs = s.irqs := rfl
@[simp] theorem State.again_funcs (s : State) (w : Wave) (q : SubWave) : (s.again w q).funcs = s.funcs := rfl
@[simp] theorem State.again_parts (s : State) (w : Wave) (q : SubWave) : (s.again w q).parts = s.parts := rfl
@[simp] theorem State.again_ctxs (s : State) (w : Wave) (q : SubWave) : (s.again w q).ctxs = s.ctxs := rfl
@[simp] theorem State.again_grids (s : State) (w : Wave) (q : SubWave) : (s.again w q).grids = s.grids := rfl
@[simp] theorem State.again_groups (s : State) (w : Wave) (q : SubWave) : (s.again w q).groups = s.groups := rfl
@[simp] theorem State.again_waves (s : State) (w : Wave) (q : SubWave) : (s.again w q).waves = { w with wait := .again q.quads } :: s.waves.tail := rfl
@[simp] theorem State.again_flight (s : State) (w : Wave) (q : SubWave) : (s.again w q).flight = s.flight := rfl
@[simp] theorem State.again_red (s : State) (w : Wave) (q : SubWave) : (s.again w q).red = s.red := rfl
@[simp] theorem State.again_slip (s : State) (w : Wave) (q : SubWave) : (s.again w q).slip = s.slip := rfl
@[simp] theorem State.again_cache (s : State) (w : Wave) (q : SubWave) : (s.again w q).cache = s.cache := rfl
@[simp] theorem State.again_landings (s : State) (w : Wave) (q : SubWave) : (s.again w q).landings = s.landings := rfl
@[simp] theorem State.again_mats (s : State) (w : Wave) (q : SubWave) : (s.again w q).mats = s.mats := rfl
@[simp] theorem State.again_tasks (s : State) (w : Wave) (q : SubWave) : (s.again w q).tasks = s.tasks := rfl
@[simp] theorem State.again_bins (s : State) (w : Wave) (q : SubWave) : (s.again w q).bins = s.bins := rfl
@[simp] theorem State.again_dispatched (s : State) (w : Wave) (q : SubWave) : (s.again w q).dispatched = s.dispatched := rfl
@[simp] theorem State.again_ctrMsgs (s : State) (w : Wave) (q : SubWave) : (s.again w q).ctrMsgs = s.ctrMsgs := rfl
@[simp] theorem State.again_packets (s : State) (w : Wave) (q : SubWave) : (s.again w q).packets = s.packets := rfl
@[simp] theorem State.again_sieve (s : State) (w : Wave) (q : SubWave) : (s.again w q).sieve = s.sieve := rfl
@[simp] theorem State.again_requests (s : State) (w : Wave) (q : SubWave) : (s.again w q).requests = s.requests := rfl
@[simp] theorem State.again_waitList (s : State) (w : Wave) (q : SubWave) : (s.again w q).waitList = s.waitList := rfl
@[simp] theorem State.again_saved (s : State) (w : Wave) (q : SubWave) : (s.again w q).saved = s.saved := rfl
@[simp] theorem State.again_limbo (s : State) (w : Wave) (q : SubWave) : (s.again w q).limbo = s.limbo := rfl
@[simp] theorem State.again_moves (s : State) (w : Wave) (q : SubWave) : (s.again w q).moves = s.moves := rfl
@[simp] theorem State.again_transfers (s : State) (w : Wave) (q : SubWave) : (s.again w q).transfers = s.transfers := rfl
@[simp] theorem State.again_buckets (s : State) (w : Wave) (q : SubWave) : (s.again w q).buckets = s.buckets := rfl
@[simp] theorem State.again_portClk (s : State) (w : Wave) (q : SubWave) : (s.again w q).portClk = s.portClk := rfl
@[simp] theorem State.again_nextId (s : State) (w : Wave) (q : SubWave) : (s.again w q).nextId = s.nextId := rfl
@[simp] theorem State.again_freeCtr (s : State) (w : Wave) (q : SubWave) : (s.again w q).freeCtr = s.freeCtr := rfl
@[simp] theorem State.again_agenda (s : State) (w : Wave) (q : SubWave) : (s.again w q).agenda = s.agenda := rfl

/-! ### `State.stall` -/

@[simp] theorem State.stall_tick (s : State) (w : Wave) (q : SubWave) : (s.stall w q).tick = s.tick := rfl
@[simp] theorem State.stall_elapsed (s : State) (w : Wave) (q : SubWave) : (s.stall w q).elapsed = s.elapsed := rfl
@[simp] theorem State.stall_powered (s : State) (w : Wave) (q : SubWave) : (s.stall w q).powered = s.powered := rfl
@[simp] theorem State.stall_ready (s : State) (w : Wave) (q : SubWave) : (s.stall w q).ready = s.ready := rfl
@[simp] theorem State.stall_recovery (s : State) (w : Wave) (q : SubWave) : (s.stall w q).recovery = s.recovery := rfl
@[simp] theorem State.stall_bringup (s : State) (w : Wave) (q : SubWave) : (s.stall w q).bringup = s.bringup := rfl
@[simp] theorem State.stall_powerCap (s : State) (w : Wave) (q : SubWave) : (s.stall w q).powerCap = s.powerCap := rfl
@[simp] theorem State.stall_clockMhz (s : State) (w : Wave) (q : SubWave) : (s.stall w q).clockMhz = s.clockMhz := rfl
@[simp] theorem State.stall_tripAt (s : State) (w : Wave) (q : SubWave) : (s.stall w q).tripAt = s.tripAt := rfl
@[simp] theorem State.stall_fwActive (s : State) (w : Wave) (q : SubWave) : (s.stall w q).fwActive = s.fwActive := rfl
@[simp] theorem State.stall_fwStaged (s : State) (w : Wave) (q : SubWave) : (s.stall w q).fwStaged = s.fwStaged := rfl
@[simp] theorem State.stall_svnFuse (s : State) (w : Wave) (q : SubWave) : (s.stall w q).svnFuse = s.svnFuse := rfl
@[simp] theorem State.stall_frozen (s : State) (w : Wave) (q : SubWave) : (s.stall w q).frozen = s.frozen := rfl
@[simp] theorem State.stall_freezeRefused (s : State) (w : Wave) (q : SubWave) : (s.stall w q).freezeRefused = s.freezeRefused := rfl
@[simp] theorem State.stall_links (s : State) (w : Wave) (q : SubWave) : (s.stall w q).links = s.links := rfl
@[simp] theorem State.stall_slice (s : State) (w : Wave) (q : SubWave) : (s.stall w q).slice = s.slice := rfl
@[simp] theorem State.stall_ext (s : State) (w : Wave) (q : SubWave) : (s.stall w q).ext = s.ext := rfl
@[simp] theorem State.stall_tlb (s : State) (w : Wave) (q : SubWave) : (s.stall w q).tlb = s.tlb := rfl
@[simp] theorem State.stall_hostMem (s : State) (w : Wave) (q : SubWave) : (s.stall w q).hostMem = s.hostMem := rfl
@[simp] theorem State.stall_eccBad (s : State) (w : Wave) (q : SubWave) : (s.stall w q).eccBad = s.eccBad := rfl
@[simp] theorem State.stall_eccSoft (s : State) (w : Wave) (q : SubWave) : (s.stall w q).eccSoft = s.eccSoft := rfl
@[simp] theorem State.stall_eccCount (s : State) (w : Wave) (q : SubWave) : (s.stall w q).eccCount = s.eccCount := rfl
@[simp] theorem State.stall_irqs (s : State) (w : Wave) (q : SubWave) : (s.stall w q).irqs = s.irqs := rfl
@[simp] theorem State.stall_funcs (s : State) (w : Wave) (q : SubWave) : (s.stall w q).funcs = s.funcs := rfl
@[simp] theorem State.stall_parts (s : State) (w : Wave) (q : SubWave) : (s.stall w q).parts = s.parts := rfl
@[simp] theorem State.stall_ctxs (s : State) (w : Wave) (q : SubWave) : (s.stall w q).ctxs = s.ctxs := rfl
@[simp] theorem State.stall_grids (s : State) (w : Wave) (q : SubWave) : (s.stall w q).grids = s.grids := rfl
@[simp] theorem State.stall_groups (s : State) (w : Wave) (q : SubWave) : (s.stall w q).groups = s.groups := rfl
@[simp] theorem State.stall_waves (s : State) (w : Wave) (q : SubWave) : (s.stall w q).waves = { w with wait := .stall q.quads } :: s.waves.tail := rfl
@[simp] theorem State.stall_flight (s : State) (w : Wave) (q : SubWave) : (s.stall w q).flight = s.flight := rfl
@[simp] theorem State.stall_red (s : State) (w : Wave) (q : SubWave) : (s.stall w q).red = s.red := rfl
@[simp] theorem State.stall_slip (s : State) (w : Wave) (q : SubWave) : (s.stall w q).slip = s.slip := rfl
@[simp] theorem State.stall_cache (s : State) (w : Wave) (q : SubWave) : (s.stall w q).cache = s.cache := rfl
@[simp] theorem State.stall_landings (s : State) (w : Wave) (q : SubWave) : (s.stall w q).landings = s.landings := rfl
@[simp] theorem State.stall_mats (s : State) (w : Wave) (q : SubWave) : (s.stall w q).mats = s.mats := rfl
@[simp] theorem State.stall_tasks (s : State) (w : Wave) (q : SubWave) : (s.stall w q).tasks = s.tasks := rfl
@[simp] theorem State.stall_bins (s : State) (w : Wave) (q : SubWave) : (s.stall w q).bins = s.bins := rfl
@[simp] theorem State.stall_dispatched (s : State) (w : Wave) (q : SubWave) : (s.stall w q).dispatched = s.dispatched := rfl
@[simp] theorem State.stall_ctrMsgs (s : State) (w : Wave) (q : SubWave) : (s.stall w q).ctrMsgs = s.ctrMsgs := rfl
@[simp] theorem State.stall_packets (s : State) (w : Wave) (q : SubWave) : (s.stall w q).packets = s.packets := rfl
@[simp] theorem State.stall_sieve (s : State) (w : Wave) (q : SubWave) : (s.stall w q).sieve = s.sieve := rfl
@[simp] theorem State.stall_requests (s : State) (w : Wave) (q : SubWave) : (s.stall w q).requests = s.requests := rfl
@[simp] theorem State.stall_waitList (s : State) (w : Wave) (q : SubWave) : (s.stall w q).waitList = s.waitList := rfl
@[simp] theorem State.stall_saved (s : State) (w : Wave) (q : SubWave) : (s.stall w q).saved = s.saved := rfl
@[simp] theorem State.stall_limbo (s : State) (w : Wave) (q : SubWave) : (s.stall w q).limbo = s.limbo := rfl
@[simp] theorem State.stall_moves (s : State) (w : Wave) (q : SubWave) : (s.stall w q).moves = s.moves := rfl
@[simp] theorem State.stall_transfers (s : State) (w : Wave) (q : SubWave) : (s.stall w q).transfers = s.transfers := rfl
@[simp] theorem State.stall_buckets (s : State) (w : Wave) (q : SubWave) : (s.stall w q).buckets = s.buckets := rfl
@[simp] theorem State.stall_portClk (s : State) (w : Wave) (q : SubWave) : (s.stall w q).portClk = s.portClk := rfl
@[simp] theorem State.stall_nextId (s : State) (w : Wave) (q : SubWave) : (s.stall w q).nextId = s.nextId := rfl
@[simp] theorem State.stall_freeCtr (s : State) (w : Wave) (q : SubWave) : (s.stall w q).freeCtr = s.freeCtr := rfl
@[simp] theorem State.stall_agenda (s : State) (w : Wave) (q : SubWave) : (s.stall w q).agenda = s.agenda := rfl

/-! ### `State.updWave` -/

@[simp] theorem State.updWave_tick (s : State) (id : Nat) (f : Wave → Wave) : (s.updWave id f).tick = s.tick := rfl
@[simp] theorem State.updWave_elapsed (s : State) (id : Nat) (f : Wave → Wave) : (s.updWave id f).elapsed = s.elapsed := rfl
@[simp] theorem State.updWave_powered (s : State) (id : Nat) (f : Wave → Wave) : (s.updWave id f).powered = s.powered := rfl
@[simp] theorem State.updWave_ready (s : State) (id : Nat) (f : Wave → Wave) : (s.updWave id f).ready = s.ready := rfl
@[simp] theorem State.updWave_recovery (s : State) (id : Nat) (f : Wave → Wave) : (s.updWave id f).recovery = s.recovery := rfl
@[simp] theorem State.updWave_bringup (s : State) (id : Nat) (f : Wave → Wave) : (s.updWave id f).bringup = s.bringup := rfl
@[simp] theorem State.updWave_powerCap (s : State) (id : Nat) (f : Wave → Wave) : (s.updWave id f).powerCap = s.powerCap := rfl
@[simp] theorem State.updWave_clockMhz (s : State) (id : Nat) (f : Wave → Wave) : (s.updWave id f).clockMhz = s.clockMhz := rfl
@[simp] theorem State.updWave_tripAt (s : State) (id : Nat) (f : Wave → Wave) : (s.updWave id f).tripAt = s.tripAt := rfl
@[simp] theorem State.updWave_fwActive (s : State) (id : Nat) (f : Wave → Wave) : (s.updWave id f).fwActive = s.fwActive := rfl
@[simp] theorem State.updWave_fwStaged (s : State) (id : Nat) (f : Wave → Wave) : (s.updWave id f).fwStaged = s.fwStaged := rfl
@[simp] theorem State.updWave_svnFuse (s : State) (id : Nat) (f : Wave → Wave) : (s.updWave id f).svnFuse = s.svnFuse := rfl
@[simp] theorem State.updWave_frozen (s : State) (id : Nat) (f : Wave → Wave) : (s.updWave id f).frozen = s.frozen := rfl
@[simp] theorem State.updWave_freezeRefused (s : State) (id : Nat) (f : Wave → Wave) : (s.updWave id f).freezeRefused = s.freezeRefused := rfl
@[simp] theorem State.updWave_links (s : State) (id : Nat) (f : Wave → Wave) : (s.updWave id f).links = s.links := rfl
@[simp] theorem State.updWave_slice (s : State) (id : Nat) (f : Wave → Wave) : (s.updWave id f).slice = s.slice := rfl
@[simp] theorem State.updWave_ext (s : State) (id : Nat) (f : Wave → Wave) : (s.updWave id f).ext = s.ext := rfl
@[simp] theorem State.updWave_tlb (s : State) (id : Nat) (f : Wave → Wave) : (s.updWave id f).tlb = s.tlb := rfl
@[simp] theorem State.updWave_hostMem (s : State) (id : Nat) (f : Wave → Wave) : (s.updWave id f).hostMem = s.hostMem := rfl
@[simp] theorem State.updWave_eccBad (s : State) (id : Nat) (f : Wave → Wave) : (s.updWave id f).eccBad = s.eccBad := rfl
@[simp] theorem State.updWave_eccSoft (s : State) (id : Nat) (f : Wave → Wave) : (s.updWave id f).eccSoft = s.eccSoft := rfl
@[simp] theorem State.updWave_eccCount (s : State) (id : Nat) (f : Wave → Wave) : (s.updWave id f).eccCount = s.eccCount := rfl
@[simp] theorem State.updWave_irqs (s : State) (id : Nat) (f : Wave → Wave) : (s.updWave id f).irqs = s.irqs := rfl
@[simp] theorem State.updWave_funcs (s : State) (id : Nat) (f : Wave → Wave) : (s.updWave id f).funcs = s.funcs := rfl
@[simp] theorem State.updWave_parts (s : State) (id : Nat) (f : Wave → Wave) : (s.updWave id f).parts = s.parts := rfl
@[simp] theorem State.updWave_ctxs (s : State) (id : Nat) (f : Wave → Wave) : (s.updWave id f).ctxs = s.ctxs := rfl
@[simp] theorem State.updWave_grids (s : State) (id : Nat) (f : Wave → Wave) : (s.updWave id f).grids = s.grids := rfl
@[simp] theorem State.updWave_groups (s : State) (id : Nat) (f : Wave → Wave) : (s.updWave id f).groups = s.groups := rfl
@[simp] theorem State.updWave_waves (s : State) (id : Nat) (f : Wave → Wave) : (s.updWave id f).waves = updWhere (fun w => w.id == id) f s.waves := rfl
@[simp] theorem State.updWave_flight (s : State) (id : Nat) (f : Wave → Wave) : (s.updWave id f).flight = s.flight := rfl
@[simp] theorem State.updWave_red (s : State) (id : Nat) (f : Wave → Wave) : (s.updWave id f).red = s.red := rfl
@[simp] theorem State.updWave_slip (s : State) (id : Nat) (f : Wave → Wave) : (s.updWave id f).slip = s.slip := rfl
@[simp] theorem State.updWave_cache (s : State) (id : Nat) (f : Wave → Wave) : (s.updWave id f).cache = s.cache := rfl
@[simp] theorem State.updWave_landings (s : State) (id : Nat) (f : Wave → Wave) : (s.updWave id f).landings = s.landings := rfl
@[simp] theorem State.updWave_mats (s : State) (id : Nat) (f : Wave → Wave) : (s.updWave id f).mats = s.mats := rfl
@[simp] theorem State.updWave_tasks (s : State) (id : Nat) (f : Wave → Wave) : (s.updWave id f).tasks = s.tasks := rfl
@[simp] theorem State.updWave_bins (s : State) (id : Nat) (f : Wave → Wave) : (s.updWave id f).bins = s.bins := rfl
@[simp] theorem State.updWave_dispatched (s : State) (id : Nat) (f : Wave → Wave) : (s.updWave id f).dispatched = s.dispatched := rfl
@[simp] theorem State.updWave_ctrMsgs (s : State) (id : Nat) (f : Wave → Wave) : (s.updWave id f).ctrMsgs = s.ctrMsgs := rfl
@[simp] theorem State.updWave_packets (s : State) (id : Nat) (f : Wave → Wave) : (s.updWave id f).packets = s.packets := rfl
@[simp] theorem State.updWave_sieve (s : State) (id : Nat) (f : Wave → Wave) : (s.updWave id f).sieve = s.sieve := rfl
@[simp] theorem State.updWave_requests (s : State) (id : Nat) (f : Wave → Wave) : (s.updWave id f).requests = s.requests := rfl
@[simp] theorem State.updWave_waitList (s : State) (id : Nat) (f : Wave → Wave) : (s.updWave id f).waitList = s.waitList := rfl
@[simp] theorem State.updWave_saved (s : State) (id : Nat) (f : Wave → Wave) : (s.updWave id f).saved = s.saved := rfl
@[simp] theorem State.updWave_limbo (s : State) (id : Nat) (f : Wave → Wave) : (s.updWave id f).limbo = s.limbo := rfl
@[simp] theorem State.updWave_moves (s : State) (id : Nat) (f : Wave → Wave) : (s.updWave id f).moves = s.moves := rfl
@[simp] theorem State.updWave_transfers (s : State) (id : Nat) (f : Wave → Wave) : (s.updWave id f).transfers = s.transfers := rfl
@[simp] theorem State.updWave_buckets (s : State) (id : Nat) (f : Wave → Wave) : (s.updWave id f).buckets = s.buckets := rfl
@[simp] theorem State.updWave_portClk (s : State) (id : Nat) (f : Wave → Wave) : (s.updWave id f).portClk = s.portClk := rfl
@[simp] theorem State.updWave_nextId (s : State) (id : Nat) (f : Wave → Wave) : (s.updWave id f).nextId = s.nextId := rfl
@[simp] theorem State.updWave_freeCtr (s : State) (id : Nat) (f : Wave → Wave) : (s.updWave id f).freeCtr = s.freeCtr := rfl
@[simp] theorem State.updWave_agenda (s : State) (id : Nat) (f : Wave → Wave) : (s.updWave id f).agenda = s.agenda := rfl

/-! ### `State.updCtx` -/

@[simp] theorem State.updCtx_tick (s : State) (id : Nat) (f : Context → Context) : (s.updCtx id f).tick = s.tick := rfl
@[simp] theorem State.updCtx_elapsed (s : State) (id : Nat) (f : Context → Context) : (s.updCtx id f).elapsed = s.elapsed := rfl
@[simp] theorem State.updCtx_powered (s : State) (id : Nat) (f : Context → Context) : (s.updCtx id f).powered = s.powered := rfl
@[simp] theorem State.updCtx_ready (s : State) (id : Nat) (f : Context → Context) : (s.updCtx id f).ready = s.ready := rfl
@[simp] theorem State.updCtx_recovery (s : State) (id : Nat) (f : Context → Context) : (s.updCtx id f).recovery = s.recovery := rfl
@[simp] theorem State.updCtx_bringup (s : State) (id : Nat) (f : Context → Context) : (s.updCtx id f).bringup = s.bringup := rfl
@[simp] theorem State.updCtx_powerCap (s : State) (id : Nat) (f : Context → Context) : (s.updCtx id f).powerCap = s.powerCap := rfl
@[simp] theorem State.updCtx_clockMhz (s : State) (id : Nat) (f : Context → Context) : (s.updCtx id f).clockMhz = s.clockMhz := rfl
@[simp] theorem State.updCtx_tripAt (s : State) (id : Nat) (f : Context → Context) : (s.updCtx id f).tripAt = s.tripAt := rfl
@[simp] theorem State.updCtx_fwActive (s : State) (id : Nat) (f : Context → Context) : (s.updCtx id f).fwActive = s.fwActive := rfl
@[simp] theorem State.updCtx_fwStaged (s : State) (id : Nat) (f : Context → Context) : (s.updCtx id f).fwStaged = s.fwStaged := rfl
@[simp] theorem State.updCtx_svnFuse (s : State) (id : Nat) (f : Context → Context) : (s.updCtx id f).svnFuse = s.svnFuse := rfl
@[simp] theorem State.updCtx_frozen (s : State) (id : Nat) (f : Context → Context) : (s.updCtx id f).frozen = s.frozen := rfl
@[simp] theorem State.updCtx_freezeRefused (s : State) (id : Nat) (f : Context → Context) : (s.updCtx id f).freezeRefused = s.freezeRefused := rfl
@[simp] theorem State.updCtx_links (s : State) (id : Nat) (f : Context → Context) : (s.updCtx id f).links = s.links := rfl
@[simp] theorem State.updCtx_slice (s : State) (id : Nat) (f : Context → Context) : (s.updCtx id f).slice = s.slice := rfl
@[simp] theorem State.updCtx_ext (s : State) (id : Nat) (f : Context → Context) : (s.updCtx id f).ext = s.ext := rfl
@[simp] theorem State.updCtx_tlb (s : State) (id : Nat) (f : Context → Context) : (s.updCtx id f).tlb = s.tlb := rfl
@[simp] theorem State.updCtx_hostMem (s : State) (id : Nat) (f : Context → Context) : (s.updCtx id f).hostMem = s.hostMem := rfl
@[simp] theorem State.updCtx_eccBad (s : State) (id : Nat) (f : Context → Context) : (s.updCtx id f).eccBad = s.eccBad := rfl
@[simp] theorem State.updCtx_eccSoft (s : State) (id : Nat) (f : Context → Context) : (s.updCtx id f).eccSoft = s.eccSoft := rfl
@[simp] theorem State.updCtx_eccCount (s : State) (id : Nat) (f : Context → Context) : (s.updCtx id f).eccCount = s.eccCount := rfl
@[simp] theorem State.updCtx_irqs (s : State) (id : Nat) (f : Context → Context) : (s.updCtx id f).irqs = s.irqs := rfl
@[simp] theorem State.updCtx_funcs (s : State) (id : Nat) (f : Context → Context) : (s.updCtx id f).funcs = s.funcs := rfl
@[simp] theorem State.updCtx_parts (s : State) (id : Nat) (f : Context → Context) : (s.updCtx id f).parts = s.parts := rfl
@[simp] theorem State.updCtx_ctxs (s : State) (id : Nat) (f : Context → Context) : (s.updCtx id f).ctxs = updWhere (fun c => c.id == id) f s.ctxs := rfl
@[simp] theorem State.updCtx_grids (s : State) (id : Nat) (f : Context → Context) : (s.updCtx id f).grids = s.grids := rfl
@[simp] theorem State.updCtx_groups (s : State) (id : Nat) (f : Context → Context) : (s.updCtx id f).groups = s.groups := rfl
@[simp] theorem State.updCtx_waves (s : State) (id : Nat) (f : Context → Context) : (s.updCtx id f).waves = s.waves := rfl
@[simp] theorem State.updCtx_flight (s : State) (id : Nat) (f : Context → Context) : (s.updCtx id f).flight = s.flight := rfl
@[simp] theorem State.updCtx_red (s : State) (id : Nat) (f : Context → Context) : (s.updCtx id f).red = s.red := rfl
@[simp] theorem State.updCtx_slip (s : State) (id : Nat) (f : Context → Context) : (s.updCtx id f).slip = s.slip := rfl
@[simp] theorem State.updCtx_cache (s : State) (id : Nat) (f : Context → Context) : (s.updCtx id f).cache = s.cache := rfl
@[simp] theorem State.updCtx_landings (s : State) (id : Nat) (f : Context → Context) : (s.updCtx id f).landings = s.landings := rfl
@[simp] theorem State.updCtx_mats (s : State) (id : Nat) (f : Context → Context) : (s.updCtx id f).mats = s.mats := rfl
@[simp] theorem State.updCtx_tasks (s : State) (id : Nat) (f : Context → Context) : (s.updCtx id f).tasks = s.tasks := rfl
@[simp] theorem State.updCtx_bins (s : State) (id : Nat) (f : Context → Context) : (s.updCtx id f).bins = s.bins := rfl
@[simp] theorem State.updCtx_dispatched (s : State) (id : Nat) (f : Context → Context) : (s.updCtx id f).dispatched = s.dispatched := rfl
@[simp] theorem State.updCtx_ctrMsgs (s : State) (id : Nat) (f : Context → Context) : (s.updCtx id f).ctrMsgs = s.ctrMsgs := rfl
@[simp] theorem State.updCtx_packets (s : State) (id : Nat) (f : Context → Context) : (s.updCtx id f).packets = s.packets := rfl
@[simp] theorem State.updCtx_sieve (s : State) (id : Nat) (f : Context → Context) : (s.updCtx id f).sieve = s.sieve := rfl
@[simp] theorem State.updCtx_requests (s : State) (id : Nat) (f : Context → Context) : (s.updCtx id f).requests = s.requests := rfl
@[simp] theorem State.updCtx_waitList (s : State) (id : Nat) (f : Context → Context) : (s.updCtx id f).waitList = s.waitList := rfl
@[simp] theorem State.updCtx_saved (s : State) (id : Nat) (f : Context → Context) : (s.updCtx id f).saved = s.saved := rfl
@[simp] theorem State.updCtx_limbo (s : State) (id : Nat) (f : Context → Context) : (s.updCtx id f).limbo = s.limbo := rfl
@[simp] theorem State.updCtx_moves (s : State) (id : Nat) (f : Context → Context) : (s.updCtx id f).moves = s.moves := rfl
@[simp] theorem State.updCtx_transfers (s : State) (id : Nat) (f : Context → Context) : (s.updCtx id f).transfers = s.transfers := rfl
@[simp] theorem State.updCtx_buckets (s : State) (id : Nat) (f : Context → Context) : (s.updCtx id f).buckets = s.buckets := rfl
@[simp] theorem State.updCtx_portClk (s : State) (id : Nat) (f : Context → Context) : (s.updCtx id f).portClk = s.portClk := rfl
@[simp] theorem State.updCtx_nextId (s : State) (id : Nat) (f : Context → Context) : (s.updCtx id f).nextId = s.nextId := rfl
@[simp] theorem State.updCtx_freeCtr (s : State) (id : Nat) (f : Context → Context) : (s.updCtx id f).freeCtr = s.freeCtr := rfl
@[simp] theorem State.updCtx_agenda (s : State) (id : Nat) (f : Context → Context) : (s.updCtx id f).agenda = s.agenda := rfl

/-! ### `State.updGroup` -/

@[simp] theorem State.updGroup_tick (s : State) (id : Nat) (f : Group → Group) : (s.updGroup id f).tick = s.tick := rfl
@[simp] theorem State.updGroup_elapsed (s : State) (id : Nat) (f : Group → Group) : (s.updGroup id f).elapsed = s.elapsed := rfl
@[simp] theorem State.updGroup_powered (s : State) (id : Nat) (f : Group → Group) : (s.updGroup id f).powered = s.powered := rfl
@[simp] theorem State.updGroup_ready (s : State) (id : Nat) (f : Group → Group) : (s.updGroup id f).ready = s.ready := rfl
@[simp] theorem State.updGroup_recovery (s : State) (id : Nat) (f : Group → Group) : (s.updGroup id f).recovery = s.recovery := rfl
@[simp] theorem State.updGroup_bringup (s : State) (id : Nat) (f : Group → Group) : (s.updGroup id f).bringup = s.bringup := rfl
@[simp] theorem State.updGroup_powerCap (s : State) (id : Nat) (f : Group → Group) : (s.updGroup id f).powerCap = s.powerCap := rfl
@[simp] theorem State.updGroup_clockMhz (s : State) (id : Nat) (f : Group → Group) : (s.updGroup id f).clockMhz = s.clockMhz := rfl
@[simp] theorem State.updGroup_tripAt (s : State) (id : Nat) (f : Group → Group) : (s.updGroup id f).tripAt = s.tripAt := rfl
@[simp] theorem State.updGroup_fwActive (s : State) (id : Nat) (f : Group → Group) : (s.updGroup id f).fwActive = s.fwActive := rfl
@[simp] theorem State.updGroup_fwStaged (s : State) (id : Nat) (f : Group → Group) : (s.updGroup id f).fwStaged = s.fwStaged := rfl
@[simp] theorem State.updGroup_svnFuse (s : State) (id : Nat) (f : Group → Group) : (s.updGroup id f).svnFuse = s.svnFuse := rfl
@[simp] theorem State.updGroup_frozen (s : State) (id : Nat) (f : Group → Group) : (s.updGroup id f).frozen = s.frozen := rfl
@[simp] theorem State.updGroup_freezeRefused (s : State) (id : Nat) (f : Group → Group) : (s.updGroup id f).freezeRefused = s.freezeRefused := rfl
@[simp] theorem State.updGroup_links (s : State) (id : Nat) (f : Group → Group) : (s.updGroup id f).links = s.links := rfl
@[simp] theorem State.updGroup_slice (s : State) (id : Nat) (f : Group → Group) : (s.updGroup id f).slice = s.slice := rfl
@[simp] theorem State.updGroup_ext (s : State) (id : Nat) (f : Group → Group) : (s.updGroup id f).ext = s.ext := rfl
@[simp] theorem State.updGroup_tlb (s : State) (id : Nat) (f : Group → Group) : (s.updGroup id f).tlb = s.tlb := rfl
@[simp] theorem State.updGroup_hostMem (s : State) (id : Nat) (f : Group → Group) : (s.updGroup id f).hostMem = s.hostMem := rfl
@[simp] theorem State.updGroup_eccBad (s : State) (id : Nat) (f : Group → Group) : (s.updGroup id f).eccBad = s.eccBad := rfl
@[simp] theorem State.updGroup_eccSoft (s : State) (id : Nat) (f : Group → Group) : (s.updGroup id f).eccSoft = s.eccSoft := rfl
@[simp] theorem State.updGroup_eccCount (s : State) (id : Nat) (f : Group → Group) : (s.updGroup id f).eccCount = s.eccCount := rfl
@[simp] theorem State.updGroup_irqs (s : State) (id : Nat) (f : Group → Group) : (s.updGroup id f).irqs = s.irqs := rfl
@[simp] theorem State.updGroup_funcs (s : State) (id : Nat) (f : Group → Group) : (s.updGroup id f).funcs = s.funcs := rfl
@[simp] theorem State.updGroup_parts (s : State) (id : Nat) (f : Group → Group) : (s.updGroup id f).parts = s.parts := rfl
@[simp] theorem State.updGroup_ctxs (s : State) (id : Nat) (f : Group → Group) : (s.updGroup id f).ctxs = s.ctxs := rfl
@[simp] theorem State.updGroup_grids (s : State) (id : Nat) (f : Group → Group) : (s.updGroup id f).grids = s.grids := rfl
@[simp] theorem State.updGroup_groups (s : State) (id : Nat) (f : Group → Group) : (s.updGroup id f).groups = updWhere (fun g => g.id == id) f s.groups := rfl
@[simp] theorem State.updGroup_waves (s : State) (id : Nat) (f : Group → Group) : (s.updGroup id f).waves = s.waves := rfl
@[simp] theorem State.updGroup_flight (s : State) (id : Nat) (f : Group → Group) : (s.updGroup id f).flight = s.flight := rfl
@[simp] theorem State.updGroup_red (s : State) (id : Nat) (f : Group → Group) : (s.updGroup id f).red = s.red := rfl
@[simp] theorem State.updGroup_slip (s : State) (id : Nat) (f : Group → Group) : (s.updGroup id f).slip = s.slip := rfl
@[simp] theorem State.updGroup_cache (s : State) (id : Nat) (f : Group → Group) : (s.updGroup id f).cache = s.cache := rfl
@[simp] theorem State.updGroup_landings (s : State) (id : Nat) (f : Group → Group) : (s.updGroup id f).landings = s.landings := rfl
@[simp] theorem State.updGroup_mats (s : State) (id : Nat) (f : Group → Group) : (s.updGroup id f).mats = s.mats := rfl
@[simp] theorem State.updGroup_tasks (s : State) (id : Nat) (f : Group → Group) : (s.updGroup id f).tasks = s.tasks := rfl
@[simp] theorem State.updGroup_bins (s : State) (id : Nat) (f : Group → Group) : (s.updGroup id f).bins = s.bins := rfl
@[simp] theorem State.updGroup_dispatched (s : State) (id : Nat) (f : Group → Group) : (s.updGroup id f).dispatched = s.dispatched := rfl
@[simp] theorem State.updGroup_ctrMsgs (s : State) (id : Nat) (f : Group → Group) : (s.updGroup id f).ctrMsgs = s.ctrMsgs := rfl
@[simp] theorem State.updGroup_packets (s : State) (id : Nat) (f : Group → Group) : (s.updGroup id f).packets = s.packets := rfl
@[simp] theorem State.updGroup_sieve (s : State) (id : Nat) (f : Group → Group) : (s.updGroup id f).sieve = s.sieve := rfl
@[simp] theorem State.updGroup_requests (s : State) (id : Nat) (f : Group → Group) : (s.updGroup id f).requests = s.requests := rfl
@[simp] theorem State.updGroup_waitList (s : State) (id : Nat) (f : Group → Group) : (s.updGroup id f).waitList = s.waitList := rfl
@[simp] theorem State.updGroup_saved (s : State) (id : Nat) (f : Group → Group) : (s.updGroup id f).saved = s.saved := rfl
@[simp] theorem State.updGroup_limbo (s : State) (id : Nat) (f : Group → Group) : (s.updGroup id f).limbo = s.limbo := rfl
@[simp] theorem State.updGroup_moves (s : State) (id : Nat) (f : Group → Group) : (s.updGroup id f).moves = s.moves := rfl
@[simp] theorem State.updGroup_transfers (s : State) (id : Nat) (f : Group → Group) : (s.updGroup id f).transfers = s.transfers := rfl
@[simp] theorem State.updGroup_buckets (s : State) (id : Nat) (f : Group → Group) : (s.updGroup id f).buckets = s.buckets := rfl
@[simp] theorem State.updGroup_portClk (s : State) (id : Nat) (f : Group → Group) : (s.updGroup id f).portClk = s.portClk := rfl
@[simp] theorem State.updGroup_nextId (s : State) (id : Nat) (f : Group → Group) : (s.updGroup id f).nextId = s.nextId := rfl
@[simp] theorem State.updGroup_freeCtr (s : State) (id : Nat) (f : Group → Group) : (s.updGroup id f).freeCtr = s.freeCtr := rfl
@[simp] theorem State.updGroup_agenda (s : State) (id : Nat) (f : Group → Group) : (s.updGroup id f).agenda = s.agenda := rfl

/-! ### `State.fresh` -/

@[simp] theorem State.fresh_tick (s : State) : (s.fresh.2).tick = s.tick := rfl
@[simp] theorem State.fresh_elapsed (s : State) : (s.fresh.2).elapsed = s.elapsed := rfl
@[simp] theorem State.fresh_powered (s : State) : (s.fresh.2).powered = s.powered := rfl
@[simp] theorem State.fresh_ready (s : State) : (s.fresh.2).ready = s.ready := rfl
@[simp] theorem State.fresh_recovery (s : State) : (s.fresh.2).recovery = s.recovery := rfl
@[simp] theorem State.fresh_bringup (s : State) : (s.fresh.2).bringup = s.bringup := rfl
@[simp] theorem State.fresh_powerCap (s : State) : (s.fresh.2).powerCap = s.powerCap := rfl
@[simp] theorem State.fresh_clockMhz (s : State) : (s.fresh.2).clockMhz = s.clockMhz := rfl
@[simp] theorem State.fresh_tripAt (s : State) : (s.fresh.2).tripAt = s.tripAt := rfl
@[simp] theorem State.fresh_fwActive (s : State) : (s.fresh.2).fwActive = s.fwActive := rfl
@[simp] theorem State.fresh_fwStaged (s : State) : (s.fresh.2).fwStaged = s.fwStaged := rfl
@[simp] theorem State.fresh_svnFuse (s : State) : (s.fresh.2).svnFuse = s.svnFuse := rfl
@[simp] theorem State.fresh_frozen (s : State) : (s.fresh.2).frozen = s.frozen := rfl
@[simp] theorem State.fresh_freezeRefused (s : State) : (s.fresh.2).freezeRefused = s.freezeRefused := rfl
@[simp] theorem State.fresh_links (s : State) : (s.fresh.2).links = s.links := rfl
@[simp] theorem State.fresh_slice (s : State) : (s.fresh.2).slice = s.slice := rfl
@[simp] theorem State.fresh_ext (s : State) : (s.fresh.2).ext = s.ext := rfl
@[simp] theorem State.fresh_tlb (s : State) : (s.fresh.2).tlb = s.tlb := rfl
@[simp] theorem State.fresh_hostMem (s : State) : (s.fresh.2).hostMem = s.hostMem := rfl
@[simp] theorem State.fresh_eccBad (s : State) : (s.fresh.2).eccBad = s.eccBad := rfl
@[simp] theorem State.fresh_eccSoft (s : State) : (s.fresh.2).eccSoft = s.eccSoft := rfl
@[simp] theorem State.fresh_eccCount (s : State) : (s.fresh.2).eccCount = s.eccCount := rfl
@[simp] theorem State.fresh_irqs (s : State) : (s.fresh.2).irqs = s.irqs := rfl
@[simp] theorem State.fresh_funcs (s : State) : (s.fresh.2).funcs = s.funcs := rfl
@[simp] theorem State.fresh_parts (s : State) : (s.fresh.2).parts = s.parts := rfl
@[simp] theorem State.fresh_ctxs (s : State) : (s.fresh.2).ctxs = s.ctxs := rfl
@[simp] theorem State.fresh_grids (s : State) : (s.fresh.2).grids = s.grids := rfl
@[simp] theorem State.fresh_groups (s : State) : (s.fresh.2).groups = s.groups := rfl
@[simp] theorem State.fresh_waves (s : State) : (s.fresh.2).waves = s.waves := rfl
@[simp] theorem State.fresh_flight (s : State) : (s.fresh.2).flight = s.flight := rfl
@[simp] theorem State.fresh_red (s : State) : (s.fresh.2).red = s.red := rfl
@[simp] theorem State.fresh_slip (s : State) : (s.fresh.2).slip = s.slip := rfl
@[simp] theorem State.fresh_cache (s : State) : (s.fresh.2).cache = s.cache := rfl
@[simp] theorem State.fresh_landings (s : State) : (s.fresh.2).landings = s.landings := rfl
@[simp] theorem State.fresh_mats (s : State) : (s.fresh.2).mats = s.mats := rfl
@[simp] theorem State.fresh_tasks (s : State) : (s.fresh.2).tasks = s.tasks := rfl
@[simp] theorem State.fresh_bins (s : State) : (s.fresh.2).bins = s.bins := rfl
@[simp] theorem State.fresh_dispatched (s : State) : (s.fresh.2).dispatched = s.dispatched := rfl
@[simp] theorem State.fresh_ctrMsgs (s : State) : (s.fresh.2).ctrMsgs = s.ctrMsgs := rfl
@[simp] theorem State.fresh_packets (s : State) : (s.fresh.2).packets = s.packets := rfl
@[simp] theorem State.fresh_sieve (s : State) : (s.fresh.2).sieve = s.sieve := rfl
@[simp] theorem State.fresh_requests (s : State) : (s.fresh.2).requests = s.requests := rfl
@[simp] theorem State.fresh_waitList (s : State) : (s.fresh.2).waitList = s.waitList := rfl
@[simp] theorem State.fresh_saved (s : State) : (s.fresh.2).saved = s.saved := rfl
@[simp] theorem State.fresh_limbo (s : State) : (s.fresh.2).limbo = s.limbo := rfl
@[simp] theorem State.fresh_moves (s : State) : (s.fresh.2).moves = s.moves := rfl
@[simp] theorem State.fresh_transfers (s : State) : (s.fresh.2).transfers = s.transfers := rfl
@[simp] theorem State.fresh_buckets (s : State) : (s.fresh.2).buckets = s.buckets := rfl
@[simp] theorem State.fresh_portClk (s : State) : (s.fresh.2).portClk = s.portClk := rfl
@[simp] theorem State.fresh_nextId (s : State) : (s.fresh.2).nextId = s.nextId + 1 := rfl
@[simp] theorem State.fresh_freeCtr (s : State) : (s.fresh.2).freeCtr = s.freeCtr := rfl
@[simp] theorem State.fresh_agenda (s : State) : (s.fresh.2).agenda = s.agenda := rfl

/-! ### `State.free` -/

@[simp] theorem State.free_tick (s : State) : (s.free.2).tick = s.tick := rfl
@[simp] theorem State.free_elapsed (s : State) : (s.free.2).elapsed = s.elapsed := rfl
@[simp] theorem State.free_powered (s : State) : (s.free.2).powered = s.powered := rfl
@[simp] theorem State.free_ready (s : State) : (s.free.2).ready = s.ready := rfl
@[simp] theorem State.free_recovery (s : State) : (s.free.2).recovery = s.recovery := rfl
@[simp] theorem State.free_bringup (s : State) : (s.free.2).bringup = s.bringup := rfl
@[simp] theorem State.free_powerCap (s : State) : (s.free.2).powerCap = s.powerCap := rfl
@[simp] theorem State.free_clockMhz (s : State) : (s.free.2).clockMhz = s.clockMhz := rfl
@[simp] theorem State.free_tripAt (s : State) : (s.free.2).tripAt = s.tripAt := rfl
@[simp] theorem State.free_fwActive (s : State) : (s.free.2).fwActive = s.fwActive := rfl
@[simp] theorem State.free_fwStaged (s : State) : (s.free.2).fwStaged = s.fwStaged := rfl
@[simp] theorem State.free_svnFuse (s : State) : (s.free.2).svnFuse = s.svnFuse := rfl
@[simp] theorem State.free_frozen (s : State) : (s.free.2).frozen = s.frozen := rfl
@[simp] theorem State.free_freezeRefused (s : State) : (s.free.2).freezeRefused = s.freezeRefused := rfl
@[simp] theorem State.free_links (s : State) : (s.free.2).links = s.links := rfl
@[simp] theorem State.free_slice (s : State) : (s.free.2).slice = s.slice := rfl
@[simp] theorem State.free_ext (s : State) : (s.free.2).ext = s.ext := rfl
@[simp] theorem State.free_tlb (s : State) : (s.free.2).tlb = s.tlb := rfl
@[simp] theorem State.free_hostMem (s : State) : (s.free.2).hostMem = s.hostMem := rfl
@[simp] theorem State.free_eccBad (s : State) : (s.free.2).eccBad = s.eccBad := rfl
@[simp] theorem State.free_eccSoft (s : State) : (s.free.2).eccSoft = s.eccSoft := rfl
@[simp] theorem State.free_eccCount (s : State) : (s.free.2).eccCount = s.eccCount := rfl
@[simp] theorem State.free_irqs (s : State) : (s.free.2).irqs = s.irqs := rfl
@[simp] theorem State.free_funcs (s : State) : (s.free.2).funcs = s.funcs := rfl
@[simp] theorem State.free_parts (s : State) : (s.free.2).parts = s.parts := rfl
@[simp] theorem State.free_ctxs (s : State) : (s.free.2).ctxs = s.ctxs := rfl
@[simp] theorem State.free_grids (s : State) : (s.free.2).grids = s.grids := rfl
@[simp] theorem State.free_groups (s : State) : (s.free.2).groups = s.groups := rfl
@[simp] theorem State.free_waves (s : State) : (s.free.2).waves = s.waves := rfl
@[simp] theorem State.free_flight (s : State) : (s.free.2).flight = s.flight := rfl
@[simp] theorem State.free_red (s : State) : (s.free.2).red = s.red := rfl
@[simp] theorem State.free_slip (s : State) : (s.free.2).slip = s.slip := rfl
@[simp] theorem State.free_cache (s : State) : (s.free.2).cache = s.cache := rfl
@[simp] theorem State.free_landings (s : State) : (s.free.2).landings = s.landings := rfl
@[simp] theorem State.free_mats (s : State) : (s.free.2).mats = s.mats := rfl
@[simp] theorem State.free_tasks (s : State) : (s.free.2).tasks = s.tasks := rfl
@[simp] theorem State.free_bins (s : State) : (s.free.2).bins = s.bins := rfl
@[simp] theorem State.free_dispatched (s : State) : (s.free.2).dispatched = s.dispatched := rfl
@[simp] theorem State.free_ctrMsgs (s : State) : (s.free.2).ctrMsgs = s.ctrMsgs := rfl
@[simp] theorem State.free_packets (s : State) : (s.free.2).packets = s.packets := rfl
@[simp] theorem State.free_sieve (s : State) : (s.free.2).sieve = s.sieve := rfl
@[simp] theorem State.free_requests (s : State) : (s.free.2).requests = s.requests := rfl
@[simp] theorem State.free_waitList (s : State) : (s.free.2).waitList = s.waitList := rfl
@[simp] theorem State.free_saved (s : State) : (s.free.2).saved = s.saved := rfl
@[simp] theorem State.free_limbo (s : State) : (s.free.2).limbo = s.limbo := rfl
@[simp] theorem State.free_moves (s : State) : (s.free.2).moves = s.moves := rfl
@[simp] theorem State.free_transfers (s : State) : (s.free.2).transfers = s.transfers := rfl
@[simp] theorem State.free_buckets (s : State) : (s.free.2).buckets = s.buckets := rfl
@[simp] theorem State.free_portClk (s : State) : (s.free.2).portClk = s.portClk := rfl
@[simp] theorem State.free_nextId (s : State) : (s.free.2).nextId = s.nextId := rfl
@[simp] theorem State.free_freeCtr (s : State) : (s.free.2).freeCtr = s.freeCtr + 1 := rfl
@[simp] theorem State.free_agenda (s : State) : (s.free.2).agenda = s.agenda := rfl

/-! ### `Wave.setS` -/

@[simp] theorem Wave.setS_id (w : Wave) (i : Nat) (v : W64) : (w.setS i v).id = w.id := rfl
@[simp] theorem Wave.setS_ctx (w : Wave) (i : Nat) (v : W64) : (w.setS i v).ctx = w.ctx := rfl
@[simp] theorem Wave.setS_task (w : Wave) (i : Nat) (v : W64) : (w.setS i v).task = w.task := rfl
@[simp] theorem Wave.setS_ord (w : Wave) (i : Nat) (v : W64) : (w.setS i v).ord = w.ord := rfl
@[simp] theorem Wave.setS_gid (w : Wave) (i : Nat) (v : W64) : (w.setS i v).gid = w.gid := rfl
@[simp] theorem Wave.setS_group (w : Wave) (i : Nat) (v : W64) : (w.setS i v).group = w.group := rfl
@[simp] theorem Wave.setS_widx (w : Wave) (i : Nat) (v : W64) : (w.setS i v).widx = w.widx := rfl
@[simp] theorem Wave.setS_core (w : Wave) (i : Nat) (v : W64) : (w.setS i v).core = w.core := rfl
@[simp] theorem Wave.setS_quad (w : Wave) (i : Nat) (v : W64) : (w.setS i v).quad = w.quad := rfl
@[simp] theorem Wave.setS_slot (w : Wave) (i : Nat) (v : W64) : (w.setS i v).slot = w.slot := rfl
@[simp] theorem Wave.setS_sregs (w : Wave) (i : Nat) (v : W64) : (w.setS i v).sregs = w.sregs.set i v := rfl
@[simp] theorem Wave.setS_vregs (w : Wave) (i : Nat) (v : W64) : (w.setS i v).vregs = w.vregs := rfl
@[simp] theorem Wave.setS_preds (w : Wave) (i : Nat) (v : W64) : (w.setS i v).preds = w.preds := rfl
@[simp] theorem Wave.setS_modes (w : Wave) (i : Nat) (v : W64) : (w.setS i v).modes = w.modes := rfl
@[simp] theorem Wave.setS_flags (w : Wave) (i : Nat) (v : W64) : (w.setS i v).flags = w.flags := rfl
@[simp] theorem Wave.setS_livemask (w : Wave) (i : Nat) (v : W64) : (w.setS i v).livemask = w.livemask := rfl
@[simp] theorem Wave.setS_trapCause (w : Wave) (i : Nat) (v : W64) : (w.setS i v).trapCause = w.trapCause := rfl
@[simp] theorem Wave.setS_trapPc (w : Wave) (i : Nat) (v : W64) : (w.setS i v).trapPc = w.trapPc := rfl
@[simp] theorem Wave.setS_trapVal (w : Wave) (i : Nat) (v : W64) : (w.setS i v).trapVal = w.trapVal := rfl
@[simp] theorem Wave.setS_joint (w : Wave) (i : Nat) (v : W64) : (w.setS i v).joint = w.joint := rfl
@[simp] theorem Wave.setS_kcores (w : Wave) (i : Nat) (v : W64) : (w.setS i v).kcores = w.kcores := rfl
@[simp] theorem Wave.setS_kngroups (w : Wave) (i : Nat) (v : W64) : (w.setS i v).kngroups = w.kngroups := rfl
@[simp] theorem Wave.setS_knlanes (w : Wave) (i : Nat) (v : W64) : (w.setS i v).knlanes = w.knlanes := rfl
@[simp] theorem Wave.setS_handler (w : Wave) (i : Nat) (v : W64) : (w.setS i v).handler = w.handler := rfl
@[simp] theorem Wave.setS_ext (w : Wave) (i : Nat) (v : W64) : (w.setS i v).ext = w.ext := rfl
@[simp] theorem Wave.setS_working (w : Wave) (i : Nat) (v : W64) : (w.setS i v).working = w.working := rfl
@[simp] theorem Wave.setS_live (w : Wave) (i : Nat) (v : W64) : (w.setS i v).live = w.live := rfl
@[simp] theorem Wave.setS_grain (w : Wave) (i : Nat) (v : W64) : (w.setS i v).grain = w.grain := rfl
@[simp] theorem Wave.setS_tasks (w : Wave) (i : Nat) (v : W64) : (w.setS i v).tasks = w.tasks := rfl
@[simp] theorem Wave.setS_subs (w : Wave) (i : Nat) (v : W64) : (w.setS i v).subs = w.subs := rfl
@[simp] theorem Wave.setS_unsealedC (w : Wave) (i : Nat) (v : W64) : (w.setS i v).unsealedC = w.unsealedC := rfl
@[simp] theorem Wave.setS_batchesC (w : Wave) (i : Nat) (v : W64) : (w.setS i v).batchesC = w.batchesC := rfl
@[simp] theorem Wave.setS_nextC (w : Wave) (i : Nat) (v : W64) : (w.setS i v).nextC = w.nextC := rfl
@[simp] theorem Wave.setS_unsealedM (w : Wave) (i : Nat) (v : W64) : (w.setS i v).unsealedM = w.unsealedM := rfl
@[simp] theorem Wave.setS_batchesM (w : Wave) (i : Nat) (v : W64) : (w.setS i v).batchesM = w.batchesM := rfl
@[simp] theorem Wave.setS_nextM (w : Wave) (i : Nat) (v : W64) : (w.setS i v).nextM = w.nextM := rfl
@[simp] theorem Wave.setS_halt (w : Wave) (i : Nat) (v : W64) : (w.setS i v).halt = w.halt := rfl
@[simp] theorem Wave.setS_wait (w : Wave) (i : Nat) (v : W64) : (w.setS i v).wait = w.wait := rfl
@[simp] theorem Wave.setS_lastIssue (w : Wave) (i : Nat) (v : W64) : (w.setS i v).lastIssue = w.lastIssue := rfl
@[simp] theorem Wave.setS_notBefore (w : Wave) (i : Nat) (v : W64) : (w.setS i v).notBefore = w.notBefore := rfl
@[simp] theorem Wave.setS_readySince (w : Wave) (i : Nat) (v : W64) : (w.setS i v).readySince = w.readySince := rfl
@[simp] theorem Wave.setS_lateFlags (w : Wave) (i : Nat) (v : W64) : (w.setS i v).lateFlags = w.lateFlags := rfl
@[simp] theorem Wave.setS_lateTick (w : Wave) (i : Nat) (v : W64) : (w.setS i v).lateTick = w.lateTick := rfl
@[simp] theorem Wave.setS_rsv (w : Wave) (i : Nat) (v : W64) : (w.setS i v).rsv = w.rsv := rfl
@[simp] theorem Wave.setS_tiles (w : Wave) (i : Nat) (v : W64) : (w.setS i v).tiles = w.tiles := rfl
@[simp] theorem Wave.setS_eccRegs (w : Wave) (i : Nat) (v : W64) : (w.setS i v).eccRegs = w.eccRegs := rfl
@[simp] theorem Wave.setS_eccSoft (w : Wave) (i : Nat) (v : W64) : (w.setS i v).eccSoft = w.eccSoft := rfl

/-! ### `Wave.goto` -/

@[simp] theorem Wave.goto_id (w : Wave) (tick : Nat) (pc : W64) : (w.goto tick pc).id = w.id := rfl
@[simp] theorem Wave.goto_ctx (w : Wave) (tick : Nat) (pc : W64) : (w.goto tick pc).ctx = w.ctx := rfl
@[simp] theorem Wave.goto_task (w : Wave) (tick : Nat) (pc : W64) : (w.goto tick pc).task = w.task := rfl
@[simp] theorem Wave.goto_ord (w : Wave) (tick : Nat) (pc : W64) : (w.goto tick pc).ord = w.ord := rfl
@[simp] theorem Wave.goto_gid (w : Wave) (tick : Nat) (pc : W64) : (w.goto tick pc).gid = w.gid := rfl
@[simp] theorem Wave.goto_group (w : Wave) (tick : Nat) (pc : W64) : (w.goto tick pc).group = w.group := rfl
@[simp] theorem Wave.goto_widx (w : Wave) (tick : Nat) (pc : W64) : (w.goto tick pc).widx = w.widx := rfl
@[simp] theorem Wave.goto_core (w : Wave) (tick : Nat) (pc : W64) : (w.goto tick pc).core = w.core := rfl
@[simp] theorem Wave.goto_quad (w : Wave) (tick : Nat) (pc : W64) : (w.goto tick pc).quad = w.quad := rfl
@[simp] theorem Wave.goto_slot (w : Wave) (tick : Nat) (pc : W64) : (w.goto tick pc).slot = w.slot := rfl
@[simp] theorem Wave.goto_sregs (w : Wave) (tick : Nat) (pc : W64) : (w.goto tick pc).sregs = w.sregs := rfl
@[simp] theorem Wave.goto_vregs (w : Wave) (tick : Nat) (pc : W64) : (w.goto tick pc).vregs = w.vregs := rfl
@[simp] theorem Wave.goto_preds (w : Wave) (tick : Nat) (pc : W64) : (w.goto tick pc).preds = w.preds := rfl
@[simp] theorem Wave.goto_modes (w : Wave) (tick : Nat) (pc : W64) : (w.goto tick pc).modes = w.modes := rfl
@[simp] theorem Wave.goto_flags (w : Wave) (tick : Nat) (pc : W64) : (w.goto tick pc).flags = w.flags := rfl
@[simp] theorem Wave.goto_livemask (w : Wave) (tick : Nat) (pc : W64) : (w.goto tick pc).livemask = w.livemask := rfl
@[simp] theorem Wave.goto_trapCause (w : Wave) (tick : Nat) (pc : W64) : (w.goto tick pc).trapCause = w.trapCause := rfl
@[simp] theorem Wave.goto_trapPc (w : Wave) (tick : Nat) (pc : W64) : (w.goto tick pc).trapPc = w.trapPc := rfl
@[simp] theorem Wave.goto_trapVal (w : Wave) (tick : Nat) (pc : W64) : (w.goto tick pc).trapVal = w.trapVal := rfl
@[simp] theorem Wave.goto_joint (w : Wave) (tick : Nat) (pc : W64) : (w.goto tick pc).joint = w.joint := rfl
@[simp] theorem Wave.goto_kcores (w : Wave) (tick : Nat) (pc : W64) : (w.goto tick pc).kcores = w.kcores := rfl
@[simp] theorem Wave.goto_kngroups (w : Wave) (tick : Nat) (pc : W64) : (w.goto tick pc).kngroups = w.kngroups := rfl
@[simp] theorem Wave.goto_knlanes (w : Wave) (tick : Nat) (pc : W64) : (w.goto tick pc).knlanes = w.knlanes := rfl
@[simp] theorem Wave.goto_handler (w : Wave) (tick : Nat) (pc : W64) : (w.goto tick pc).handler = w.handler := rfl
@[simp] theorem Wave.goto_ext (w : Wave) (tick : Nat) (pc : W64) : (w.goto tick pc).ext = w.ext := rfl
@[simp] theorem Wave.goto_working (w : Wave) (tick : Nat) (pc : W64) : (w.goto tick pc).working = w.working := rfl
@[simp] theorem Wave.goto_live (w : Wave) (tick : Nat) (pc : W64) : (w.goto tick pc).live = w.live := rfl
@[simp] theorem Wave.goto_grain (w : Wave) (tick : Nat) (pc : W64) : (w.goto tick pc).grain = w.grain := rfl
@[simp] theorem Wave.goto_tasks (w : Wave) (tick : Nat) (pc : W64) : (w.goto tick pc).tasks = w.tasks := rfl
@[simp] theorem Wave.goto_unsealedC (w : Wave) (tick : Nat) (pc : W64) : (w.goto tick pc).unsealedC = w.unsealedC := rfl
@[simp] theorem Wave.goto_batchesC (w : Wave) (tick : Nat) (pc : W64) : (w.goto tick pc).batchesC = w.batchesC := rfl
@[simp] theorem Wave.goto_nextC (w : Wave) (tick : Nat) (pc : W64) : (w.goto tick pc).nextC = w.nextC := rfl
@[simp] theorem Wave.goto_unsealedM (w : Wave) (tick : Nat) (pc : W64) : (w.goto tick pc).unsealedM = w.unsealedM := rfl
@[simp] theorem Wave.goto_batchesM (w : Wave) (tick : Nat) (pc : W64) : (w.goto tick pc).batchesM = w.batchesM := rfl
@[simp] theorem Wave.goto_nextM (w : Wave) (tick : Nat) (pc : W64) : (w.goto tick pc).nextM = w.nextM := rfl
@[simp] theorem Wave.goto_halt (w : Wave) (tick : Nat) (pc : W64) : (w.goto tick pc).halt = w.halt := rfl
@[simp] theorem Wave.goto_wait (w : Wave) (tick : Nat) (pc : W64) : (w.goto tick pc).wait = .none := rfl
@[simp] theorem Wave.goto_lastIssue (w : Wave) (tick : Nat) (pc : W64) : (w.goto tick pc).lastIssue = tick := rfl
@[simp] theorem Wave.goto_notBefore (w : Wave) (tick : Nat) (pc : W64) : (w.goto tick pc).notBefore = w.notBefore := rfl
@[simp] theorem Wave.goto_readySince (w : Wave) (tick : Nat) (pc : W64) : (w.goto tick pc).readySince = w.readySince := rfl
@[simp] theorem Wave.goto_lateFlags (w : Wave) (tick : Nat) (pc : W64) : (w.goto tick pc).lateFlags = w.lateFlags := rfl
@[simp] theorem Wave.goto_lateTick (w : Wave) (tick : Nat) (pc : W64) : (w.goto tick pc).lateTick = w.lateTick := rfl
@[simp] theorem Wave.goto_rsv (w : Wave) (tick : Nat) (pc : W64) : (w.goto tick pc).rsv = w.rsv := rfl
@[simp] theorem Wave.goto_tiles (w : Wave) (tick : Nat) (pc : W64) : (w.goto tick pc).tiles = w.tiles := rfl
@[simp] theorem Wave.goto_eccRegs (w : Wave) (tick : Nat) (pc : W64) : (w.goto tick pc).eccRegs = w.eccRegs := rfl
@[simp] theorem Wave.goto_eccSoft (w : Wave) (tick : Nat) (pc : W64) : (w.goto tick pc).eccSoft = w.eccSoft := rfl

/-! ### `Wave.orFlags` -/

@[simp] theorem Wave.orFlags_id (w : Wave) (f : Flags) : (w.orFlags f).id = w.id := rfl
@[simp] theorem Wave.orFlags_ctx (w : Wave) (f : Flags) : (w.orFlags f).ctx = w.ctx := rfl
@[simp] theorem Wave.orFlags_task (w : Wave) (f : Flags) : (w.orFlags f).task = w.task := rfl
@[simp] theorem Wave.orFlags_ord (w : Wave) (f : Flags) : (w.orFlags f).ord = w.ord := rfl
@[simp] theorem Wave.orFlags_gid (w : Wave) (f : Flags) : (w.orFlags f).gid = w.gid := rfl
@[simp] theorem Wave.orFlags_group (w : Wave) (f : Flags) : (w.orFlags f).group = w.group := rfl
@[simp] theorem Wave.orFlags_widx (w : Wave) (f : Flags) : (w.orFlags f).widx = w.widx := rfl
@[simp] theorem Wave.orFlags_core (w : Wave) (f : Flags) : (w.orFlags f).core = w.core := rfl
@[simp] theorem Wave.orFlags_quad (w : Wave) (f : Flags) : (w.orFlags f).quad = w.quad := rfl
@[simp] theorem Wave.orFlags_slot (w : Wave) (f : Flags) : (w.orFlags f).slot = w.slot := rfl
@[simp] theorem Wave.orFlags_sregs (w : Wave) (f : Flags) : (w.orFlags f).sregs = w.sregs := rfl
@[simp] theorem Wave.orFlags_vregs (w : Wave) (f : Flags) : (w.orFlags f).vregs = w.vregs := rfl
@[simp] theorem Wave.orFlags_preds (w : Wave) (f : Flags) : (w.orFlags f).preds = w.preds := rfl
@[simp] theorem Wave.orFlags_modes (w : Wave) (f : Flags) : (w.orFlags f).modes = w.modes := rfl
@[simp] theorem Wave.orFlags_flags (w : Wave) (f : Flags) : (w.orFlags f).flags = w.flags ||| f := rfl
@[simp] theorem Wave.orFlags_livemask (w : Wave) (f : Flags) : (w.orFlags f).livemask = w.livemask := rfl
@[simp] theorem Wave.orFlags_trapCause (w : Wave) (f : Flags) : (w.orFlags f).trapCause = w.trapCause := rfl
@[simp] theorem Wave.orFlags_trapPc (w : Wave) (f : Flags) : (w.orFlags f).trapPc = w.trapPc := rfl
@[simp] theorem Wave.orFlags_trapVal (w : Wave) (f : Flags) : (w.orFlags f).trapVal = w.trapVal := rfl
@[simp] theorem Wave.orFlags_joint (w : Wave) (f : Flags) : (w.orFlags f).joint = w.joint := rfl
@[simp] theorem Wave.orFlags_kcores (w : Wave) (f : Flags) : (w.orFlags f).kcores = w.kcores := rfl
@[simp] theorem Wave.orFlags_kngroups (w : Wave) (f : Flags) : (w.orFlags f).kngroups = w.kngroups := rfl
@[simp] theorem Wave.orFlags_knlanes (w : Wave) (f : Flags) : (w.orFlags f).knlanes = w.knlanes := rfl
@[simp] theorem Wave.orFlags_handler (w : Wave) (f : Flags) : (w.orFlags f).handler = w.handler := rfl
@[simp] theorem Wave.orFlags_ext (w : Wave) (f : Flags) : (w.orFlags f).ext = w.ext := rfl
@[simp] theorem Wave.orFlags_working (w : Wave) (f : Flags) : (w.orFlags f).working = w.working := rfl
@[simp] theorem Wave.orFlags_live (w : Wave) (f : Flags) : (w.orFlags f).live = w.live := rfl
@[simp] theorem Wave.orFlags_grain (w : Wave) (f : Flags) : (w.orFlags f).grain = w.grain := rfl
@[simp] theorem Wave.orFlags_tasks (w : Wave) (f : Flags) : (w.orFlags f).tasks = w.tasks := rfl
@[simp] theorem Wave.orFlags_subs (w : Wave) (f : Flags) : (w.orFlags f).subs = w.subs := rfl
@[simp] theorem Wave.orFlags_unsealedC (w : Wave) (f : Flags) : (w.orFlags f).unsealedC = w.unsealedC := rfl
@[simp] theorem Wave.orFlags_batchesC (w : Wave) (f : Flags) : (w.orFlags f).batchesC = w.batchesC := rfl
@[simp] theorem Wave.orFlags_nextC (w : Wave) (f : Flags) : (w.orFlags f).nextC = w.nextC := rfl
@[simp] theorem Wave.orFlags_unsealedM (w : Wave) (f : Flags) : (w.orFlags f).unsealedM = w.unsealedM := rfl
@[simp] theorem Wave.orFlags_batchesM (w : Wave) (f : Flags) : (w.orFlags f).batchesM = w.batchesM := rfl
@[simp] theorem Wave.orFlags_nextM (w : Wave) (f : Flags) : (w.orFlags f).nextM = w.nextM := rfl
@[simp] theorem Wave.orFlags_halt (w : Wave) (f : Flags) : (w.orFlags f).halt = w.halt := rfl
@[simp] theorem Wave.orFlags_wait (w : Wave) (f : Flags) : (w.orFlags f).wait = w.wait := rfl
@[simp] theorem Wave.orFlags_lastIssue (w : Wave) (f : Flags) : (w.orFlags f).lastIssue = w.lastIssue := rfl
@[simp] theorem Wave.orFlags_notBefore (w : Wave) (f : Flags) : (w.orFlags f).notBefore = w.notBefore := rfl
@[simp] theorem Wave.orFlags_readySince (w : Wave) (f : Flags) : (w.orFlags f).readySince = w.readySince := rfl
@[simp] theorem Wave.orFlags_lateFlags (w : Wave) (f : Flags) : (w.orFlags f).lateFlags = w.lateFlags := rfl
@[simp] theorem Wave.orFlags_lateTick (w : Wave) (f : Flags) : (w.orFlags f).lateTick = w.lateTick := rfl
@[simp] theorem Wave.orFlags_rsv (w : Wave) (f : Flags) : (w.orFlags f).rsv = w.rsv := rfl
@[simp] theorem Wave.orFlags_tiles (w : Wave) (f : Flags) : (w.orFlags f).tiles = w.tiles := rfl
@[simp] theorem Wave.orFlags_eccRegs (w : Wave) (f : Flags) : (w.orFlags f).eccRegs = w.eccRegs := rfl
@[simp] theorem Wave.orFlags_eccSoft (w : Wave) (f : Flags) : (w.orFlags f).eccSoft = w.eccSoft := rfl

/-! ### `Wave.writeLanes` -/

@[simp] theorem Wave.writeLanes_id (w : Wave) (d : Nat) (on : Nat → Bool) (f : Nat → W32) : (w.writeLanes d on f).id = w.id := rfl
@[simp] theorem Wave.writeLanes_ctx (w : Wave) (d : Nat) (on : Nat → Bool) (f : Nat → W32) : (w.writeLanes d on f).ctx = w.ctx := rfl
@[simp] theorem Wave.writeLanes_task (w : Wave) (d : Nat) (on : Nat → Bool) (f : Nat → W32) : (w.writeLanes d on f).task = w.task := rfl
@[simp] theorem Wave.writeLanes_ord (w : Wave) (d : Nat) (on : Nat → Bool) (f : Nat → W32) : (w.writeLanes d on f).ord = w.ord := rfl
@[simp] theorem Wave.writeLanes_gid (w : Wave) (d : Nat) (on : Nat → Bool) (f : Nat → W32) : (w.writeLanes d on f).gid = w.gid := rfl
@[simp] theorem Wave.writeLanes_group (w : Wave) (d : Nat) (on : Nat → Bool) (f : Nat → W32) : (w.writeLanes d on f).group = w.group := rfl
@[simp] theorem Wave.writeLanes_widx (w : Wave) (d : Nat) (on : Nat → Bool) (f : Nat → W32) : (w.writeLanes d on f).widx = w.widx := rfl
@[simp] theorem Wave.writeLanes_core (w : Wave) (d : Nat) (on : Nat → Bool) (f : Nat → W32) : (w.writeLanes d on f).core = w.core := rfl
@[simp] theorem Wave.writeLanes_quad (w : Wave) (d : Nat) (on : Nat → Bool) (f : Nat → W32) : (w.writeLanes d on f).quad = w.quad := rfl
@[simp] theorem Wave.writeLanes_slot (w : Wave) (d : Nat) (on : Nat → Bool) (f : Nat → W32) : (w.writeLanes d on f).slot = w.slot := rfl
@[simp] theorem Wave.writeLanes_sregs (w : Wave) (d : Nat) (on : Nat → Bool) (f : Nat → W32) : (w.writeLanes d on f).sregs = w.sregs := rfl
@[simp] theorem Wave.writeLanes_preds (w : Wave) (d : Nat) (on : Nat → Bool) (f : Nat → W32) : (w.writeLanes d on f).preds = w.preds := rfl
@[simp] theorem Wave.writeLanes_modes (w : Wave) (d : Nat) (on : Nat → Bool) (f : Nat → W32) : (w.writeLanes d on f).modes = w.modes := rfl
@[simp] theorem Wave.writeLanes_flags (w : Wave) (d : Nat) (on : Nat → Bool) (f : Nat → W32) : (w.writeLanes d on f).flags = w.flags := rfl
@[simp] theorem Wave.writeLanes_livemask (w : Wave) (d : Nat) (on : Nat → Bool) (f : Nat → W32) : (w.writeLanes d on f).livemask = w.livemask := rfl
@[simp] theorem Wave.writeLanes_trapCause (w : Wave) (d : Nat) (on : Nat → Bool) (f : Nat → W32) : (w.writeLanes d on f).trapCause = w.trapCause := rfl
@[simp] theorem Wave.writeLanes_trapPc (w : Wave) (d : Nat) (on : Nat → Bool) (f : Nat → W32) : (w.writeLanes d on f).trapPc = w.trapPc := rfl
@[simp] theorem Wave.writeLanes_trapVal (w : Wave) (d : Nat) (on : Nat → Bool) (f : Nat → W32) : (w.writeLanes d on f).trapVal = w.trapVal := rfl
@[simp] theorem Wave.writeLanes_joint (w : Wave) (d : Nat) (on : Nat → Bool) (f : Nat → W32) : (w.writeLanes d on f).joint = w.joint := rfl
@[simp] theorem Wave.writeLanes_kcores (w : Wave) (d : Nat) (on : Nat → Bool) (f : Nat → W32) : (w.writeLanes d on f).kcores = w.kcores := rfl
@[simp] theorem Wave.writeLanes_kngroups (w : Wave) (d : Nat) (on : Nat → Bool) (f : Nat → W32) : (w.writeLanes d on f).kngroups = w.kngroups := rfl
@[simp] theorem Wave.writeLanes_knlanes (w : Wave) (d : Nat) (on : Nat → Bool) (f : Nat → W32) : (w.writeLanes d on f).knlanes = w.knlanes := rfl
@[simp] theorem Wave.writeLanes_handler (w : Wave) (d : Nat) (on : Nat → Bool) (f : Nat → W32) : (w.writeLanes d on f).handler = w.handler := rfl
@[simp] theorem Wave.writeLanes_ext (w : Wave) (d : Nat) (on : Nat → Bool) (f : Nat → W32) : (w.writeLanes d on f).ext = w.ext := rfl
@[simp] theorem Wave.writeLanes_working (w : Wave) (d : Nat) (on : Nat → Bool) (f : Nat → W32) : (w.writeLanes d on f).working = w.working := rfl
@[simp] theorem Wave.writeLanes_live (w : Wave) (d : Nat) (on : Nat → Bool) (f : Nat → W32) : (w.writeLanes d on f).live = w.live := rfl
@[simp] theorem Wave.writeLanes_grain (w : Wave) (d : Nat) (on : Nat → Bool) (f : Nat → W32) : (w.writeLanes d on f).grain = w.grain := rfl
@[simp] theorem Wave.writeLanes_tasks (w : Wave) (d : Nat) (on : Nat → Bool) (f : Nat → W32) : (w.writeLanes d on f).tasks = w.tasks := rfl
@[simp] theorem Wave.writeLanes_subs (w : Wave) (d : Nat) (on : Nat → Bool) (f : Nat → W32) : (w.writeLanes d on f).subs = w.subs := rfl
@[simp] theorem Wave.writeLanes_unsealedC (w : Wave) (d : Nat) (on : Nat → Bool) (f : Nat → W32) : (w.writeLanes d on f).unsealedC = w.unsealedC := rfl
@[simp] theorem Wave.writeLanes_batchesC (w : Wave) (d : Nat) (on : Nat → Bool) (f : Nat → W32) : (w.writeLanes d on f).batchesC = w.batchesC := rfl
@[simp] theorem Wave.writeLanes_nextC (w : Wave) (d : Nat) (on : Nat → Bool) (f : Nat → W32) : (w.writeLanes d on f).nextC = w.nextC := rfl
@[simp] theorem Wave.writeLanes_unsealedM (w : Wave) (d : Nat) (on : Nat → Bool) (f : Nat → W32) : (w.writeLanes d on f).unsealedM = w.unsealedM := rfl
@[simp] theorem Wave.writeLanes_batchesM (w : Wave) (d : Nat) (on : Nat → Bool) (f : Nat → W32) : (w.writeLanes d on f).batchesM = w.batchesM := rfl
@[simp] theorem Wave.writeLanes_nextM (w : Wave) (d : Nat) (on : Nat → Bool) (f : Nat → W32) : (w.writeLanes d on f).nextM = w.nextM := rfl
@[simp] theorem Wave.writeLanes_halt (w : Wave) (d : Nat) (on : Nat → Bool) (f : Nat → W32) : (w.writeLanes d on f).halt = w.halt := rfl
@[simp] theorem Wave.writeLanes_wait (w : Wave) (d : Nat) (on : Nat → Bool) (f : Nat → W32) : (w.writeLanes d on f).wait = w.wait := rfl
@[simp] theorem Wave.writeLanes_lastIssue (w : Wave) (d : Nat) (on : Nat → Bool) (f : Nat → W32) : (w.writeLanes d on f).lastIssue = w.lastIssue := rfl
@[simp] theorem Wave.writeLanes_notBefore (w : Wave) (d : Nat) (on : Nat → Bool) (f : Nat → W32) : (w.writeLanes d on f).notBefore = w.notBefore := rfl
@[simp] theorem Wave.writeLanes_readySince (w : Wave) (d : Nat) (on : Nat → Bool) (f : Nat → W32) : (w.writeLanes d on f).readySince = w.readySince := rfl
@[simp] theorem Wave.writeLanes_lateFlags (w : Wave) (d : Nat) (on : Nat → Bool) (f : Nat → W32) : (w.writeLanes d on f).lateFlags = w.lateFlags := rfl
@[simp] theorem Wave.writeLanes_lateTick (w : Wave) (d : Nat) (on : Nat → Bool) (f : Nat → W32) : (w.writeLanes d on f).lateTick = w.lateTick := rfl
@[simp] theorem Wave.writeLanes_rsv (w : Wave) (d : Nat) (on : Nat → Bool) (f : Nat → W32) : (w.writeLanes d on f).rsv = w.rsv := rfl
@[simp] theorem Wave.writeLanes_tiles (w : Wave) (d : Nat) (on : Nat → Bool) (f : Nat → W32) : (w.writeLanes d on f).tiles = w.tiles := rfl
@[simp] theorem Wave.writeLanes_eccRegs (w : Wave) (d : Nat) (on : Nat → Bool) (f : Nat → W32) : (w.writeLanes d on f).eccRegs = w.eccRegs := rfl
@[simp] theorem Wave.writeLanes_eccSoft (w : Wave) (d : Nat) (on : Nat → Bool) (f : Nat → W32) : (w.writeLanes d on f).eccSoft = w.eccSoft := rfl

/-! ### `Wave.advanceGrain` -/

@[simp] theorem Wave.advanceGrain_id (w : Wave) (on : Nat → Bool) (n : Nat) : (w.advanceGrain on n).id = w.id := rfl
@[simp] theorem Wave.advanceGrain_ctx (w : Wave) (on : Nat → Bool) (n : Nat) : (w.advanceGrain on n).ctx = w.ctx := rfl
@[simp] theorem Wave.advanceGrain_task (w : Wave) (on : Nat → Bool) (n : Nat) : (w.advanceGrain on n).task = w.task := rfl
@[simp] theorem Wave.advanceGrain_ord (w : Wave) (on : Nat → Bool) (n : Nat) : (w.advanceGrain on n).ord = w.ord := rfl
@[simp] theorem Wave.advanceGrain_gid (w : Wave) (on : Nat → Bool) (n : Nat) : (w.advanceGrain on n).gid = w.gid := rfl
@[simp] theorem Wave.advanceGrain_group (w : Wave) (on : Nat → Bool) (n : Nat) : (w.advanceGrain on n).group = w.group := rfl
@[simp] theorem Wave.advanceGrain_widx (w : Wave) (on : Nat → Bool) (n : Nat) : (w.advanceGrain on n).widx = w.widx := rfl
@[simp] theorem Wave.advanceGrain_core (w : Wave) (on : Nat → Bool) (n : Nat) : (w.advanceGrain on n).core = w.core := rfl
@[simp] theorem Wave.advanceGrain_quad (w : Wave) (on : Nat → Bool) (n : Nat) : (w.advanceGrain on n).quad = w.quad := rfl
@[simp] theorem Wave.advanceGrain_slot (w : Wave) (on : Nat → Bool) (n : Nat) : (w.advanceGrain on n).slot = w.slot := rfl
@[simp] theorem Wave.advanceGrain_sregs (w : Wave) (on : Nat → Bool) (n : Nat) : (w.advanceGrain on n).sregs = w.sregs := rfl
@[simp] theorem Wave.advanceGrain_vregs (w : Wave) (on : Nat → Bool) (n : Nat) : (w.advanceGrain on n).vregs = w.vregs := rfl
@[simp] theorem Wave.advanceGrain_preds (w : Wave) (on : Nat → Bool) (n : Nat) : (w.advanceGrain on n).preds = w.preds := rfl
@[simp] theorem Wave.advanceGrain_modes (w : Wave) (on : Nat → Bool) (n : Nat) : (w.advanceGrain on n).modes = w.modes := rfl
@[simp] theorem Wave.advanceGrain_flags (w : Wave) (on : Nat → Bool) (n : Nat) : (w.advanceGrain on n).flags = w.flags := rfl
@[simp] theorem Wave.advanceGrain_livemask (w : Wave) (on : Nat → Bool) (n : Nat) : (w.advanceGrain on n).livemask = w.livemask := rfl
@[simp] theorem Wave.advanceGrain_trapCause (w : Wave) (on : Nat → Bool) (n : Nat) : (w.advanceGrain on n).trapCause = w.trapCause := rfl
@[simp] theorem Wave.advanceGrain_trapPc (w : Wave) (on : Nat → Bool) (n : Nat) : (w.advanceGrain on n).trapPc = w.trapPc := rfl
@[simp] theorem Wave.advanceGrain_trapVal (w : Wave) (on : Nat → Bool) (n : Nat) : (w.advanceGrain on n).trapVal = w.trapVal := rfl
@[simp] theorem Wave.advanceGrain_joint (w : Wave) (on : Nat → Bool) (n : Nat) : (w.advanceGrain on n).joint = w.joint := rfl
@[simp] theorem Wave.advanceGrain_kcores (w : Wave) (on : Nat → Bool) (n : Nat) : (w.advanceGrain on n).kcores = w.kcores := rfl
@[simp] theorem Wave.advanceGrain_kngroups (w : Wave) (on : Nat → Bool) (n : Nat) : (w.advanceGrain on n).kngroups = w.kngroups := rfl
@[simp] theorem Wave.advanceGrain_knlanes (w : Wave) (on : Nat → Bool) (n : Nat) : (w.advanceGrain on n).knlanes = w.knlanes := rfl
@[simp] theorem Wave.advanceGrain_handler (w : Wave) (on : Nat → Bool) (n : Nat) : (w.advanceGrain on n).handler = w.handler := rfl
@[simp] theorem Wave.advanceGrain_ext (w : Wave) (on : Nat → Bool) (n : Nat) : (w.advanceGrain on n).ext = w.ext := rfl
@[simp] theorem Wave.advanceGrain_working (w : Wave) (on : Nat → Bool) (n : Nat) : (w.advanceGrain on n).working = w.working := rfl
@[simp] theorem Wave.advanceGrain_live (w : Wave) (on : Nat → Bool) (n : Nat) : (w.advanceGrain on n).live = w.live := rfl
@[simp] theorem Wave.advanceGrain_tasks (w : Wave) (on : Nat → Bool) (n : Nat) : (w.advanceGrain on n).tasks = w.tasks := rfl
@[simp] theorem Wave.advanceGrain_subs (w : Wave) (on : Nat → Bool) (n : Nat) : (w.advanceGrain on n).subs = w.subs := rfl
@[simp] theorem Wave.advanceGrain_unsealedC (w : Wave) (on : Nat → Bool) (n : Nat) : (w.advanceGrain on n).unsealedC = w.unsealedC := rfl
@[simp] theorem Wave.advanceGrain_batchesC (w : Wave) (on : Nat → Bool) (n : Nat) : (w.advanceGrain on n).batchesC = w.batchesC := rfl
@[simp] theorem Wave.advanceGrain_nextC (w : Wave) (on : Nat → Bool) (n : Nat) : (w.advanceGrain on n).nextC = w.nextC := rfl
@[simp] theorem Wave.advanceGrain_unsealedM (w : Wave) (on : Nat → Bool) (n : Nat) : (w.advanceGrain on n).unsealedM = w.unsealedM := rfl
@[simp] theorem Wave.advanceGrain_batchesM (w : Wave) (on : Nat → Bool) (n : Nat) : (w.advanceGrain on n).batchesM = w.batchesM := rfl
@[simp] theorem Wave.advanceGrain_nextM (w : Wave) (on : Nat → Bool) (n : Nat) : (w.advanceGrain on n).nextM = w.nextM := rfl
@[simp] theorem Wave.advanceGrain_halt (w : Wave) (on : Nat → Bool) (n : Nat) : (w.advanceGrain on n).halt = w.halt := rfl
@[simp] theorem Wave.advanceGrain_wait (w : Wave) (on : Nat → Bool) (n : Nat) : (w.advanceGrain on n).wait = w.wait := rfl
@[simp] theorem Wave.advanceGrain_lastIssue (w : Wave) (on : Nat → Bool) (n : Nat) : (w.advanceGrain on n).lastIssue = w.lastIssue := rfl
@[simp] theorem Wave.advanceGrain_notBefore (w : Wave) (on : Nat → Bool) (n : Nat) : (w.advanceGrain on n).notBefore = w.notBefore := rfl
@[simp] theorem Wave.advanceGrain_readySince (w : Wave) (on : Nat → Bool) (n : Nat) : (w.advanceGrain on n).readySince = w.readySince := rfl
@[simp] theorem Wave.advanceGrain_lateFlags (w : Wave) (on : Nat → Bool) (n : Nat) : (w.advanceGrain on n).lateFlags = w.lateFlags := rfl
@[simp] theorem Wave.advanceGrain_lateTick (w : Wave) (on : Nat → Bool) (n : Nat) : (w.advanceGrain on n).lateTick = w.lateTick := rfl
@[simp] theorem Wave.advanceGrain_rsv (w : Wave) (on : Nat → Bool) (n : Nat) : (w.advanceGrain on n).rsv = w.rsv := rfl
@[simp] theorem Wave.advanceGrain_tiles (w : Wave) (on : Nat → Bool) (n : Nat) : (w.advanceGrain on n).tiles = w.tiles := rfl
@[simp] theorem Wave.advanceGrain_eccRegs (w : Wave) (on : Nat → Bool) (n : Nat) : (w.advanceGrain on n).eccRegs = w.eccRegs := rfl
@[simp] theorem Wave.advanceGrain_eccSoft (w : Wave) (on : Nat → Bool) (n : Nat) : (w.advanceGrain on n).eccSoft = w.eccSoft := rfl

/-! ### Registers -/

/-- Reading a scalar register after writing one (R91). -/
@[simp] theorem Wave.s_setS (w : Wave) (i : Nat) (v : W64) (j : Nat) : (w.setS i v).s j = if j = i then v else w.s j :=
  Regs.get_set w.sregs i v j

/-- Reading a predicate after writing one: p0 stays all ones (R91). -/
@[simp] theorem Wave.p_setP (w : Wave) (i : Nat) (v : W32) (j : Nat) :
    (w.setP i v).p j = if j = i ∧ i ≠ 0 then v else w.p j := by
  unfold Wave.setP Wave.p
  by_cases hi : i = 0
  · simp [hi]
  · by_cases hj : j = 0
    · simp [hi, hj, Ne.symm hi]
    · simp [hi, hj]

/-- Reading a lane's register after writing one. -/
@[simp] theorem Wave.v_setV (w : Wave) (r lane : Nat) (x : W32) (r' lane' : Nat) :
    (w.setV r lane x).v r' lane' = if 32 * r' + lane' = 32 * r + lane then x else w.v r' lane' :=
  Regs.get_set w.vregs (32 * r + lane) x (32 * r' + lane')

/-! ### The issuing wave -/

/-- A meaning run on the issuing wave. -/
theorem State.onIssuer_eq {s : State} {w : Wave} {q : SubWave} (h : s.issuer w q) (f : Wave → SubWave → State) :
    s.onIssuer f = f w q := by
  obtain ⟨h1, h2⟩ := h
  unfold State.onIssuer
  cases hs : s.waves with
  | nil => simp [hs] at h1
  | cons x xs =>
    have hx : x = w := by simpa [hs] using h1
    subst hx
    cases hq : x.subs with
    | nil => simp [hq] at h2
    | cons y ys =>
      have hy : y = q := by simpa [hq] using h2
      subst hy
      simp [hq]

/-- The issuing wave goes on at an address: its sub-waves. -/
theorem Wave.goto_subs {w : Wave} {q : SubWave} (h : w.subs.head? = some q) (tick : Nat) (pc : W64) :
    (w.goto tick pc).subs = { q with pc := pc, st := .ready } :: w.subs.tail := by
  cases hq : w.subs with
  | nil => simp [hq] at h
  | cons y ys =>
    have hy : y = q := by simpa [hq] using h
    subst hy
    simp [Wave.goto, hq]

/-- The issuing wave goes on at the next word. -/
theorem Wave.next_eq {w : Wave} {q : SubWave} (h : w.subs.head? = some q) (tick : Nat) : w.next tick = w.goto tick (q.pc + 4) := by
  cases hq : w.subs with
  | nil => simp [hq] at h
  | cons y ys =>
    have hy : y = q := by simpa [hq] using h
    subst hy
    simp [Wave.next, hq]

end Sys2Proof.Machine
end

