-- ==== Sys2Proof/Tests/Slice0.lean ====
section
/-! SUPPORT. Tests: the well-formedness smoke, words of the encoding decoded, single steps, and for each statement of the
certificates that has hypotheses a state and operands that meet them.  Expected results are the manual's (its tables, its
worked examples) or computed by hand from its rules. -/

namespace Sys2Proof.Tests

open Sys2Proof Sys2Proof.Machine Sys2Proof.Claims

set_option Elab.async false

/-! ## A small state: one context in slot 0 of function 0 on core 0, and one grid wave of 32 lanes at its first instruction -/

def demo : State := State.reset.boot
def wv : Wave := { (bootGrid 1 0).wave 2 0 0 0 3 0 (0, 0) with readySince := some 0 }
def sb : SubWave := ⟨0xFF, BitVec.ofNat 64 Config.extBase, .ready⟩

/-- The small state with another issuing wave. -/
def withWave (w : Wave) : State := { demo with waves := [w] }
/-- The small state, whose context has a trap handler. -/
def trapping : State := { demo with ctxs := demo.ctxs.map fun c => { c with r := { c.r with handler := 0x100000000100 } } }
/-- The next state of an outcome, if it is one. -/
def nextOf (o : Out) : Option State := match o with | .next t => some t | _ => none
/-- What one instruction leaves of the issuing wave. -/
def after {α : Type} (i : Instr) (s : State) (f : Wave → α) : Option α := (nextOf (exec i s)).bind fun t => t.waves.head?.map f

theorem demo_issuer : demo.issuer wv sb := ⟨rfl, rfl⟩
theorem withWave_issuer (w : Wave) (q : SubWave) (l : List SubWave) (h : w.subs = q :: l) : (withWave w).issuer w q :=
  ⟨rfl, by simp [h]⟩
theorem trapping_issuer : trapping.issuer wv sb := ⟨rfl, rfl⟩
theorem trapping_calm : calm trapping wv := by
  refine ⟨rfl, by decide, .inr fun g h => ?_⟩
  have : g = bootGroup 2 0 1 := (Option.some.inj h).symm
  subst this
  rfl
/-- Where no walk is under way, none is any wave's. -/
theorem no_walk {s : State} (h : ∀ c ∈ s.ctxs, c.trace.walk = none) {p : Walk → Prop} : ∀ c ∈ s.ctxs, ∀ k, c.trace.walk = some k → p k :=
  fun c hc _ hk => by simp [h c hc] at hk

/-! ## Well-formedness: for each of its checks a term that the check refuses, and the nearest one that it accepts (R89, R91, R97) -/

def illFormed : List (Instr × Instr) :=
  [(.getk 0 19, .getk 0 18), (.setk 0 19, .setk 0 18), (.brany 8 1, .brany 7 1), (.brnone 15 1, .brnone 7 1), (.brall 8 1, .brall 7 1),
    (.pand 8 0 0, .pand 7 0 0), (.por 0 8 0, .por 0 7 0), (.pxor 0 0 8, .pxor 0 0 7), (.pandn 63 0 0, .pandn 1 0 0), (.pnot 0 8, .pnot 0 7), (.pmovs 8 0, .pmovs 7 63),
    (.smovp 0 8, .smovp 63 7), (.pcnt 0 8 0, .pcnt 63 7 7), (.pfirst 0 0 8, .pfirst 63 7 7),
    (.vadd 0 96 0 0, .vadd 0 95 127 127), (.vabs 0 127 0, .vabs 0 0 127), (.vcmpeq 0 8 0 0, .vcmpeq 0 7 127 127), (.vfadd 0 96 0 0, .vfadd 0 95 96 97),
    (.vfcvt 0 0 0 14, .vfcvt 0 0 0 13), (.vfpk4 0 0 2, .vfpk4 0 1 92), (.vfpk4 0 0 96, .vfpk4 0 0 0), (.vmovs 0 0 64, .vmovs 0 0 63), (.vrdlane 0 64 0 0, .vrdlane 0 63 95 63),
    (.vrdlane 0 0 96 0, .vrdlane 0 0 95 0), (.vbcst 0 0 0 64, .vbcst 0 0 0 63), (.vshfl 0 0 96 0, .vshfl 0 0 95 127), (.vqswz 0 0 0 7, .vqswz 0 0 0 6), (.vcmpct 0 0 96, .vcmpct 0 0 95),
    (.vlaneid 0 96, .vlaneid 0 95), (.vaddi 0 96 0 0, .vaddi 0 95 0 0), (.vmovi 0 96 0, .vmovi 0 95 0),
    (.vld 0 96 0 0 0, .vld 0 95 0 0 0), (.vld64 0 3 0 0 0, .vld64 0 94 0 0 0), (.vst64 0 96 0 0 0, .vst64 0 2 0 0 0), (.vld128 0 2 0 0 0, .vld128 0 92 0 0 0), (.vst128 0 96 0 0 0, .vst128 0 4 0 0 0),
    (.scas 3 0 0 0, .scas 4 0 0 0), (.samo 1 0 0 0, .samo 62 0 0 0), (.vaadd 0 0 3 0, .vaadd 0 0 2 0), (.vacas 0 96 2 0, .vacas 0 95 2 0), (.vradd 0 1 0, .vradd 0 2 0), (.vrx96 0 96 0, .vrx96 0 94 127),
    (.accz 0 0 1 1, .accz 0 0 1 0), (.obld 0 2 0 0 0, .obld 0 0 0 0 0), (.obld 0 3 0 0 1, .obld 0 2 0 0 1), (.mma 0 0 0 0 0 1 0 0 0, .mma 0 0 0 0 0 1 1 0 0),
    (.accrd 0 96 0 0, .accrd 0 95 0 0), (.accst 0 0 0 1 0 0 0, .accst 0 0 0 1 0 0 1), (.cpl 1 0 0 0 0, .cpl 2 0 0 0 0), (.wsig 0 1 0 0 0 0, .wsig 0 2 0 0 0 0),
    (.binit 1 0 0 0, .binit 2 0 0 0), (.bind 63 0 0 0, .bind 62 0 0 0)]

theorem test_ill_formed : ∀ x ∈ illFormed, x.1.wellFormed = false ∧ x.2.wellFormed = true ∧ decode (encode x.1) = none ∧ decode (encode x.2) = some x.2 := by decide +kernel

/-- Words that R95 to R97 call no instruction: the reserved class, an unassigned minor code of a class, and a field that is reserved as
zero and is not. -/
theorem test_no_instruction : decode 0xF0000000 = none ∧ decode 0xFFFFFFFF = none ∧ decode 0x00000001 = none ∧ decode 0x00100001 = none ∧ decode 0x01300000 = none ∧ 
    decode 0x20000001 = none ∧ decode 0x00310000 = none := by decide +kernel

/-! ## The encodings: a word of every row of the opcode table, written out from its fields, and what it decodes to (R85 to R97) -/

/-- Control (class 0x0). -/
def wordsCtrl : List (W32 × Instr) :=
  [(0x00000000, .nop), (0x00100000, .endq), (0x0020D2D2, .trap 53970), (0x00300000, .eret), (0x0040D2D2, .bkpt 53970), (0x00531200, .getk 12 18), 
   (0x00631100, .setk 12 17), (0x00750000, .mode 1 16), (0x00850500, .modea 1 16 20), (0x00950500, .modem 1 16 20), (0x00A00000, .xacq), 
   (0x00B00000, .xrel), (0x00C00000, .yield), (0x00D00000, .rejoin), (0x00E24000, .fence 2 4), (0x00F24680, .waitc 2 4 6 8), (0x01030000, .tick 12), 
   (0x01130000, .jmp 12), (0x01230000, .callr 12)]
theorem test_decode_ctrl : ∀ x ∈ wordsCtrl, decode x.1 = some x.2 ∧ encode x.2 = x.1 := by decide +kernel

/-- Branches (class 0x1). -/
def wordsBr : List (W32 × Instr) :=
  [(0x1002D2D2, .bra 185042), (0x1262D2D2, .brz 12 185042), (0x1462D2D2, .brnz 12 185042), (0x162AD2D2, .brany 5 185042), 
   (0x182AD2D2, .brnone 5 185042), (0x1A2AD2D2, .brall 5 185042), (0x1C02D2D2, .call 185042)]
theorem test_decode_br : ∀ x ∈ wordsBr, decode x.1 = some x.2 ∧ encode x.2 = x.1 := by decide +kernel

/-- Scalar integer (class 0x2), part 1. -/
def wordsSalu1 : List (W32 × Instr) :=
  [(0x200C4140, .sadd 12 16 20), (0x204C4140, .ssub 12 16 20), (0x208C4140, .smul 12 16 20), (0x20CC4140, .smulh 12 16 20), 
   (0x210C4140, .smulhn 12 16 20), (0x214C4140, .sand 12 16 20), (0x218C4140, .sor 12 16 20), (0x21CC4140, .sxor 12 16 20), 
   (0x220C4140, .sandn 12 16 20), (0x224C4140, .sshl 12 16 20), (0x228C4140, .sshr 12 16 20), (0x22CC4140, .ssra 12 16 20), 
   (0x230C4140, .smin 12 16 20), (0x234C4140, .smax 12 16 20), (0x238C4140, .sminn 12 16 20), (0x23CC4140, .smaxn 12 16 20), 
   (0x240C4140, .sseq 12 16 20), (0x244C4140, .ssne 12 16 20), (0x248C4140, .sslt 12 16 20), (0x24CC4140, .ssle 12 16 20), 
   (0x250C4140, .ssltn 12 16 20), (0x254C4140, .sslen 12 16 20), (0x258C4000, .sclz 12 16), (0x25CC4000, .spopc 12 16), (0x26051030, .pand 5 4 3), 
   (0x26451030, .por 5 4 3), (0x26851030, .pxor 5 4 3), (0x26C51030, .pandn 5 4 3)]
theorem test_decode_salu1 : ∀ x ∈ wordsSalu1, decode x.1 = some x.2 ∧ encode x.2 = x.1 := by decide +kernel

/-- Scalar integer (class 0x2), part 2. -/
def wordsSalu2 : List (W32 × Instr) :=
  [(0x27051000, .pnot 5 4), (0x27454000, .pmovs 5 16), (0x278C1000, .smovp 12 4), (0x27CC1030, .pcnt 12 4 3), (0x280C1030, .pfirst 12 4 3)]
theorem test_decode_salu2 : ∀ x ∈ wordsSalu2, decode x.1 = some x.2 ∧ encode x.2 = x.1 := by decide +kernel

/-- Scalar immediate (class 0x3). -/
def wordsSimm : List (W32 × Instr) :=
  [(0x303102D2, .saddi 12 16 722), (0x313102D2, .sandi 12 16 722), (0x323102D2, .sori 12 16 722), (0x333102D2, .sxori 12 16 722), 
   (0x34310014, .sshli 12 16 20), (0x35310014, .sshri 12 16 20), (0x36310014, .ssrai 12 16 20), (0x3732D2D2, .smovi 12 2 53970), 
   (0x3832D2D2, .sinsi 12 2 53970), (0x393102D2, .sseqi 12 16 722), (0x3A3102D2, .sslti 12 16 722), (0x3B3102D2, .ssltni 12 16 722)]
theorem test_decode_simm : ∀ x ∈ wordsSimm, decode x.1 = some x.2 ∧ encode x.2 = x.1 := by decide +kernel

/-- Vector integer (class 0x4). -/
def wordsVint : List (W32 × Instr) :=
  [(0x402A1630, .vadd 1 40 44 48), (0x40AA1630, .vsub 1 40 44 48), (0x412A1630, .vmul 1 40 44 48), (0x41AA1630, .vmulh 1 40 44 48), 
   (0x422A1630, .vmad 1 40 44 48), (0x42AA1630, .vand 1 40 44 48), (0x432A1630, .vor 1 40 44 48), (0x43AA1630, .vxor 1 40 44 48), 
   (0x442A1630, .vandn 1 40 44 48), (0x44AA1630, .vshl 1 40 44 48), (0x452A1630, .vshr 1 40 44 48), (0x45AA1630, .vsra 1 40 44 48), 
   (0x462A1630, .vmin 1 40 44 48), (0x46AA1630, .vmax 1 40 44 48), (0x472A1600, .vabs 1 40 44), (0x47AA1600, .vclz 1 40 44), 
   (0x482A1600, .vpopc 1 40 44), (0x48AA1630, .vsel 1 40 44 48), (0x49211630, .vcmpeq 1 4 44 48), (0x49A11630, .vcmpne 1 4 44 48), 
   (0x4A211630, .vcmplt 1 4 44 48), (0x4AA11630, .vcmple 1 4 44 48), (0x4B2A1630, .vadds 1 40 44 48), (0x4BAA1630, .vsubs 1 40 44 48), 
   (0x4C2A1630, .vdot4 1 40 44 48), (0x4CAA1630, .vdot8 1 40 44 48), (0x4D2A1630, .vbfe 1 40 44 48), (0x4DAA1630, .vbfi 1 40 44 48)]
theorem test_decode_vint : ∀ x ∈ wordsVint, decode x.1 = some x.2 ∧ encode x.2 = x.1 := by decide +kernel

/-- Vector float (class 0x5). -/
def wordsVflt : List (W32 × Instr) :=
  [(0x502A1630, .vfadd 1 40 44 48), (0x50AA1630, .vfsub 1 40 44 48), (0x512A1630, .vfmul 1 40 44 48), (0x51AA1630, .vfma 1 40 44 48), 
   (0x522A1630, .vfmin 1 40 44 48), (0x52AA1630, .vfmax 1 40 44 48), (0x532A1600, .vfneg 1 40 44), (0x53AA1600, .vfabs 1 40 44), 
   (0x54211630, .vfcmpeq 1 4 44 48), (0x54A11630, .vfcmplt 1 4 44 48), (0x55211630, .vfcmple 1 4 44 48), (0x55A11630, .vfcmpun 1 4 44 48), 
   (0x562A1600, .vfrcp 1 40 44), (0x56AA1600, .vfrsq 1 40 44), (0x572A1600, .vfexp2 1 40 44), (0x57AA1600, .vflog2 1 40 44), 
   (0x582A1630, .vfdot4 1 40 44 48), (0x58AA1630, .vfdot8 1 40 44 48), (0x592A1630, .vfscl 1 40 44 48), (0x59AA160D, .vfcvt 1 40 44 13), 
   (0x5A2A1600, .vfpk4 1 40 44), (0x5AAA1600, .vfclass 1 40 44), (0x5B2A1600, .vfrnd 1 40 44)]
theorem test_decode_vflt : ∀ x ∈ wordsVflt, decode x.1 = some x.2 ∧ encode x.2 = x.1 := by decide +kernel

/-- Vector exchange (class 0x6). -/
def wordsVxch : List (W32 × Instr) :=
  [(0x602A1600, .vmov 1 40 44), (0x60AA1600, .vmovs 1 40 44), (0x612A1630, .vrdlane 1 40 44 48), (0x61AA1630, .vbcst 1 40 44 48), 
   (0x622A1630, .vshfl 1 40 44 48), (0x62AA1606, .vqswz 1 40 44 6), (0x632A1600, .vqsum 1 40 44), (0x63AA1601, .vprfx 1 40 44 1), 
   (0x642A1600, .vcmpct 1 40 44), (0x64AA1600, .vredadd 1 40 44), (0x652A1600, .vredmin 1 40 44), (0x65AA1600, .vredmax 1 40 44), 
   (0x662A0000, .vlaneid 1 40)]
theorem test_decode_vxch : ∀ x ∈ wordsVxch, decode x.1 = some x.2 ∧ encode x.2 = x.1 := by decide +kernel

/-- Vector immediate (class 0x7). -/
def wordsVimm : List (W32 × Instr) :=
  [(0x70A858D2, .vaddi 1 40 44 210), (0x72A858D2, .vandi 1 40 44 210), (0x74A858D2, .vori 1 40 44 210), (0x76A858D2, .vxori 1 40 44 210), 
   (0x78A8580C, .vshli 1 40 44 12), (0x7AA8580C, .vshri 1 40 44 12), (0x7CA8580C, .vsrai 1 40 44 12), (0x7EA800D2, .vmovi 1 40 210)]
theorem test_decode_vimm : ∀ x ∈ wordsVimm, decode x.1 = some x.2 ∧ encode x.2 = x.1 := by decide +kernel

/-- Vector memory (class 0x8). -/
def wordsMemv : List (W32 × Instr) :=
  [(0x805428C2, .vld 1 40 20 48 2), (0x815428C2, .vld8 1 40 20 48 2), (0x825428C2, .vld16 1 40 20 48 2), (0x835428C2, .vld64 1 40 20 48 2), 
   (0x845428C2, .vld128 1 40 20 48 2), (0x855428C2, .vst 1 40 20 48 2), (0x865428C2, .vst8 1 40 20 48 2), (0x875428C2, .vst16 1 40 20 48 2), 
   (0x885428C2, .vst64 1 40 20 48 2), (0x895428C2, .vst128 1 40 20 48 2), (0x8A5428C2, .vldm 1 40 20 48 2), (0x8B5428C2, .vstm 1 40 20 48 2)]
theorem test_decode_memv : ∀ x ∈ wordsMemv, decode x.1 = some x.2 ∧ encode x.2 = x.1 := by decide +kernel

/-- Scalar memory (class 0x9). -/
def wordsMems : List (W32 × Instr) :=
  [(0x901886D2, .sld 12 16 3 210), (0x909886D2, .sld32 12 16 3 210), (0x911886D2, .sst 12 16 3 210), (0x919886D2, .sst32 12 16 3 210), 
   (0x921886D2, .sldm 12 16 3 210), (0x929886D2, .sstm 12 16 3 210), (0x931886D2, .scas 12 16 3 210), (0x939886D2, .samo 12 16 3 210), 
   (0x941886D2, .binit 12 16 3 210), (0x949886D2, .barv 12 16 3 210), (0x951886D2, .barb 12 16 3 210), (0x959886D2, .waitp 12 16 3 210), 
   (0x961886D2, .bphase 12 16 3 210), (0x969886D2, .bind 12 16 3 210), (0x971886D2, .unbind 12 16 3 210), (0x979886D2, .rgacq 12 16 3 210), 
   (0x980064D2, .rgrel 12 2 210), (0x988064D2, .tkwait 12 2 210), (0x990064D2, .tkpass 12 2 210)]
theorem test_decode_mems : ∀ x ∈ wordsMems, decode x.1 = some x.2 ∧ encode x.2 = x.1 := by decide +kernel

/-- Atomics (class 0xA). -/
def wordsAtom : List (W32 × Instr) :=
  [(0xA02A1630, .vaadd 1 40 44 48), (0xA0AA1630, .vamin 1 40 44 48), (0xA12A1630, .vamax 1 40 44 48), (0xA1AA1630, .vaand 1 40 44 48), 
   (0xA22A1630, .vaor 1 40 44 48), (0xA2AA1630, .vaxor 1 40 44 48), (0xA32A1630, .vaxch 1 40 44 48), (0xA3AA1630, .vacas 1 40 44 48), 
   (0xA42A1630, .vafadd 1 40 44 48), (0xA4A0142C, .vradd 1 40 44), (0xA520142C, .vrfadd 1 40 44), (0xA5A0142C, .vrmin 1 40 44), 
   (0xA620142C, .vrmax 1 40 44), (0xA6A0142C, .vrx96 1 40 44)]
theorem test_decode_atom : ∀ x ∈ wordsAtom, decode x.1 = some x.2 ∧ encode x.2 = x.1 := by decide +kernel

/-- Matrix (class 0xB). -/
def wordsMtx : List (W32 × Instr) :=
  [(0xB0100801, .accz 1 2 0 1), (0xB0900800, .accza 1 2), (0xB1020940, .obres 2 2 20), (0xB1820800, .obrel 2 2), (0xB2020D80, .obld 2 0 3 24 0), 
   (0xB2820940, .obwin 2 2 20), (0xB31466E7, .mma 1 4 6 1 5 12 1 1 1), (0xB3946687, .mmac 1 4 6 1 5 1 1 1), (0xB4000500, .jset 1 16), 
   (0xB4928E00, .accrd 1 40 3 4), (0xB5128E00, .accwr 1 40 3 4), (0xB5978A08, .accst 1 1 3 8 2 32 1), (0xB6120C00, .accadd 1 2 3), 
   (0xB6800500, .sealm 1 16)]
theorem test_decode_mtx : ∀ x ∈ wordsMtx, decode x.1 = some x.2 ∧ encode x.2 = x.1 := by decide +kernel

/-- Asynchronous (class 0xC). -/
def wordsAsync : List (W32 × Instr) :=
  [(0xC018828F, .cpt 12 16 20 1 1 3), (0xC098828F, .cptt 12 16 20 1 1 3), (0xC118828A, .cpl 12 16 20 1 2), (0xC198828A, .cpg 12 16 20 1 2), 
   (0xC218828F, .cps 12 16 20 1 1 3), (0xC298828F, .wsig 12 16 20 1 1 3), (0xC3180010, .lrfl 12 2), (0xC3980010, .lrins 12 2), 
   (0xC4180010, .sealc 12 2), (0xC4840010, .qfence 2 2), (0xC518828A, .hgrd 12 16 20 1 2)]
theorem test_decode_async : ∀ x ∈ wordsAsync, decode x.1 = some x.2 ∧ encode x.2 = x.1 := by decide +kernel

/-- Tasks and traces (class 0xD). -/
def wordsTask : List (W32 × Instr) :=
  [(0xD0188019, .spawn 12 16 3 1), (0xD0988019, .spawnd 12 16 3 1), (0xD1180010, .dcinit 12 2), (0xD1980010, .dcdec 12 2), 
   (0xD2188018, .wlpush 12 16 3), (0xD2988288, .wlpull 12 16 20 1), (0xD3180010, .quiesce 12 2), (0xD3988018, .glaunch 12 16 3), 
   (0xD4188018, .trrec 12 16 3), (0xD4980010, .trstop 12 2), (0xD5188018, .propagate 12 16 3), (0xD5988018, .mdecl 12 16 3), (0xD6000008, .trdrop 1), 
   (0xD6988018, .trstat 12 16 3)]
theorem test_decode_task : ∀ x ∈ wordsTask, decode x.1 = some x.2 ∧ encode x.2 = x.1 := by decide +kernel

/-- Sieve (class 0xE). -/
def wordsSieve : List (W32 × Instr) :=
  [(0xE0310030, .svgrid 12 16 3), (0xE1310030, .svbin 12 16 3), (0xE2310511, .svpair 12 16 20 1 1), (0xE3310510, .svpull 12 16 20 1), 
   (0xE4310030, .svstat 12 16 3), (0xE5310030, .svcheck 12 16 3), (0xE6300020, .svclr 12 2)]
theorem test_decode_sieve : ∀ x ∈ wordsSieve, decode x.1 = some x.2 ∧ encode x.2 = x.1 := by decide +kernel

/-! ## Single steps and numbers: the worked examples of the manual -/

/-- One instruction word of a wave, and what it leaves of the wave. -/
def runs {α : Type} (x : W32) (w : Wave) (f : Wave → α) : Option α := (decode x).bind fun i => after i (withWave w) f

/-- The words of chapter 4, "Worked encodings". -/
theorem test_worked_encodings : decode 0x20030420 = some (.sadd 3 1 2) ∧ decode 0x8044080A = some (.vld 1 8 4 2 2) ∧ decode 0x51C173A8 = some (.vfma 2 5 103 40) ∧
    decode 0x161FFFFD = some (.brany 3 0x7FFFD) ∧ decode 0x011FC000 = some (.jmp 63) ∧ decode 0x00100000 = some .endq ∧ encode (.sadd 3 1 2) = 0x20030420 ∧
    encode (.brany 3 0x7FFFD) = 0x161FFFFD ∧ bytesOfWord 0x20030420 = [0x20, 0x04, 0x03, 0x20] := by decide +kernel
theorem test_refused_words : decode 0xF0000000 = none ∧ decode 0x1E000000 = none ∧ decode 0x20030421 = none ∧ decode 0x4E000000 = none ∧ decode 0x49024000 = none ∧
    decode 0x40190000 = none := by decide +kernel

/-- Chapter 6, "A ballot and an address, step by step": 18 working lanes in quads 0 to 4. -/
def ballot : Wave := { wv with
  working := 0x3FFFF, live := 0x1F, subs := [⟨0x1F, 0x100000000000, .ready⟩], preds := [(2, 0xC0101), (4, 0x3FFFF)], sregs := [(4, 0x10000000000), (5, 2), (6, 0x3FFFF)] }
theorem test_ballot : runs 0x00518B00 ballot (·.s 6) = some 0x3FFFF ∧ runs 0x27441800 ballot (·.p 4) = some 0x3FFFF ∧ runs 0x27C50840 ballot (·.s 5) = some 2 ∧
    runs 0x27C50800 ballot (·.s 5) = some 4 ∧ runs 0x28090840 ballot (·.s 9) = some 0 ∧ runs 0x1228000C ballot (fun w => w.subs.map (·.pc)) = some [0x100000000004] ∧
    runs 0x1228000C { ballot with sregs := [] } (fun w => w.subs.map (·.pc)) = some [0x100000000030] ∧ runs 0x3A205003 ballot (·.s 8) = some 1 ∧
    runs 0x37120100 ballot (·.s 4) = some 0x10000000000 ∧ runs 0x38100040 ballot (·.s 4) = some 0x10000000040 := by decide +kernel

/-- Chapter 7, "Packed saturation, worked": lane 3, in the three cases. -/
def packed (m1 : W32) : Wave := { wv with modes := [(1, m1)], vregs := [(2 * 32 + 3, 0x7F800102), (3 * 32 + 3, 0x01FFFF7F)] }
theorem test_packed_saturation : runs 0x4B218103 (packed 0x70) (fun w => (w.v 6 3, w.flags)) = some (0x7F80007F, flSaturated) ∧
    runs 0x40218103 (packed 0x70) (fun w => (w.v 6 3, w.flags)) = some (0x807F0081, 0) ∧ runs 0x4B218103 (packed 0x80) (fun w => (w.v 6 3, w.flags)) = some (0x80FFFF81, flSaturated) := by
  decide +kernel

/-- Chapter 7, "A scaled dot product, worked": lane 0. -/
def dotting (l : List (Nat × W32)) : Wave := { wv with modes := [(1, 0x90), (2, 0x20)], vregs := [(64, 0x44B04038), (96, 0x38403C30)] ++ l }
theorem test_scaled_dot : runs 0x7F0A0000 (dotting [(320, 7)]) (·.v 10 0) = some 0 ∧ runs 0x58228103 (dotting []) (fun w => (w.v 10 0, w.flags)) = some (0x40B00000, 0) ∧
    runs 0x7F0401FD (dotting []) (·.v 4 0) = some 0xFFFFFFFD ∧
    runs 0x59428504 (dotting [(128, 0xFFFFFFFD), (320, 0x40B00000)]) (fun w => (w.v 10 0, w.flags)) = some (0x3F300000, 0) := by decide +kernel

/-- Chapter 8, "Prefix, compaction and reduction, worked": two quads, lanes 0 to 7. -/
def prefixed : Wave := { wv with
  working := 0xFF, live := 3, subs := [⟨3, 0x100000000000, .ready⟩], modes := [(1, 1)], preds := [(1, 0x95)]
  vregs := [(32, 5), (34, 7), (36, 2), (39, 9)] ++ (List.range 24).map fun k => (32 * (k / 8 + 2) + k % 8, 0xEEEEEEEE) }
theorem test_prefix : runs 0x63A08080 prefixed (fun w => (List.range 8).map (w.v 2)) = some [5, 0xEEEEEEEE, 12, 0xEEEEEEEE, 14, 0xEEEEEEEE, 0xEEEEEEEE, 23] ∧
    runs 0x6420C080 prefixed (fun w => (List.range 8).map (w.v 3)) = some [5, 7, 2, 9, 0xEEEEEEEE, 0xEEEEEEEE, 0xEEEEEEEE, 0xEEEEEEEE] ∧
    runs 0x64A10080 prefixed (fun w => (List.range 8).map (w.v 4)) = some [23, 0xEEEEEEEE, 23, 0xEEEEEEEE, 23, 0xEEEEEEEE, 0xEEEEEEEE, 23] := by decide +kernel

/-- Chapter 2, under R32: the f32 value 0x3F808080 rounded to bf16 with two draws. -/
theorem test_stochastic_rounding : roundTo fBf16 ⟨4, false, false⟩ 0x7F80 (fF32.value false 0x3F808080) = (0x3F81, flInexact) ∧
    roundTo fBf16 ⟨4, false, false⟩ 0x7F7F (fF32.value false 0x3F808080) = (0x3F80, flInexact) := by decide +kernel

/-- Chapter 11, "An exact sum, worked": the cell, three updates in one packet, and in the other order. -/
def sumCell : List Byte := leBytes 12 0 ++ leBytes 4 0x3FB0
def summand (v : W32) : Upd := ⟨3, 0, v, 0, 0, 0, 0, none⟩
theorem test_exact_sum : applyPacket 13 0x20 sumCell [summand 0x3F000000, summand 0x3FA00000, summand 0x31400000] = (leBytes 12 0x1C0000 ++ leBytes 4 0x3FB0, [flInexact, flInexact, flInexact]) ∧
    (applyPacket 13 0x20 sumCell [summand 0x31400000, summand 0x3FA00000, summand 0x3F000000]).1 = leBytes 12 0x1C0000 ++ leBytes 4 0x3FB0 ∧
    ((applyPacket 13 0x20 sumCell [summand 0x65000000]).2.map fun f => f &&& flAccovf) = [flAccovf] := by decide +kernel

/-- Chapter 11, "A sum that rounding would change": the two updates of a group, rounded together and one by one (f32, rne). -/
theorem test_rounded_sum : (addFloats 0x20 0x3F800000 [0x33800000, 0x33800000] 0).1 = 0x3F800001 ∧ (addFloats 0x20 0x3F800001 [0x33800000, 0x33800000] 0).1 = 0x3F800002 ∧
    (addFloats 0x20 0x3F800002 [0xBF800000] 0).1 = 0x34800000 ∧ (addFloats 0x20 0x3F800000 [0x33800000] 0).1 = 0x3F800000 := by decide +kernel

/-- Chapter 19, "Four particles, half and full": the descriptor, the particles, and the bins after `svbin`. -/
def fourBytes : List Byte := leBytes 4 0x40400000 ++ leBytes 4 0x40400000 ++ leBytes 4 0x40400000 ++ leBytes 2 3 ++ leBytes 2 3 ++ leBytes 2 3 ++ leBytes 2 7 ++
  leBytes 4 0x3F400000 ++ leBytes 4 0x3E800000 ++ leBytes 4 4 ++ leBytes 8 0x010000650000 ++ leBytes 8 0x010000660000 ++ leBytes 8 0x010000670000 ++ leBytes 4 0 ++ leBytes 4 0 ++
  leBytes 8 0x010000680000
def fourMem : Memory :=
  let xs := [0x3E800000, 0x3F000000, 0x3F000000, 0x40300000, 0x3F000000, 0x3F000000, 0x3F400000, 0x3F000000, 0x3F000000, 0x3FC00000, 0x3FC00000, 0x3FC00000]
  let m := (List.range 12).foldl (fun (m : Memory) k => m.setNum (0x010000650000 + 16 * (k / 3) + 4 * (k % 3)) 4 (xs.getD k 0)) (Memory.setBytes [] 0x010000600000 fourBytes)
  let m := (m.setNum 0x010000660000 4 2).setNum 0x010000660044 4 2
  let m := ((m.setNum 0x010000660100 4 1).setNum 0x010000660140 4 1)
  ((m.setNum 0x010000660680 4 1).setNum 0x0100006606C0 4 3).setNum 0x010000600060 4 3
def four : State := { demo with slice := fourMem }
/-- A request of the stream, at a place of it, and the next record (i, j, dx, r2, image) with the place after it. -/
def stream (full : Bool) (cursor : StreamAt) : SieveOp :=
  ⟨90, ⟨.svpair, .group 2, 0, [0x010000600000, 0x010000640000, 0], full, 9, ⟨0, 3, 0, 0, 0, 0, false, 0, 0, 0, 0⟩⟩, 0, .running, fourBytes, cursor, 0, false,
    ⟨[], [], false, false, []⟩, 0, 0, 0, 0⟩
def startOf : StreamAt := ⟨0, 0, 0, 0, 0, false, []⟩
def pairAt (full : Bool) (cursor : StreamAt) : Option (StreamAt × Option (List Nat)) :=
  match four.nextPair (stream full cursor) with
  | .ok (n, r) => some (n, r.map fun b => [field b 0 4, field b 4 4, field b 8 4, field b 20 4, field b 24 4])
  | .error _ => none
theorem test_half_stream : (pairAt false startOf).map (·.2) = some (some [0, 1, 0xBF000000, 0x3E800000, 4]) ∧
    ((pairAt false startOf).bind fun x => (pairAt false x.1).map (·.2)) = some (some [0, 2, 0x3F000000, 0x3E800000, 13]) := by
  decide +kernel

/-- A step from reset with a word placed: an addition writes its register and moves on, a word that is none reports and halts (R130, R154, R222, R230). -/
theorem test_step_from_reset : ((nextOf (step (State.reset.withFetchWord 32 0x30083004))).map fun t => t.waves.map fun w => (w.s 2, w.subs.map (·.pc))) = some [(4, [0x100000000004])] ∧
    ((nextOf (step (State.reset.withFetchWord 32 0))).map fun t => t.waves.map fun w => w.subs.map (·.pc)) = some [[0x100000000004]] ∧
    ((nextOf (step (State.reset.withFetchWord 32 1))).map fun t => t.waves.map (·.halt)) = some [.unhandled] := by decide +kernel

/-! ## Witnesses: scalars, control (statements O1 to O11) -/

theorem witness_scalar : (∃ v, scalarResult (.sadd 63 0 63) = some (63, v)) ∧ (∃ v, immediateResult (.saddi 0 63 (-2048)) = some (0, v)) ∧
    (∃ v, predicateResult (.pand 0 1 7) = some (0, v)) ∧ demo.issuer wv sb := ⟨⟨_, rfl⟩, ⟨_, rfl⟩, ⟨_, rfl⟩, demo_issuer⟩

theorem witness_fault_enters : ownFault trapping wv sb (.trap 7) = some (0x09, sb.pc, 7) ∧ trapping.issuer wv sb ∧ calm trapping wv :=
  ⟨rfl, trapping_issuer, trapping_calm⟩

/-- The wave in its handler. -/
def inHandler : Wave := { wv with handler := some 0xFF, trapPc := BitVec.ofNat 64 Config.extBase }

theorem witness_fault_halts : (ownFault demo wv sb (.illegalInstruction 0xFFFFFFFF)).isSome ∧ wv.task = false ∧ queueHasRoom demo wv.ctx ∧
    (∀ g, demo.group? wv.gid = some g → g.breaking wv.id wv.widx none = []) ∧ wv.handler = none ∧ (demo.ctx wv.ctx).r.handler = 0 := by
  refine ⟨by decide, rfl, by unfold queueHasRoom; decide, fun g h => ?_, rfl, rfl⟩
  have : g = bootGroup 2 0 1 := (Option.some.inj h).symm
  subst this; rfl

theorem witness_fault_in_handler : (withWave inHandler).issuer inHandler sb ∧ (ownFault (withWave inHandler) inHandler sb (.codeFetchFault 0)).isSome ∧
    inHandler.handler ≠ none ∧ queueHasRoom (withWave inHandler) inHandler.ctx ∧
    (∀ g, (withWave inHandler).group? inHandler.gid = some g → g.breaking inHandler.id inHandler.widx none = []) := by
  refine ⟨⟨rfl, rfl⟩, by decide, by decide, by unfold queueHasRoom; decide, fun g h => ?_⟩
  have : g = bootGroup 2 0 1 := (Option.some.inj h).symm
  subst this; rfl

theorem witness_eret : (withWave inHandler).issuer inHandler sb ∧ inHandler.handler ≠ none ∧ goodTarget (withWave inHandler) inHandler inHandler.trapPc :=
  ⟨⟨rfl, rfl⟩, by decide, by unfold goodTarget; decide⟩

/-- The small state with function 0's registers, with these values of dctl, sring and slen. -/
def debugging (dctl sring slen : W64) : State :=
  { demo with funcs := [{ Func.reset 0 with dctl := dctl, sring := sring, slen := slen }] }

/-- That state with its breakpoints armed, and a ring in its own banks. -/
def armed : State := debugging 1 0x0100006E0000 16

theorem witness_bkpt : armed.issuer wv sb ∧ (∃ f ∈ armed.blocksOf (armed.ctx wv.ctx), f.dctl.getLsbD 0 = true) ∧
    (∃ f, (armed.blocksOf (armed.ctx wv.ctx)).filter (fun f => f.dctl.getLsbD 0) = [f] ∧ armed.func f.id = f ∧ f.slen ≠ 0 ∧
      armed.blockOwns f.id (f.sring.toNat + 64 * (f.shead.toNat % f.slen.toNat)) 64 = true) ∧
    (∀ f ∈ demo.blocksOf (demo.ctx wv.ctx), f.dctl.getLsbD 0 = false) :=
  ⟨⟨rfl, rfl⟩, by decide, ⟨_, rfl, by decide, by decide, by decide +kernel⟩, by decide⟩

theorem witness_getk : ∀ k, k < 19 → k ≠ 10 → (specialRegister demo wv sb k).isSome := by decide

/-- A task wave. -/
def taskWave : Wave := { wv with task := true, working := 6, live := 3, subs := [⟨3, BitVec.ofNat 64 Config.extBase, .ready⟩] }

theorem witness_getk_key : taskWave.task = true ∧ (3#8).getLsbD (1 / 4) ∧ taskWave.working.getLsbD 1 ∧
    (∀ j, j < 1 → (3#8).getLsbD (j / 4) → ¬taskWave.working.getLsbD j) := by decide

/-- The small wave, with all ones in s1 and no bit but 0 in s2. -/
def numbered : Wave := { wv with sregs := [(1, 0xFFFFFFFFFFFFFFFF), (2, 1)] }
/-- That wave in a context with a trap handler. -/
def trappingNumbered : State := { trapping with waves := [numbered] }

theorem trappingNumbered_calm : calm trappingNumbered numbered := by
  refine ⟨rfl, by decide, .inr fun g h => ?_⟩
  have : g = bootGroup 2 0 1 := (Option.some.inj h).symm
  subst this; rfl

theorem witness_setk_livemask : trappingNumbered.issuer numbered sb ∧ 16 < (setBits 32 (numbered.s 1)).length ∧
    ¬16 < (setBits 32 (numbered.s 2)).length ∧ calm trappingNumbered numbered := ⟨⟨rfl, rfl⟩, by decide, by decide, trappingNumbered_calm⟩

theorem witness_mode : newSlot numbered (.mode 3 2) = some (3, 1) ∧ reservedFree 1 ∧ newSlot numbered (.modem 0 2 1) = some (0, 0xFFFFFFFF) ∧
    ¬reservedFree 0xFFFFFFFF ∧ calm trappingNumbered numbered :=
  ⟨rfl, by unfold reservedFree; decide, rfl, by unfold reservedFree; decide, trappingNumbered_calm⟩

/-- Eight waves that hold an extended block, after the small wave. -/
def blocksTaken : State := { demo with waves := wv :: (List.range 8).map fun n => { wv with id := 10 + n, ext := true } }
/-- The small state with its wave waiting for a block. -/
def blockWanted : State := { demo with waitList := [(0, 0, 3, .xacq)] }

theorem witness_blocks : wv.ext = false ∧ (demo.waves.filter fun x => x.quadrant == wv.quadrant && x.ext).length < 8 ∧
    (∀ e ∈ demo.waitList, ¬(e.1 = wv.quadrant ∧ e.2.1 = 0)) ∧ blocksTaken.issuer wv sb ∧
    8 ≤ (blocksTaken.waves.filter fun x => x.quadrant == wv.quadrant && x.ext).length ∧
    blockWanted.waitList = [] ++ (0, 0, 3, .xacq) :: [] ∧ blockWanted.wave? 3 = some wv ∧
    (blockWanted.waves.filter fun x => x.quadrant == 0 && x.ext).length < 8 :=
  ⟨rfl, by decide, by decide, ⟨rfl, rfl⟩, by decide, rfl, rfl, by decide⟩

/-- Two sub-waves, the second parked at `pc`. -/
def divided (pc : W64) (st : SubState) : Wave :=
  { wv with subs := [⟨0x0F, BitVec.ofNat 64 Config.extBase, .ready⟩, ⟨0xF0, pc, st⟩] }

theorem witness_rejoin : (withWave (divided 0x100000000000 .parked)).issuer (divided 0x100000000000 .parked) ⟨0x0F, 0x100000000000, .ready⟩ ∧
    (∀ p ∈ (divided 0x100000000000 .parked).subs.tail, p.st = .parked ∧ p.pc = 0x100000000000) ∧
    (∃ p ∈ (divided 0x100000000000 .ready).subs.tail, p.st ≠ .parked) ∧ wv.subs = [sb] ∧
    (∃ p ∈ (divided 0x100000000008 .parked).subs.tail, p.pc ≠ 0x100000000000) ∧
    calm { trapping with waves := [divided 0x100000000008 .parked] } (divided 0x100000000008 .parked) := by
  refine ⟨⟨rfl, rfl⟩, by decide, by decide, rfl, by decide, rfl, by decide, .inr fun g h => ?_⟩
  have : g = bootGroup 2 0 1 := (Option.some.inj h).symm
  subst this; rfl

theorem demo_quiet : quiet demo wv :=
  ⟨by decide, by decide, by decide, by decide, by decide, by decide, no_walk (by decide), by decide⟩

/-- A store of the small wave in flight, to core 0's slice, and a load. -/
def storing (kind : AccKind) (done : Bool) : Access where
  id := 20
  wave := 3
  ctx := 0
  core := 0
  ident := 0
  queue := 0
  pc := 0
  kind := kind
  traced := false
  slot := 0
  acq := false
  rel := false
  scope := 0
  inLd := false
  inSt := true
  sdst := none
  vdst := none
  quads := 0xFF
  units := [⟨0, 0x010000400000, 4, false, 0, 0, 0, false, 0, done, false, 0⟩]

/-- The small state with accesses in flight. -/
def flying (l : List Access) : State := { demo with flight := l }

theorem witness_fence : quiet demo wv ∧ (flying [storing .store false]).issuer wv sb ∧
    (∃ a ∈ (flying [storing .store false]).flight, a.wave = wv.id ∧ a.kind = .store ∧
      ∃ u ∈ a.units, u.done = false ∧ inDomain (0#4).toNat wv.core u.addr = true) ∧
    (0#4).toNat < ((flying [storing .store false]).flight.filter fun a => a.wave == wv.id && a.inSt).length :=
  ⟨demo_quiet, ⟨rfl, rfl⟩, by decide, by decide⟩

theorem witness_transfers : transfer wv sb (.bra 2) = some (target sb 2, false) ∧ goodTarget demo wv (target sb 2) ∧
    transfer wv sb (.jmp 0) = some (0, false) ∧ ¬goodTarget trapping wv 0 ∧ calm trapping wv ∧ transfer wv sb (.brnz 0 1) = none :=
  ⟨rfl, by unfold goodTarget; decide, rfl, by unfold goodTarget; decide, trapping_calm, rfl⟩

/-- The small wave with p1 true in lanes 0 to 15 only. -/
def halfTrue : Wave := { wv with preds := [(1, 0xFFFF)] }

theorem witness_branches : (∀ k, quadTest halfTrue k (.brany 1 2) = some (2, ∃ l, l / 4 = k ∧ halfTrue.working.getLsbD l ∧ (halfTrue.p 1).getLsbD l)) ∧
    (withWave halfTrue).issuer halfTrue sb ∧
    (∀ k, k < 8 → ((0x0F#8).getLsbD k = true ↔ sb.quads.getLsbD k = true ∧
      ∃ l, l / 4 = k ∧ halfTrue.working.getLsbD l ∧ (halfTrue.p 1).getLsbD l)) ∧ (0x0F#8) ≠ 0 ∧ (0x0F#8) ≠ sb.quads ∧
    goodTarget (withWave halfTrue) halfTrue (target sb 2) ∧ ¬goodTarget trapping wv (target sb (-1)) := by
  refine ⟨fun _ => rfl, ⟨rfl, rfl⟩, ?_, by decide, by decide, by unfold goodTarget; decide, by unfold goodTarget; decide⟩
  intro k hk
  have h : ∀ k, k < 8 → ((0x0F#8).getLsbD k = true ↔ sb.quads.getLsbD k = true ∧
      ∃ l, l < 32 ∧ l / 4 = k ∧ halfTrue.working.getLsbD l = true ∧ (halfTrue.p 1).getLsbD l = true) := by decide
  rw [h k hk]
  refine and_congr_right fun _ => ⟨fun ⟨l, _, h⟩ => ⟨l, h⟩, fun ⟨l, h⟩ => ⟨l, by omega, h⟩⟩

/-! ## Witnesses: the end of a sub-wave and the vector instructions (O11 to O23) -/

theorem witness_end_waits : (flying [{ storing (.load false false) false with inLd := true }]).issuer wv sb ∧ (∀ k, sb.st ≠ .ending k) ∧
    (∃ a ∈ [{ storing (.load false false) false with inLd := true }], a.wave = wv.id ∧ a.inLd = true ∧ ∃ u ∈ a.units, u.done = false) ∧
    (storing (.load false false) false).id < { flying [] with nextId := 21 }.nextId :=
  ⟨⟨rfl, rfl⟩, fun k h => by simp [sb] at h, by decide, by decide⟩

theorem witness_end : demo.issuer wv sb ∧ wv.task = false ∧ quiet demo wv ∧ wv.handler = none ∧ (∀ h ∈ (demo.ctx wv.ctx).held, h.wave ≠ wv.id) ∧
    (∀ g, demo.group? wv.gid = some g → g.breaking wv.id wv.widx none = []) ∧ wv.subs.tail = [] ∧ (∃ c ∈ demo.ctxs, c.id = wv.ctx) ∧
    (∀ p ∈ (divided 0 .ready).subs.tail, p.quads &&& 0x0F = 0 ∧ p.quads ≠ 0) ∧ (∃ p ∈ (divided 0 .ready).subs.tail, p.st ≠ .parked) := by
  refine ⟨demo_issuer, rfl, demo_quiet, rfl, by decide, fun g h => ?_, rfl, by decide, by decide, by decide⟩
  have : g = bootGroup 2 0 1 := (Option.some.inj h).symm
  subst this; rfl

/-- The small wave with a value in mode slot 0. -/
def moded (m : W32) : Wave := { wv with modes := [(0, m)] }

theorem witness_vector_forms :
    (∃ d f, integerForm (.vadds 0 31 1 127) = some (d, f) ∧ f.issues wv) ∧
    (∃ d f, integerForm (.vdot4 0 31 1 127) = some (d, f) ∧ f.issues (moded 0x70)) ∧
    (∃ d f, floatForm (.vfma 0 31 1 96) = some (d, f) ∧ f.issues (moded 0x420)) ∧
    (∃ d f, floatForm (.vredadd 0 31 1) = some (d, f) ∧ f.issues wv) ∧
    (∃ d f, compareForm (.vfcmpun 0 7 0 31) = some (d, f) ∧ f.issues (moded 0x60)) ∧ (withWave (moded 0x60)).issuer (moded 0x60) sb := by
  refine ⟨⟨_, _, rfl, ?_⟩, ⟨_, _, rfl, ?_⟩, ⟨_, _, rfl, ?_⟩, ⟨_, _, rfl, ?_⟩, ⟨_, _, rfl, ?_⟩, rfl, rfl⟩ <;>
    (unfold Form.issues names; decide)

theorem witness_vector_faults : (∃ d f, integerForm (.vadd 0 31 95 32) = some (d, f) ∧ f.fields = [31] ++ 95 :: [32] ∧ (∀ y ∈ [31#7], ¬names y) ∧
      names 95) ∧ wv.ext = false ∧
    (∃ d f, floatForm (.vfadd 0 0 96 127) = some (d, f) ∧ (∀ x ∈ f.fields, ¬names x) ∧ typ (wv.slotOf f.slot.toNat) ∉ f.types) ∧
    trapping.issuer wv sb ∧ calm trapping wv :=
  ⟨⟨_, _, rfl, rfl, by unfold names; decide, by unfold names; decide⟩, rfl, ⟨_, _, rfl, by unfold names; decide, by decide⟩, trapping_issuer, trapping_calm⟩

/-- Lane 0 of v1 holds the most negative i32 and lane 1 one; the slot saturates i32. -/
def saturating : Wave := { moded 0x800 with vregs := [(32, 0x80000000), (33, 1)] }

theorem saturating_active : act saturating sb 0x800 0 ∧ act saturating sb 0x800 1 := by
  unfold act works guarded
  exact ⟨⟨by decide, by decide⟩, ⟨by decide, by decide⟩⟩

theorem witness_fit : (∃ f, exactInt (.vsub 0 31 1 1) = some (0, 31, 1, 1, f, false)) ∧ (withWave saturating).issuer saturating sb ∧
    sat (saturating.slotOf 0) = true ∧ act saturating sb 0x800 0 ∧ ¬names 31 ∧
    clamp true 32 (asInt true 32 (elt 0 (operand saturating 0x800 1 0) 0) - 1) ≠ asInt true 32 (elt 0 (operand saturating 0x800 1 0) 0) - 1 ∧
    clamp true 32 (asInt true 32 (elt 0 (operand saturating 0x800 1 1) 0) - 1) = asInt true 32 (elt 0 (operand saturating 0x800 1 1) 0) - 1 :=
  ⟨⟨_, rfl⟩, ⟨rfl, rfl⟩, by decide, saturating_active.1, by unfold names; decide, by decide, by decide⟩

theorem witness_bits : (∃ f, laneBits (.vbfi 0 31 1 2) = some (0, 31, 1, 2, f)) ∧ (∃ f, elementBits (.vsrai 0 31 1 31) = some (0, 31, 1, 0, f)) ∧
    ¬names 31 ∧ ¬names 2 := ⟨⟨_, rfl⟩, ⟨_, rfl⟩, by unfold names; decide, by unfold names; decide⟩

theorem witness_dot : Claims.dotProduct (.vdot8 0 31 1 2) = some (0, 31, 1, 2) ∧ (∃ f, integerForm (.vdot8 0 31 1 2) = some f ∧ f.2.issues (moded 0xC0)) :=
  ⟨rfl, _, rfl, by unfold Form.issues names; decide⟩

/-- The small wave with 18 working lanes: lanes 18 and 19 help (the ballot example of the manual). -/
def eighteen : Wave := { moded 0x1 with working := 0x3FFFF, preds := [(1, 0x5)] }

theorem witness_select : (withWave eighteen).issuer eighteen sb ∧ works eighteen sb 0 ∧ helps eighteen sb 19 ∧ guarded eighteen 1 0 ∧
    ¬guarded eighteen 1 1 ∧ ¬works eighteen sb 20 ∧ ¬helps eighteen sb 20 := by
  refine ⟨⟨rfl, rfl⟩, ⟨by decide, by decide⟩, ⟨by decide, by decide, 16, by decide, by decide⟩, ?_, ?_, ?_, ?_⟩
  · unfold guarded; decide
  · unfold guarded; decide
  · unfold works; decide
  · rintro ⟨_, _, k, hk, h⟩
    have hk' : k < 24 := by omega
    have : ∀ k, k < 24 → k / 4 = 20 / 4 → eighteen.working.getLsbD k = false := by decide
    rw [this k hk' hk] at h
    exact absurd h (by decide)

theorem witness_compare : (∃ t, integerTest (.vcmpne 0 7 1 2) = some (0, 7, 1, 2, t, true)) ∧
    (∃ t, floatTest (.vfcmplt 0 1 1 2) = some (0, 1, 1, 2, t, false)) ∧ typ 0x20 = 2 ∧ (moded 0x20).slotOf 0 = 0x20 ∧ (7#7) ≠ 0 ∧
    ¬names 1 ∧ isNan 2 0x7FC00000 ∧ ¬isSignalling 2 0x7FC00000 ∧ isSignalling 2 0x7F800001 :=
  ⟨⟨_, rfl⟩, ⟨_, rfl⟩, by decide, by decide, by decide, by unfold names; decide, by unfold isNan; decide, by unfold isSignalling isNan; decide,
    by unfold isSignalling isNan; decide⟩

/-- Every lane of v1 holds 1.5 in f32, and of v2 -2.25; the slot is f32. -/
def floats : Wave := { moded 0x20 with
  vregs := (List.range 32).map (fun l => (32 + l, (0x3FC00000#32))) ++ (List.range 32).map (fun l => (64 + l, (0xC0100000#32))) }

theorem witness_exact_float : arithmetic (.vfmul 0 3 1 2) = some (0, 3, 1, 2) ∧ (withWave floats).issuer floats sb ∧ flush (floats.slotOf 0) = false ∧
    rnd (floats.slotOf 0) ≤ 4 ∧ typ (floats.slotOf 0) = 2 ∧
    (∀ l, l < 32 → elt 2 (operand floats 0x20 1 l) 0 = 0x3FC00000 ∧ elt 2 (operand floats 0x20 2 l) 0 = 0xC0100000) ∧
    exactFloat (.vfmul 0 3 1 2) 2 0x3FC00000 0xC0100000 0 0xC0580000 ∧ exactFloat (.vfadd 0 3 1 2) 2 0x3FC00000 0xC0100000 0 0xBF400000 ∧
    mag 2 0xC0580000 < infMag 2 ∧ 0 < mag 2 0xC0580000 :=
  ⟨rfl, ⟨rfl, rfl⟩, by decide, by decide, by decide, by decide, by unfold exactFloat; decide, by unfold exactFloat; decide, by decide, by decide⟩

theorem witness_moves : moveDest (.vqswz 0 3 1 6) = some (0, 3) ∧ (∃ f, floatForm (.vqswz 0 3 1 6) = some f ∧ f.2.issues wv) ∧ ¬names 1 ∧
    laneOf eighteen 1 31 0 := by
  refine ⟨rfl, ⟨_, rfl, by unfold Form.issues names; decide⟩, by unfold names; decide, fun ⟨k, hk, h⟩ => ?_, fun _ => rfl⟩
  rfl

/-- The lanes of a list of those that satisfy a test. -/
theorem witness_lanes : lanesThat (act eighteen sb 1) [0, 2] ∧ lanesThat (fun l => works eighteen sb l ∨ helps eighteen sb l) (List.range 20) := by
  have hw : ∀ n, n < 32 → (eighteen.working.getLsbD n = true ↔ n < 18) := by decide
  constructor
  · refine ⟨by decide, fun n => ⟨fun h => ?_, fun ⟨h, hw, hg⟩ => ?_⟩⟩
    · simp at h
      rcases h with rfl | rfl <;> exact ⟨by decide, ⟨by decide, by decide⟩, by unfold guarded; decide⟩
    · have : ∀ n, n < 32 → ((eighteen.p 1).getLsbD n = true ↔ 1 / 8 % 2 = 0) → n = 0 ∨ n = 2 := by decide
      simpa using this n h hg
  · refine ⟨by decide, fun n => ?_⟩
    rw [List.mem_range]
    have q : ∀ n, n < 32 → sb.quads.getLsbD (n / 4) = true := by decide
    refine ⟨fun h => ⟨by omega, ?_⟩, fun ⟨h, g⟩ => ?_⟩
    · by_cases k : n < 18
      · exact .inl ⟨q n (by omega), (hw n (by omega)).2 k⟩
      · refine .inr ⟨q n (by omega), ?_, 16, by omega, by decide⟩
        cases e : eighteen.working.getLsbD n
        · rfl
        · exact absurd ((hw n (by omega)).1 e) k
    · rcases g with ⟨_, g⟩ | ⟨_, _, k, hk, g⟩
      · have := (hw n h).1 g; omega
      · have := (hw k (by omega)).1 g; omega

theorem witness_combine : integerType (typ (wv.slotOf 0)) ∧ (∀ l, combining (act wv sb 0) (actH wv sb 0) l (.vredmax 0 3 1) =
    some (0, 3, 1, fun n => act wv sb 0 n)) ∧ (∀ l, l < 32 → lanesThat (act wv sb 0) (List.range 32)) := by
  refine ⟨by unfold integerType; decide, fun _ => rfl, fun _ _ => ⟨by decide, fun n => ?_⟩⟩
  rw [List.mem_range]
  have h : ∀ n, n < 32 → (sb.quads.getLsbD (n / 4) = true ∧ wv.working.getLsbD n = true) ∧
    ((wv.p 0).getLsbD n = true ↔ 0 / 8 % 2 = 0) := by decide
  exact ⟨fun k => ⟨k, (h n k).1, (h n k).2⟩, fun k => k.1⟩

/-! ## Witnesses: accesses to memory (O24 to O27) -/

theorem bank_owned : ∀ k, k < 16 → bootPart.banks.getLsbD k = true := by decide +kernel

theorem demo_part : demo.parts.find? (fun p => p.vf == 0) = some bootPart := by
  have : demo.parts = [bootPart] := rfl
  rw [this]; rfl

/-- Every byte of core 0's slice is the context's. -/
theorem own (w : Wave) (h : w.ctx = 0) (b : Nat) (h1 : 0x010000000000 ≤ b) (h2 : b < 0x010000800000) : ownByte (withWave w) w b := by
  refine ⟨h1, by omega, ⟨bootPart, by rw [h]; exact demo_part, bank_owned _ (by omega)⟩, fun g hg => ?_⟩
  have : g = bootGroup 2 0 1 := by simpa [withWave, demo, State.boot, State.reset] using hg
  subst this
  simp [bootGroup]

theorem own_located (w : Wave) (h : w.ctx = 0) (va : W64) (n : Nat) (h0 : va.toNat % n = 0) (h1 : 0x010000000000 ≤ va.toNat)
    (h2 : va.toNat + n ≤ 0x010000800000) : located (withWave w) w va n va.toNat false :=
  ⟨h0, fun k hk => .inl ⟨rfl, own w h _ (by omega) (by omega), rfl⟩⟩

/-- Every lane of v2 is its number, s5 an address in core 0's slice, and s6 the same in the group window. -/
def pointing : Wave := { wv with
  vregs := (List.range 31).map fun l => (65 + l, BitVec.ofNat 32 (l + 1))
  sregs := [(5, 0x010000400000), (6, 0x000100000000)] }

theorem pointing_issuer : (withWave pointing).issuer pointing sb := ⟨rfl, rfl⟩

theorem witness_vector_access : vectorAccess (.vst128 0 4 5 2 2) = some ⟨false, false, 16, 0, 4, 5, 2, 2⟩ ∧ (withWave pointing).issuer pointing sb ∧
    ¬names 4 ∧ ¬names 2 ∧ unmodified (withWave pointing) pointing 0 1 ∧ sound (withWave pointing) 0 1 ∧
    (∀ l, l < 32 → located (withWave pointing) pointing ((⟨true, false, 4, 0, 4, 5, 2, 2⟩ : VForm).addr pointing l) 4
      ((⟨true, false, 4, 0, 4, 5, 2, 2⟩ : VForm).addr pointing l).toNat false) := by
  refine ⟨rfl, pointing_issuer, by unfold names; decide, by unfold names; decide, .inl rfl, by unfold sound; decide, fun l hl => ?_⟩
  have : ∀ l, l < 32 → (((⟨true, false, 4, 0, 4, 5, 2, 2⟩ : VForm).addr pointing l).toNat % 4 = 0 ∧
      0x010000000000 ≤ ((⟨true, false, 4, 0, 4, 5, 2, 2⟩ : VForm).addr pointing l).toNat ∧
      ((⟨true, false, 4, 0, 4, 5, 2, 2⟩ : VForm).addr pointing l).toNat + 4 ≤ 0x010000800000) := by decide
  exact own_located pointing rfl _ 4 (this l hl).1 (this l hl).2.1 (this l hl).2.2

/-- The window names the bytes of the group's part of the pool. -/
theorem witness_window : located (withWave pointing) pointing (pointing.s 6) 8 0x010000400000 true := by
  have e : (pointing.s 6).toNat = 0x000100000000 := by decide
  have e1 : (bootGroup 2 0 1).win = 0x010000400000 := by decide
  have e2 : (bootGroup 2 0 1).winLen = 65536 := rfl
  exact ⟨by decide, fun k hk => .inr ⟨rfl, by omega, by omega, rfl, bootGroup 2 0 1, rfl, by omega, by omega⟩⟩

theorem pointing_lowest : lowest pointing sb 0 0 := by
  refine ⟨by decide, ⟨⟨by decide, by decide⟩, by unfold guarded; decide⟩, fun k hk => by omega⟩

theorem witness_scalar_access : scalarAccess (.samo 2 5 0 0) = some ⟨0, 5, 0, 8, 8, true, false⟩ ∧ (scalarKind pointing (.samo 2 5 0 0)).isSome ∧
    lowest pointing sb 0 0 ∧ located (withWave pointing) pointing ((⟨0, 5, 0, 8, 8, true, false⟩ : MForm).addr pointing) 8 0x010000400000 false :=
  ⟨rfl, rfl, pointing_lowest, own_located pointing rfl _ 8 (by decide) (by decide) (by decide)⟩

theorem witness_scalar_access_idle : ∀ l, l < 32 → ¬act (moded 8) sb 8 l := by
  have : ∀ l, l < 32 → ¬(((moded 8).p 0).getLsbD l = true ↔ (8#32).toNat / 8 % 2 = 0) := by decide
  exact fun l h a => this l h a.2

/-- In a context with a handler, lane 0 of v4 and v5 names address 0, of v6 and v7 external memory, of v8 and v9 a word misaligned. -/
def lost : Wave := { wv with
  vregs := [(6 * 32, 0), (7 * 32, 0x00001000), (8 * 32, 0x00400002), (9 * 32, 0x00000100)], sregs := [(5, 0x010000400000)] }
def lostState : State := { trapping with waves := [lost] }

theorem lost_calm : calm lostState lost := by
  refine ⟨rfl, by decide, .inr fun g h => ?_⟩
  have : g = bootGroup 2 0 1 := (Option.some.inj h).symm
  subst this; rfl

theorem nothing_at_zero (win : Bool) (a : Nat) : ¬namesByte lostState lost 0 a win := by
  rintro (⟨_, h, _⟩ | ⟨_, h, _⟩)
  · exact absurd h.1 (by decide)
  · exact absurd h (by decide)

theorem witness_address_fault : lostState.issuer lost sb ∧ calm lostState lost ∧ act lost sb (lost.slotOf 0) 0 ∧
    (∃ f, vectorAccess (.vld 0 1 0 4 0) = some f ∧ addressFault lostState lost (f.addr lost 0) f.size (!f.load && !f.traced) 0x20) ∧
    (∃ f, atomForm (.vaadd 0 1 6 2) = some f ∧ f.issues lost ∧ addressFault lostState lost (f.addr lost 0) f.size true 0x21) ∧
    (∃ f, atomForm (.vrmin 0 8 2) = some f ∧ f.issues lost ∧ addressFault lostState lost (f.addr lost 0) f.size true 0x22) ∧
    (∃ f, scalarAccess (.sst 1 0 0 5) = some f ∧ lowest lost sb (f.m lost) 0 ∧ addressFault lostState lost (f.addr lost) f.size f.plain 0x20) := by
  refine ⟨⟨rfl, rfl⟩, lost_calm, ⟨⟨by decide, by decide⟩, by unfold guarded; decide⟩, ⟨_, rfl, .inl ⟨rfl, by decide, ?_⟩⟩,
    ⟨_, rfl, by unfold AForm.issues names; decide, .inr (.inl ⟨rfl, by decide⟩)⟩,
    ⟨_, rfl, by unfold AForm.issues names; decide, .inr (.inr (.inl ⟨rfl, by decide, 0x010000400002, false, .inl ⟨rfl, ?_, by decide⟩⟩))⟩,
    ⟨_, rfl, ⟨by decide, ⟨⟨by decide, by decide⟩, by unfold guarded; decide⟩, fun k hk => by omega⟩, .inl ⟨rfl, by decide, ?_⟩⟩⟩
  · exact fun a win => nothing_at_zero win a
  · refine ⟨by decide, by decide, ⟨bootPart, demo_part, bank_owned 8 (by decide)⟩, fun g hg => ?_⟩
    have : g = bootGroup 2 0 1 := by simpa [lostState, trapping, demo, State.boot, State.reset] using hg
    subst this
    simp [bootGroup]
  · rintro a win (⟨_, h, _⟩ | ⟨_, h, _⟩)
    · exact absurd h.1 (by decide)
    · exact absurd h (by decide)

/-- The small wave's access, with one piece at the start of the window's bytes. -/
def onePiece (kind : AccKind) (dst : Option Nat) : Access := { storing kind false with sdst := dst, units := [⟨0, 0x010000400000, 8, false, 5, 0, 3, false, 0, false, false, 0⟩] }

/-- A piece of the only access in flight is ripe, where nothing before it in the access stands in its way. -/
theorem ripe_only (a : Access) (k : Nat) (u : AccUnit) (h : a.units[k]? = some u) (hd : u.done = false) (hr : a.rel = false)
    (hl : (∃ sg sc, a.kind = .load sg sc) ∨ k = 0) : ripe (flying [a]) a k u := by
  refine ⟨by simp [flying, State.access?], fun b hb _ => by simpa [flying] using hb, h, hd, rfl, hl.imp id fun e v hv => by simp [e] at hv,
    fun b hb _ g => ?_, fun g => absurd g (by simp [hr]), fun x hx => by simp [flying, demo, State.boot, State.reset] at hx⟩
  have : b = a := by simpa [flying] using hb
  subst this; omega

theorem witness_ripe (kind : AccKind) (dst : Option Nat) : ripe (flying [onePiece kind dst]) (onePiece kind dst) 0
    ⟨0, 0x010000400000, 8, false, 5, 0, 3, false, 0, false, false, 0⟩ := ripe_only _ 0 _ rfl rfl rfl (.inr rfl)

/-- A load of v3 by lanes 0 and 1, which name one word, and by lane 8 of the next sector, which names it too. -/
def lanePiece (l : Nat) : AccUnit := ⟨l, 0x010000400000, 4, false, 0, 0, 3, false, 0, false, false, 0⟩
def threeLanes : Access := { storing (.load false false) false with
  inLd := true, inSt := false, vdst := some 3, units := [lanePiece 0, lanePiece 1, lanePiece 8] }

theorem threeLanes_unit {i : Nat} {v : AccUnit} (h : threeLanes.units[i]? = some v) :
    (i = 0 ∧ v = lanePiece 0) ∨ (i = 1 ∧ v = lanePiece 1) ∨ (i = 2 ∧ v = lanePiece 8) := by
  rcases i with _ | _ | _ | i
  · exact .inl ⟨rfl, (Option.some.inj h).symm⟩
  · exact .inr (.inl ⟨rfl, (Option.some.inj h).symm⟩)
  · exact .inr (.inr ⟨rfl, (Option.some.inj h).symm⟩)
  · simp [threeLanes] at h

theorem witness_load_sector : ripe (flying [threeLanes]) threeLanes 1 (lanePiece 1) ∧ sectorRipe (flying [threeLanes]) threeLanes (lanePiece 1) ∧
    (∃ i, inSector threeLanes (lanePiece 1) i (lanePiece 0)) ∧ ¬(∃ i, inSector threeLanes (lanePiece 1) i (lanePiece 8)) ∧
    sameLocation (lanePiece 8) (lanePiece 0) ∧ threeLanes.vdst ≠ none ∧ threeLanes.sdst = none := by
  refine ⟨ripe_only _ 1 _ rfl rfl rfl (.inl ⟨_, _, rfl⟩), ⟨fun i v h => ?_, fun i j v x h g e => ?_, by unfold sameLocation; decide⟩, ⟨0, rfl, rfl, .inr ⟨rfl, rfl⟩⟩,
    fun ⟨i, h⟩ => ?_, by unfold sameLocation; decide, by decide, rfl⟩
  · rcases threeLanes_unit h.1 with ⟨rfl, rfl⟩ | ⟨rfl, rfl⟩ | ⟨rfl, rfl⟩ <;>
      exact ⟨.inr (ripe_only _ _ _ h.1 rfl rfl (.inl ⟨_, _, rfl⟩)), by unfold unbound; decide, by decide, by decide, .inl rfl⟩
  · rcases threeLanes_unit h.1 with ⟨rfl, rfl⟩ | ⟨rfl, rfl⟩ | ⟨rfl, rfl⟩ <;>
      rcases threeLanes_unit g.1 with ⟨rfl, rfl⟩ | ⟨rfl, rfl⟩ | ⟨rfl, rfl⟩ <;> first | rfl | exact absurd e (by decide)
  · rcases h.2.2 with h | h
    · cases h
    · exact absurd h.2 (by decide)

theorem witness_perform : (flying [onePiece .store none]).wave? 3 = some wv ∧ unbound (flying [onePiece .store none]) 0 0x010000400000 8 ∧
    (∀ w ∈ (flying [onePiece .store none]).waves, w.wait ≠ .home (onePiece .store none).id) ∧ (onePiece (.load false true) (some 4)).kind = .load false true :=
  ⟨rfl, by unfold unbound; decide, by decide, rfl⟩

/-- The small state with the region of the piece bound. -/
def bound : State := { flying [onePiece .store none] with
  ctxs := demo.ctxs.map fun c => { c with bindings := [⟨0x010000400000, 64, 0x010000500000, false⟩] } }

theorem witness_perform_bound : (∃ b ∈ (bound.ctx 0).bindings, b.base ≤ 0x010000400000 ∧ 0x010000400000 < b.base + b.len) ∧
    (∃ c ∈ bound.ctxs, c.id = (onePiece .store none).ctx) := ⟨by decide, by decide⟩

/-! ## Witnesses: atomics, barriers, bindings, locks and reductions (O28 to O34) -/

/-- Every lane of v6 and v7 names its own word of core 0's slice. -/
def atomic : Wave := { wv with
  vregs := ((List.range 32).map fun l => (6 * 32 + l, BitVec.ofNat 32 (0x00400000 + 4 * l))) ++ (List.range 32).map fun l => (7 * 32 + l, 0x00000100) }

theorem witness_atomic_issues : (∃ f, atomForm (.vradd 0 6 8) = some f ∧ f.issues atomic ∧ f.d = none ∧ ¬(f.minor = 8 ∨ f.minor = 10) ∧
    ∀ l, l < 32 → located (withWave atomic) atomic (f.addr atomic l) f.size (f.addr atomic l).toNat false) ∧
    (∃ f, atomForm (.vacas 0 3 6 8) = some f ∧ f.issues atomic ∧ f.d = some 3) ∧ ((withWave atomic).ctx atomic.ctx).r.det = false ∧
    act atomic sb 0 31 := by
  refine ⟨⟨⟨9, 4, [0, 1], 0, none, 6, 8⟩, rfl, by unfold AForm.issues names; decide, rfl, by decide, fun l hl => ?_⟩,
    ⟨_, rfl, by unfold AForm.issues names; decide, rfl⟩, rfl, ⟨by decide, by decide⟩, by unfold guarded; decide⟩
  have : ∀ l, l < 32 → (((⟨9, 4, [0, 1], 0, none, 6, 8⟩ : AForm).addr atomic l).toNat % 4 = 0 ∧
      0x010000000000 ≤ ((⟨9, 4, [0, 1], 0, none, 6, 8⟩ : AForm).addr atomic l).toNat ∧
      ((⟨9, 4, [0, 1], 0, none, 6, 8⟩ : AForm).addr atomic l).toNat + 4 ≤ 0x010000800000) := by decide
  exact own_located atomic rfl _ 4 (this l hl).1 (this l hl).2.1 (this l hl).2.2

/-- An access of one piece in flight alone is ripe. -/
theorem ripe_alone (a : Access) (u : AccUnit) (h : a.units = [u]) (hd : u.done = false) (hr : a.rel = false) : ripe (flying [a]) a 0 u :=
  ripe_only a 0 u (by simp [h]) hd hr (.inr rfl)

/-- The piece at the object, word or cell in core 0's slice. -/
def piece : AccUnit := ⟨0, 0x010000400000, 4, false, 7, 0, 3, false, 0, false, false, 0⟩
def homing (kind : AccKind) (dst : Option Nat) : Access := { storing kind false with sdst := dst, units := [piece] }

theorem witness_read_modify_write : ripe (flying [homing (.vatomic 7) none]) (homing (.vatomic 7) none) 0 piece ∧
    unbound (flying [homing (.vatomic 7) none]) 0 piece.addr 4 ∧ newInteger 7 0 0 7 1 = some 0 ∧ newInteger 7 0 1 7 1 = some 7 ∧
    newInteger 0 0x800 0x7FFFFFFF 1 0 = some 0x7FFFFFFF ∧ ripe (flying [homing (.samo 7) (some 4)]) (homing (.samo 7) (some 4)) 0 piece ∧
    (flying [homing .scas (some 4)]).wave? 3 = some wv :=
  ⟨ripe_alone _ _ rfl rfl rfl, by unfold unbound; decide, by decide, by decide, by decide, ripe_alone _ _ rfl rfl rfl, rfl⟩

theorem pointing_parties : partyList pointing sb 0 [(0, pointing.ident 0)] ∧ activeBits pointing sb 0 0xFFFFFFFF := by
  refine ⟨⟨fun _ => ⟨0, pointing_lowest, rfl⟩, fun h => absurd h (by decide)⟩, fun l => ?_⟩
  have h : ∀ l, l < 32 → ((0xFFFFFFFF#64).getLsbD l = true ∧ sb.quads.getLsbD (l / 4) = true ∧ pointing.working.getLsbD l = true ∧
    ((pointing.p 0).getLsbD l = true ↔ 0 / 8 % 2 = 0)) := by decide
  constructor
  · intro g
    by_cases hl : l < 32
    · exact ⟨hl, ⟨(h l hl).2.1, (h l hl).2.2.1⟩, (h l hl).2.2.2⟩
    · have e : (0xFFFFFFFF : W64) = (0xFFFFFFFF#32).setWidth 64 := by decide
      rw [e, BitVec.getLsbD_setWidth, BitVec.getLsbD_of_ge _ _ (by omega)] at g
      simp at g
  · exact fun g => (h l g.1).1

theorem witness_home_tested : (∃ f, scalarAccess (.barb 4 5 0 0) = some f ∧ (homeKind pointing [(0, pointing.ident 0)] (.barb 4 5 0 0)).isSome ∧
    located (withWave pointing) pointing (f.addr pointing) f.size (f.addr pointing).toNat false ∧ lowest pointing sb (f.m pointing) 0) ∧
    pointing.task = false ∧ quiet (withWave pointing) pointing ∧ ticketIs ((withWave pointing).slice.num 0x010000400000 8) pointing.group pointing.ord ∧
    ¬ticketIs 1 pointing.group pointing.ord :=
  ⟨⟨_, rfl, rfl, own_located pointing rfl _ 32 (by decide) (by decide) (by decide), pointing_lowest⟩, rfl,
    ⟨by decide, by decide, by decide, by decide, by decide, by decide, no_walk (by decide), by decide⟩,
    by unfold ticketIs; decide, by unfold ticketIs; decide⟩

theorem witness_tkwait_task : taskWave.task = true ∧ calm { trapping with waves := [taskWave] } taskWave ∧
    lowest taskWave ⟨3, BitVec.ofNat 64 Config.extBase, .ready⟩ 0 1 := by
  refine ⟨rfl, ⟨rfl, by decide, .inl rfl⟩, by decide, ⟨⟨by decide, by decide⟩, by unfold guarded; decide⟩, fun k hk h => ?_⟩
  have : k = 0 := by omega
  subst this
  exact absurd h.1.2 (by decide)

/-- The access to the object that its wave waits for. -/
def atObject (kind : AccKind) (dst : Option Nat) : State := { flying [homing kind dst] with
  waves := [{ wv with wait := .home 20 }], ctxs := trapping.ctxs }

theorem atObject_calm (kind : AccKind) (dst : Option Nat) : calm (atObject kind dst) { wv with wait := .home 20 } := by
  refine ⟨rfl, (by decide : (trapping.ctx 0).r.handler ≠ 0), .inr fun g h => ?_⟩
  have : g = bootGroup 2 0 1 := (Option.some.inj h).symm
  subst this; rfl

theorem witness_home_answers : unbound (atObject (.binit 0 0) none) 0 piece.addr 32 ∧ ((atObject (.binit 0 0) none).ctx 0).held = [] ∧
    calm (atObject (.binit 0 0) none) { wv with wait := .home 20 } ∧ (homing (.binit 1 0) none).units = [piece] ∧
    flagsWord (atObject (.binit 1 0) none) piece.addr / 4 % 128 = 0 ∧
    (∀ x ∈ (atObject (.binit 1 0) none).waves, ∀ q ∈ x.subs, ∀ n c v, q.st ≠ .waiting piece.addr n c v) ∧
    (∀ x ∈ (atObject (.binit 1 0) none).tasks, ∀ n, x.st ≠ .waiting piece.addr n) ∧
    (∀ v ∈ (homing .rgacq (some 4)).units, v.data.toNat ≠ (atObject .rgacq (some 4)).slice.num piece.addr 8 ∧ v.lane < 64) ∧
    (∃ v ∈ (homing .rgrel none).units, v.data.toNat ≠ (atObject .rgrel none).slice.num piece.addr 8) ∧
    (∃ g, (atObject .tkpass none).group? wv.gid = some g) ∧ ((atObject .tkpass none).ctx 0).r.det = false ∧
    ticketIs ((atObject .tkpass none).slice.num piece.addr 8) wv.group wv.ord := by
  refine ⟨by unfold unbound; decide, rfl, atObject_calm _ _, rfl, by decide, fun x hx q hq n c v h => ?_, fun x hx => ?_, by decide, by decide,
    ⟨_, rfl⟩, rfl, by unfold ticketIs; decide⟩
  · have : x = { wv with wait := .home 20 } := by simpa [atObject] using hx
    subst this
    have : q = sb := List.mem_singleton.1 hq
    subst this
    cases h
  · simp [atObject, flying, demo, State.boot, State.reset] at hx

/-- A barrier object that expects one arrival and 256 bytes, at the piece's address; `held`: a lock word that holds 7. -/
def objectAt (kind : AccKind) (dst : Option Nat) (e b flags : Nat) : State := { atObject kind dst with
  slice := ((Memory.setNum [] piece.addr 4 e).setNum (piece.addr + 8) 8 b).setNum (piece.addr + 28) 4 flags }

theorem witness_binit_refused : flagsWord (objectAt (.binit 1 0) none 1 256 4) piece.addr / 4 % 128 ≠ 0 := by decide

theorem witness_lock_held : (∃ v ∈ (homing .rgacq (some 4)).units, v.data.toNat = (objectAt .rgacq (some 4) 7 0 0).slice.num piece.addr 8) ∧
    (∀ v ∈ (homing .rgrel none).units, v.data.toNat = (objectAt .rgrel none 7 0 0).slice.num piece.addr 8) ∧
    ¬ticketIs ((objectAt .tkpass none 7 0 0).slice.num piece.addr 8) wv.group wv.ord :=
  ⟨by decide, by decide, by unfold ticketIs; decide⟩

theorem witness_arrival : arrived (objectAt (.arrive [1] false) (some 4) 1 0 0) piece.addr + 1 ≤ expected (objectAt (.arrive [1] false) (some 4) 1 0 0) piece.addr ∧
    arrived (objectAt (.arrive [1] false) (some 4) 1 0 0) piece.addr + 1 = expected (objectAt (.arrive [1] false) (some 4) 1 0 0) piece.addr ∧
    landed (objectAt .store none 1 256 0) piece.addr + 256 ≤ expbytes (objectAt .store none 1 256 0) piece.addr ∧
    ((objectAt (.arrive [1] false) (some 4) 1 0 0).ctx 0).held = [] ∧
    (∀ c ∈ (objectAt (.arrive [1] false) (some 4) 1 0 0).ctxs, (c.objRec piece.addr).landTick ≠ some (objectAt (.arrive [1] false) (some 4) 1 0 0).tick) ∧ (homing (.arrive [1] false) (some 4)).id < { demo with nextId := 21 }.nextId :=
  ⟨by decide, by decide, by decide, rfl, by decide, by decide⟩

theorem witness_landing : (({ demo with landings := [⟨9, 0, piece.addr, 256, 0, 1, 0, 3, 0, 0⟩] } : State).landings.find? fun x => x.id == 9) =
    some ⟨9, 0, piece.addr, 256, 0, 1, 0, 3, 0, 0⟩ := rfl

/-- The small wave's sub-wave at the home of its `waitp`. -/
def checking : Wave := { wv with subs := [] ++ { sb with st := .atHome 20 } :: [] }

theorem witness_check : complete 1 0 ∧ complete 0x80000000 0 ∧ ¬complete 0 0 ∧ ¬complete 0x80000001 0 ∧ checking.handler = none ∧
    (∀ x ∈ ([] ++ [] : List SubWave), x.st ≠ .atHome 20) ∧ flagsWord (objectAt (.check 0) none 1 0 0) piece.addr % 2 = 0 ∧
    flagsWord (objectAt (.check 0) none 1 0 1) piece.addr % 2 = 1 ∧ phase (objectAt (.check 0) none 1 0 0) piece.addr = 0 ∧
    (homing (.check 0) none).quads = 0xFF := by
  refine ⟨by unfold complete; decide, by unfold complete; decide, by unfold complete; decide, by unfold complete; decide, rfl, by decide, by decide,
    by decide, by decide, rfl⟩

/-- A combiner entry of one addition, held since tick 0, at tick `n`. -/
def entry (sent : Bool) : RedEntry where
  id := 30
  ctx := 0
  owner := .group 2
  core := 0
  addr := 0x010000400000
  win := false
  minor := 9
  slot := 0x800
  upds := [⟨3, 0, 5, 0, 20, 0, 0, none⟩]
  since := 0
  seq := 1
  sent := sent
def holding (n : Nat) (sent : Bool) : State := { demo with tick := n, red := [entry sent] }

theorem witness_packet : entry false ∈ (holding 16 false).red ∧ (∀ x ∈ (holding 16 false).red, x.id = (entry false).id → x = entry false) ∧
    (entry false).since + 16 ≤ (holding 16 false).tick ∧ (holding 15 false).tick < (entry false).since + 16 ∧
    packetRipe (holding 16 true) (entry true) ∧ (entry true).upds ≠ [] ∧ unbound (holding 16 true) 0 (entry true).addr 4 ∧
    mergedWord 9 0x800 0x7FFFFFFF [5] = some (0x7FFFFFFF, true) ∧ mergedWord 11 0 5 [0xFFFFFFFF, 7] = some (0xFFFFFFFF, false) := by
  refine ⟨by decide, by decide, by decide, by decide, ⟨rfl, rfl, rfl, fun x hx => ?_, fun u _ a h => ?_⟩, by decide, by unfold unbound; decide, by decide, by decide⟩
  · simp [holding, demo, State.boot, State.reset] at hx
  · simp [holding, demo, State.boot, State.reset, State.access?] at h

/-- s8 and s9 ask for 64 bytes of the slice to be bound, s10 and s11 for a region that lies askew. -/
def binder : Wave := { wv with sregs := [(5, 0x010000400000), (8, 0x010000410000), (9, 64), (10, 0x010000410001), (11, 64)] }

theorem binder_lowest : lowest binder sb 0 0 :=
  ⟨by decide, ⟨⟨by decide, by decide⟩, by unfold guarded; decide⟩, fun k hk => by omega⟩

theorem witness_bind : (withWave binder).issuer binder sb ∧ lowest binder sb 0 0 ∧ un binder 8 % 64 = 0 ∧ 0 < (binder.s 9).toNat / 64 ∧ (binder.s 9).toNat % 64 < 2 ∧
    located (withWave binder) binder ((⟨0, 5, 0, 8, 8, true, false⟩ : MForm).addr binder) 32 0x010000400000 false ∧
    regionNamed (withWave binder) binder (un binder 8) 64 0x010000410000 ∧ (∀ x ∈ (withWave binder).flight, ∀ n l c, x.kind ≠ .bind n l c) ∧
    ((withWave binder).ctx 0).bindings.length < 64 ∧ un binder 10 % 64 ≠ 0 ∧
    (∀ x ∈ ((withWave binder).ctx 0).bindings, 0x010000410000 + 64 ≤ x.base ∨ x.base + x.len ≤ 0x010000410000) := by
  refine ⟨⟨rfl, rfl⟩, binder_lowest, by decide, by decide, by decide, own_located binder rfl _ 32 (by decide) (by decide) (by decide),
    ⟨by decide, false, fun k hk => .inl ⟨rfl, ?_, by decide +revert⟩⟩, fun x hx => ?_, by decide, by decide, by decide⟩
  · have : un binder 8 = 0x010000410000 := by decide
    exact own binder rfl _ (by omega) (by omega)
  · simp [withWave, demo, State.boot, State.reset] at hx

theorem witness_binding : ripe (flying [homing (.bind 0x010000410000 64 false) none]) (homing (.bind 0x010000410000 64 false) none) 0 piece ∧
    (∃ c ∈ (flying [homing (.bind 0x010000410000 64 false) none]).ctxs, c.id = wv.ctx) := ⟨ripe_alone _ _ rfl rfl rfl, by decide⟩

/-- That region bound to the object at the address in s5. -/
def boundState : State := { trapping with
  waves := [binder], ctxs := trapping.ctxs.map fun c => { c with bindings := [⟨0x010000410000, 64, 0x010000400000, false⟩] } }

theorem witness_unbind : (boundState.ctx 0).bindings = [] ++ ⟨0x010000410000, 64, 0x010000400000, false⟩ :: [] ∧ boundState.flight = [] ∧
    (boundState.ctx 0).held = [] ∧ (∃ c ∈ boundState.ctxs, c.id = binder.ctx) ∧ namesByte (withWave binder) binder (un binder 8) 0x010000410000 false ∧
    (∀ x ∈ ((withWave binder).ctx 0).bindings, x.base ≠ 0x010000410000) := by
  refine ⟨rfl, rfl, rfl, by decide, .inl ⟨rfl, ?_, by decide⟩, by decide⟩
  have : un binder 8 = 0x010000410000 := by decide
  exact own binder rfl _ (by omega) (by omega)

/-- The small state in determinism mode, its ticket word at 0, with an entry in the drain buffer of its group, and without its wave. -/
def det : State := { demo with
  ctxs := demo.ctxs.map fun c => { c with r := { c.r with det := true } }
  flight := [{ homing .tkpass none with units := [{ piece with addr := 0x0100006F0000, size := 8 }] }]
  groups := [{ bootGroup 2 0 1 with drain := [⟨none, 0, 1, 0, 0x010000400000, 0x20, [⟨3, 0, 0x3F800000, 0, 0, 0, 0, none⟩], false⟩] }] }
def detEmpty : State := { det with flight := [], waves := [], groups := [bootGroup 2 0 1] }

theorem witness_drain : (det.ctx 0).r.det = true ∧ wv.task = false ∧ (det.group? 2).isSome ∧
    ticketIs (det.slice.num (det.ctx 0).r.ticket 8) 0 0 ∧ (∀ w ∈ det.waves, w.halt ≠ .unhandled) ∧
    (∀ g, det.group? 2 = some g → ∀ e ∈ g.drain, (e.asked = true ∨ homeCore e.addr = g.core) ∧ ∀ u ∈ e.upds,
      (∀ b ∈ det.flight, b.wave = u.wave → b.id < u.acc → ∀ v ∈ b.units, v.done = true) ∧ u.rel = none) ∧ det.transfers = [] ∧
    (∃ a ∈ det.flight, a.kind = .tkpass ∧ (∃ u ∈ a.units, u.addr = (det.ctx 0).r.ticket) ∧
      ∃ w, det.wave? a.wave = some w ∧ w.task = false ∧ w.gid = 2) ∧
    (∃ f, atomForm (.vrfadd 0 6 8) = some f ∧ (f.minor = 8 ∨ f.minor = 10) ∧ f.issues (moded 0x20)) ∧
    (det.grids.find? fun y => y.id == 1) = some (bootGrid 1 0) ∧ 0 + 32 ≤ 1024 + 256 * (bootGrid 1 0).spill := by
  refine ⟨rfl, rfl, rfl, by unfold ticketIs; decide, by decide, fun g h => ?_, rfl, ⟨_, List.mem_singleton.2 rfl, rfl, ⟨_, List.mem_singleton.2 rfl, by decide⟩, wv, rfl, rfl, rfl⟩,
    ⟨_, rfl, .inr rfl, by unfold AForm.issues names; decide⟩, rfl, by decide⟩
  have := (Option.some.inj h).symm
  subst this
  decide

theorem witness_exit_pass : detEmpty.group? 2 = some (bootGroup 2 0 1) ∧ (bootGroup 2 0 1).drain = [] ∧ detEmpty.slip = [] ∧ detEmpty.sieve = [] ∧
    (∀ w ∈ detEmpty.waves, w.task = true ∨ w.gid ≠ 2) ∧ unbound detEmpty 0 (detEmpty.ctx 0).r.ticket 4 :=
  ⟨rfl, rfl, rfl, rfl, by decide, by unfold unbound; decide⟩

/-- A grid that has ended, and the next one. -/
def endedGrid : Grid := { bootGrid 1 0 with ended := [0] }
def nextGrid : Grid := { bootGrid 7 0 with ord := 1 }
def handing : State := { detEmpty with grids := [endedGrid, nextGrid], slice := Memory.setNum [] 0x0100006F0000 8 1 }

theorem witness_handover : (handing.ctx 0).r.det = true ∧ endedGrid ∈ handing.grids ∧ nextGrid ∈ handing.grids ∧ endedGrid.ended.length = endedGrid.ngroups ∧
    nextGrid.ended.length ≠ nextGrid.ngroups ∧ ticketIs (handing.slice.num (handing.ctx 0).r.ticket 8) endedGrid.ngroups endedGrid.ord ∧
    (∀ z ∈ handing.grids, z.ctx = 0 → z.ord % 2 ^ 23 = endedGrid.ord % 2 ^ 23 → z = endedGrid) ∧
    (∀ z ∈ handing.grids, z.ctx = 0 → z ≠ endedGrid → z ≠ nextGrid → nextGrid.ord < z.ord) ∧ unbound handing 0 (handing.ctx 0).r.ticket 8 :=
  ⟨rfl, by decide, by decide, by decide, by decide, by unfold ticketIs; decide, by decide, by decide, by unfold unbound; decide⟩

/-! ## Witnesses: the matrix engine (O35 to O38) -/

/-- s12 is a descriptor of one step of class F4 (R279): 1152 bytes; s13 a joint set of waves 0 and 1; s14 all ones. -/
def descF4 : W64 := 1152 + 2 * 2 ^ 18
/-- The small wave of a group of two, with tile 1 and handles 2 and 3 held. -/
def matrixWave : Wave := { wv with
  sregs := [(5, 0x010000400000), (12, descF4), (13, 3), (14, 0xFFFFFFFFFFFFFFFF)], knlanes := 64
  tiles := [⟨1, [], 0, true, 0, 0⟩], rsv := [⟨2, 1152 + 2 * 2 ^ 18, 0, 2, none, []⟩, ⟨3, 1152 + 2 * 2 ^ 18, 2, 2, none, []⟩] }
def matrixState : State := { trapping with waves := [matrixWave] }

theorem matrix_issuer : matrixState.issuer matrixWave sb := ⟨rfl, rfl⟩
theorem matrix_calm : calm matrixState matrixWave := by
  refine ⟨rfl, by decide, .inr fun g h => ?_⟩
  have : g = bootGroup 2 0 1 := (Option.some.inj h).symm
  subst this; rfl
theorem matrix_active : ∃ l, l < 32 ∧ act matrixWave sb (matrixWave.slotOf 0) l :=
  ⟨0, by decide, ⟨by decide, by decide⟩, by unfold guarded; decide⟩

theorem matrix_runs : firstRun matrixState matrixWave.quadrant ((dLength descF4 + 1023) / 1024) 4 := by
  have e : (dLength descF4 + 1023) / 1024 = 2 := by decide
  have h : ∀ x, x < 5 → ((∀ w ∈ matrixState.waves, w.quadrant = matrixWave.quadrant → ∀ r ∈ w.rsv, x + 2 ≤ r.base ∨ r.base + r.grans ≤ x) ↔ x = 4) := by
    decide
  rw [e]
  exact ⟨⟨by decide, (h 4 (by decide)).2 rfl⟩, fun x hx k => by have := (h x (by omega)).1 k.2; omega⟩

theorem witness_tiles : asksTile matrixWave (.accz 1 0 5 0) = some (1, 0, some (BitVec.ofNat 12 (un matrixWave 5))) ∧ rnd (matrixWave.slotOf 0) ≠ 4 ∧
    (∃ x ∈ matrixWave.tiles, x.name = (1#3).toNat) ∧ (∀ x ∈ matrixState.mats, x.wave ≠ matrixWave.id) ∧
    (∀ x ∈ matrixWave.tiles, x.name ≠ (7#3).toNat) ∧ (∀ e ∈ matrixState.waitList, ¬(e.1 = matrixWave.quadrant ∧ e.2.1 = 2)) ∧
    ((matrixState.waves.filter fun x => x.quadrant == matrixWave.quadrant).map fun x => x.tiles.length).sum < 8 ∧
    onceGuarded (.accza 7 0) = some 0 := by
  refine ⟨rfl, by decide, by decide, ?_, by decide, ?_, by decide, rfl⟩
  · intro x hx; simp [matrixState, trapping, demo, State.boot, State.reset] at hx
  · intro x hx; simp [matrixState, trapping, demo, State.boot, State.reset] at hx

/-- Eight tiles held. -/
def eightTiles : Wave := { matrixWave with tiles := (List.range 8).map fun n => ⟨n + 8, [], 0, false, 0, 0⟩ }

theorem witness_tiles_taken : 8 ≤ (([eightTiles].filter fun x => x.quadrant == eightTiles.quadrant).map fun x => x.tiles.length).sum ∧
    (∀ x ∈ eightTiles.tiles, x.name ≠ (7#3).toNat) := by decide

theorem witness_reserve : descriptorOk (matrixWave.s 12) ∧ ¬descriptorOk (matrixWave.s 14) ∧ (∀ r ∈ matrixWave.rsv, r.handle ≠ (4#4).toNat) ∧
    (∀ e ∈ matrixState.waitList, ¬(e.1 = matrixWave.quadrant ∧ e.2.1 = 1)) ∧ calm matrixState matrixWave := by
  refine ⟨by unfold descriptorOk; decide, by unfold descriptorOk; decide, by decide, ?_, matrix_calm⟩
  intro x hx; simp [matrixState, trapping, demo, State.boot, State.reset] at hx

theorem witness_window_operand : matrixWave.rsv = [] ++ ⟨2, descF4, 0, 2, none, []⟩ :: [⟨3, descF4, 2, 2, none, []⟩] ∧ un matrixWave 5 % 16 = 0 ∧
    dPanel descF4 < dLength descF4 ∧ (∀ k, dPanel descF4 ≤ k → k < dLength descF4 → ownByte matrixState matrixWave (un matrixWave 5 + k) ∧
      homeCore (un matrixWave 5 + k) = homeCore (un matrixWave 5 + dPanel descF4)) := by
  have e : un matrixWave 5 = 0x010000400000 := by decide
  have e1 : dLength descF4 = 1152 := by decide
  refine ⟨rfl, by decide, by decide, fun k _ hk => ⟨own matrixWave rfl _ (by omega) (by omega), ?_⟩⟩
  have e2 : dPanel descF4 = 0 := by decide
  rw [e, e2]
  unfold homeCore Config.sliceBase Config.coreSlice Config.cores
  omega

theorem witness_joint_set : (matrixWave.s 13).toNat < 2 ^ 16 ∧ 2 ≤ (setBits 16 (matrixWave.s 13)).length ∧ (setBits 16 (matrixWave.s 13)).length ≤ 6 ∧
    (matrixWave.s 13).getLsbD matrixWave.widx = true ∧ (matrixWave.s 13).toNat < 2 ^ ((matrixWave.knlanes.toNat + 31) / 32) ∧
    matrixWave.task = false ∧ ¬(matrixWave.s 14).toNat < 2 ^ 16 := by decide

theorem witness_seal : matrixWave.unsealedM = [] ∧ { matrixWave with unsealedM := [9] }.unsealedM ≠ [] ∧ matrixWave.batchesM.length < 14 := by decide

theorem witness_products : matrixRoom matrixState matrixWave ∧ opKind (.mma 1 2 3 0 0 0 0 0 0) = some (0, 1, .mma 2 3 0 false false, some (2, 3, 0)) ∧
    (∃ x y, matrixWave.rsv? 2 = some x ∧ matrixWave.rsv? 3 = some y ∧ dFormat x.desc = dFormat y.desc ∧ (0#3).toNat < dSteps x.desc ∧
      (0#3).toNat < dSteps y.desc) ∧ opKind (.accadd 1 1 0) = some (0, 1, .accadd 1, none) ∧ (∀ r ∈ matrixWave.rsv, r.handle ≠ (4#4).toNat) ∧
    matrixWave.joint = 0 ∧ (matrixState.group? matrixWave.gid) = some (bootGroup 2 0 1) ∧ (bootGroup 2 0 1).latches = [] ∧
    (∃ k, k < 16 ∧ k ≠ matrixWave.widx ∧ (3#16).getLsbD k = true) ∧ partKind (.accrd 1 31 0 7) = some (true, 1, 31, 0, 7) ∧
    (7#3).toNat < 8 / cnt (typ (matrixWave.slotOf 0)) ∧ 8 / cnt 7 ≤ (2#3).toNat ∧ ¬names 31 := by
  refine ⟨⟨by decide, by decide, by decide⟩, rfl, ⟨_, _, rfl, rfl, by decide, by decide, by decide⟩, rfl, by decide, rfl, rfl, rfl, by decide, rfl, by decide,
    by decide, by unfold names; decide⟩

theorem witness_load_operand : matrixWave.rsv? 2 = some ⟨2, descF4, 0, 2, none, []⟩ ∧ 0 < dLength descF4 ∧
    (∀ k, k < dLength descF4 → namesByte matrixState matrixWave (un matrixWave 5 + k) (0x010000400000 + k) false ∧ ownByte matrixState matrixWave (0x010000400000 + k)) ∧
    (∀ n, n < dSteps descF4 * stepTiles descF4 → homeCore (0x010000400000 + dPanel descF4 + n * tileSize descF4) =
      homeCore (0x010000400000 + dPanel descF4 + n * tileSize descF4 + tileSize descF4 - 1)) := by
  have e : un matrixWave 5 = 0x010000400000 := by decide
  have e1 : dLength descF4 = 1152 := by decide
  refine ⟨rfl, by decide, fun k hk => ?_, by decide⟩
  have h := own matrixWave rfl (0x010000400000 + k) (by omega) (by omega)
  exact ⟨.inl ⟨rfl, by rw [e]; exact h, by rw [e]⟩, h⟩

theorem witness_store_tile : un matrixWave 5 % 16 = 0 ∧ unmodified matrixState matrixWave 0x010000400000 272 ∧
    homeCore 0x010000400000 = homeCore (0x010000400000 + 272 - 1) ∧ (∃ x ∈ matrixWave.tiles, x.name = (1#3).toNat) ∧
    (∀ k, k < 272 → namesByte matrixState matrixWave (un matrixWave 5 + k) (0x010000400000 + k) false) := by
  have e : un matrixWave 5 = 0x010000400000 := by decide
  refine ⟨by decide, .inl rfl, by decide, by decide, fun k hk => ?_⟩
  have h := own matrixWave rfl (0x010000400000 + k) (by omega) (by omega)
  exact .inl ⟨rfl, by rw [e]; exact h, by rw [e]⟩

/-- An operation of the wave on tile 1, the only one in flight. -/
def operation (kind : MatKind) : MatOp := ⟨40, 3, 1, kind, 0xFFFFFFFF, ⟨0, 3, 0, 0, 0, 0, false, 0, 0, 0, 0⟩⟩
def operating (kind : MatKind) : State := { matrixState with mats := [operation kind] }

theorem operating_only (kind : MatKind) : onlyOp (operating kind) (operation kind) :=
  ⟨rfl, fun a ha => by simp [operating, matrixState, trapping, demo, State.boot, State.reset] at ha,
    fun h hh => absurd hh List.not_mem_nil, fun x hx => by simp [operating, matrixState, trapping, demo, State.boot, State.reset] at hx⟩

theorem witness_product : onlyOp (operating (.mma 2 3 0 false false)) (operation (.mma 2 3 0 false false)) ∧
    (operating (.mma 2 3 0 false false)).wave? 3 = some matrixWave ∧ matrixWave.tile? 1 = some ⟨1, [], 0, true, 0, 0⟩ ∧
    matrixWave.rsv? 2 = some ⟨2, descF4, 0, 2, none, []⟩ ∧ stepSound (operating (.mma 2 3 0 false false)) matrixWave ⟨2, descF4, 0, 2, none, []⟩ 0 ∧
    ((⟨1, [], 0, true, 0, 0⟩ : Tile).cell 255).st = .finite ∧ adds (-4) (.fin false 3 (-1)) (.fin true 5 (-2)) (-30) := by
  refine ⟨operating_only _, rfl, rfl, rfl, ⟨rfl, rfl, fun _ => ?_⟩, rfl, ⟨false, 3, -1, true, 5, -2, rfl, rfl, by decide, by decide, by decide⟩⟩
  decide

theorem witness_other_operations : (operation (.accadd 1)).kind = .accadd 1 ∧ (operation (.accrd 4 0 [])).active.getLsbD 31 = true ∧ takes matrixWave 4 ∧
    (operation (.accrd 4 0 [])).by_.slot = 0 ∧ (∀ x ∈ [(31, 5#32)], x.1 < 32) ∧ unbound (operating (.accst 0x010000400000 false true 2 none)) 0 0x010000400000 144 ∧
    (operating (.accst 0x010000400000 false true 2 none)).moves = [] ∧ sound (operating (.obld 2 0x010000400000 false 0 [64] [])) 0x010000400000 (dLength descF4) ∧
    (operation (.obld 2 0x010000400000 false 0 [64] [])).kind = .obld 2 0x010000400000 false 0 [64] [] :=
  ⟨rfl, by decide, .inr (by decide), rfl, by decide, by unfold unbound; decide, rfl, by unfold sound; decide, rfl⟩

/-- The wave waiting for a tile, or for granules. -/
def wanting (kind : Nat) (i : Instr) : State := { matrixState with
  waves := [{ matrixWave with wait := .grant }], waitList := [(0, kind, 3, i)] }

theorem witness_grants : (wanting 2 (.accza 7 0)).waitList = [] ++ (0, 2, 3, .accza 7 0) :: [] ∧ asksTile matrixWave (.accza 7 0) = some (7, 0, none) ∧
    (wanting 2 (.accza 7 0)).wave? 3 = some { matrixWave with wait := .grant } ∧ matrixWave.subs.head? = some sb ∧ matrixWave.quadrant = 0 ∧
    (wanting 1 (.obres 4 0 12)).waitList = [] ++ (0, 1, 3, .obres 4 0 12) :: [] ∧
    (((wanting 2 (.accza 7 0)).waves.filter fun x => x.quadrant == 0).map fun x => x.tiles.length).sum < 8 ∧
    firstRun (wanting 1 (.obres 4 0 12)) 0 ((dLength (matrixWave.s 12) + 1023) / 1024) 4 := by
  refine ⟨rfl, rfl, rfl, rfl, rfl, rfl, by decide, ?_⟩
  have e : (dLength (matrixWave.s 12) + 1023) / 1024 = 2 := by decide
  have h : ∀ x, x < 5 → ((∀ w ∈ (wanting 1 (.obres 4 0 12)).waves, w.quadrant = 0 → ∀ r ∈ w.rsv, x + 2 ≤ r.base ∨ r.base + r.grans ≤ x) ↔ x = 4) := by
    decide
  rw [e]
  exact ⟨⟨by decide, (h 4 (by decide)).2 rfl⟩, fun x hx k => by have := (h x (by omega)).1 k.2; omega⟩

/-! ## Witnesses: Slip (O39 to O41) -/

/-- s20 to s25: a record, a destination, no object; lengths and modules of a `cpl`; a signal word. -/
def copier : Wave := { wv with sregs := [(20, 0x010000420000), (21, 0x010000430000), (23, 0x010000430000), (24, 0x010000440000), (26, 0x010000430000),
  (27, 0x00000000FFFFFFFF), (30, 0x010000430000), (31, 0x010000450000), (32, 0x010000440000), (33, 0x0000FFFF00000100)] }
/-- The same, with length 512 and both modules this one in s27. -/
def copierHere : Wave := { copier with sregs := copier.sregs.map fun x => if x.1 = 27 then (27, 0xFFFFFFFF00000200) else x }
def copierState : State := { trapping with waves := [copierHere] }

theorem copier_calm : calm copierState copierHere := by
  refine ⟨rfl, by decide, .inr fun g h => ?_⟩
  have : g = bootGroup 2 0 1 := (Option.some.inj h).symm
  subst this; rfl

theorem copier_active : ∃ l, l < 32 ∧ act copierHere sb (copierHere.slotOf 0) l :=
  ⟨0, by decide, ⟨by decide, by decide⟩, by unfold guarded; decide⟩

theorem witness_copy_queued : (∃ m k n o f c, slipRequest copierState copierHere (.cpt 20 21 22 0 0 3) = some (m, k, n, o, f, c, 0) ∧ ∀ x ∈ c, x.1) ∧
    (∃ m k n o f c, slipRequest copierState copierHere (.cpl 26 24 22 0 0) = some (m, k, n, o, f, c, 0) ∧ ∀ x ∈ c, x.1) ∧
    (∃ m k n o f c, slipRequest copierState copierHere (.wsig 30 32 20 0 1 2) = some (m, k, n, o, f, c, 0) ∧ ∀ x ∈ c, x.1) ∧
    copierState.issuer copierHere sb ∧ copierHere.unsealedC.length < 64 ∧ (inQueue copierState 0 (ownerOf copierHere) 3).length < 32 := by
  have h21 : engineAddress copierHere (copierHere.s 21) 8 := by unfold engineAddress; decide
  have h31 : sliceAddress (copierHere.s 31) 8 := by unfold sliceAddress; decide
  refine ⟨⟨_, _, _, _, _, _, rfl, ?_⟩, ⟨_, _, _, _, _, _, rfl, ?_⟩, ⟨_, _, _, _, _, _, rfl, ?_⟩, ⟨rfl, rfl⟩, by decide, by decide⟩
  · intro x hx
    simp only [List.mem_cons, List.not_mem_nil, or_false] at hx
    rcases hx with rfl | rfl | rfl
    · exact (by decide : copierHere.s 20 ≠ 0 ∧ (copierHere.s 20).toNat % 64 = 0)
    · exact h21
    · exact .inl rfl
  · intro x hx
    simp only [List.mem_cons, List.not_mem_nil, or_false] at hx
    rcases hx with rfl | rfl
    · exact ⟨.inl (by decide), .inl (by decide), .inl (.inl (by decide))⟩
    · exact .inl rfl
  · intro x hx
    simp only [List.mem_cons, List.not_mem_nil, or_false] at hx
    rcases hx with rfl | rfl
    · exact h31
    · exact ⟨by decide, .inl (by decide)⟩

/-- A record operand of zero is the first that fails. -/
theorem witness_copy_refused : (∃ m k n o f p after, slipRequest copierState copierHere (.cpt 0 21 22 0 0 3) = some (m, k, n, o, f, [] ++ (p, 0) :: after, 0) ∧ ¬p) ∧
    calm copierState copierHere ∧ (∃ l, l < 32 ∧ act copierHere sb (copierHere.slotOf 0) l) :=
  ⟨⟨_, _, _, _, _, _, _, rfl, fun h => h.1 rfl⟩, copier_calm, copier_active⟩

/-- A Slip operation of the small wave in queue 0, and states that hold it. -/
def slipOp (id : Nat) (kind : EngKind) (ops : List W64) (st : OpState) (total : Nat) (done : List Nat) : SlipOp :=
  ⟨id, ⟨kind, .group 2, 0, ops, false, 0, ⟨0, 3, 0, 0, 0, 0, false, 0, 0, 0, 7⟩⟩, 0, st, [], [], [], total, done, 0, 0, 0, none, 0⟩
def slipping (l : List SlipOp) : State := { demo with slip := l }
def cplOps : List W64 := [0x010000430000, 0xFFFFFFFF00000200, 0x010000440000, 0]

theorem witness_copy_queue_full : 32 ≤ (inQueue (slipping ((List.range 32).map fun n => slipOp n .cpl cplOps .queued 0 [])) 0 (ownerOf copierHere) 0).length := by decide

theorem witness_copy_begins : mayBegin (slipping [slipOp 50 .cpl cplOps .queued 0 []]) (slipOp 50 .cpl cplOps .queued 0 []) ∧
    (slipOp 50 .cpl cplOps .queued 0 []).req.remote (demo.ctx 0).r = none ∧ (slipOp 50 .cpl cplOps .queued 0 []).req.object = 0 ∧
    0 < ((slipOp 50 .cpl cplOps .queued 0 []).req.length + 255) / 256 ∧
    (∀ x ∈ [slipOp 50 .qfence [] .queued 0 []], x.req.kind = .qfence → x.req.by_.seq = 7 →
      (inQueue (slipping [slipOp 50 .qfence [] .queued 0 []]) x.req.by_.ctx x.req.owner x.req.queue).head? = some x) := by
  refine ⟨⟨rfl, by decide, rfl, rfl, by decide, fun a ha => ?_, fun h hh => absurd hh List.not_mem_nil⟩, by decide, by decide, by decide, by decide⟩
  simp [slipping, demo, State.boot, State.reset] at ha

/-- A fence behind a copy in queue 1 still waits. -/
theorem witness_fence_waits : ∃ x ∈ [slipOp 50 .qfence [] .queued 0 [], { slipOp 51 .cpl cplOps .queued 0 [] with req := { (slipOp 51 .cpl cplOps .queued 0 []).req with queue := 1 } },
      { slipOp 52 .qfence [] .queued 0 [] with req := { (slipOp 52 .qfence [] .queued 0 []).req with queue := 1 } }], x.req.kind = .qfence ∧ x.req.by_.seq = 7 ∧
    ∃ y, (inQueue (slipping [slipOp 50 .qfence [] .queued 0 [], { slipOp 51 .cpl cplOps .queued 0 [] with req := { (slipOp 51 .cpl cplOps .queued 0 []).req with queue := 1 } },
      { slipOp 52 .qfence [] .queued 0 [] with req := { (slipOp 52 .qfence [] .queued 0 []).req with queue := 1 } }]) x.req.by_.ctx x.req.owner x.req.queue).head? = some y ∧ y.id ≠ x.id :=
  ⟨{ slipOp 52 .qfence [] .queued 0 [] with req := { (slipOp 52 .qfence [] .queued 0 []).req with queue := 1 } }, by simp, rfl, rfl, _, rfl, by decide⟩

theorem finds (l : List SlipOp) (a n : Nat) (w : Bool) (h : (slipping l).engSlice (demo.ctx 0) (.group 2) a n = some a) :
    engineFinds (slipping l) ((slipping l).ctx 0) (.group 2) a n w (false, a) :=
  .inl ⟨rfl, h, fun e he => by simp [slipping, demo, State.boot, State.reset] at he⟩

theorem witness_sector : sectorOpen (slipping [slipOp 50 .cpl cplOps .running 2 [0]]) (slipOp 50 .cpl cplOps .running 2 [0]) 1 ∧
    engineFinds (slipping [slipOp 50 .cpl cplOps .running 2 [0]]) ((slipping [slipOp 50 .cpl cplOps .running 2 [0]]).ctx 0) (.group 2) 0x010000440100 256 false (false, 0x010000440100) ∧
    (slipOp 50 .cpl cplOps .running 2 [0]).req.op 2 + 256 * 1 = 0x010000440100 ∧ min 256 ((slipOp 50 .cpl cplOps .running 2 [0]).req.length - 256 * 1) = 256 ∧
    (demo.ctx 0).trace.state = 0 := by
  refine ⟨⟨rfl, by decide, rfl, by decide, by decide, by decide, fun x hx => ?_, .inl (by decide)⟩, finds _ _ _ _ (by decide +kernel), by decide, by decide, rfl⟩
  simp [slipping, demo, State.boot, State.reset] at hx

theorem witness_fences : (5#4) ≠ 0 ∧ (∀ n, n < 4 → (inQueue (slipping []) 0 (.group 2) n).length < 32) ∧ wv.unsealedC = [] ∧
    { wv with unsealedC := [9] }.unsealedC ≠ [] ∧ wv.batchesC.length < 14 ∧ copierHere.s 20 ≠ 0 ∧ un copierHere 20 % 64 = 0 ∧ copierHere.s 0 = 0 := by decide

/-- The small wave stalled at a full queue that has room again. -/
def stalled (kind : EngKind) : Wave := { wv with wait := .queue ⟨kind, .group 2, 0, [], false, 0, ⟨0, 3, 0, 0, 0, 0, false, 0, 0, 0, 0⟩⟩ }

theorem witness_accept : (withWave (stalled .cpt)).wave? 3 = some (stalled .cpt) ∧ (stalled .svbin).subs.head? = some sb ∧
    (inQueue (withWave (stalled .cpt)) 0 (.group 2) 0).length < 32 ∧ ((withWave (stalled .svbin)).sieve.filter fun o => o.die == 0 / 16).length < 16 :=
  ⟨rfl, rfl, by decide, by decide⟩

/-- A linear record of 64 f32 elements, sealed in epoch 0 (R237 to R239); its checksum was computed by hand in steps of 23 bytes. -/
def recordBody : List Byte := leBytes 2 1 ++ leBytes 1 4 ++ leBytes 1 1 ++ leBytes 4 2 ++ leBytes 8 0x010000440000 ++ leBytes 4 64 ++ List.replicate 52 0 ++
  leBytes 4 64 ++ List.replicate 108 0
def sealedRecord : List Byte := recordBody ++ List.replicate 4 0 ++ leBytes 4 0xED051CD4
def recordRequest (kind : EngKind) : Request := ⟨60, ⟨kind, .group 2, 0, [0x010000420000], false, 0, ⟨0, 3, 0, 0, 0, 0, false, 0, 0, 0, 0⟩⟩⟩
def recording (kind : EngKind) : State := { demo with
  waves := [{ wv with wait := .request 60 }], requests := [recordRequest kind], slice := Memory.setBytes [] 0x010000420000 sealedRecord }

theorem witness_record : (recording .lrins).wave? 3 = some { wv with wait := .request 60 } ∧
    ((recording .lrins).requests.find? fun x => x.id == 60) = some (recordRequest .lrins) ∧
    (recording .lrins).cache = [] ∧ ((recording .lrins).ctx 0).held = [] ∧ (∀ a ∈ (recording .lrins).flight, a.wave ≠ 3) :=
  ⟨rfl, rfl, rfl, rfl, fun a ha => by simp [recording, demo, State.boot, State.reset] at ha⟩

def crcOn (c : W32) (bs : List Byte) : W32 := bs.foldl (fun c b => (List.range 8).foldl (fun x _ => crcBit x) (c ^^^ b.setWidth 32)) c
theorem crcOn_append (c : W32) (a b : List Byte) : crcOn c (a ++ b) = crcOn (crcOn c a) b := List.foldl_append ..
theorem crc_part_0 : crcOn 0xFFFFFFFF ((recordBody.drop 0).take 23) = 0xC72AB153 := by decide +kernel
theorem crc_part_1 : crcOn 0xC72AB153 ((recordBody.drop 23).take 23) = 0x04C30EC0 := by decide +kernel
theorem crc_part_2 : crcOn 0x04C30EC0 ((recordBody.drop 46).take 23) = 0x00057DCA := by decide +kernel
theorem crc_part_3 : crcOn 0x00057DCA ((recordBody.drop 69).take 23) = 0x56EA8D8E := by decide +kernel
theorem crc_part_4 : crcOn 0x56EA8D8E ((recordBody.drop 92).take 23) = 0xD657DF17 := by decide +kernel
theorem crc_part_5 : crcOn 0xD657DF17 ((recordBody.drop 115).take 23) = 0x22C6B536 := by decide +kernel
theorem crc_part_6 : crcOn 0x22C6B536 ((recordBody.drop 138).take 23) = 0x48AF0A8A := by decide +kernel
theorem crc_part_7 : crcOn 0x48AF0A8A ((recordBody.drop 161).take 23) = 0x12FAE32B := by decide +kernel

theorem witness_record_checksum : crc32c recordBody = 0xED051CD4 := by
  have e : recordBody = (recordBody.drop 0).take 23 ++ ((recordBody.drop 23).take 23 ++ ((recordBody.drop 46).take 23 ++ ((recordBody.drop 69).take 23 ++
    ((recordBody.drop 92).take 23 ++ ((recordBody.drop 115).take 23 ++ ((recordBody.drop 138).take 23 ++ (recordBody.drop 161).take 23)))))) := by decide +kernel
  have h : crcOn 0xFFFFFFFF recordBody = 0x12FAE32B := by
    rw [e]
    simp only [crcOn_append, crc_part_0, crc_part_1, crc_part_2, crc_part_3, crc_part_4, crc_part_5, crc_part_6, crc_part_7]
  exact (congrArg (fun x => ~~~x) h).trans (by decide)

theorem witness_record_valid : recordFault sealedRecord = none := by decide +kernel
theorem witness_record_sealed : sealedIn bootRec sealedRecord = true := by
  have e : sealedRecord.take 184 = recordBody := by decide +kernel
  unfold sealedIn
  rw [e, witness_record_checksum]
  decide +kernel
theorem witness_record_read : ((recording .lrins).engRead ((recording .lrins).ctx 0) (.group 2) 0x010000420000 192 0).toOption = some sealedRecord := by
  decide +kernel

/-! ## Witnesses: Tilth and launches (O42 to O45) -/

/-- The context with a task table of one entry, at the first instruction, and eight counters. -/
def tilthRec : CtxRec := { bootRec with tasktab := 0x0100006C0000, tasktabn := 1, ctrcount := 8, ctrbase := 0x0100006B0000 }
def tilth : State := { demo with
  ctxs := demo.ctxs.map fun c => { c with r := tilthRec }, slice := Memory.setNum [] 0x0100006C0000 8 Config.extBase }
/-- s1 the entry, s2 a run at v8, s3 none, s4 a bad entry, s5 the table of work lists, s6 a run that needs the extended block. -/
def spawner : Wave := { wv with
  working := 3, sregs := [(1, 0x100000000000), (2, 8), (3, 9), (4, 0x100000000004), (5, 0x010000460000), (6, 40)]
  vregs := [(14 * 32, 9), (8 * 32 + 1, 7), (12 * 32, 5), (12 * 32 + 1, 6)] }
def spawning : State := { tilth with waves := [spawner] }

theorem spawner_active : activeList spawner sb (spawner.slotOf 0) [0, 1] := by
  have hw : ∀ l, l < 32 → (spawner.working.getLsbD l = true ↔ l = 0 ∨ l = 1) := by decide
  have hq : ∀ l, l < 32 → sb.quads.getLsbD (l / 4) = true := by decide
  have hp : ∀ l, l < 32 → ((spawner.p 0).getLsbD l = true ↔ 0 / 8 % 2 = 0) := by decide
  refine ⟨fun l => ⟨fun h => ?_, fun h => ?_⟩, by decide⟩
  · simp at h
    have : l < 32 := by omega
    exact ⟨this, ⟨hq l this, (hw l this).2 h⟩, hp l this⟩
  · have := (hw l h.1).1 h.2.1.2
    simpa using this

theorem witness_runs : runForm (.wlpull 0 5 2 0) = some (0, 2, 1, 95) ∧ legalRun (spawner.s 2) 8 88 ∧ ¬legalRun (spawner.s 3) 8 88 ∧ heldRun spawner (spawner.s 2) ∧
    legalRun (spawner.s 6) 8 88 ∧ ¬heldRun spawner (spawner.s 6) := by
  refine ⟨rfl, by unfold legalRun; decide, by unfold legalRun; decide, by unfold heldRun; decide, by unfold legalRun; decide, by unfold heldRun; decide⟩

theorem witness_spawn : spawnForm (.spawn 1 2 0 3) = some (1, 2, 0, 3, false) ∧ spawning.issuer spawner sb ∧ activeList spawner sb (spawner.slotOf 0) [0, 1] ∧
    goodTarget spawning spawner (spawner.s 1) ∧ inTable spawning spawner (spawner.s 1) ∧ (∀ l ∈ [0, 1], ¬badKey spawner 8 l) ∧
    poolHolds spawning 0 0 ∧ (spawning.tasks.filter fun x => x.ctx == 0 && x.core == 0 && x.frame.isNone).length + [0, 1].length ≤ (spawning.ctx 0).r.poolent ∧
    (spawning.ctx 0).trace.state = 0 := by
  refine ⟨rfl, ⟨rfl, rfl⟩, spawner_active, by unfold goodTarget; decide, ⟨0, by decide, by decide⟩, by unfold badKey; decide, fun x hx => ?_, by decide, rfl⟩
  simp [spawning, tilth, demo, State.boot, State.reset] at hx

/-- Lane 0 of v14 names counter 9 of eight, and lane 1 of v8 item 7. -/
theorem witness_spawn_refused : spawnRefused spawning spawner [0, 1] (spawner.s 1) 8 true 0x73 9 ∧ spawnRefused spawning spawner [0, 1] (spawner.s 4) 8 false 0x71 (spawner.s 4) ∧
    spawnRefused spawning spawner [0, 1] 0 8 false 0x05 0 := by
  refine ⟨.inr (.inr (.inr ⟨by unfold goodTarget; decide, ⟨0, by decide, by decide⟩, by unfold badKey; decide, rfl, 0, ⟨by decide, by unfold badCounter; decide, ?_⟩, rfl, by decide⟩)),
    .inr (.inl ⟨by unfold goodTarget; decide, ?_, rfl, rfl⟩), .inl ⟨by unfold goodTarget; decide, by decide, rfl⟩⟩
  · intro k _ h; omega
  · rintro ⟨k, hk, h⟩
    have : k = 0 := by have : (spawning.ctx spawner.ctx).r.tasktabn = 1 := rfl; omega
    subst this
    exact absurd h (by decide)

theorem witness_counters_named : (∀ l ∈ [0, 1], ¬badCounter spawning spawner 8 l) ∧ (∀ l ∈ [0, 1], ∀ k, k < 5 → ¬badInit spawning spawner 8 l k) ∧
    badCounter spawning spawner 14 0 ∧ badInit spawning spawner 14 0 0 := by
  refine ⟨by unfold badCounter; decide, fun l hl k hk h => ?_, by unfold badCounter; decide, by decide, by decide, .inl rfl⟩
  have : ∀ l ∈ [0, 1], ∀ k, k < 5 → (initValue spawner 8 l k).toNat < 8 := by decide
  have e : (spawning.ctx spawner.ctx).r.ctrcount = 8 := rfl
  have := this l hl k hk
  have := h.2.1
  omega

theorem witness_lists : ownBlock (withWave spawner) spawner (spawner.s 5) ∧ unmodified (withWave spawner) spawner 0x010000460000 64 ∧
    (∀ x ∈ (withWave spawner).flight, x.wave ≠ spawner.id) ∧ first [0, 1] (fun l => (withWave spawner).slice.num 0x010000460000 4 ≤ (spawner.v 8 l).toNat) 0 ∧
    ((withWave spawner).packets.filter fun x => x.die == spawner.core / 16).length + [0, 1].length ≤ 256 := by
  refine ⟨⟨by decide, fun k hk => own spawner rfl _ ?_ ?_⟩, .inl rfl, fun x hx => ?_, ⟨by decide, by decide, fun k _ h => by omega⟩, by decide⟩
  · have : (spawner.s 5).toNat = 0x010000460000 := by decide
    omega
  · have : (spawner.s 5).toNat = 0x010000460000 := by decide
    omega
  · simp [withWave, demo, State.boot, State.reset] at hx

/-- The table of eight lists, in which every lane's list number lies. -/
theorem witness_push : ∀ l ∈ [0, 1], (spawner.v 8 l).toNat < ({ withWave spawner with slice := Memory.setNum [] 0x010000460000 4 8 } : State).slice.num 0x010000460000 4 := by
  decide

theorem witness_quiesce : spawner.task = false ∧ taskWave.task = true := ⟨rfl, rfl⟩

/-- A task of the small context, and a message about counter 3. -/
def aTask (id : Nat) (st : TaskState) (ctr : Option Nat) : Task :=
  ⟨id, 0, 0, st, ⟨5, 0x100000000000, [1, 2, 3, 4], ctr, 0, 0, false, []⟩, id, id, none, none, 3, 0⟩

/-- A pool whose entries are all held. -/
theorem witness_pool_full : ∀ k, k < (spawning.ctx 0).r.poolent → ∃ x ∈ ({ spawning with
    tasks := (List.range 64).map fun n => { aTask n .ready none with entryIdx := n } } : State).tasks,
    x.ctx = 0 ∧ x.core = 0 ∧ x.frame = none ∧ x.entryIdx = k := by
  intro k hk
  have e : (spawning.ctx 0).r.poolent = 64 := rfl
  exact ⟨{ aTask k .ready none with entryIdx := k }, List.mem_map.2 ⟨k, List.mem_range.2 (by omega), rfl⟩, rfl, rfl, rfl, rfl⟩

def message (kind : CtrKind) : CtrMsg := ⟨70, 0, 0, 3, kind, 3, 0, 0⟩
def counting (kind : CtrKind) (count : Nat) : State := { tilth with
  ctrMsgs := [message kind], tasks := [aTask 1 .arriving (some 3), aTask 2 .held (some 3)], slice := Memory.setNum [] 0x0100006B0060 4 count
  flight := [{ storing (.decs false) false with units := [⟨0, 0x0100006B0060, 4, false, 3, 0, 0, false, 0, false, false, 0⟩] }]
  waves := [{ wv with wait := .home 20 }] }

theorem tilth_walks : ∀ c ∈ tilth.ctxs, c.trace.walk = none := by decide
theorem demo_walks : ∀ c ∈ demo.ctxs, c.trace.walk = none := by decide
theorem counting_decs (kind : CtrKind) (n : Nat) : ((counting kind n).ctx (message kind).ctx).decs = [] := rfl

theorem counting_ripe (kind : CtrKind) (n : Nat) : msgRipe (counting kind n) (message kind) ∧ ((counting kind n).tasks.map (·.id)).Nodup ∧
    (counting kind n).ctrMsgs.Pairwise (fun x y => x.id ≠ y.id) := by
  refine ⟨⟨by simp [counting], ⟨fun a ha _ => Nat.zero_le _, fun o ho => ?_, fun o ho => ?_, fun o ho => ?_, fun o ho => ?_, ?_⟩,
    fun x hx _ _ _ => ?_, fun d hd => ?_⟩, (by decide : ([1, 2] : List Nat).Nodup), by simp [counting]⟩
  · simp [counting, tilth, demo, State.boot, State.reset] at ho
  · simp [counting, tilth, demo, State.boot, State.reset] at ho
  · simp [counting, tilth, demo, State.boot, State.reset] at ho
  · simp [counting, tilth, demo, State.boot, State.reset] at ho
  · exact no_walk tilth_walks
  · have : x = message kind := by simpa [counting] using hx
    subst this
    exact ⟨Nat.le_refl _, fun _ => Nat.le_refl _⟩
  · exact absurd hd (by simp [counting_decs])

theorem witness_counter : aTask 1 .arriving (some 3) ∈ (counting (.register 1) 2).tasks ∧ (counting (.register 1) 2).slice.num 0x0100006B0060 4 ≠ 0 ∧
    (counting (.register 1) 0).slice.num 0x0100006B0060 4 = 0 ∧ (counting (.decrement 20 0) 1).slice.num 0x0100006B0060 4 = 1 ∧
    (counting (.decrement 20 0) 1).access? 20 = some { storing (.decs false) false with units := [⟨0, 0x0100006B0060, 4, false, 3, 0, 0, false, 0, false, false, 0⟩] } ∧
    ((counting (.register 1) 2).ctx 0).r.ctrbase + 32 * 3 = 0x0100006B0060 := by
  refine ⟨by decide, by decide, by decide, by decide, rfl, by decide⟩

theorem witness_pools (n : Nat) : (∀ core, poolHolds (counting (.register 1) n) 0 core) ∧
    (∀ core b, inPool (counting (.register 1) n) 0 core b → b < 0x0100006B0060 ∨ 0x0100006B0060 + 32 ≤ b) := by
  constructor
  · intro core x hx _ _ _
    have h : ∀ x ∈ [aTask 1 .arriving (some 3), aTask 2 .held (some 3)], x.entryIdx < 64 := by decide
    exact h x hx
  · rintro core b ⟨h1, h2⟩
    have e1 : ((counting (.register 1) n).ctx 0).r.pooloff = 0x500000 := rfl
    have e2 : ((counting (.register 1) n).ctx 0).r.poolent = 64 := rfl
    unfold Context.poolAddr sliceOf Config.sliceBase Config.coreSlice at h1 h2
    omega

/-- A packet of two items for list 0, whose descriptor asks for a ring of 16. -/
def packet (sent : Bool) : WlPacket := ⟨80, 0, 0, 0x010000460000, 0, [11, 12], 0, sent, [(3, 0)]⟩
def pushing (tick cap tail : Nat) (sent : Bool) : State := { demo with
  tick := tick, packets := [packet sent]
  slice := ((Memory.setNum [] 0x010000460040 8 0x010000470000).setNum 0x010000460048 4 cap).setNum 0x010000460054 4 tail }

theorem pushing_released (t c l n : Nat) (b : Bool) : releasedBy (pushing t c l b) 3 n := by
  refine ⟨fun a ha => ?_, fun a ha => ?_, fun a ha => ?_, fun a ha => ?_, fun a ha => ?_, no_walk demo_walks⟩ <;>
    simp [pushing, demo, State.boot, State.reset] at ha

theorem witness_packet_sent : packet false ∈ (pushing 32 16 15 false).packets ∧ (∀ x ∈ (pushing 32 16 15 false).packets, x.id = 80 → x = packet false) ∧
    (packet false).since + 32 ≤ (pushing 32 16 15 false).tick ∧ (pushing 31 16 15 false).tick < (packet false).since + 32 := by decide

theorem witness_packet_written : packetMayGo (pushing 32 16 15 true) (packet true) ∧ goodList (pushing 32 16 14 true) 0 0x010000460040 ∧
    (14 + 2 ^ 32 - (pushing 32 16 14 true).slice.num 0x010000460050 4) % 2 ^ 32 + 2 ≤ 16 ∧
    16 < (15 + 2 ^ 32 - (pushing 32 16 15 true).slice.num 0x010000460050 4) % 2 ^ 32 + 2 ∧ ¬goodList (pushing 32 17 15 true) 0 0x010000460040 ∧
    queueHasRoom (pushing 32 17 15 true) 0 := by
  refine ⟨⟨rfl, rfl, by decide, fun r hr => ?_⟩, ⟨by decide, ⟨4, by decide, by decide, by decide⟩, by decide, ?_, by decide +kernel, by decide +kernel⟩,
    by decide, by decide, ?_, by unfold queueHasRoom; decide⟩
  · have : r = (3, 0) := by simpa [packet] using hr
    subst this
    exact pushing_released _ _ _ _ _
  · have h : ∀ k, k < 64 → 28 ≤ k → (pushing 32 16 14 true).slice.byte (0x010000460040 + k) = 0 := by decide
    exact fun k h1 h2 => h k h2 h1
  · rintro ⟨_, ⟨k, h1, h2, h3⟩, _⟩
    have h : ∀ k, k < 25 → ¬((pushing 32 17 15 true).slice.num (0x010000460040 + 8) 4 = 2 ^ k) := by decide
    exact h k (by omega) h3

/-- A pull for lanes 0 and 3 of a list with one item. -/
def pulling : State := { pushing 0 16 1 true with
  flight := [{ storing .wlpull false with sdst := some 4, vdst := some 3, units := [⟨0, 0x010000460040, 64, false, 9, 0, 3, false, 0, false, false, 0⟩] }] }

theorem witness_pull : pulling.sliceMapped (pulling.ctx 0) 0x010000470000 64 = true ∧ pulling.slice.num 0x010000460048 4 = 16 ∧
    (∀ l, l ∈ [0, 3] ↔ l < 32 ∧ (9#64).getLsbD l = true) := by
  refine ⟨by decide +kernel, by decide, fun l => ?_⟩
  have h : ∀ l, l < 32 → (l ∈ [0, 3] ↔ (9#64).getLsbD l = true) := by decide
  constructor
  · intro g
    have : l < 32 := by simp at g; omega
    exact ⟨this, (h l this).1 g⟩
  · exact fun g => (h l g.1).2 g.2

/-- Everything of the context waits in `quiesce` or is held. -/
def quiet1 : State := { tilth with waves := [{ wv with wait := .quiesce 4 }], tasks := [aTask 2 .held (some 3), aTask 3 (.waiting 0x010000400000 0) none] }

theorem witness_report : (∀ w ∈ quiet1.waves, w.ctx = 0 → w.task = false ∧ ∃ d, w.wait = .quiesce d) ∧
    (∀ x ∈ quiet1.tasks, x.ctx = 0 → x.st = .held ∨ ∃ o k, x.st = .waiting o k) ∧ quiet1.ctrMsgs = [] ∧ quiet1.packets = [] ∧ quiet1.slip = [] ∧
    quiet1.sieve = [] ∧ quiet1.requests = [] ∧ quiet1.limbo = [] ∧ (∀ g ∈ quiet1.grids, g.started.length = g.ngroups) ∧ quiet1.flight = [] ∧
    ¬complete (phase quiet1 0x010000400000) 0 ∧ (∃ w ∈ ({ tilth with waves := [taskWave] } : State).waves, w.ctx = 0 ∧ w.task = true) := by
  refine ⟨fun w hw _ => ?_, fun x hx _ => ?_, rfl, rfl, rfl, rfl, rfl, rfl, by decide, rfl, by unfold complete; decide, ⟨taskWave, by simp, rfl, rfl⟩⟩
  · have : w = { wv with wait := .quiesce 4 } := by simpa [quiet1] using hw
    subst this
    exact ⟨rfl, 4, rfl⟩
  · have : x = aTask 2 .held (some 3) ∨ x = aTask 3 (.waiting 0x010000400000 0) none := by simpa [quiet1] using hx
    rcases this with rfl | rfl
    · exact .inl rfl
    · exact .inr ⟨_, _, rfl⟩

/-- A ready task, with a bin for its entry, with another bin, and with none. -/
def binOf (entry : W64) (expired : Option Nat) : Bin := ⟨0, 0, 0, entry, 0, expired⟩
def dispatching (bins : List Bin) (st : TaskState) : State := { tilth with tick := 128, tasks := [aTask 1 st none], bins := bins }

theorem bins_lowest (bins : List Bin) (n : Nat) (h : n < 64) (hf : ∀ b ∈ bins, b.id ≠ n) (hl : ∀ k, k < n → ∃ b ∈ bins, b.id = k) :
    lowestBin (dispatching bins .ready) 0 0 n := by
  have h' : ∀ k, k < 64 → bootPart.quads.getLsbD (4 * 0 + k / 16) = true := by decide +kernel
  exact ⟨bootPart, demo_part, ⟨h, h' n h⟩, fun b hb => by simpa using hf b hb, fun k hk _ => by simpa [dispatching] using hl k hk⟩

def allBins : List Bin := (List.range 64).map fun n => { binOf 0 none with id := n }

/-- Bin 0 is the lowest free one where none is taken, bin 1 where bin 0 is, and none where all 64 are. -/
theorem witness_lowest_bin : lowestBin (dispatching [] .ready) 0 0 0 ∧ lowestBin (dispatching [binOf 0 none] .ready) 0 0 1 ∧
    (∀ n, ¬lowestBin (dispatching allBins .ready) 0 0 n) ∧ (∀ b ∈ allBins, ¬binTakes (dispatching allBins .ready) (aTask 1 .ready none) b) := by
  refine ⟨bins_lowest _ 0 (by decide) (by simp) (by simp), bins_lowest _ 1 (by decide) (by decide) (by decide), ?_, by unfold binTakes; decide⟩
  rintro n ⟨p, _, ⟨hn, _⟩, hf, _⟩
  exact hf { binOf 0 none with id := n } (List.mem_map.2 ⟨n, List.mem_range.2 hn, rfl⟩) (by simp)

theorem witness_dispatch : ((dispatching [] .ready).tasks.map (·.id)).Nodup ∧
    (∀ k, ((dispatching [] .ready).ctx k).vf = ((dispatching [] .ready).ctx 0).vf → poolHolds (dispatching [] .ready) k 0) ∧
    (∀ x ∈ (dispatching [] .ready).tasks, standsOn (dispatching [] .ready) 0 0 x ∧ x.st ≠ .arriving ∧ x.st ≠ .spilled) ∧
    (dispatching [] .ready).dispatched = [] ∧
    binTakes (dispatching [binOf 0x100000000000 none] .ready) (aTask 1 .ready none) (binOf 0x100000000000 none) ∧
    ¬binTakes (dispatching [binOf 0 none] .ready) (aTask 1 .ready none) (binOf 0 none) := by
  refine ⟨by decide, fun k _ x hx _ _ _ => ?_, by unfold standsOn; decide, rfl, by unfold binTakes; decide, by unfold binTakes; decide⟩
  have h : ∀ x ∈ (dispatching [] .ready).tasks, x.entryIdx < 64 := by decide
  have e : 64 ≤ ((dispatching [] .ready).ctx k).r.poolent ∨ k ≠ x.ctx := by
    by_cases hk : k = x.ctx
    · subst hk
      have : ∀ y ∈ (dispatching [] .ready).tasks, 64 ≤ ((dispatching [] .ready).ctx y.ctx).r.poolent := by decide
      exact .inl (this x hx)
    · exact .inr hk
  have := h x hx
  rcases e with e | e
  · omega
  · exact absurd ‹x.ctx = k›.symm e

/-- A bin of 31 tasks of its entry, which the next fills, and a core that dispatched four in the clk. -/
theorem witness_dispatch_limits : let s : State := { dispatching [binOf 0x100000000000 none] .ready with
      tasks := aTask 99 .ready none :: (List.range 31).map fun n => aTask n (.binned 0) none }
    binTakes s (aTask 99 .ready none) (binOf 0x100000000000 none) ∧ (s.tasks.filter fun z => z.st == .binned 0).length = 31 ∧
    (∀ y ∈ s.tasks, y.st = .binned 0 → y.frame = none) ∧
    (∃ d ∈ ({ s with dispatched := [(0, 0, 128, 4)] } : State).dispatched, d = (0, 0, s.tick, 4)) := by
  refine ⟨by unfold binTakes; decide, by decide, by decide, ⟨_, List.mem_singleton.2 rfl, rfl⟩⟩

theorem witness_bin_timer : (∃ x ∈ (dispatching [binOf 0x100000000000 none] (.binned 0)).tasks, x.st = .binned 0) ∧
    0 + ((dispatching [binOf 0x100000000000 none] (.binned 0)).ctx 0).r.bintimer ≤ (dispatching [] (.binned 0)).tick ∧
    ({ dispatching [] (.binned 0) with tick := 127 } : State).tick < 0 + ((dispatching [] (.binned 0)).ctx 0).r.bintimer := by
  decide

theorem witness_launch : binLaunches (dispatching [binOf 0x100000000000 (some 9)] (.binned 0)) (binOf 0x100000000000 (some 9)) 1 [aTask 1 (.binned 0) none] ∧
    tilth.slice.num ((tilth.ctx 0).r.tasktab + 32 * 0) 8 = 0x100000000000 ∧ reservedFree (BitVec.ofNat 32 (tilth.slice.num ((tilth.ctx 0).r.tasktab + 8) 4)) := by
  refine ⟨⟨rfl, by decide, ⟨fun x => ?_, by decide⟩, by decide, by decide, by decide, rfl, by decide +kernel, by decide, by decide,
    ⟨bootPart, demo_part, by decide +kernel⟩, ⟨0, by decide, by decide⟩, by decide, fun x hx _ _ _ => ?_⟩, by decide, by unfold reservedFree; decide⟩
  · simp [dispatching]
    rintro rfl
    rfl
  · have h : ∀ x ∈ (dispatching [] (.binned 0)).tasks, x.entryIdx < 64 := by decide
    exact h x hx

/-- A continuation alone in its bin. -/
theorem witness_launch_continuation : ({ aTask 1 (.binned 0) none with frame := some 0x010000600000 } : Task).frame = some 0x010000600000 := rfl

/-- A task wave of two lanes that checks an object whose phase is not complete. -/
def waiter : Wave := { taskWave with
  tasks := [(1, (aTask 1 .ready none).ref), (2, (aTask 1 .ready none).ref)], subs := [⟨3, BitVec.ofNat 64 Config.extBase, .atHome 20⟩] }
def waiting : State := { tilth with waves := [waiter], flight := [{ homing (.check 0) none with units := [{ piece with data := 6 }] }] }

theorem witness_task_wait : waiting.wave? 3 = some waiter ∧ waiter.handler = none ∧ (∀ l ∈ [1, 2], (waiter.taskOf l).isSome = true) ∧
    ¬complete (phase waiting piece.addr) 0 ∧ flagsWord waiting piece.addr % 2 = 0 ∧ (waiting.ctx 0).frameAddr 0 0 % 256 = 0 ∧
    (waiting.tasks.filter fun x => x.ctx == 0 && x.core == 0 && x.frame.isSome).length + [1, 2].length ≤ (waiting.ctx 0).r.frames ∧
    piece.addr + 32 ≤ (waiting.ctx 0).frameAddr 0 0 ∧ (waiting.ctx 0).frameAddr 0 64 ≤ (waiting.ctx 0).recAddr ∧
    (∀ l, l < 32 → (l ∈ [1, 2] ↔ (6#64).getLsbD l = true ∧ waiter.working.getLsbD l = true)) :=
  ⟨rfl, rfl, by decide, by unfold complete; decide, by decide, by decide, by decide, by decide, by decide, by decide⟩

theorem witness_continuation : complete 1 0 ∧ (({ aTask 1 (.waiting 0x010000400000 0) none with frame := some 0x010000600000 } : Task).st = .waiting 0x010000400000 0) ∧
    phase ({ demo with slice := Memory.setNum [] (0x010000400000 + 24) 4 1 } : State) 0x010000400000 = 1 := ⟨by unfold complete; decide, rfl, by decide⟩

/-- A launch packet at the address in s5: 32 lanes, one group, its kernel record at 0x010000461000. -/
def launching (ngroups : Nat) : State := { withWave spawner with
  slice := (((Memory.setNum [] 0x010000460000 4 1).setNum 0x010000460004 4 32).setNum 0x010000460008 4 ngroups).setNum 0x010000460010 8 0x010000461000
    |>.setNum 0x010000461000 8 Config.extBase |>.setNum 0x010000461018 4 65536 }

theorem witness_launch_packet : goodPacket (launching 1) 0 0x010000460000 ∧ ¬goodPacket (launching 0) 0 0x010000460000 ∧ sound (launching 1) 0x010000460000 64 ∧
    (∀ g ∈ (launching 1).grids, g.ctx = 0 → g.ord = (launching 1).slice.num 0x010000460000 4 % 2 ^ 23 → g.ended.length = g.ngroups) ∧
    ((launching 1).grids.filter fun g => g.ctx == 0 && g.device && g.started.isEmpty).length < 16 ∧ queueHasRoom (launching 0) 0 := by
  refine ⟨⟨by decide, by decide, by decide, by decide, by decide, by decide, by decide, by decide, ?_, ?_⟩, fun h => ?_, fun e he => ?_, by decide, by decide, by unfold queueHasRoom; decide⟩
  · unfold ownRange; decide +kernel
  · rw [if_neg (by decide)]; decide
  · exact absurd h.2.2.2.2.2.1 (by decide)
  · simp [launching, withWave, demo, State.boot, State.reset] at he

theorem witness_kernel : goodKernel (launching 1) spawner 0 0x010000460000 bootPart := by
  have e : bootPart.cores = [0] := by decide +kernel
  refine ⟨demo_part, rfl, fun e he => ?_, ?_, by decide, by unfold goodTarget; decide, by decide, by decide +kernel, fun h => absurd h (by decide), ?_,
    by unfold reservedFree; decide⟩
  · simp [launching, withWave, demo, State.boot, State.reset] at he
  · have h : ∀ b, b < 64 → 28 ≤ b → (launching 1).slice.byte ((launching 1).slice.num (0x010000460000 + 16) 8 + b) = 0 := by decide
    exact fun b h1 h2 => h b h2 h1
  · rw [e]
    intro core hc
    have : core = 0 := by simpa using hc
    subst this
    decide +kernel

/-- The packet at the head of the launch queue of slot 0. -/
def launchQueue : State := { launching 1 with
  funcs := [{ Func.reset 0 with ltail := [(0, 1)] }], ctxs := demo.ctxs.map fun c => { c with r := { c.r with lq := 0x010000460000 } } }

theorem witness_launch_queue : (launchQueue.ctxs.find? fun x => x.id == 0) = some (launchQueue.ctx 0) ∧ (launchQueue.ctx 0).pre = .none ∧
    ((launchQueue.func 0).lhead.get 0) ≠ ((launchQueue.func 0).ltail.get 0) ∧ 0 < (launchQueue.ctx 0).r.lqent ∧
    (∀ g ∈ launchQueue.grids, g.ctx = 0 → g.device = false → g.ngroups ≤ g.started.length) ∧ launchQueue.ctxHeld (launchQueue.ctx 0) = true ∧
    (launchQueue.ctx 0).r.lq + 64 * (((launchQueue.func 0).lhead.get 0).toNat % (launchQueue.ctx 0).r.lqent) = 0x010000460000 :=
  ⟨rfl, rfl, by decide, by decide, by decide, by decide +kernel, by decide⟩

/-- A grid with nothing started. -/
def newGrid : Grid := { bootGrid 9 0 with ord := 2, started := [] }
def starting : State := { demo with grids := [newGrid] }

theorem witness_group_start : (starting.grids.find? fun x => x.id == 9) = some newGrid ∧ newGrid.hold = none ∧ newGrid.waits = none ∧ newGrid.cluster = false ∧
    starting.limbo = [] ∧ starting.ctxHeld (starting.ctx newGrid.ctx) = true ∧ (∀ i, i ∈ newGrid.started ↔ i < 0) ∧ 0 < newGrid.ngroups := by
  refine ⟨rfl, rfl, rfl, rfl, rfl, by decide +kernel, fun i => by simp [newGrid], by decide⟩

theorem witness_group_place : bootPart.cores.getD (0 % bootPart.cores.length) 0 = 0 ∧
    starting.placeGroup (starting.ctx 0) 0 (pages newGrid.slice) (pages (16384 * newGrid.spill)) = some (0x010000410000, 0x010000400000) ∧
    1 ≤ (starting.coreSlots bootPart 0).length := by
  refine ⟨by decide +kernel, by decide +kernel, by decide +kernel⟩

/-! ## Witnesses: Strata (O46, O47) -/

/-- s40 and s41 open trace memory, s42 and s43 declare a region, s44 is a barrier object's address. -/
def tracer : Wave := { wv with sregs := [(40, 0x100000000000), (41, 0x100000), (42, 0x010000480000), (43, 64), (44, 0x010000400000)] }
def tracing : State := { trapping with waves := [tracer] }

theorem tracing_calm : calm tracing tracer := by
  refine ⟨rfl, by decide, .inr fun g h => ?_⟩
  have : g = bootGroup 2 0 1 := (Option.some.inj h).symm
  subst this; rfl

theorem witness_strata : (∃ m k o d c, strataForm tracing tracer (.trrec 40 41 0) = some (m, k, o, d, c) ∧ ∀ x ∈ c, x.1) ∧
    (∃ m k o d c, strataForm tracing tracer (.mdecl 42 43 0) = some (m, k, o, d, c) ∧ ∀ x ∈ c, x.1) ∧
    (∃ m k o d p after, strataForm tracing tracer (.trrec 44 41 0) = some (m, k, o, d, [] ++ (p, tracer.s 44) :: after) ∧ ¬p) ∧
    tracing.issuer tracer sb ∧ tracer.task = false ∧ calm tracing tracer ∧ (∃ l, l < 32 ∧ act tracer sb (tracer.slotOf 0) l) ∧
    calm { trapping with waves := [taskWave] } taskWave := by
  refine ⟨⟨_, _, _, _, _, rfl, ?_⟩, ⟨_, _, _, _, _, rfl, ?_⟩, ⟨_, _, _, _, _, _, rfl, ?_⟩, ⟨rfl, rfl⟩, rfl, tracing_calm,
    ⟨0, by decide, ⟨by decide, by decide⟩, by unfold guarded; decide⟩, rfl, by decide, .inl rfl⟩
  · intro x hx
    simp only [List.mem_cons, List.not_mem_nil, or_false] at hx
    rcases hx with rfl | rfl
    · exact (by decide : un tracer 40 % 65536 = 0 ∧ 0x100000000000 ≤ un tracer 40 ∧ un tracer 40 < 0x1C0000000000)
    · exact (by decide : un tracer 41 % 65536 = 0 ∧ 2 ^ 20 ≤ un tracer 41 ∧ un tracer 41 ≤ 2 ^ 36 ∧ un tracer 40 + un tracer 41 ≤ 0x1C0000000000)
  · intro x hx
    simp only [List.mem_cons, List.not_mem_nil, or_false] at hx
    rcases hx with rfl | rfl
    · exact (by decide : (tracer.s 42).toNat % 64 = 0 ∧ 0x010000000000 ≤ (tracer.s 42).toNat ∧ (tracer.s 42).toNat < 0x010040000000)
    · exact (by decide : un tracer 43 % 64 = 0 ∧ 64 ≤ un tracer 43 ∧ un tracer 43 ≤ 2 ^ 26)
  · exact (by decide : ¬(un tracer 44 % 65536 = 0 ∧ 0x100000000000 ≤ un tracer 44 ∧ un tracer 44 < 0x1C0000000000))

theorem witness_propagate : un tracer 44 % 32 = 0 ∧ namesByte (withWave tracer) tracer (un tracer 44) 0x010000400000 false ∧
    unmodified (withWave tracer) tracer 0x010000400000 32 ∧ un tracer 0 % 32 = 0 ∧ (∀ o win, ¬namesByte tracing tracer (un tracer 0) o win) := by
  refine ⟨by decide, .inl ⟨rfl, own tracer rfl _ (by decide) (by decide), by decide⟩, .inl rfl, by decide, ?_⟩
  rintro a win (⟨_, h, _⟩ | ⟨_, h, _⟩)
  · exact absurd h.1 (by decide)
  · exact absurd h (by decide)

/-- A trace in a state, with one region of 64 bytes; and a context that has it. -/
def traceOf (state : Nat) : Trace := { Trace.empty with
  state := state, base := 0x100000000000, len := 0x100000, tasks := [rootTask], regions := if state = 0 then [] else [⟨0x010000480000, 64, 36⟩], used := [(36, 8)] }
def traceReq (kind : EngKind) (ops : List W64) : Request := ⟨60, ⟨kind, .group 2, 0, ops, false, 9, ⟨0, 3, 0, 0, 0, 0, false, 0, 0, 0, 0⟩⟩⟩
def traced (T : Trace) (kind : EngKind) (ops : List W64) : State := { trapping with
  waves := [{ tracer with wait := .request 60 }], requests := [traceReq kind ops], ctxs := trapping.ctxs.map fun c => { c with trace := T } }

theorem traced_turn (T : Trace) (h : T.stalled = false) (kind : EngKind) (ops : List W64) : strataTurn (traced T kind ops) (traceReq kind ops) := by
  refine ⟨by simp [traced], h, fun x hx _ _ => ?_, fun a ha => ?_, fun x hx => ?_, { trapping.ctx 0 with trace := T },
    by simp [traced, trapping, demo, State.boot, State.reset, State.ctx, Context.create], rfl⟩
  · have : x = traceReq kind ops := by simpa [traced] using hx
    subst this
    exact Nat.le_refl _
  · simp [traced, trapping, demo, State.boot, State.reset] at ha
  · exact absurd hx (by simp [show ((traced T kind ops).ctx (traceReq kind ops).req.by_.ctx).held = [] from rfl])

/-- Whether trace memory takes a trace. -/
def writes (s : State) (T : Trace) : Bool := match s.writeTrace 0 T with | .ok _ => true | .error _ => false
def opened (base : Nat) : Trace := { Trace.empty with state := 1, base := base, len := 0x100000, tasks := [rootTask] }

/-- Trace memory in a mapped page takes the header; in one that is not, it does not. -/
theorem witness_turn : awaits (traced (traceOf 0) .trrec []) (traceReq .trrec []) { tracer with wait := .request 60 } sb ∧
    writes (traced Trace.empty .trrec []) (opened 0x100000000000) = true ∧ writes (traced Trace.empty .trrec []) (opened 0x180000000000) = false :=
  ⟨⟨rfl, rfl, rfl⟩, by decide +kernel, by decide +kernel⟩

theorem witness_declare : ownRange (traced (traceOf 1) .mdecl []) 0 0x010000490000 64 ∧ (traceOf 1).regions.length < 16 ∧
    (∀ x ∈ (traceOf 1).regions ++ ((traced (traceOf 1) .mdecl []).fixedRanges ((traced (traceOf 1) .mdecl []).ctx 0)).map (fun y => (⟨y.1, y.2, 0⟩ : TRegion)),
      0x010000490000 + 64 ≤ x.base ∨ x.base + x.len ≤ 0x010000490000) ∧ ((traceOf 1).alloc (64 / 8) 1).isSome = true ∧
    (∃ x ∈ (traceOf 1).regions, 0x010000480000 < x.base + x.len ∧ x.base < 0x010000480000 + 64) := by
  refine ⟨by unfold ownRange; decide +kernel, by decide, by decide +kernel, by decide +kernel, by decide⟩

def stepOk {α : Type} (e : Except Nat State) (f : State → α) (d : α) : α := match e with | .ok s => f s | .error _ => d

/-- Trace memory takes the header of the trace that holds the new region, and the zero heads of its words. -/
theorem witness_declare_writes : ((traceOf 1).alloc (64 / 8) 1).isSome = true ∧
    (((traceOf 1).alloc (64 / 8) 1).map fun x => stepOk ((traced (traceOf 1) .mdecl []).writeTrace 0
      { x.2 with regions := (traceOf 1).regions ++ [⟨0x010000490000, 64, x.1⟩], unclear := [] })
      (fun u => stepOk (u.writeTraceBytes 0 (traceOf 1).base ((List.range 8).map fun i => (16 * (x.1 + i), List.replicate 16 0))) (fun _ => true) false)
      false) = some true := by
  decide +kernel

/-- A recorded task is held. -/
theorem witness_stop_held : recordedWaits 0 { aTask 1 .held none with ref := { (aTask 1 .held none).ref with trace := 44 } } = true := by decide

theorem witness_stop : recordedAtRest (traced (traceOf 1) .trstop []) 0 ∧ (traceOf 1).state = 1 ∧
    ¬recordedAtRest { traced (traceOf 1) .trstop [] with tasks := [{ aTask 1 .ready none with ref := { (aTask 1 .ready none).ref with trace := 44 } }] } 0 := by
  refine ⟨⟨by decide, fun x hx => ?_, fun a ha => ?_⟩, rfl, fun h => ?_⟩
  · simp [traced, trapping, demo, State.boot, State.reset] at hx
  · simp [traced, trapping, demo, State.boot, State.reset] at ha
  · rcases h.2.1 _ (List.mem_singleton.2 rfl) rfl with h | h | ⟨o, k, h⟩
    · exact absurd h (by decide)
    · exact absurd h (by decide)
    · exact absurd h (by simp [aTask])

theorem witness_status : ((traced (traceOf 2) .trstat [0]).ctx 0).modifiable 0x0100004A0000 64 = false := by decide +kernel

/-- A propagation that waits for nothing, with one stale task and with none. -/
def staleTrace (stale ended : Bool) (state : Nat) (walk : Option Walk) : Trace := { traceOf state with
  tasks := [{ rootTask with children := [44], scount := stale.toNat }, ⟨44, 32, [], 0x100000000000, [1, 2, 3, 4], 5, 0, stale, false, ended, 1, []⟩], walk := walk }

theorem witness_propagation : (staleTrace true true 2 none).nextStale 32 ≠ none ∧ (∀ x ∈ (staleTrace false true 2 none).tasks, x.stale = false) ∧
    arrived (objectAt .store none 1 0 0) 0x010000400000 + 1 ≤ expected (objectAt .store none 1 0 0) 0x010000400000 ∧ tracer.wait ≠ .request 60 := by
  decide +kernel

/-- A traced access of the small wave to the first word of the region, by a grid wave and by a recorded task. -/
def tracedAccess (kind : AccKind) : Access := { storing kind false with traced := true, units := [⟨0, 0x010000480000, 4, false, 7, 0, 3, false, 0, false, false, 0⟩] }
def accessing (T : Trace) (w : Wave) (kind : AccKind) : State := { flying [tracedAccess kind] with
  waves := [{ w with wait := .home 20 }], ctxs := trapping.ctxs.map fun c => { c with trace := T } }
def recordedWave : Wave := { taskWave with working := 1, tasks := [(0, { (aTask 1 .ready none).ref with trace := 44 })] }

theorem witness_traced : (traceOf 1).wordOf 0x010000480000 = some 0 ∧ (traceOf 1).state ≠ 0 ∧ ((traceOf 1).tasks.map (·.off)).Nodup ∧
    ¬recordedNow (traceOf 1) (wv.traceOf 0) ∧ recordedNow (traceOf 1) (recordedWave.traceOf 0) ∧ ((traceOf 1).alloc 2 2).isSome = true ∧
    ((traceOf 1).alloc 1 1).isSome = true ∧ (traceOf 1).writerOf 0 = 0 ∧ { traceOf 1 with writers := [(0, 44)] }.writerOf 0 = 44 ∧
    { traceOf 1 with writers := [(0, 48)] }.writerOf 0 = 48 ∧ (BitVec.ofNat 32 ((accessing (traceOf 1) wv .store).slice.num 0x010000480000 4)) ≠ (7#64).setWidth 32 ∧
    (∃ c ∈ (accessing (traceOf 1) wv .store).ctxs, c.id = 0) := by
  refine ⟨by decide, by decide, by decide, fun h => h.1 rfl, ⟨by decide, .inl rfl⟩, by decide, by decide, rfl, by decide, by decide, by decide, by decide⟩

/-- The walk at the root, and at its stale child. -/
def walkAt (visit : Nat) (cur : Option Nat) (old : List Nat) : Walk := ⟨9, visit, cur, [], old, [], 0, 0x010000400000, ⟨0, 3, 0, 0, 0, 0, false, 0, 0, 0, 0⟩⟩
def walking (T : Trace) : State := { demo with ctxs := demo.ctxs.map fun c => { c with trace := T }, slice := Memory.setNum [] 0x010000400000 4 1 }

theorem witness_rerun : (staleTrace true true 3 (some (walkAt 32 none []))).nextStale 32 = some 44 ∧
    ((staleTrace true true 3 (some (walkAt 32 none []))).task? 44).isSome = true ∧ ((staleTrace true true 3 none).tasks.map (·.off)).Nodup ∧
    bootPart.quads.getLsbD 1 = true ∧ (∀ v ∈ (walking (staleTrace true true 3 none)).waves, ¬(v.core * 4 + v.quad = 1 ∧ v.slot = 0)) := by
  refine ⟨by decide +kernel, by decide, by decide, by decide +kernel, by decide⟩

theorem witness_rerun_end : (((staleTrace false true 3 (some (walkAt 44 (some 44) []))).task? 44).map (·.ended)) = some true ∧
    arrived (walking (staleTrace false true 3 (some (walkAt 44 (some 44) [])))) 0x010000400000 + 1 ≤ expected (walking (staleTrace false true 3 (some (walkAt 44 (some 44) [])))) 0x010000400000 ∧
    ((walking (staleTrace false true 3 (some (walkAt 44 (some 44) [])))).ctx 0).held = [] ∧ (∀ o ∈ (walkAt 44 (some 44) []).oldChildren, o ∈ (walkAt 44 (some 44) []).matched) ∧
    [(⟨60, 44, 0, 3, 7, 1⟩ : TWrite)].filter (fun y => y.task == 44 && y.held == 1) = [⟨60, 44, 0, 3, 7, 1⟩] ∧
    (walkAt 44 (some 44) [48]).oldChildren.filter (fun o => o ∉ (walkAt 44 (some 44) [48]).matched) = [48] ∧ (48 : Nat) ≠ 44 := by
  refine ⟨by decide, by decide, rfl, by decide, by decide, by decide, by decide⟩

/-! ## Witnesses: Sieve (O48, O49) -/

/-- s50 a grid descriptor, s51 a ring, s52 a run at v8, s53 a bad address. -/
def siever : Wave := { wv with sregs := [(50, 0x010000600000), (51, 0x010000640000), (52, 8), (53, 0x010000600001)] }

/-- One cell of side 8 with two particles a unit apart, cut-off 2 (R373), as bytes 0 to 71 of its descriptor. -/
def gridBytes : List Byte := leBytes 4 0x41000000 ++ leBytes 4 0x41000000 ++ leBytes 4 0x41000000 ++ leBytes 2 1 ++ leBytes 2 1 ++ leBytes 2 1 ++ leBytes 2 0 ++
  leBytes 4 0x40000000 ++ leBytes 4 0 ++ leBytes 4 2 ++ leBytes 8 0x010000650000 ++ leBytes 8 0x010000660000 ++ leBytes 8 0x010000670000 ++ leBytes 4 0 ++ leBytes 4 0 ++
  leBytes 8 0x010000680000
/-- The descriptor binned, its particles and its bin, and a ring of 64 records with these head, tail and state. -/
def sieveMem (head tail st : Nat) : Memory :=
  let m := Memory.setBytes [] 0x010000600000 gridBytes
  let m := m.setNum 0x010000600060 4 3
  let m := ((m.setNum 0x010000650000 4 0x3F800000).setNum 0x010000650004 4 0x3F800000).setNum 0x010000650008 4 0x3F800000
  let m := ((m.setNum 0x010000650010 4 0x40000000).setNum 0x010000650014 4 0x3F800000).setNum 0x010000650018 4 0x3F800000
  let m := ((m.setNum 0x010000660000 4 2).setNum 0x010000660008 4 0xFFFFFFFF).setNum 0x010000660044 4 1
  let m := (m.setNum 0x010000640000 8 0x010000648000).setNum 0x010000640008 4 64
  ((m.setNum 0x010000640010 8 head).setNum 0x010000640018 8 tail).setNum 0x010000640028 4 st
def sieving (head tail st : Nat) (l : List SieveOp) : State := { demo with
  waves := [siever], sieve := l, slice := sieveMem head tail st, ctxs := trapping.ctxs }
def sieveOp (kind : EngKind) (st : OpState) (written refused : Nat) (stop : Bool) : SieveOp :=
  ⟨90, ⟨kind, .group 2, 0, [0x010000600000, 0x010000640000, 0], true, 9, ⟨0, 3, 0, 0, 0, 0, false, 0, 0, 0, 0⟩⟩, 0, st, gridBytes, ⟨0, 0, 0, 0, 0, false, []⟩, written, stop,
    ⟨[], [], false, false, []⟩, 0, 0, 2, refused⟩

theorem sieving_calm (h t x : Nat) (l : List SieveOp) : calm (sieving h t x l) siever := by
  refine ⟨rfl, (by decide : (trapping.ctx 0).r.handler ≠ 0), .inr fun g h => ?_⟩
  have : g = bootGroup 2 0 1 := (Option.some.inj h).symm
  subst this; rfl

theorem siever_active : activeList siever sb (siever.slotOf 0) (List.range 32) := by
  have h : ∀ l, l < 32 → sb.quads.getLsbD (l / 4) = true ∧ siever.working.getLsbD l = true ∧ ((siever.p 0).getLsbD l = true ↔ 0 / 8 % 2 = 0) := by decide
  refine ⟨fun l => ?_, by decide⟩
  rw [List.mem_range]
  exact ⟨fun k => ⟨k, ⟨(h l k).1, (h l k).2.1⟩, (h l k).2.2⟩, fun k => k.1⟩

theorem witness_sieve_request : (∃ f, sieveForm siever (.svpair 50 51 0 0 1) = some f ∧ ∀ x ∈ f.checks (sieving 0 0 0 []) siever, x.1) ∧
    (∃ f p after, sieveForm siever (.svgrid 4 53 0) = some f ∧ f.checks (sieving 0 0 0 []) siever = [] ++ (p, 0x90, siever.s 53) :: after ∧ ¬p) ∧
    (sieving 0 0 0 []).issuer siever sb ∧ calm (sieving 0 0 0 []) siever ∧ (∃ l, l < 32 ∧ act siever sb (siever.slotOf 0) l) ∧
    (dieQueue (sieving 0 0 0 []) (siever.core / 16)).length < 16 ∧ 16 ≤ (dieQueue (sieving 0 0 0 (List.replicate 16 (sieveOp .svbin .queued 0 0 false))) 0).length := by
  refine ⟨⟨_, rfl, fun x hx => ?_⟩, ⟨_, _, _, rfl, rfl, ?_⟩, ⟨rfl, rfl⟩, sieving_calm _ _ _ _, ⟨0, by decide, ⟨by decide, by decide⟩, by unfold guarded; decide⟩, by decide, by decide⟩
  · simp only [SieveForm.checks, List.mem_cons, List.not_mem_nil, or_false] at hx
    rcases hx with rfl | rfl | rfl | rfl | rfl | rfl
    · exact ⟨by decide, .inl (by decide)⟩
    · intro r hr
      cases hr
      exact (by decide : (siever.s 51).toNat % 64 = 0 ∧ 0x010000000000 ≤ (siever.s 51).toNat ∧ (siever.s 51).toNat < 0x010040000000)
    · exact .inl rfl
    · exact fun _ _ _ _ => .inl rfl
    · exact fun _ _ => .inl rfl
    · exact ⟨bootPart, demo_part, by decide⟩
  · exact fun h => absurd h.1 (by decide : ¬(siever.s 53).toNat % 64 = 0)

theorem witness_pull_ring : sliceAddress (siever.s 51) 64 ∧ legalRun (siever.s 52) 8 88 ∧ heldRun siever (siever.s 52) ∧ unmodified (sieving 0 3 1 []) siever 0x010000640000 64 ∧
    (sieving 0 3 1 []).sliceMapped ((sieving 0 3 1 []).ctx 0) 0x010000640000 64 = true ∧ (sieving 0 3 1 []).eccBad = [] ∧
    (sieving 3 3 1 []).slice.num 0x010000640010 8 = (sieving 3 3 1 []).slice.num 0x010000640018 8 ∧ (sieving 3 3 1 []).slice.num 0x010000640028 4 = 1 ∧
    (sieving 3 3 2 []).slice.num 0x010000640028 4 ≠ 1 ∧ unbound (sieving 0 3 1 []) 0 0x010000640000 64 := by
  refine ⟨by unfold sliceAddress; decide, by unfold legalRun; decide, by unfold heldRun; decide, .inl rfl, by decide +kernel, rfl, by decide +kernel, by decide +kernel, by decide +kernel, by unfold unbound; decide⟩

theorem witness_ring : goodRing (sieving 0 3 1 []) ((sieving 0 3 1 []).ctx 0) 0x010000640000 := by
  refine ⟨by decide +kernel, ⟨6, by decide, by decide, by decide +kernel⟩, by decide +kernel, by decide +kernel, by decide +kernel, by decide +kernel⟩

theorem witness_clear : (∃ o ∈ (sieving 0 0 1 [sieveOp .svpair .running 0 0 false]).sieve, streamsTo 0x010000640000 o) ∧
    (∀ o ∈ (sieving 0 0 2 []).sieve, ¬streamsTo 0x010000640000 o) ∧ un siever 51 = 0x010000640000 := by
  refine ⟨⟨_, List.mem_singleton.2 rfl, rfl, by decide, rfl, .inl rfl⟩, fun o ho => ?_, by decide⟩
  simp [sieving] at ho

theorem sieving_finds (h t x : Nat) (l : List SieveOp) (a n : Nat) (w : Bool) (e : (sieving h t x l).engSlice ((sieving h t x l).ctx 0) (.group 2) a n = some a) :
    engineFinds (sieving h t x l) ((sieving h t x l).ctx 0) (.group 2) a n w (false, a) :=
  .inl ⟨rfl, e, fun e he => by simp [sieving, demo, State.boot, State.reset] at he⟩

theorem witness_sieve_begins : sieveOpIs (sieving 0 0 0 [sieveOp .svpair .queued 0 0 false]) (sieveOp .svpair .queued 0 0 false) .queued ∧
    (dieQueue (sieving 0 0 0 [sieveOp .svpair .queued 0 0 false]) 0).head? = some (sieveOp .svpair .queued 0 0 false) ∧
    engineFinds (sieving 0 0 0 []) ((sieving 0 0 0 []).ctx 0) (.group 2) 0x010000600000 128 false (false, 0x010000600000) ∧
    (sieving 0 0 0 []).engSlice ((sieving 0 0 0 []).ctx 0) (.group 2) 0 128 = none := by
  refine ⟨⟨rfl, by decide, rfl⟩, by decide +kernel, sieving_finds _ _ _ _ _ _ _ (by decide +kernel), by decide +kernel⟩

/-- The bytes of the descriptor pass every check of R374 and R384; a corner of it at zero fails the first. -/
def descriptor : List Byte := (sieving 0 0 0 []).slice.bytes 0x010000600000 128
theorem witness_sieve_accepted : firstReason (beginChecks (sieving 0 0 0 []) (sieveOp .svpair .queued 0 0 false) 0x010000600000 descriptor) 0 := by
  refine .inl ⟨rfl, fun x hx => ?_⟩
  simp only [beginChecks, gridChecks, List.zip, List.zipWith, sieveOp, List.mem_cons, List.mem_append, List.not_mem_nil, or_false, if_true,
    reduceCtorEq, if_false] at hx
  rcases hx with ((rfl | rfl | rfl | rfl | rfl | rfl | rfl | rfl) | rfl) | (rfl | rfl | rfl | rfl)
  · exact (by unfold finite; decide +kernel : ∀ a, a < 3 → finite (field descriptor (4 * a) 4) ∧ 0 < units 2 (field descriptor (4 * a) 4))
  · exact (by decide +kernel : ∀ a, a < 3 → field descriptor (12 + 2 * a) 2 ≤ 256 ∧
      (if (field descriptor 18 1).testBit a then 3 else 1) ≤ field descriptor (12 + 2 * a) 2)
  · exact (by unfold finite; decide +kernel : finite (field descriptor 20 4) ∧ 0 < units 2 (field descriptor 20 4) ∧ finite (field descriptor 24 4) ∧ 0 ≤ units 2 (field descriptor 24 4))
  · have h : ∀ a, a < 3 → field descriptor (12 + 2 * a) 2 = 1 := by decide +kernel
    exact fun a ha h2 => absurd (Nat.le_trans h2 (Nat.le_of_eq (h a ha))) (by decide)
  · exact (by decide +kernel : field descriptor 18 1 / 16 % 4 ≠ 3)
  · exact (by decide +kernel : 0 < field descriptor 28 4 ∧ field descriptor 28 4 ≤ 2 ^ 26 ∧ field descriptor 56 4 ≤ 2 ^ 26)
  · refine ⟨?_, ?_, ?_, ?_⟩ <;> (unfold arrayFine; decide +kernel)
  · exact (by decide +kernel : (field descriptor 18 1).testBit 3 = false ∧ field descriptor 18 1 / 64 = 0 ∧ field descriptor 19 1 = 0 ∧ field descriptor 60 4 = 0)
  · exact (by decide +kernel : ((sieving 0 0 0 []).slice.num (0x010000600000 + 96) 4).testBit 1 = true)
  · exact (by decide +kernel : ((sieving 0 0 0 []).slice.num (0x010000600000 + 96) 4).testBit 2 = false)
  · exact (by decide +kernel : ((sieving 0 0 0 []).slice.num (0x010000600000 + 96) 4).testBit 3 = false)
  · exact (by decide +kernel : ((sieving 0 0 0 []).slice.num (0x010000600000 + 96) 4).testBit 4 = false)
  · refine ⟨⟨by decide +kernel, ⟨6, by decide, by decide, by decide +kernel⟩, by decide +kernel, by decide +kernel, by decide +kernel, by decide +kernel⟩, by decide +kernel⟩

theorem witness_sieve_refused : firstReason [(1, True), (2, False), (3, True)] 2 := .inr ⟨[(1, True)], False, [(3, True)], rfl, by simp, fun h => h⟩

/-- The stream's first pair is of particles 0 and 1, its second of 1 and 0 (`full`); after them none is left; and a full ring. -/
theorem witness_pairs : (match (sieving 0 0 1 []).nextPair (sieveOp .svpair .running 0 0 false) with | .ok (_, some r) => r.length == 32 | _ => false) = true ∧
    (match (sieving 0 0 1 []).nextPair { sieveOp .svpair .running 2 0 false with cursor := ⟨1, 0, 0, 0, 2, false, []⟩ } with
      | .ok (_, none) => true | _ => false) = true ∧
    (sieving 0 64 1 []).slice.num 0x010000640018 8 - (sieving 0 64 1 []).slice.num 0x010000640010 8 = (sieving 0 64 1 []).slice.num 0x010000640008 4 ∧
    (sieving 0 0 1 []).slice.num 0x010000640018 8 - (sieving 0 0 1 []).slice.num 0x010000640010 8 < (sieving 0 0 1 []).slice.num 0x010000640008 4 := by
  refine ⟨by decide +kernel, by decide +kernel, by decide +kernel, by decide +kernel⟩

theorem witness_sieve_ends : (sieving 0 0 1 []).engSlice ((sieving 0 0 1 []).ctx 0) (.group 2) 0x010000600000 128 = some 0x010000600000 ∧
    ((sieving 0 0 1 []).countStale ((sieving 0 0 1 []).ctx 0) (sieveOp .svcheck .running 0 0 false) (gridFields gridBytes) (gridFields gridBytes).np 0 0).2.2.isNone = true ∧
    (let b := (sieving 0 0 1 []).binAll ((sieving 0 0 1 []).ctx 0) (sieveOp .svbin .running 0 0 false) (gridFields gridBytes) (gridFields gridBytes).np 0 ⟨[], [], false, false, []⟩;
      b.2.isNone && match (sieving 0 0 1 []).sieveWrite ((sieving 0 0 1 []).ctx 0) (sieveOp .svbin .running 0 0 false) (b.1.writes (gridFields gridBytes)) with
        | .ok _ => true | _ => false) = true ∧
    (match (sieving 0 0 1 []).sieveWrite ((sieving 0 0 1 []).ctx 0) (sieveOp .svbin .queued 0 0 false)
        (binOpening (sieving 0 0 1 []) (sieveOp .svbin .queued 0 0 false) (gridFields gridBytes) 0x010000600000) with | .ok _ => true | _ => false) = true := by
  refine ⟨by decide +kernel, by decide +kernel, by decide +kernel, by decide +kernel⟩

theorem waiting_on (x : Nat) (k : EngKind) (st : OpState) (n r : Nat) (b : Bool) :
    sieveFree (sieving 0 0 x [sieveOp k st n r b]) (sieveOp k st n r b) := by
  refine ⟨rfl, fun x hx => ?_, fun x hx => ?_⟩
  · simp [sieving, demo, State.boot, State.reset] at hx
  · have : x = siever := by simpa [sieving] using hx
    subst this
    intro h
    cases h

/-- An operation that has not asked for its transfers, one whose wave waits in `svclr`, and its context, which goes on. -/
theorem witness_sieve_asks : let o := sieveOp .svpair .running 0 0 false
    ¬hasAsked (sieving 0 0 1 []) { o with asked := 0, req := { o.req with by_ := { o.req.by_ with core := 1 } } } 1
      ((sieving 0 0 1 []).pairRanges { o with asked := 0, req := { o.req with by_ := { o.req.by_ with core := 1 } } }) ∧
    hasAsked (sieving 0 0 1 []) (sieveOp .svpair .running 0 0 false) 1 [] ∧
    (∃ w ∈ ({ sieving 0 0 1 [sieveOp .svpair .running 0 0 true] with waves := [{ siever with wait := .request 90 }] } : State).waves,
      w.wait = .request (sieveOp .svpair .running 0 0 true).id) ∧
    (sieving 0 0 1 []).stands ((sieving 0 0 1 []).ctx 0) = false := by
  refine ⟨fun h => ?_, .inl (by decide), ⟨_, List.mem_singleton.2 rfl, rfl⟩, rfl⟩
  rcases h with h | h
  · exact absurd h (by decide)
  · exact absurd h (by decide +kernel)

/-- A grid of three periodic axes of length 8 with two cells each. -/
def periodic8 : Axis := ⟨some 8, 2, true⟩
theorem witness_axes : ({ gridFields gridBytes with axes := [periodic8, periodic8, periodic8] } : Grid3).axes = [periodic8, periodic8, periodic8] ∧
    imageOn periodic8 8 7 (-1) ∧ imageOn periodic8 8 4 (-1) ∧ imageOn periodic8 8 (-4) 0 ∧ cellOn periodic8 8 (-1) = 1 ∧ cellOn periodic8 8 8 = 0 := by
  refine ⟨rfl, .inr ⟨rfl, by decide, by decide⟩, .inr ⟨rfl, by decide, by decide⟩, .inr ⟨rfl, by decide, by decide⟩, by decide, by decide⟩

/-! ## Witnesses: the host (O50 to O52) -/

/-- The small state whose partition is a secure one. -/
def secured : State := { demo with parts := [{ bootPart with secure := true }] }
/-- Function 0's registers with these. -/
def hosted (f : Func) : State := { demo with funcs := [f] }
/-- Its context, and that context after these steps of a pre-emption. -/
def ctx0 : Context := (demo.ctx 0)
def preempting (p : Preempt) : State := { demo with ctxs := [{ ctx0 with pre := p }] }

theorem demo_accepts (s : State) (op : Nat) (h : s.powered = true ∧ s.frozen = false ∧ s.recovery = false ∧ s.ready = true ∧ s.funcs = [] ∧ s.parts = [bootPart]) :
    accepts s 0 op := by
  obtain ⟨hp, hf, hr, hd, he, hq⟩ := h
  refine ⟨⟨hp, hf, by decide, .inl hr⟩, .inr fun p h => ?_, by rw [State.func, he]; decide, .inl hd, .inr ⟨bootPart, by rw [State.part?, hq]; exact demo_part⟩⟩
  rw [State.part?, hq] at h
  rw [← Option.some.inj (h : some bootPart = some p)]
  exact fun h => absurd h (by decide)

theorem demo_accepts_pf (op : Nat) : accepts demo 64 op := ⟨⟨rfl, rfl, by decide, .inl rfl⟩, .inl rfl, by decide, .inl rfl, .inl rfl⟩

theorem witness_command : commandForm (.kill 0 0) = some (0, 4, [0]) ∧ ¬appears demo 65 ∧ ¬appears { demo with frozen := true } 0 ∧ appears secured 0 ∧ ¬worldFine secured 0 ∧
    appears demo 0 ∧ worldFine demo 0 ∧ (hosted { Func.reset 0 with running := true }).func 0 = { Func.reset 0 with running := true } ∧ (demo.func 0).running = false ∧
    ¬mayCommand 0 0x20 ∧ ¬mayCommand 64 1 ∧ mayCommand 0 4 ∧ ({ demo with ready := false } : State).ready = false := by
  refine ⟨rfl, fun h => absurd h.2.2.1 (by decide), fun h => absurd h.2.1 (by decide), ⟨rfl, rfl, by decide, .inl rfl⟩, fun h => ?_, ⟨rfl, rfl, by decide, .inl rfl⟩,
    (demo_accepts demo 4 ⟨rfl, rfl, rfl, rfl, rfl, rfl⟩).2.1, rfl, rfl, by unfold mayCommand; decide, by unfold mayCommand; decide, by unfold mayCommand; decide, rfl⟩
  rcases h with h | h
  · exact absurd h (by decide)
  · exact absurd (h { bootPart with secure := true } rfl rfl) (by decide)

theorem demo_slot (p : Preempt) : slotHolds (preempting p) 0 0 { ctx0 with pre := p } := ⟨rfl, fun _ h _ => List.mem_singleton.1 h⟩

/-- The small state with no wave. -/
def empty : State := { demo with waves := [] }

theorem witness_slot : accepts empty 0 1 ∧ slotHolds demo 0 0 ctx0 ∧ (∀ x ∈ demo.ctxs, ¬(x.vf = 0 ∧ x.slot = (5#64).toNat)) ∧ contextBusy demo ctx0.id ∧ ¬contextBusy empty ctx0.id ∧
    ctx0.pre = .none ∧ queueHasRoom demo ctx0.id ∧ ctx0.r.jobn ≤ 1 ∧ demo.sliceMapped ctx0 (0x010000400000#64).toNat 32 = true ∧ (0x010000400000#64).toNat % 32 = 0 := by
  refine ⟨demo_accepts _ _ ⟨rfl, rfl, rfl, rfl, rfl, rfl⟩, demo_slot .none, by decide, .inl ⟨wv, List.mem_singleton.2 rfl, rfl⟩, ?_, rfl, by unfold queueHasRoom; decide, by decide,
    by decide +kernel, by decide⟩
  rintro (⟨w, h, _⟩ | ⟨o, h, _⟩ | ⟨o, h, _⟩ | ⟨o, h, _⟩ | ⟨o, h, _⟩) <;> simp [empty, demo, State.boot, State.reset] at h

/-- A context of a job of two devices, with its table at the window's base. -/
def jobbed : Context := { ctx0 with r := { ctx0.r with jobn := 2, jobtab := 0x010000600000 } }
theorem witness_job : 1 < jobbed.r.jobn ∧ engineFinds demo jobbed (.core 0) jobbed.r.jobtab (4 * jobbed.r.jobn) false (false, 0x010000600000) := by
  refine ⟨by decide, .inl ⟨rfl, by decide +kernel, fun e he => ?_⟩⟩
  simp [demo, State.boot, State.reset] at he

/-- A binning of the context that has stopped. -/
def stopping : State := { demo with sieve := [sieveOp .svbin (.stopped 0 0) 0 0 false] }
theorem witness_qresume : slotHolds stopping 0 0 ctx0 ∧ (∃ o ∈ stopping.sieve, o.req.by_.ctx = ctx0.id ∧ o.die = 0 ∧ ∃ k a, o.st = .stopped k a) ∧
    (∀ o ∈ stopping.sieve, o.req.object = 0 ∧ ∃ a, o.st = .stopped 0 a) ∧ (stopping.sieve.map (·.id)).Nodup ∧ demo.sieve = [] ∧ demo.slip = [] ∧ ctx0.trace.stalled = false ∧
    ¬(1 ≤ (0#64).toNat) := by
  refine ⟨⟨rfl, fun _ h _ => List.mem_singleton.1 h⟩, ⟨_, List.mem_singleton.2 rfl, rfl, rfl, 0, 0, rfl⟩, fun o h => ?_, by decide, rfl, rfl, rfl, by decide⟩
  rw [List.mem_singleton.1 h]
  exact ⟨rfl, 0, rfl⟩

/-- The small state's own context record, as bytes at the address that it names (R411). -/
def recorded0 (codelen : Nat) : Memory :=
  [(0, 8, Config.extBase), (8, 8, codelen), (48, 8, 0x10000), (56, 8, 0x010000700000), (64, 4, 6), (68, 4, 64), (72, 8, 0x0100006F0000), (80, 4, 0x600000), (84, 4, 1),
    (104, 8, Config.extBase + 0x20000000), (112, 8, 0x1000000), (120, 8, 0x0100006E0000), (192, 4, 16), (196, 4, 0x400000), (200, 4, 0x100000), (128, 4, 0x500000), (132, 4, 64),
    (136, 2, 128)].foldl (fun (m : Memory) e => m.setNum (0x0100006D0000 + e.1) e.2.1 e.2.2) []
def recording0 : State := { demo with slice := recorded0 65536 }

theorem witness_create : (∀ x ∈ recording0.ctxs, ¬(x.vf = 0 ∧ x.slot = (1#64).toNat)) ∧ (recording0.readCtxRec 0 1 0x0100006D0000).isSome = true ∧
    badRecord { demo with slice := recorded0 0 } 0x0100006D0000 ∧ badRecord demo 1 ∧ (1#64).toNat < 16 ∧ 16 ≤ (16#64).toNat :=
  ⟨by decide, by decide +kernel, .inr (.inr (.inl (by decide +kernel))), .inl (by decide), by decide, by decide⟩

/-- The context saved with one group, in a module that it has left. -/
def saved0 : Saved := ⟨0x100020000000, 4096, ctx0, 3, 3, [], [bootGrid 1 0], [⟨7, 0, some (bootGroup 2 0 1, [], []), [wv], [], [], [], [], []⟩], [], [], [], [], [], [], [], []⟩
def left0 : State := { demo with ctxs := [], waves := [], groups := [], grids := [], slice := recorded0 65536, saved := [saved0] }
theorem witness_resume : saved0 ∈ left0.saved ∧ saved0.save = (0x100020000000#64).toNat ∧ saved0.len = (4096#64).toNat ∧ (∀ y ∈ left0.saved, y = saved0) ∧
    (left0.readCtxRec 0 1 saved0.ctx.recAddr).isSome = true ∧ saved0.tasks = [] ∧ saved0.slip = [] ∧ saved0.red = [] ∧ saved0.sieve = [] ∧ saved0.requests = [] ∧
    (∀ l ∈ saved0.limbo, l.group.isSome = true) ∧ saved0.packets = [] ∧ left0.tasks = [] ∧ left0.ctxs = [] ∧ accepts left0 0 1 :=
  ⟨List.mem_singleton.2 rfl, by decide, by decide, fun _ h => List.mem_singleton.1 h, by decide +kernel, rfl, rfl, rfl, rfl, rfl, by simp [saved0], rfl, rfl, rfl,
    demo_accepts _ _ ⟨rfl, rfl, rfl, rfl, rfl, rfl⟩⟩

/-- A partition of cores 0 and 1, and the record that creates it. -/
def twoCores : Partition := { bootPart with quads := 0xFF, banks := 0xFFFFFFFF }
def moving0 (l : List Move) : State := { demo with parts := [twoCores], moves := l }
theorem witness_migrate : (bootGroup 2 0 1) ∈ demo.groups ∧ (∃ x ∈ demo.grids, x.id = (bootGroup 2 0 1).grid ∧ x.migratable = true) ∧ (bootGroup 2 0 1).index = (0#64).toNat ∧
    (∀ g ∈ demo.groups, g.index ≠ (5#64).toNat) ∧ (∃ q, q < 4 ∧ twoCores.quads.getLsbD (4 * 1 + q) = true) ∧ 1 ≠ (bootGroup 2 0 1).core ∧ (moving0 []).part? 0 = some twoCores ∧
    (∃ m ∈ (moving0 [⟨9, 0, 2, 0, 0, 0, 1, 0, 0, 0, 0⟩]).moves, m.gid = (bootGroup 2 0 1).id) ∧ ¬128 < 0 ∧ ctx0.pre = .none ∧ slotHolds (moving0 []) 0 0 ctx0 :=
  ⟨List.mem_singleton.2 rfl, ⟨_, List.mem_singleton.2 rfl, rfl, rfl⟩, rfl, by decide, ⟨0, by decide, by decide +kernel⟩, by decide, rfl, ⟨_, List.mem_singleton.2 rfl, rfl⟩, by decide, rfl,
    ⟨rfl, fun _ h _ => List.mem_singleton.1 h⟩⟩

theorem witness_attest : accepts demo 64 0x0A ∧ demo.part? 64 = none ∧ accepts demo 0 0x0A := ⟨demo_accepts_pf _, rfl, demo_accepts _ _ ⟨rfl, rfl, rfl, rfl, rfl, rfl⟩⟩

/-- Firmware is either good or not, and each is a case of the statement. -/
theorem witness_fwstage (image : List Byte) : accepts demo 64 0x22 ∧
    ((Config.firmwareOk image = true ∧ demo.svnFuse ≤ Config.firmwareVersion image) ∨ ¬(Config.firmwareOk image = true ∧ demo.svnFuse ≤ Config.firmwareVersion image)) :=
  ⟨demo_accepts_pf _, Classical.em _⟩

theorem witness_partition : accepts demo 64 0x20 ∧ demo.part? (5#64).toNat = none ∧ demo.part? (0#64).toNat ≠ none ∧ (∃ x ∈ demo.ctxs, x.vf = (0#64).toNat) ∧
    (∀ x ∈ left0.ctxs, x.vf ≠ (0#64).toNat) ∧ 1200 ≤ (1200#64).toNat ∧ (2400#64).toNat ≤ 2400 ∧ ¬1200 ≤ (1199#64).toNat ∧ ¬(2401#64).toNat ≤ 2400 ∧ (15#64).toNat < 16 ∧
    (1#64).toNat < 2 ∧ ¬(16#64).toNat < 16 :=
  ⟨demo_accepts_pf _, rfl, by decide, ⟨ctx0, List.mem_singleton.2 rfl, rfl⟩, fun _ h => absurd h (by simp [left0]), by decide, by decide, by decide, by decide, by decide, by decide, by decide⟩

/-- A partition record of core 16's four quadrants, one bank and its port, for VF 1 (R394); and one whose weight is 256. -/
def record1 (weight1 : Byte) : Regs 8 :=
  [(8, 0xF), (96, 1), (322, 1), (337, 1), (339, 1), (345, 0x20), (348, 1), (349, weight1), (353, 1), (357, 0x10)]
def granting (weight1 : Byte) : State := { demo with funcs := [{ Func.reset 64 with partRec := record1 weight1 }] }

theorem witness_partition_created : accepts (granting 0) 64 0x20 ∧ firstReason (createChecks (granting 0)) 0 := by
  refine ⟨⟨⟨rfl, rfl, by decide, .inl rfl⟩, .inl rfl, rfl, .inl rfl, .inl rfl⟩, .inl ⟨rfl, fun x hx => ?_⟩⟩
  simp only [createChecks, List.mem_cons, List.not_mem_nil, or_false] at hx
  rcases hx with rfl | rfl | rfl | rfl | rfl
  · have tail : ∀ j, j < 152 → recByte (granting 0) (360 + j) = 0 := by decide +kernel
    simp only [← and_assoc]
    refine ⟨by decide +kernel, fun k h1 h2 => ?_⟩
    obtain ⟨j, rfl⟩ : ∃ j, k = 360 + j := ⟨k - 360, by omega⟩
    exact tail j (by omega)
  · intro p hp
    rw [List.mem_singleton.1 (hp : p ∈ [bootPart])]
    decide +kernel
  · exact (by decide +kernel : ∀ c, c < 128 → (∃ q, q < 4 ∧ recQuad (granting 0) c q = true) → recNum (granting 0) (64 + 2 * c) 2 ≠ 0)
  · exact (by decide +kernel : ∀ c, c < 128 → (∃ q, q < 4 ∧ recQuad (granting 0) c q = true) → recNum (granting 0) (320 + 2 * (c / 16)) 2 ≠ 0)
  · have h : ∀ c, c < 128 → recNum (granting 0) 340 4 + (((granting 0).tenants c).map (·.floor)).sum ≤ 8192 := by decide +kernel
    exact fun c hc _ => h c hc

theorem witness_partition_refused : firstReason (createChecks (granting 1)) 1 := by
  refine .inr ⟨[], _, _, rfl, by simp, fun h => ?_⟩
  exact absurd h.2.2.2.2.2.2.2.2.1 (by decide +kernel)

theorem witness_registers : hostReaches demo 0 ∧ hostReaches demo 64 ∧ (0x0C8, ((15#64).toNat < 16), { demo.func 0 with apslot := 15 }) ∈ plainRegister demo 0 15 ∧ (15#64).toNat < 16 ∧
    (0x430, (256 ≤ (255#64).toNat ∧ (255#64).toNat ≤ 2 ^ 20), { demo.func 0 with sint := 255 }) ∈ plainRegister demo 0 255 ∧ ¬256 ≤ (255#64).toNat ∧
    (0x600, True, { demo.func 64 with scanaddr := 5 }) ∈ plainRegister demo 64 5 ∧ (demo.func 0).watch[3]? = some ⟨0, 0, 0, 0⟩ ∧ watchFine (watchWith ⟨0, 0, 0, 0⟩ 3 0x100000000) ∧
    ¬watchFine (watchWith ⟨0, 0, 0, 0⟩ 3 0x100000001) ∧ 16 ≤ (16#64).toNat := by
  refine ⟨⟨⟨rfl, rfl, by decide, .inl rfl⟩, (demo_accepts demo 0 ⟨rfl, rfl, rfl, rfl, rfl, rfl⟩).2.1⟩, ⟨⟨rfl, rfl, by decide, .inl rfl⟩, .inl rfl⟩, ?_, by decide, ?_, by decide, ?_, by decide,
    by unfold watchFine; decide, by unfold watchFine; decide, by decide⟩ <;> simp [plainRegister] <;> (unfold scanFits; decide)

/-- The wave halted at a breakpoint. -/
def halted0 : State := withWave { wv with halt := .breakpoint }
theorem witness_release : (∃ c ∈ halted0.ctxs, c.id = wv.ctx ∧ blockFor (halted0.func 0) c) ∧ namesWave { wv with halt := .breakpoint } (BitVec.allOnes 64) ∧ ¬namesWave wv 5 := by
  refine ⟨⟨ctx0, List.mem_singleton.2 rfl, rfl, .inl rfl, by decide⟩, .inl rfl, fun h => ?_⟩
  rcases h with h | h | h
  · exact absurd h (by decide)
  · exact absurd h.2 (by decide)
  · exact absurd h.1 (by decide)

theorem demo_banks (a : Nat) (h : 0x010000000000 ≤ a ∧ a + 8 ≤ 0x010000800000) : ownsBytes demo 0 a 8 := by
  refine ⟨bootPart, demo_part, fun b hb => ?_⟩
  have : 0x010000000000 ≤ b ∧ b < 0x010000800000 := by omega
  exact ⟨this.1, by omega, bank_owned _ (by omega)⟩

/-- The small state with an invocation record's range in its memory. -/
def ranged : State := { demo with ctxs := [{ ctx0 with trace := traceOf 1 }] }
theorem witness_bar2 : ownsBytes demo 0 0x010000400000 8 ∧ 0x400000 + 8 ≤ 2 ^ 30 ∧ (∀ c ∈ demo.ctxs, c.vf = 0 → c.trace.state = 0) ∧ (∀ c ∈ demo.ctxs, c.bindings = []) ∧
    ¬(∀ c ∈ ranged.ctxs, c.vf = 0 → c.trace.state = 0 ∨ ∀ r ∈ c.trace.regions, 0x010000480000 + 8 ≤ r.base ∨ r.base + r.len ≤ 0x010000480000) ∧ ¬ownsBytes demo 0 0x01003FFFFFF8 8 := by
  refine ⟨demo_banks _ (by decide), by decide, by decide, by decide, fun h => ?_, fun ⟨p, hp, h⟩ => ?_⟩
  · rcases h _ (List.mem_singleton.2 rfl) rfl with h | h
    · exact absurd h (by decide)
    · rcases h ⟨0x010000480000, 64, 36⟩ (List.mem_singleton.2 rfl) with h | h <;> exact absurd h (by decide)
  · have : p = bootPart := Option.some.inj ((hp.symm.trans demo_part : some p = some bootPart))
    subst this
    exact absurd (h _ (.inl rfl)).2.2 (by decide +kernel)

/-- An aperture onto the first gibibyte of external memory. -/
theorem demo_unmapped (die : Nat) (c : Context) (k : Nat) (h : k < 0x100000000000) : demo.walk die c k = none := by
  have e : inExt k = false := by
    unfold inExt
    rw [show decide (Config.extBase ≤ k) = false from decide_eq_false (Nat.not_le_of_lt h)]
    rfl
  have h1 : demo.tlbEntry die c k = none := rfl
  have h2 : demo.pageWalk c k = none := by rw [State.pageWalk, e]; rfl
  rw [State.walk, h1, h2]

def opened0 : State := { demo with funcs := [{ Func.reset 0 with apbase := 0x100000000000 }] }
theorem opened0_walk : ∀ k, k < 16 → (match opened0.walk (opened0.homeDie ctx0) ctx0 (0x100000000000 + k) with | some (pa, p) => pa == 0x40000000 + k && p.write | none => false) = true := by decide +kernel
theorem witness_aperture : (∀ k, k < 8 → apertureByte opened0 0 (0 + k) true (0x40000000 + k)) ∧ (∀ k pa, ¬apertureByte demo 0 k true pa ∨ k ≥ 0x100000000000) ∧ opened0.funcs.length = 1 := by
  refine ⟨fun k hk => ?_, fun k pa => ?_, rfl⟩
  · have h := opened0_walk k (by omega)
    rw [Nat.zero_add]
    cases hw : opened0.walk (opened0.homeDie ctx0) ctx0 (0x100000000000 + k) with
    | none => rw [hw] at h; exact absurd h Bool.false_ne_true
    | some r =>
      rw [hw] at h
      obtain ⟨pa, p⟩ := r
      have h2 : pa = 0x40000000 + k ∧ p.write = true := by simpa using h
      exact ⟨ctx0, p, rfl, by rw [← h2.1]; exact hw, fun _ => h2.2⟩
  · by_cases hk : k < 0x100000000000
    · refine .inl fun ⟨c, p, _, hw, _⟩ => ?_
      have e : ((demo.func 0).apbase.toNat + k) = k := by
        have : (demo.func 0).apbase.toNat = 0 := rfl
        omega
      rw [e, demo_unmapped _ c k hk] at hw
      cases hw
    · exact .inr (by omega)

/-- An open session of the small context, counting event 1. -/
def counted0 (opened : Nat) : State := { debugging 4 0x010000640000 16 with
  ctxs := [{ ctx0 with sessions := [⟨0, 0x010000648000, opened, [1, 13, 0, 0, 0, 0, 0, 0], [(1, 5)]⟩] }] }
theorem counted0_only (o : Nat) : (counted0 o).ctxs = [{ ctx0 with sessions := [⟨0, 0x010000648000, o, [1, 13, 0, 0, 0, 0, 0, 0], [(1, 5)]⟩] }] := rfl

theorem witness_controls : controlBit (.breakpointArm 0 true) = some (0, 0, true) ∧ controlBit (.samplingEnable 0 false) = some (0, 1, false) ∧
    controlBit (.sessionOpen 0) = some (0, 2, true) ∧ controlBit (.sessionClose 0) = some (0, 2, false) ∧ controlBit .freezeArm = some (64, 3, true) ∧ (demo.func 0).dctl = 0 ∧
    (demo.ctxs.map (·.id)).Nodup ∧ blockFor (demo.func 0) ctx0 ∧ ((counted0 0).func 0).dctl.getLsbD 2 = true ∧ ((counted0 0).func 0).dctl.toNat < 8 ∧
    (counted0 0).blockOwns 0 0x010000648000 128 = true ∧ (∀ x ∈ (counted0 0).ctxs, blockFor ((counted0 0).func 0) x) ∧ (counted0 0).ctxs.length = 1 ∧
    ({ demo with funcs := [{ Func.reset 64 with freezetick := 1 }] } : State).tick < 1 ∧ (demo.func 64).freezetick.toNat ≤ demo.tick := by
  refine ⟨rfl, rfl, rfl, rfl, rfl, rfl, by decide, ⟨.inl rfl, by decide⟩, by decide, by decide, by decide +kernel, ?_, rfl, by decide, by decide⟩
  intro x hx
  rw [List.mem_singleton.1 hx]
  exact ⟨.inl rfl, by decide⟩

theorem witness_halted_module : ¬appears { demo with recovery := true } 0 ∧ ({ demo with frozen := true } : State).frozen = true ∧ demo.powered = true ∧ 0x600 % 8 = 0 :=
  ⟨fun h => absurd h.2.2.2 (by decide), rfl, rfl, rfl⟩

/-! ## Witnesses: pre-emption, ports and migration (O52, O53) -/

theorem pre_resident (p : Preempt) : resident (preempting p) { ctx0 with pre := p } := ⟨rfl, fun _ h _ => List.mem_singleton.1 h⟩

theorem witness_timers : ({ ctx0 with pre := .soft 3 } : Context).pre = .soft 3 ∧ ((preempting (.soft 3)).waves.map (·.id)).Nodup ∧ (∀ g ∈ (preempting (.soft 3)).groups, g.latches = []) ∧
    (preempting (.soft 3)).flight = [] ∧ ({ ctx0 with pre := .halting 3 } : Context).pre = .halting 3 ∧ queueHasRoom (preempting (.halting 3)) 0 ∧ (preempting (.halting 3)).moves = [] ∧
    (∃ w ∈ (preempting (.soft 3)).waves, w.ctx = 0 ∧ w.halt ≠ .unhandled) ∧
    (∃ a ∈ ({ preempting (.halting 3) with flight := [storing .store false] } : State).flight, a.ctx = 0 ∧ a.kind ≠ .drained ∧ a.finished = false) := by
  refine ⟨rfl, by decide, by decide, rfl, rfl, by unfold queueHasRoom; decide, rfl, ⟨wv, List.mem_singleton.2 rfl, rfl, by decide⟩, ⟨_, List.mem_singleton.2 rfl, rfl, by decide, by decide⟩⟩

/-- A context at rest, with its wave and with nothing left of it. -/
def resting (l : List Wave) : State := { preempting (.halting 3) with waves := l, groups := if l = [] then [] else demo.groups, grids := if l = [] then [] else demo.grids }
theorem witness_save (l : List Wave) : atRest (resting l) 0 ∧ ({ ctx0 with pre := .halting 3 } : Context).pre ≠ .none ∧ ctx0.sessions = [] ∧ (resting []).waves = [] ∧ (resting []).groups = [] ∧
    (resting []).grids = [] ∧ (resting []).tasks = [] ∧ (resting []).packets = [] ∧ (∃ w ∈ (resting [wv]).waves, w.ctx = 0) ∧ ((resting [wv]).groups.map (·.id)).Nodup ∧
    ((resting [wv]).waves.map (·.id)).Nodup ∧ queueHasRoom (resting [wv]) 0 := by
  refine ⟨?_, by decide, rfl, rfl, rfl, rfl, rfl, rfl, ⟨wv, List.mem_singleton.2 rfl, rfl⟩, by decide, by decide, by unfold queueHasRoom; decide⟩
  refine ⟨?_, ?_, ?_, ?_, ?_, ?_, ?_, ?_, ?_, ?_⟩ <;> (intro x hx; simp [resting, preempting, demo, State.boot, State.reset] at hx)

/-- The length of a save is a free value; both its cases are of the statement, the second for a save area that is one byte shorter. -/
theorem witness_save_length (s : State) : ∃ c : Context, (Config.freeValue s.freeCtr).toNat ≤ c.r.savelen :=
  ⟨{ ctx0 with r := { ctx0.r with savelen := (Config.freeValue s.freeCtr).toNat } }, Nat.le_refl _⟩

/-- A scatter that is being performed, in function 0. -/
def scattering : State := { debugging 0 0 0 with
  funcs := [{ Func.reset 0 with resetlog := 0x1000, resetlen := 16 }]
  slip := [{ slipOp 50 .cps [] .running 2 [] with req := { (slipOp 50 .cps [] .running 2 []).req with flag := true } }] }
theorem witness_function_reset : (demo.ctxs.map (·.id)).Nodup ∧ demo.slip = [] ∧ (∃ o, ((everySlip scattering).filter fun x => x.req.kind == .cps && x.req.flag && x.st != .queued) = [o] ∧
    ofFunction scattering 0 o ∧ o.applied < 2 ^ 32) ∧ (scattering.func 0).resetlen ≠ 0 :=
  ⟨by decide, rfl, ⟨_, rfl, ⟨ctx0, List.mem_singleton.2 rfl, rfl, rfl⟩, by decide⟩, by decide⟩

/-- A `waitp` of a task wave that finds no frame free, as its context is halted. -/
def stalledWait : State := { waiting with
  flight := [{ homing (.check 0) none with units := [{ piece with data := 6, reg := 0 }] }], ctxs := waiting.ctxs.map fun c => { c with pre := .soft 3, r := { c.r with frames := 0 } } }
theorem witness_stalled_wait : (stalledWait.ctx 0).pre = .soft 3 ∧ (∀ g ∈ stalledWait.groups, g.latches = []) ∧
    (∃ a ∈ stalledWait.flight, a.isWaitp = true ∧ stalledWait.frameStall a = true ∧ ∃ w ∈ stalledWait.waves, w.ctx = 0 ∧ w.id = a.wave) ∧
    quietFlight demo ∧ noneAwaits (preempting (.halting 3)) 0 := by
  refine ⟨rfl, by decide, ⟨_, List.mem_singleton.2 rfl, by decide, by decide, _, List.mem_singleton.2 rfl, rfl, rfl⟩, fun a ha => ?_, fun w hw hc => ?_⟩
  · simp [demo, State.boot, State.reset] at ha
  · have h : ∀ x ∈ (preempting (.halting 3)).waves, x.ctx = 0 := by decide
    exact absurd (h w hw) hc

/-- Two tenants of port 0, both with tokens; the first has had less than its floor of 100. -/
def tenant (vf floor : Nat) : Partition := { bootPart with vf := vf, floor := floor }
def bandOf (vf tokens granted : Nat) : Bucket := ⟨0, vf, 0, tokens, granted, false⟩
def asked (vf op charge : Nat) : Transfer := ⟨0, vf, charge, op, 0, op⟩
def banded (bs : List Bucket) (xs : List Transfer) : State := { demo with parts := [tenant 0 100, tenant 1 50], buckets := bs, transfers := xs }
theorem banded_tenants (bs : List Bucket) (xs : List Transfer) : (banded bs xs).tenants 0 = [tenant 0 100, tenant 1 50] := by
  have h : (tenant 0 100).usesPort 0 = true ∧ (tenant 1 50).usesPort 0 = true := by decide +kernel
  show List.filter _ [tenant 0 100, tenant 1 50] = _
  simp [h.1, h.2]

theorem witness_refill : (banded [] []).tenants 0 ≠ [] ∧ (((banded [] []).tenants 0).map (·.vf)).Nodup ∧
    (∀ p ∈ (banded [] []).tenants 0, tenantShare (8192 - (((banded [] []).tenants 0).map (·.floor)).sum) (((banded [] []).tenants 0).map (·.weight)).sum p ≤ p.ceiling - p.floor) ∧
    (∃ b ∈ (banded [bandOf 0 8 0] []).buckets, b.port = 0 ∧ b.window = (banded [] []).tick / 1024) ∧ ({ demo with portClk := [(0, 1)] } : State).tick + 1 ≤ sget 0 [(0, 1)] 0 := by
  rw [banded_tenants]
  exact ⟨by simp, by decide, by decide, ⟨_, List.mem_singleton.2 rfl, rfl, rfl⟩, by decide⟩

/-- A window in which tenant 1 went short and tenant 0 left tokens, and the clk after it. -/
theorem witness_refill_starved : let s : State := { banded [⟨0, 0, 0, 40, 60, false⟩, ⟨0, 1, 0, 0, 50, true⟩] [] with tick := 1024 }
    (∃ b ∈ s.buckets, b.port = 0 ∧ b.window + 1 = s.tick / 1024 ∧ b.vf = (tenant 1 50).vf ∧ b.starved = true) ∧ 0 < (tenant 1 50).weight ∧
    (∀ b ∈ s.buckets, b.starved = true → b.vf = (tenant 1 50).vf) ∧ (∀ b ∈ s.buckets, b.window ≠ s.tick / 1024) := by decide

theorem witness_grant : tenant 0 100 ∈ (banded [bandOf 0 8 0] [asked 0 7 8]).tenants 0 ∧ bandOf 0 8 0 ∈ (banded [bandOf 0 8 0] [asked 0 7 8]).buckets ∧
    (∀ y ∈ (banded [bandOf 0 8 0] [asked 0 7 8]).buckets, y = bandOf 0 8 0) ∧ (∀ y ∈ (banded [bandOf 0 8 0] [asked 0 7 8]).transfers, y = asked 0 7 8) ∧
    (asked 0 7 8).charge ≤ (bandOf 0 8 0).tokens ∧ (bandOf 0 7 0).tokens < (asked 0 7 8).charge ∧
    (let s := banded [bandOf 0 8 99, bandOf 1 8 50] [asked 1 6 8, asked 0 7 8]
     (s.transfers.filter fun y => y.port == 0) = [asked 1 6 8, asked 0 7 8] ∧ tenant 1 50 ∈ s.tenants 0 ∧ tenant 1 50 ≠ tenant 0 100 ∧ s.transfers.Nodup ∧
      (bandOf 0 8 99).granted < (tenant 0 100).floor ∧ (tenant 1 50).floor ≤ (bandOf 1 8 50).granted ∧ (∀ y ∈ s.buckets, y.vf = 1 → y = bandOf 1 8 50)) := by
  dsimp only
  rw [banded_tenants, banded_tenants]
  exact ⟨by simp, List.mem_singleton.2 rfl, fun _ h => List.mem_singleton.1 h, fun _ h => List.mem_singleton.1 h, by decide, by decide, rfl, by simp,
    fun h => absurd (congrArg Partition.vf h) (by decide), by decide, by decide, by decide, by decide⟩

/-- The group of the small state on its way from core 0 to core 1, in each stage. -/
def theMove (stage : Nat) : Move := ⟨9, 0, 2, 0, 0x010000400000, 65536, 1, 0x010000C00000, 0x010000C10000, stage, 0⟩
theorem witness_move (stage : Nat) : moveOf (moving0 [theMove stage]) (theMove stage) (bootGroup 2 0 1) twoCores :=
  ⟨by simp [moving0, theMove], fun _ h _ => List.mem_singleton.1 h, rfl, rfl, fun _ h _ => List.mem_singleton.1 h, rfl, fun x h => by rw [List.mem_singleton.1 (h : x ∈ demo.groups)]; rfl⟩

theorem witness_move_halts : ((moving0 [theMove 0]).placeGroup ctx0 1 (bootGroup 2 0 1).winLen (bootGroup 2 0 1).spillLen).isSome = true ∧
    ((moving0 [theMove 0]).waveMoved twoCores (theMove 0)).isSome = true ∧ ((moving0 [theMove 0]).moves.filter fun x => x.fromCore == 0 && x.stage != 0).length < 16 ∧
    ((moving0 [theMove 0]).waves.map (·.id)).Nodup ∧ (moving0 [theMove 0]).flight = [] ∧
    ({ moving0 [theMove 0] with ctxs := [{ ctx0 with r := { ctx0.r with gpoollen := 0 } }] } : State).placeGroup { ctx0 with r := { ctx0.r with gpoollen := 0 } } 1 65536 0 = none := by
  refine ⟨by decide +kernel, by decide +kernel, by decide, by decide, rfl, by decide +kernel⟩

theorem witness_move_moves : ((moving0 [theMove 1]).waveMoved twoCores (theMove 1)).isSome = true ∧ (moving0 [theMove 1]).flight = [] ∧ (moving0 [theMove 1]).mats = [] ∧
    ((theMove 1).newWin + (bootGroup 2 0 1).winLen ≤ (theMove 1).newSpill) ∧
    (∃ a ∈ [storing .store false], a.kind ≠ .drained ∧ a.finished = false ∧ ∃ w ∈ (moving0 [theMove 1]).waves, w.task = false ∧ w.gid = 2 ∧ w.id = a.wave) ∧
    (moving0 [theMove 2]).moves = [theMove 2] ∧ (theMove 2).stage = 2 ∧ (moving0 [theMove 2]).landings = [] ∧ (moving0 [theMove 2]).red = [] ∧ (moving0 [theMove 2]).slip = [] :=
  ⟨by decide +kernel, rfl, rfl, by decide, ⟨_, List.mem_singleton.2 rfl, by decide, by decide, wv, List.mem_singleton.2 rfl, rfl, rfl, rfl⟩, rfl, rfl, rfl, rfl, rfl⟩

/-! ## Witnesses: samples, power and links (O54, O55) -/

/-- Function 0 samples every 256 clk since tick 0; the clk is 256, and the wave is in one of its states. -/
def sampler : Func := { Func.reset 0 with dctl := 2, sring := 0x010000640000, slen := 16, sint := 256, sampleFrom := 0 }
def sampling (w : Wave) : State := { demo with tick := 256, waves := [w], funcs := [sampler] }
theorem sampling_due (w : Wave) (q : SubWave) (h : w.core = 0 ∧ w.quad = 0 ∧ w.ctx = 0) (hq : w.subs = [q]) : sampleOf (sampling w) 0 0 w q := by
  refine ⟨(by decide : sampler.dctl.getLsbD 1 = true), (by decide : sampler.slen ≠ 0), (by decide : 0 < sampler.sint.toNat), (by decide : sampler.sampleFrom < 256),
    (by decide : (256 - sampler.sampleFrom) % sampler.sint.toNat = 0), fun e he => ?_, hq, by rw [h.1, h.2.1],
    (by decide +kernel : demo.blockOwns 0 0x010000640000 64 = true), ?_, ctx0, List.mem_singleton.2 rfl, h.2.2.symm, .inl rfl,
    (by decide : sampler.dslot.toNat % 16 = ctx0.slot)⟩
  · exact absurd he (List.not_mem_nil)
  · show List.filter _ [w] = [w]
    simp [h.1, h.2.1]

theorem sampling_free (w : Wave) (q : SubWave) (h : (sampling w).instrAt w q = some .nop) : registersFree (sampling w) w q ∧ countsNothing (sampling w) w q := by
  refine ⟨?_, fun i hi => ?_⟩
  · rw [registersFree, h]
    rfl
  · rw [h] at hi
    cases hi
    exact ⟨fun _ _ _ _ h => (by cases h), fun _ _ h => (by cases h)⟩

/-- The wave parked at its only place, waiting for a joint instruction, and at a `xwait`. -/
def parked : Wave := { wv with subs := [⟨0xFF, 0x100000000000, .parked⟩] }
def joining : Wave := { wv with wait := .joint 3 7 }
def watcher : SubWave := ⟨0xFF, 0x100000000000, .waiting 0x010000400000 5 0 0x010000400000⟩

theorem witness_sample : sampleSays (sampling { wv with halt := .breakpoint }) { wv with halt := .breakpoint } sb 10 0 0 ∧
    sampleSays (sampling { wv with lastIssue := 256, notBefore := 257 }) { wv with lastIssue := 256, notBefore := 257 } sb 0 0 0 ∧ sampleSays (sampling wv) wv sb 2 0 0 ∧
    sampleSays (sampling parked) parked ⟨0xFF, 0x100000000000, .parked⟩ 9 0 0 ∧ sampleSays (sampling joining) joining sb 8 7 3 ∧
    sampleSays (sampling { wv with subs := [watcher] }) { wv with subs := [watcher] } watcher 3 5 0x010000400000 := by
  have f1 := sampling_free wv sb (by decide +kernel)
  have f2 := sampling_free parked ⟨0xFF, 0x100000000000, .parked⟩ (by decide +kernel)
  have f3 := sampling_free joining sb (by decide +kernel)
  have f4 := sampling_free { wv with subs := [watcher] } watcher (by decide +kernel)
  have f5 := sampling_free { wv with lastIssue := 256, notBefore := 257 } sb (by decide +kernel)
  exact ⟨.inl ⟨by decide, rfl, rfl, rfl⟩,
    .inr ⟨rfl, rfl, rfl, f5.1, .inr ⟨f5.2, .inr (.inr (.inr (.inl ⟨rfl, rfl, ⟨rfl, by decide⟩, rfl, rfl, rfl⟩)))⟩⟩,
    .inr ⟨rfl, rfl, rfl, f1.1, .inr ⟨f1.2, .inr (.inr (.inl ⟨rfl, rfl, fun h => absurd h.2 (by decide), rfl, rfl, rfl⟩))⟩⟩,
    .inr ⟨rfl, rfl, rfl, f2.1, .inr ⟨f2.2, .inl ⟨rfl, rfl, rfl, rfl, rfl⟩⟩⟩,
    .inr ⟨rfl, rfl, rfl, f3.1, .inr ⟨f3.2, .inr (.inr (.inr (.inr ⟨3, 7, rfl, rfl, rfl, rfl, rfl⟩)))⟩⟩,
    .inr ⟨rfl, rfl, rfl, f4.1, .inl ⟨_, _, _, _, rfl, rfl, rfl, rfl⟩⟩⟩

/-- Nothing is sampled where sampling is off, where the tick is not due, and where the quadrant was sampled in this clk. -/
theorem witness_no_sample : (demo.func 0).dctl.getLsbD 1 = false ∧ (({ sampling wv with tick := 300 } : State).tick - sampler.sampleFrom) % sampler.sint.toNat ≠ 0 ∧
    (∃ e ∈ ({ sampler with sampleNext := [(0, 0, 256)] } : Func).sampleNext, e.1 = 0 ∧ e.2.2 = (sampling wv).tick) ∧ ∀ w ∈ demo.waves, w.core * 4 + w.quad ≠ 5 := by
  refine ⟨rfl, by decide, ⟨_, List.mem_singleton.2 rfl, rfl, rfl⟩, by decide⟩

def session0 : Session := ⟨0, 0x010000648000, 0, [1, 13, 0, 0, 0, 0, 0, 0], [(1, 5)]⟩
theorem witness_session_writeback : (∃ c ∈ (counted0 0).ctxs, session0 ∈ c.sessions) ∧ (∀ d ∈ (counted0 0).ctxs, ∀ y ∈ d.sessions, y.fn = 0 → y = session0) ∧
    (({ counted0 0 with tick := 2 ^ 20 } : State).tick - session0.opened) % 2 ^ 20 = 0 ∧ session0.opened < ({ counted0 0 with tick := 2 ^ 20 } : State).tick ∧
    (counted0 0).blockOwns 0 session0.record 128 = true ∧ ¬(((counted0 0).tick - session0.opened) % 2 ^ 20 = 0 ∧ session0.opened < (counted0 0).tick) ∧
    (session0.events[0]?).map (·.toNat) = some 1 ∧ (session0.events[1]?).map (·.toNat) = some 13 := by
  refine ⟨⟨_, List.mem_singleton.2 rfl, List.mem_singleton.2 rfl⟩, fun d hd y hy _ => ?_, by decide, by decide, by decide +kernel, by decide, by decide, by decide⟩
  rw [List.mem_singleton.1 (hd : d ∈ [_])] at hy
  exact List.mem_singleton.1 hy

theorem witness_freeze : (debugging 8 0 0).tick = ((({ demo with funcs := [{ Func.reset 64 with dctl := 8 }] } : State).func 64).freezetick.toNat) ∧
    (({ demo with funcs := [{ Func.reset 64 with dctl := 8 }] } : State).func 64).dctl.getLsbD 3 = true ∧ (demo.func 64).dctl.getLsbD 3 = false := by decide

/-- Firmware is either good or not; both are cases of the statement. -/
theorem witness_power : 6 ≤ demo.bringup ∧ ({ demo with bringup := 1 } : State).recovery = false ∧ ({ demo with bringup := 5 } : State).bringup ≠ 1 ∧
    (demo.powered = true ∧ 893 < demo.clockMhz ∧ (∃ k, 893 + 47 * k = 940) ∧ 470 ≤ 893) ∧ (demo.powered = true ∧ 470 < demo.clockMhz ∧ (∃ k, 470 + 47 * k = 940)) ∧ demo.tripAt = none ∧
    ({ demo with tripAt := some 3 } : State).tripAt ≠ none ∧ ({ demo with powered := false } : State).powered = false :=
  ⟨by decide, rfl, by decide, ⟨rfl, by decide, ⟨1, rfl⟩, by decide⟩, ⟨rfl, by decide, ⟨10, rfl⟩⟩, rfl, by decide, rfl⟩

theorem witness_link (st : LinkState) : ∃ s : State, linkIs s ⟨3, st, 5, [⟨4, 0, 0, [], 0, 1, 0, 0⟩], false⟩ ∧ s.slip = [] ∧ s.links.length = 1 :=
  ⟨{ demo with links := [⟨3, st, 5, [⟨4, 0, 0, [], 0, 1, 0, 0⟩], false⟩] }, ⟨by simp, fun _ h _ => List.mem_singleton.1 h⟩, rfl, rfl⟩

theorem witness_scrub : 5 ∈ ({ demo with eccSoft := [5] } : State).eccSoft ∧ 5 ∉ demo.eccSoft ∧ demo.frozen = false := by decide

/-! ## Witnesses: steps (O56, O59, O60) -/

/-- A word placed for the next step, in the state after its turn has begun. -/
def placed (x : Nat) : State := State.reset.withFetchWord 32 x
def turned (x : Nat) : State := { placed x with agenda := [] }
theorem placed_later (x : Nat) : later (placed x) 0 [] (turned x) := rfl

theorem placed_issues (t : State) (h : t.powered = true ∧ t.frozen = false ∧ t.waves = [wv] ∧ t.ctxs = demo.ctxs ∧ t.tick = 0 ∧ t.offered wv = some sb) : issues t 3 wv sb := by
  obtain ⟨h1, h2, h3, h4, h5, h6⟩ := h
  refine ⟨h1, h2, ?_, rfl, by rw [h5]; decide, fun since k => ?_, ?_, fun x hx _ hn => ?_, h6, ?_⟩
  · rw [State.wave?, h3]; rfl
  · rw [State.ctx, h4] at k
    exact absurd (k : Preempt.none = _) (fun h => by cases h)
  · rw [h3, h5]; decide
  · rw [h3] at hx
    rw [List.mem_singleton.1 hx] at hn
    exact absurd rfl hn
  · intro p hp _
    exact List.mem_singleton.1 hp

/-- A wave of a lower slot, one of a greater age, and one that has been ready for 256 clk claim a port first. -/
theorem witness_earlier : earlier demo wv { wv with slot := 5 } ∧ earlier demo wv { wv with lastIssue := 7 } ∧
    earlier { demo with tick := 256 } { wv with lastIssue := 200 } { wv with readySince := some 100 } := by
  exact ⟨.inr ⟨rfl, .inr ⟨rfl, by decide⟩⟩, .inr ⟨rfl, .inl (by decide)⟩, .inl (by decide)⟩

/-- A clk of a module that runs, of one that stops at its end, and of one without power. -/
theorem witness_clk : ¬Claims.sampling demo ∧ demo.powered = true ∧ demo.frozen = false ∧ ¬((demo.func 64).dctl.getLsbD 3 = true) ∧
    (∀ c ∈ demo.ctxs, c.sessions = []) ∧ (demo.tick + 1) % 1024 ≠ 0 ∧ ({ demo with powered := false } : State).powered = false := by
  refine ⟨?_, rfl, rfl, by decide, by decide, by decide, rfl⟩
  rintro ⟨f, hf, _⟩
  simp [demo, State.boot, State.reset] at hf

/-- The three cases of a turn: an instruction (`nop`, and a move between units that this wave may make), a word that is none, and a
word of a page that is not mapped. -/
theorem witness_issue (x : W32) (hx : x = 0 ∨ x = 0x00000001 ∨ x = 0x30083004) : (placed x.toNat).agenda = [.issue 0 3] ∧ later (placed x.toNat) 0 [] (turned x.toNat) ∧
    issues (turned x.toNat) 3 wv sb ∧ wordAt (turned x.toNat) wv sb.pc x := by
  rcases hx with rfl | rfl | rfl <;>
    refine ⟨by decide +kernel, placed_later _, placed_issues _
      ⟨by decide +kernel, by decide +kernel, by decide +kernel, by decide +kernel, by decide +kernel, by decide +kernel⟩, by decide +kernel, by decide +kernel, 0x40000000, ⟨true, true, false, 0x40000000⟩, ?_, ?_⟩ <;>
    decide +kernel

theorem witness_event : (decode 0 = some .nop ∧ decode 1 = none ∧ decode 0x30083004 = some (.saddi 2 3 4)) ∧ unheld demo wv sb .nop ∧ (Instr.powerGood).isWord = false ∧ stillHappens demo .freeze ∧
    ¬stillHappens { demo with powered := false } .freeze ∧ stillHappens { demo with powered := false } .powerGood ∧ Instr.nop.isWord = true ∧ demo.agenda = [] := by
  refine ⟨by decide, ⟨by decide, by decide⟩, rfl, trivial, ?_, ?_, rfl, rfl⟩
  · unfold stillHappens
    exact fun h => by rcases h with h | h <;> cases h
  · unfold stillHappens
    exact .inl rfl

/-- A register that the wave reads is owed by a load, and the instruction that reads it is held back. -/
theorem witness_held : (flying [{ storing (.load false false) false with sdst := some 3 }]).instrReady wv (.saddi 2 3 4) = false := by decide
theorem witness_outside (x : W32) : ¬wordAt demo wv 0 x := fun h => absurd h.1 (by decide)
theorem witness_memories : State.reset.memoriesOk ∧ Instr.nop.isWord = true ∧ Instr.nop.wellFormed = true := by unfold State.memoriesOk; decide

end Sys2Proof.Tests
end

/-! The step keeps the byte memories canonical. An instruction or event keeps them by `exec_ok`; what is left is what a step puts around
it: the fetch of an issue, the passing of clks, and the choice of the next event among `State.chances`. -/

namespace Sys2Proof.Machine

/-! ## Turns of the agenda -/

/-- What is done to the next state alone keeps the form where it keeps it of every state. -/
theorem onNext_ok {o : Out} {f : State → State} (ho : Out.memoriesOk o) (hf : ∀ t, t.memoriesOk → (f t).memoriesOk) :
    Out.memoriesOk (onNext o f) := by
  cases o with
  | next t => exact hf t ho
  | fault e => trivial
  | refused r => trivial

theorem State.runInstr_ok (s : State) (w : Wave) (i : Instr) (hs : s.memoriesOk) : Out.memoriesOk (s.runInstr w i) :=
  onNext_ok (exec_ok i s hs) fun t ht => State.issued_ok _ _ _ (State.watched_ok s t _ hs ht)

/-- The head wave's turn: a fetch that fails, a word that names no instruction, one that is held back, one that reads a register with
an error, and one that runs. -/
theorem State.issueHead_ok (s : State) (hs : s.memoriesOk) : Out.memoriesOk s.issueHead := by
  unfold State.issueHead
  split
  · exact hs
  next w _ _ =>
    split
    · exact hs
    next q _ _ =>
      have hf := State.fetchFill_ok s (dieOf w.core) (s.ctx w.ctx) q.pc hs
      dsimp only
      split
      · exact execCodeFetchFault_ok _ _ hf
      · split
        · exact execIllegalInstruction_ok _ _ hf
        · split
          · exact hf
          · split
            · exact State.raise_ok _ _ _ _ _ hf
            · exact State.runInstr_ok _ _ _ hf

theorem State.turnIssue_ok (s : State) (wid : Nat) (hs : s.memoriesOk) : Out.memoriesOk (s.turnIssue wid) := by
  unfold State.turnIssue
  split
  · exact hs
  · split
    · exact hs
    · split
      · exact hs
      · split
        · exact hs
        · exact State.issueHead_ok _ (State.bring_ok _ _ _ hs)

theorem State.turnEvent_ok (s : State) (i : Instr) (hs : s.memoriesOk) : Out.memoriesOk (s.turnEvent i) := by
  unfold State.turnEvent
  split
  · exact onNext_ok (exec_ok i s hs) fun t ht => State.watched_ok s t _ hs ht
  · exact hs

/-! ## The events that may happen of themselves -/

/-- A meaning that keeps the canonical form of the memories. -/
def KeepsMemories (f : State → Out) : Prop := ∀ s : State, s.memoriesOk → Out.memoriesOk (f s)

/-- Every event of a list keeps the canonical form of the memories. -/
def ChancesKeep (l : List Chance) : Prop := ∀ x ∈ l, KeepsMemories x.2

@[simp] theorem chancesKeep_nil : ChancesKeep [] := List.forall_mem_nil _

@[simp] theorem chancesKeep_cons (x : Chance) (l : List Chance) : ChancesKeep (x :: l) ↔ KeepsMemories x.2 ∧ ChancesKeep l :=
  List.forall_mem_cons

@[simp] theorem chancesKeep_append (l l' : List Chance) : ChancesKeep (l ++ l') ↔ ChancesKeep l ∧ ChancesKeep l' :=
  List.forall_mem_append

@[simp] theorem chancesKeep_flatMap {α : Type} (l : List α) (f : α → List Chance) :
    ChancesKeep (l.flatMap f) ↔ ∀ a ∈ l, ChancesKeep (f a) :=
  List.forall_mem_flatMap

@[simp] theorem chancesKeep_map {α : Type} (l : List α) (f : α → Chance) :
    ChancesKeep (l.map f) ↔ ∀ a ∈ l, KeepsMemories (f a).2 :=
  List.forall_mem_map

@[simp] theorem chancesKeep_plainly (l : List (State → Out)) : ChancesKeep (plainly l) ↔ ∀ f ∈ l, KeepsMemories f :=
  chancesKeep_map ..

@[simp] theorem chancesKeep_accessing (l : List (State → Out)) : ChancesKeep (accessing l) ↔ ∀ f ∈ l, KeepsMemories f :=
  chancesKeep_map ..

/-- An event that is listed only where its condition holds. -/
theorem keepsMemories_of_due {c : Prop} [Decidable c] {f : State → Out} (hf : KeepsMemories f) :
    ∀ g ∈ (if c then [f] else []), KeepsMemories g := by
  split
  · exact List.forall_mem_singleton.2 hf
  · exact List.forall_mem_nil _

/-! Each list is taken apart into its events, and each event keeps the memories by its own lemma (`execBarrierArrivalApply_ok` and so on,
of the default simp set). -/

theorem Access.chances_keep (a : Access) : ChancesKeep a.chances := by
  simp only [Access.chances, chancesKeep_append, chancesKeep_flatMap, chancesKeep_plainly, chancesKeep_accessing, List.forall_mem_cons]
  simp +contextual [KeepsMemories]

theorem State.engineChances_keep (s : State) : ChancesKeep s.engineChances := by
  simp only [State.engineChances, chancesKeep_nil, chancesKeep_cons, chancesKeep_append, chancesKeep_flatMap, chancesKeep_map,
    chancesKeep_plainly, chancesKeep_accessing, List.forall_mem_cons]
  simp +contextual [KeepsMemories]

theorem State.taskChances_keep (s : State) : ChancesKeep s.taskChances := by
  simp only [State.taskChances, chancesKeep_plainly, List.forall_mem_append, List.forall_mem_flatMap,
    List.forall_mem_map, List.forall_mem_cons]
  simp +contextual [KeepsMemories]

/-- A timer that has run out brings about its own event; one that has not, or that does not run, brings about none. -/
theorem State.timerChances_keep (s : State) : ChancesKeep s.timerChances := by
  simp only [State.timerChances, chancesKeep_plainly, List.forall_mem_append, List.forall_mem_flatMap]
  refine ⟨⟨fun c _ => ?_, fun l _ => ?_⟩, ?_⟩
  · cases c.pre with
    | soft t => exact keepsMemories_of_due (execGraceTimerExpiry_ok c.id)
    | halting t => exact keepsMemories_of_due (execKillTimerExpiry_ok c.id)
    | none => exact List.forall_mem_nil _
  · cases l.st with
    | retraining t => exact keepsMemories_of_due (execRetrainFailure_ok l.num)
    | _ => exact List.forall_mem_nil _
  · cases s.tripAt with
    | some t => exact keepsMemories_of_due execTripPowerOff_ok
    | none => exact List.forall_mem_nil _

theorem State.otherChances_keep (s : State) : ChancesKeep s.otherChances := by
  simp only [State.otherChances, chancesKeep_nil, chancesKeep_cons, chancesKeep_append, chancesKeep_flatMap,
    chancesKeep_plainly, List.forall_mem_append, List.forall_mem_flatMap, List.forall_mem_map, List.forall_mem_cons]
  simp +contextual [KeepsMemories]

theorem State.chances_keep (s : State) : ChancesKeep s.chances := by
  simp only [State.chances, chancesKeep_append, chancesKeep_flatMap, chancesKeep_plainly, List.forall_mem_append,
    List.forall_mem_flatMap, List.forall_mem_cons, and_assoc]
  refine ⟨?_, ?_, s.timerChances_keep, fun a _ => a.chances_keep, s.engineChances_keep, s.taskChances_keep, s.otherChances_keep⟩
  · exact keepsMemories_of_due execPowerGood_ok
  · simp +contextual [KeepsMemories]

/-! ## The turn of an empty agenda -/

theorem State.firstEvent_ok {s t : State} (hs : s.memoriesOk) {l : List Chance} (hl : ChancesKeep l) (h : s.firstEvent l = some t) :
    t.memoriesOk := by
  induction l with
  | nil => cases h
  | cons x l ih =>
    obtain ⟨hx, hl⟩ := (chancesKeep_cons x l).1 hl
    have hx := hx s hs
    unfold State.firstEvent at h
    split at h
    next u hu =>
      rw [hu] at hx
      split at h
      · exact ih hl h
      · cases h
        exact State.watched_ok _ _ _ hs hx
    · exact ih hl h

theorem State.issueAll_ok (l : List Wave) (s : State) (hs : s.memoriesOk) : (State.issueAll l s).memoriesOk := by
  induction l generalizing s with
  | nil => exact hs
  | cons w l ih =>
    have hw := State.turnIssue_ok s w.id hs
    unfold State.issueAll
    split
    next t ht =>
      rw [ht] at hw
      exact ih t hw
    · exact ih s hs

theorem State.turnAlone_ok (s : State) (hs : s.memoriesOk) : s.turnAlone.memoriesOk := by
  unfold State.turnAlone
  split
  · exact hs
  · split
    next t ht => exact State.firstEvent_ok hs s.chances_keep ht
    · exact State.issueAll_ok _ _ (State.pass_ok s 1 hs)

/-! ## The step -/

/-- A step: the agenda's next turn after its clks, or the module's own. -/
theorem step_ok (s : State) (hs : s.memoriesOk) : Out.memoriesOk (step s) := by
  unfold step
  split
  next n w l _ => exact State.turnIssue_ok _ _ (State.pass_ok _ n (memoriesOk_of hs rfl rfl rfl))
  next n i l _ => exact State.turnEvent_ok _ _ (State.pass_ok _ n (memoriesOk_of hs rfl rfl rfl))
  · exact State.turnAlone_ok s hs

/-- Settles O60: a step answers a state with canonical memories (`step_ok`), whatever turn its agenda gives. -/
theorem everyStepKeepsTheMemoriesCanonical : Obligations.EveryStepKeepsTheMemoriesCanonical := by
  unfold Obligations.EveryStepKeepsTheMemoriesCanonical
  intro s t hs h
  have ht := step_ok s hs
  rwa [h] at ht

end Sys2Proof.Machine
